-- ==== Sys2Proof/Word.lean ====
section
/-! DEFINITION. The word types of the AK-4 and their plainest readings: 64-bit scalars, 56-bit
virtual addresses, 32-bit plane elements (R5, R15, R62, R63). -/

namespace Sys2Proof

/-- A scalar register or memory doubleword (R62). -/
abbrev Word := BitVec 64

/-- A plane element (R63). -/
abbrev Elem := BitVec 32

/-- One byte of memory. -/
abbrev Byte := BitVec 8

/-- A 64-bit syllable (R52). -/
abbrev Syll := BitVec 64

/-- The literal data bits 59..0 of a literal syllable (R54). -/
abbrev Lit := BitVec 60

end Sys2Proof
end

