-- ==== Sys2Proof/Syntax.lean ====
section
/-! DEFINITION. Abstract syntax: the operand formats of R155 to R160, the micro-word of R275, the
parameters of the device, control-complex and timed events, and the one inductive `Instr` with a
constructor for every row of spec/opcode_table.json. -/

namespace Sys2Proof

/-- Scalar register format SR (R155). -/
structure FmtSR where
  sd : BitVec 6 := 0
  sa : BitVec 6 := 0
  sb : BitVec 6 := 0
  sc : BitVec 6 := 0
  deriving DecidableEq, Repr, Inhabited

/-- Scalar field format SF (R155). -/
structure FmtSF where
  sd : BitVec 6 := 0
  sa : BitVec 6 := 0
  sb : BitVec 6 := 0
  pos : BitVec 6 := 0
  len : BitVec 6 := 0
  deriving DecidableEq, Repr, Inhabited

/-- Scalar immediate format SI (R155). -/
structure FmtSI where
  sd : BitVec 6 := 0
  sa : BitVec 6 := 0
  imm : BitVec 28 := 0
  deriving DecidableEq, Repr, Inhabited

/-- Scalar word format SW (R155). -/
structure FmtSW where
  sd : BitVec 6 := 0
  imm : BitVec 32 := 0
  deriving DecidableEq, Repr, Inhabited

/-- Compare-branch format BC (R155); `disp` counts syllables. -/
structure FmtBC where
  bf : BitVec 2 := 0
  sa : BitVec 6 := 0
  sb : BitVec 6 := 0
  disp : BitVec 26 := 0
  deriving DecidableEq, Repr, Inhabited

/-- Branch-against-immediate format BK (R155). -/
structure FmtBK where
  bf : BitVec 2 := 0
  sa : BitVec 6 := 0
  imm : BitVec 6 := 0
  disp : BitVec 26 := 0
  deriving DecidableEq, Repr, Inhabited

/-- Bit-test branch format BT (R155). -/
structure FmtBT where
  bf : BitVec 2 := 0
  sa : BitVec 6 := 0
  bn : BitVec 6 := 0
  bs : BitVec 1 := 0
  disp : BitVec 25 := 0
  deriving DecidableEq, Repr, Inhabited

/-- Link format BL (R155). -/
structure FmtBL where
  bf : BitVec 2 := 0
  sd : BitVec 6 := 0
  sa : BitVec 6 := 0
  disp : BitVec 26 := 0
  deriving DecidableEq, Repr, Inhabited

/-- Handle access format LH (R156). -/
structure FmtLH where
  sd : BitVec 6 := 0
  hd : BitVec 4 := 0
  sa : BitVec 6 := 0
  imm : BitVec 24 := 0
  deriving DecidableEq, Repr, Inhabited

/-- Scratchpad access format LS (R156). -/
structure FmtLS where
  sd : BitVec 6 := 0
  sa : BitVec 6 := 0
  imm : BitVec 24 := 0
  deriving DecidableEq, Repr, Inhabited

/-- Parameter-window format LP (R156). -/
structure FmtLP where
  sd : BitVec 6 := 0
  pw : BitVec 3 := 0
  sa : BitVec 6 := 0
  imm : BitVec 16 := 0
  deriving DecidableEq, Repr, Inhabited

/-- Atomic format LA (R156). -/
structure FmtLA where
  sd : BitVec 6 := 0
  hd : BitVec 4 := 0
  sa : BitVec 6 := 0
  sb : BitVec 6 := 0
  sc : BitVec 6 := 0
  imm : BitVec 5 := 0
  sp : BitVec 1 := 0
  sz : BitVec 1 := 0
  ord : BitVec 5 := 0
  deriving DecidableEq, Repr, Inhabited

/-- Translation format LX (R156). -/
structure FmtLX where
  hd : BitVec 4 := 0
  sa : BitVec 6 := 0
  rq : BitVec 3 := 0
  deriving DecidableEq, Repr, Inhabited

/-- Transfer format XF (R157). -/
structure FmtXF where
  sd : BitVec 6 := 0
  sa : BitVec 6 := 0
  pl : BitVec 11 := 0
  xl : BitVec 1 := 0
  ei : BitVec 5 := 0
  ft : BitVec 4 := 0
  deriving DecidableEq, Repr, Inhabited

/-- Vector format V3 (R158); `xd`, `xa`, `xb` are the extension bits of R151. -/
structure FmtV3 where
  pd : BitVec 11 := 0
  pa : BitVec 11 := 0
  pb : BitVec 11 := 0
  ty : BitVec 2 := 0
  ms : BitVec 1 := 0
  xd : BitVec 1 := 0
  xa : BitVec 1 := 0
  xb : BitVec 1 := 0
  deriving DecidableEq, Repr, Inhabited

/-- Vector format VU (R158). -/
structure FmtVU where
  pd : BitVec 11 := 0
  pa : BitVec 11 := 0
  pm : BitVec 3 := 0
  rm : BitVec 3 := 0
  df : BitVec 4 := 0
  sl : BitVec 5 := 0
  xd : BitVec 1 := 0
  xa : BitVec 1 := 0
  deriving DecidableEq, Repr, Inhabited

/-- Scratchpad vector format GS (R159). -/
structure FmtGS where
  pl : BitVec 11 := 0
  xl : BitVec 1 := 0
  pm : BitVec 3 := 0
  sa : BitVec 6 := 0
  pi : BitVec 11 := 0
  xi : BitVec 1 := 0
  ft : BitVec 4 := 0
  deriving DecidableEq, Repr, Inhabited

/-- Tile vector format GA (R159). -/
structure FmtGA where
  pl : BitVec 11 := 0
  xl : BitVec 1 := 0
  th : BitVec 5 := 0
  row : BitVec 5 := 0
  qw : BitVec 2 := 0
  ft : BitVec 4 := 0
  deriving DecidableEq, Repr, Inhabited

/-- Handle vector format GH (R159). -/
structure FmtGH where
  pl : BitVec 11 := 0
  xl : BitVec 1 := 0
  hd : BitVec 4 := 0
  sa : BitVec 6 := 0
  pi : BitVec 11 := 0
  xi : BitVec 1 := 0
  ft : BitVec 4 := 0
  pml : BitVec 2 := 0
  deriving DecidableEq, Repr, Inhabited

/-- Engine format EA (R160). -/
structure FmtEA where
  sd : BitVec 6 := 0
  sa : BitVec 6 := 0
  sb : BitVec 6 := 0
  sc : BitVec 6 := 0
  ord : BitVec 5 := 0
  imm : BitVec 11 := 0
  deriving DecidableEq, Repr, Inhabited

/-- Engine tile format ET (R160). -/
structure FmtET where
  td : BitVec 5 := 0
  ta : BitVec 5 := 0
  tb : BitVec 5 := 0
  fmt : BitVec 5 := 0
  sa : BitVec 6 := 0
  ord : BitVec 5 := 0
  imm : BitVec 9 := 0
  deriving DecidableEq, Repr, Inhabited

/-- Engine command format EC (R160). -/
structure FmtEC where
  sa : BitVec 6 := 0
  sb : BitVec 6 := 0
  sc : BitVec 6 := 0
  th : BitVec 5 := 0
  ord : BitVec 5 := 0
  imm : BitVec 12 := 0
  deriving DecidableEq, Repr, Inhabited

/-- Format ET with the literal syllable of MMA.X and MMAS.X (R161). -/
structure FmtETL where
  o : FmtET := {}
  lit : BitVec 60 := 0
  deriving DecidableEq, Repr, Inhabited

/-- Format EC with its literal syllable (R236, R247, R251). -/
structure FmtECL where
  o : FmtEC := {}
  lit : BitVec 60 := 0
  deriving DecidableEq, Repr, Inhabited

/-- A bindable opcode 96 + `opx` with its raw operand bits (R166). -/
structure FmtOB where
  opx : BitVec 5 := 0
  opd : BitVec 40 := 0
  deriving DecidableEq, Repr, Inhabited

/-- The fields of a micro-word other than SEQ (R275). -/
structure MicroFields where
  tgt : BitVec 14 := 0
  cnd : BitVec 6 := 0
  tf3 : BitVec 26 := 0
  tf2 : BitVec 26 := 0
  tf1 : BitVec 26 := 0
  tf0 : BitVec 26 := 0
  deriving DecidableEq, Repr, Inhabited

/-- A landing share of a partition: index, DRAM bytes, hot-row SRAM bytes (R358). -/
structure LandingShare where
  landing : Nat := 0
  dram : Nat := 0
  sram : Nat := 0
  deriving DecidableEq, Repr, Inhabited

/-- The resources a partition command names, by module index (R358). -/
structure Resources where
  clusters : List Nat := []
  slices : List Nat := []
  hbm : List (Nat × Nat) := []
  landings : List LandingShare := []
  engines : List Nat := []
  ports : List Nat := []
  routes : List Nat := []
  scaleOut : List Nat := []
  tenants : Nat := 1
  deriving DecidableEq, Repr, Inhabited

/-- What a control-complex write of the binding table does (R135). -/
inductive BindAct where
  | bind (w0 w1 : BitVec 64)
  | reset
  deriving DecidableEq, Repr, Inhabited

/-- The named part of a splintering (R100): entries `first` to `first + count - 1` of the splinter
table receive `entry`, whose BASE rises by one page of the smaller size per entry. -/
structure SplinterChange where
  part : Nat := 0
  va : BitVec 56 := 0
  table : Nat := 0
  first : Nat := 0
  count : Nat := 0
  entry : BitVec 64 := 0
  deriving DecidableEq, Repr, Inhabited

/-- Where a REGISTER_WRITE of an agent outside the cores goes (R7, R96, R369): a memory byte run of
one kind, the launch interface (R32), the ring size of the replayable lane (R381), the sensors of
R20 and R22, the time base, or the error-correcting code of an array (R406): a unit that turns uncorrectable or is sound
again, a correction that a die counts; or an arbiter that has let a tenant's request wait for the whole bandwidth window
(R416); or a staging slice in which the slot drain and the record write of a hand-over cannot be performed (R417). -/
inductive RegTarget where
  | mem (kind addr bytes : Nat)
  | launch (part queue : Nat)
  | ringSize
  | packagePower
  | tierPower
  | restPower
  | fatalBase
  | replayBase
  | junction (die : Nat)
  | timeBase
  | unitError (spc owner : Nat) (bad : Bool)
  | correction (die : Nat)
  | starved (part tenant resource : Nat)
  | bootFault
  | offAsked
  | slotFault (slice : Nat)
  deriving DecidableEq, Repr, Inhabited

/-- One unit of a write or atomic sent by another device (R147, R420): who sent it, its identity, the
local home, the bytes, and whether lanes are added rather than stored. -/
structure RemoteUnit where
  dev : Nat := 0
  unit : Nat := 0
  kind : Nat := 0
  addr : Nat := 0
  data : List (BitVec 8) := []
  add : Nat := 0
  deriving DecidableEq, Repr, Inhabited

/-- The instructions, micro-ops and events of the AK-4, one constructor per row of the opcode table. -/
inductive Instr where
  /-- ADD (R180). -/
  | add (o : FmtSR)
  /-- SUB (R180). -/
  | sub (o : FmtSR)
  /-- AND (R180). -/
  | andR (o : FmtSR)
  /-- OR (R180). -/
  | orR (o : FmtSR)
  /-- XOR (R180). -/
  | xorR (o : FmtSR)
  /-- ANDN (R180). -/
  | andn (o : FmtSR)
  /-- ORN (R180). -/
  | orn (o : FmtSR)
  /-- XNOR (R180). -/
  | xnor (o : FmtSR)
  /-- SLL (R180). -/
  | sll (o : FmtSR)
  /-- SRL (R180). -/
  | srl (o : FmtSR)
  /-- SRA (R180). -/
  | sra (o : FmtSR)
  /-- ROL (R180). -/
  | rol (o : FmtSR)
  /-- ROR (R180). -/
  | ror (o : FmtSR)
  /-- SLT (R180). -/
  | slt (o : FmtSR)
  /-- SLTU (R180). -/
  | sltu (o : FmtSR)
  /-- SEQ (R180). -/
  | seq (o : FmtSR)
  /-- SNE (R180). -/
  | sne (o : FmtSR)
  /-- MIN (R180). -/
  | min (o : FmtSR)
  /-- MAX (R180). -/
  | max (o : FmtSR)
  /-- MINU (R180). -/
  | minu (o : FmtSR)
  /-- MAXU (R180). -/
  | maxu (o : FmtSR)
  /-- SEL (R180). -/
  | sel (o : FmtSR)
  /-- MUL (R180). -/
  | mul (o : FmtSR)
  /-- MULH (R180). -/
  | mulh (o : FmtSR)
  /-- MULHU (R180). -/
  | mulhu (o : FmtSR)
  /-- DIV (R181). -/
  | divS (o : FmtSR)
  /-- DIVU (R181). -/
  | divu (o : FmtSR)
  /-- REM (R181). -/
  | remS (o : FmtSR)
  /-- REMU (R181). -/
  | remu (o : FmtSR)
  /-- ADDW (R180). -/
  | addw (o : FmtSR)
  /-- SUBW (R180). -/
  | subw (o : FmtSR)
  /-- MULW (R180). -/
  | mulw (o : FmtSR)
  /-- CLZ (R180). -/
  | clz (o : FmtSR)
  /-- CTZ (R180). -/
  | ctz (o : FmtSR)
  /-- POPC (R180). -/
  | popc (o : FmtSR)
  /-- BREV (R180). -/
  | brev (o : FmtSR)
  /-- BSWAP (R180). -/
  | bswap (o : FmtSR)
  /-- ABS (R180). -/
  | absR (o : FmtSR)
  /-- EXT (R182). -/
  | ext (o : FmtSF)
  /-- EXTU (R182). -/
  | extu (o : FmtSF)
  /-- INS (R182). -/
  | ins (o : FmtSF)
  /-- ADDI (R183). -/
  | addi (o : FmtSI)
  /-- ANDI (R183). -/
  | andi (o : FmtSI)
  /-- ORI (R183). -/
  | ori (o : FmtSI)
  /-- XORI (R183). -/
  | xori (o : FmtSI)
  /-- SLLI (R183). -/
  | slli (o : FmtSI)
  /-- SRLI (R183). -/
  | srli (o : FmtSI)
  /-- SRAI (R183). -/
  | srai (o : FmtSI)
  /-- SLTI (R183). -/
  | slti (o : FmtSI)
  /-- SLTUI (R183). -/
  | sltui (o : FmtSI)
  /-- ADDPC (R183). -/
  | addpc (o : FmtSI)
  /-- LI (R184). -/
  | li (o : FmtSW)
  /-- LIH (R184). -/
  | lih (o : FmtSW)
  /-- BEQ (R186). -/
  | beq (o : FmtBC)
  /-- BNE (R186). -/
  | bne (o : FmtBC)
  /-- BLT (R186). -/
  | blt (o : FmtBC)
  /-- BGE (R186). -/
  | bge (o : FmtBC)
  /-- BLTU (R186). -/
  | bltu (o : FmtBC)
  /-- BGEU (R186). -/
  | bgeu (o : FmtBC)
  /-- BEQI (R186). -/
  | beqi (o : FmtBK)
  /-- BNEI (R186). -/
  | bnei (o : FmtBK)
  /-- BLTI (R186). -/
  | blti (o : FmtBK)
  /-- BGEI (R186). -/
  | bgei (o : FmtBK)
  /-- BT (R187). -/
  | btR (o : FmtBT)
  /-- BSW (R187). -/
  | bsw (o : FmtBT)
  /-- BDNZ (R188). -/
  | bdnz (o : FmtBC)
  /-- JL (R189). -/
  | jl (o : FmtBL)
  /-- JLX (R189). -/
  | jlx (o : FmtBL)
  /-- LD_B (R191). -/
  | ldB (o : FmtLH)
  /-- LD_BU (R191). -/
  | ldBu (o : FmtLH)
  /-- LD_H (R191). -/
  | ldH (o : FmtLH)
  /-- LD_HU (R191). -/
  | ldHu (o : FmtLH)
  /-- LD_W (R191). -/
  | ldW (o : FmtLH)
  /-- LD_WU (R191). -/
  | ldWu (o : FmtLH)
  /-- LD_D (R191). -/
  | ldD (o : FmtLH)
  /-- ST_B (R191). -/
  | stB (o : FmtLH)
  /-- ST_H (R191). -/
  | stH (o : FmtLH)
  /-- ST_W (R191). -/
  | stW (o : FmtLH)
  /-- ST_D (R191). -/
  | stD (o : FmtLH)
  /-- LDS_B (R192). -/
  | ldsB (o : FmtLS)
  /-- LDS_BU (R192). -/
  | ldsBu (o : FmtLS)
  /-- LDS_H (R192). -/
  | ldsH (o : FmtLS)
  /-- LDS_HU (R192). -/
  | ldsHu (o : FmtLS)
  /-- LDS_W (R192). -/
  | ldsW (o : FmtLS)
  /-- LDS_WU (R192). -/
  | ldsWu (o : FmtLS)
  /-- LDS_D (R192). -/
  | ldsD (o : FmtLS)
  /-- STS_B (R192). -/
  | stsB (o : FmtLS)
  /-- STS_H (R192). -/
  | stsH (o : FmtLS)
  /-- STS_W (R192). -/
  | stsW (o : FmtLS)
  /-- STS_D (R192). -/
  | stsD (o : FmtLS)
  /-- AADD (R195). -/
  | aadd (o : FmtLA)
  /-- AMIN (R195). -/
  | amin (o : FmtLA)
  /-- AMAX (R195). -/
  | amax (o : FmtLA)
  /-- AMINU (R195). -/
  | aminu (o : FmtLA)
  /-- AMAXU (R195). -/
  | amaxu (o : FmtLA)
  /-- AAND (R195). -/
  | aand (o : FmtLA)
  /-- AOR (R195). -/
  | aor (o : FmtLA)
  /-- AXOR (R195). -/
  | axor (o : FmtLA)
  /-- ASWP (R195). -/
  | aswp (o : FmtLA)
  /-- ACAS (R195). -/
  | acas (o : FmtLA)
  /-- AFADD (R196). -/
  | afadd (o : FmtLA)
  /-- ABADD (R196). -/
  | abadd (o : FmtLA)
  /-- XLATE (R198). -/
  | xlate (o : FmtLX)
  /-- HANDLE_WALK_COMPLETE (R102). -/
  | handleWalkComplete (strand : Nat)
  /-- HREL (R199). -/
  | hrel (o : FmtLX)
  /-- LDP_W (R193). -/
  | ldpW (o : FmtLP)
  /-- LDP_D (R193). -/
  | ldpD (o : FmtLP)
  /-- XGET (R201). -/
  | xget (o : FmtXF)
  /-- XGETD (R201). -/
  | xgetd (o : FmtXF)
  /-- XPUT (R201). -/
  | xput (o : FmtXF)
  /-- XPUTD (R201). -/
  | xputd (o : FmtXF)
  /-- XBCST (R201). -/
  | xbcst (o : FmtXF)
  /-- XXCH (R201). -/
  | xxch (o : FmtXF)
  /-- VADD (R208). -/
  | vadd (o : FmtV3)
  /-- VSUB (R208). -/
  | vsub (o : FmtV3)
  /-- VMUL (R208). -/
  | vmul (o : FmtV3)
  /-- VFMA (R208). -/
  | vfma (o : FmtV3)
  /-- VFMS (R208). -/
  | vfms (o : FmtV3)
  /-- VFNMA (R208). -/
  | vfnma (o : FmtV3)
  /-- VDIV (R208). -/
  | vdiv (o : FmtV3)
  /-- VSQRT (R208). -/
  | vsqrt (o : FmtV3)
  /-- VMIN (R209). -/
  | vmin (o : FmtV3)
  /-- VMAX (R209). -/
  | vmax (o : FmtV3)
  /-- VABS (R209). -/
  | vabs (o : FmtV3)
  /-- VNEG (R209). -/
  | vneg (o : FmtV3)
  /-- VCEQ (R210). -/
  | vceq (o : FmtV3)
  /-- VCLT (R210). -/
  | vclt (o : FmtV3)
  /-- VCLE (R210). -/
  | vcle (o : FmtV3)
  /-- VCUN (R210). -/
  | vcun (o : FmtV3)
  /-- VIADD (R212). -/
  | viadd (o : FmtV3)
  /-- VISUB (R212). -/
  | visub (o : FmtV3)
  /-- VIMUL (R212). -/
  | vimul (o : FmtV3)
  /-- VIMULH (R212). -/
  | vimulh (o : FmtV3)
  /-- VIMIN (R212). -/
  | vimin (o : FmtV3)
  /-- VIMAX (R212). -/
  | vimax (o : FmtV3)
  /-- VIABS (R212). -/
  | viabs (o : FmtV3)
  /-- VSHL (R212). -/
  | vshl (o : FmtV3)
  /-- VSHR (R212). -/
  | vshr (o : FmtV3)
  /-- VICEQ (R212). -/
  | viceq (o : FmtV3)
  /-- VICLT (R212). -/
  | viclt (o : FmtV3)
  /-- VICLE (R212). -/
  | vicle (o : FmtV3)
  /-- VAND (R214). -/
  | vand (o : FmtV3)
  /-- VOR (R214). -/
  | vor (o : FmtV3)
  /-- VXOR (R214). -/
  | vxor (o : FmtV3)
  /-- VANDN (R214). -/
  | vandn (o : FmtV3)
  /-- VSEL (R211). -/
  | vsel (o : FmtV3)
  /-- VMOV (R214). -/
  | vmov (o : FmtV3)
  /-- VPERM (R214). -/
  | vperm (o : FmtV3)
  /-- VROT (R215). -/
  | vrot (o : FmtVU)
  /-- VBCST (R215). -/
  | vbcst (o : FmtVU)
  /-- VCVT_F32 (R216). -/
  | vcvtF32 (o : FmtVU)
  /-- VCVT_BF16 (R216). -/
  | vcvtBf16 (o : FmtVU)
  /-- VCVT_FP16 (R216). -/
  | vcvtFp16 (o : FmtVU)
  /-- VCVT_E4M3 (R218). -/
  | vcvtE4m3 (o : FmtVU)
  /-- VCVT_E5M2 (R218). -/
  | vcvtE5m2 (o : FmtVU)
  /-- VCVT_E2M1 (R218). -/
  | vcvtE2m1 (o : FmtVU)
  /-- VCVT_VQ2 (R219). -/
  | vcvtVq2 (o : FmtVU)
  /-- VCVT_I32 (R216). -/
  | vcvtI32 (o : FmtVU)
  /-- VCVT_I16 (R216). -/
  | vcvtI16 (o : FmtVU)
  /-- VCVT_I8 (R216). -/
  | vcvtI8 (o : FmtVU)
  /-- VCVT_I4 (R216). -/
  | vcvtI4 (o : FmtVU)
  /-- VCVT_N32 (R216). -/
  | vcvtN32 (o : FmtVU)
  /-- VCVT_N16 (R216). -/
  | vcvtN16 (o : FmtVU)
  /-- VCVT_N8 (R216). -/
  | vcvtN8 (o : FmtVU)
  /-- VRSUM (R221). -/
  | vrsum (o : FmtVU)
  /-- VRMIN (R221). -/
  | vrmin (o : FmtVU)
  /-- VRMAX (R221). -/
  | vrmax (o : FmtVU)
  /-- VRISUM (R221). -/
  | vrisum (o : FmtVU)
  /-- VSCAN (R222). -/
  | vscan (o : FmtVU)
  /-- VISCAN (R222). -/
  | viscan (o : FmtVU)
  /-- VNZS (R223). -/
  | vnzs (o : FmtVU)
  /-- VNZC (R223). -/
  | vnzc (o : FmtVU)
  /-- VBOP (R166). -/
  | vbop (o : FmtOB)
  /-- VLD (R227). -/
  | vld (o : FmtGS)
  /-- VST (R227). -/
  | vst (o : FmtGS)
  /-- VGATH (R227). -/
  | vgath (o : FmtGS)
  /-- VSCAT (R226). -/
  | vscat (o : FmtGS)
  /-- VLDA (R229). -/
  | vlda (o : FmtGA)
  /-- VSTA (R229). -/
  | vsta (o : FmtGA)
  /-- VLDC (R229). -/
  | vldc (o : FmtGA)
  /-- VLDH (R230). -/
  | vldh (o : FmtGH)
  /-- VSTH (R230). -/
  | vsth (o : FmtGH)
  /-- VGATHH (R230). -/
  | vgathh (o : FmtGH)
  /-- VSCATH (R230). -/
  | vscath (o : FmtGH)
  /-- VLDH_PM4 (R230). -/
  | vldhPm4 (o : FmtGH)
  /-- VSTH_PM4 (R230). -/
  | vsthPm4 (o : FmtGH)
  /-- VGATHH_PM4 (R230). -/
  | vgathhPm4 (o : FmtGH)
  /-- VSCATH_PM4 (R230). -/
  | vscathPm4 (o : FmtGH)
  /-- RESULT_LANDING (R59). -/
  | resultLanding (strand : Nat)
  /-- LD_COMPLETION (R72). -/
  | ldCompletion (strand n : Nat) (lanes : BitVec 32)
  /-- ST_COMPLETION (R72). -/
  | stCompletion (strand n : Nat)
  /-- TALLOC (R237). -/
  | talloc (o : FmtET)
  /-- TFREE (R237). -/
  | tfree (o : FmtET)
  /-- TZERO (R237). -/
  | tzero (o : FmtET)
  /-- TSTAT (R237). -/
  | tstat (o : FmtET)
  /-- TWAIT (R237). -/
  | twait (o : FmtET)
  /-- MLATCH (R242). -/
  | mlatch (o : FmtET)
  /-- MMA (R240). -/
  | mma (o : FmtET)
  /-- MMAS (R244). -/
  | mmas (o : FmtET)
  /-- MMA_X (R243). -/
  | mmaX (o : FmtETL)
  /-- MMAS_X (R243). -/
  | mmasX (o : FmtETL)
  /-- MATRIX_OPERATION_START (R241). -/
  | matrixOperationStart (cmd : Nat)
  /-- STREAM_FAULT (R400). -/
  | streamFault (cmd : Nat)
  /-- TROWP (R245). -/
  | trowp (o : FmtET)
  /-- TCVT (R246). -/
  | tcvt (o : FmtET)
  /-- TMOV (R246). -/
  | tmov (o : FmtET)
  /-- TXPOSE (R246). -/
  | txpose (o : FmtET)
  /-- TDRAIN (R248). -/
  | tdrain (o : FmtECL)
  /-- TDRAINK (R248). -/
  | tdraink (o : FmtECL)
  /-- TILE_COMMAND_COMPLETION (R232). -/
  | tileCommandCompletion (cmd : Nat)
  /-- CPY (R249). -/
  | cpy (o : FmtECL)
  /-- CPYM (R251). -/
  | cpym (o : FmtECL)
  /-- CPYI (R252). -/
  | cpyi (o : FmtECL)
  /-- CPYS_TO (R253). -/
  | cpysTo (o : FmtECL)
  /-- CPYS_FROM (R253). -/
  | cpysFrom (o : FmtECL)
  /-- CPYF (R251). -/
  | cpyf (o : FmtECL)
  /-- CPYG (R254). -/
  | cpyg (o : FmtECL)
  /-- CPYSC (R255). -/
  | cpysc (o : FmtECL)
  /-- CPYQ (R256). -/
  | cpyq (o : FmtEA)
  /-- SQGO (R257). -/
  | sqgo (o : FmtEA)
  /-- SQWAIT (R257). -/
  | sqwait (o : FmtEA)
  /-- SQWAIT_POLL (R257). -/
  | sqwaitPoll (cmd : Nat)
  /-- SQKILL (R257). -/
  | sqkill (o : FmtEA)
  /-- SQSTAT (R256). -/
  | sqstat (o : FmtEA)
  /-- COMMAND_START (R235). -/
  | commandStart (engine queue : Nat)
  /-- COPY_COMMAND_COMPLETION (R72). -/
  | copyCommandCompletion (cmd : Nat)
  /-- ENGINE_TRANSLATION_FAULT (R398). -/
  | engineTranslationFault (cmd : Nat)
  /-- SFPOOL (R258). -/
  | sfpool (o : FmtECL)
  /-- POOLING_COMPLETION (R354). -/
  | poolingCompletion (cmd : Nat)
  /-- SFPLAN (R350). -/
  | sfplan (o : FmtEA)
  /-- HOT_SEGMENT_LOAD (R349). -/
  | hotSegmentLoad (part table : Nat)
  /-- SFSTAT (R259). -/
  | sfstat (o : FmtEA)
  /-- ACQ (R136). -/
  | acq (o : FmtEA)
  /-- REL (R138). -/
  | rel (o : FmtEA)
  /-- FENCE (R141). -/
  | fence (o : FmtEA)
  /-- BAR (R262). -/
  | bar (o : FmtEA)
  /-- BARA (R262). -/
  | bara (o : FmtEA)
  /-- BARW (R262). -/
  | barw (o : FmtEA)
  /-- FRD (R45). -/
  | frd (o : FmtEA)
  /-- FFILL (R46). -/
  | ffill (o : FmtEA)
  /-- PWR (R264). -/
  | pwr (o : FmtEA)
  /-- PRD (R264). -/
  | prd (o : FmtEA)
  /-- WAIT (R72). -/
  | wait (o : FmtEA)
  /-- YIELD (R31). -/
  | yield (o : FmtEA)
  /-- END (R48). -/
  | endR (o : FmtEA)
  /-- STRAND_RETIREMENT (R48). -/
  | strandRetirement (strand : Nat)
  /-- BATCH_COMPLETION (R48). -/
  | batchCompletion (batch : Nat)
  /-- LAUNCH (R37). -/
  | launch (o : FmtEA)
  /-- TRAP (R270). -/
  | trap (o : FmtEA)
  /-- RETT (R271). -/
  | rett (o : FmtEA)
  /-- MFSR (R269). -/
  | mfsr (o : FmtEA)
  /-- MTSR (R269). -/
  | mtsr (o : FmtEA)
  /-- IFENCE (R268). -/
  | ifence (o : FmtEA)
  /-- RDCLK (R268). -/
  | rdclk (o : FmtEA)
  /-- RDID (R268). -/
  | rdid (o : FmtEA)
  /-- SETRM (R268). -/
  | setrm (o : FmtEA)
  /-- RDFF (R268). -/
  | rdff (o : FmtEA)
  /-- CLRFF (R268). -/
  | clrff (o : FmtEA)
  /-- BRK (R268). -/
  | brk (o : FmtEA)
  /-- PWSZ (R268). -/
  | pwsz (o : FmtEA)
  /-- BIND (R299). -/
  | bind (o : FmtEA)
  /-- UNBIND (R272). -/
  | unbind (o : FmtEA)
  /-- BINDQ (R272). -/
  | bindq (o : FmtEA)
  /-- CSLOAD (R301). -/
  | csload (o : FmtEA)
  /-- CONTROL_STORE_PAGE_LOADED (R301). -/
  | controlStorePageLoaded (core page : Nat)
  /-- CSINV (R302). -/
  | csinv (o : FmtEA)
  /-- CSFENCE (R272). -/
  | csfence (o : FmtEA)
  /-- NEXTBLK (R341). -/
  | nextblk (o : FmtEA)
  /-- IMPR (R338). -/
  | impr (o : FmtEA)
  /-- IMPW (R338). -/
  | impw (o : FmtEA)
  /-- IMPW_COMMIT (R339). -/
  | impwCommit (o : FmtEA)
  /-- GCLAIM (R342). -/
  | gclaim (o : FmtEA)
  /-- GDONE (R343). -/
  | gdone (o : FmtEA)
  /-- HANDOV (R344). -/
  | handov (o : FmtEA)
  /-- EBOP (R166). -/
  | ebop (o : FmtOB)
  /-- MICRO_NEXT (R278). -/
  | microNext (m : MicroFields)
  /-- JUMP (R278). -/
  | jump (m : MicroFields)
  /-- BRT (R278). -/
  | brt (m : MicroFields)
  /-- BRF (R278). -/
  | brf (m : MicroFields)
  /-- LOOP0 (R278). -/
  | loop0 (m : MicroFields)
  /-- LOOP1 (R278). -/
  | loop1 (m : MicroFields)
  /-- MICRO_CALL (R278). -/
  | microCall (m : MicroFields)
  /-- MICRO_RET (R278). -/
  | microRet (m : MicroFields)
  /-- MICRO_END (R293). -/
  | microEnd (m : MicroFields)
  /-- MICRO_TRAP (R278). -/
  | microTrap (m : MicroFields)
  /-- POLL (R308). -/
  | poll (m : MicroFields)
  /-- LANE_UNIT_LANDING (R286). -/
  | laneUnitLanding (strand : Nat)
  /-- COLLECTIVE_RECEIVE (R307). -/
  | collectiveReceive (die port : Nat) (data : List (BitVec 32))
  /-- INSTRUCTION_HALF_FILL (R89). -/
  | instructionHalfFill (strand half : Nat)
  /-- SCHEDULER_PLACEMENT (R318). -/
  | schedulerPlacement (part : Nat)
  /-- START_GATE_OPEN (R30). -/
  | startGateOpen (gang : Nat)
  /-- TOKEN_REFILL (R314). -/
  | tokenRefill (part : Nat)
  /-- CANDIDATE_OVERDUE (R317). -/
  | candidateOverdue (part queue : Nat)
  /-- PRIORITY_PREEMPTION (R321). -/
  | priorityPreemption (part : Nat)
  /-- PREEMPTION_REQUEST (R74). -/
  | preemptionRequest (gang : Nat)
  /-- GRACE_TIME_EXPIRY (R409). -/
  | graceTimeExpiry (gang : Nat)
  /-- KILL_TIME_EXPIRY (R411). -/
  | killTimeExpiry (gang : Nat)
  /-- REPLAYABLE_RECORD_POST (R381). -/
  | replayableRecordPost
  /-- RECORD_CONSUMED (R380). -/
  | recordConsumed (fatal : Bool) (part seq : Nat)
  /-- RESUME (R382). -/
  | resume (part seq : Nat)
  /-- VECTOR (R382). -/
  | vector (part seq : Nat)
  /-- KILL (R411). -/
  | kill (part seq : Nat)
  /-- UNLOAD (R50). -/
  | unload (part : Nat) (ig : BitVec 32)
  /-- REGION_ATTRIBUTE_WRITE (R96). -/
  | regionAttributeWrite (part n : Nat) (w : BitVec 64)
  /-- SPLINTER (R100). -/
  | splinter (c : SplinterChange)
  /-- INVALIDATE_MAPPING (R104). -/
  | invalidateMapping (part : Nat) (va : BitVec 56) (len : Nat)
  /-- INVALIDATION_RETIRED (R145). -/
  | invalidationRetired (n : Nat)
  /-- BINDING_WRITE (R135). -/
  | bindingWrite (part n : Nat) (act : BindAct)
  /-- SCHEDULING_TABLE_WRITE (R313). -/
  | schedulingTableWrite (part off : Nat) (w : BitVec 64)
  /-- BANDWIDTH_WINDOW (R325). -/
  | bandwidthWindow
  /-- ARBITER_SERVE (R326). -/
  | arbiterServe (resource : Nat)
  /-- PARTITION_CREATE (R363). -/
  | partitionCreate (part : Nat) (r : Resources)
  /-- PARTITION_GROW (R363). -/
  | partitionGrow (part : Nat) (r : Resources)
  /-- PARTITION_SHRINK (R363). -/
  | partitionShrink (part : Nat) (r : Resources)
  /-- PARTITION_DESTROY (R363). -/
  | partitionDestroy (part : Nat)
  /-- SLICE_ZEROED (R366). -/
  | sliceZeroed (slice : Nat)
  /-- CAPABILITY_TABLE_REWRITE (R362). -/
  | capabilityTableRewrite (part : Nat) (doc : List (BitVec 8))
  /-- ROUTE_ENTRY_WRITE (R367). -/
  | routeEntryWrite (n : Nat) (w0 w1 : BitVec 64)
  /-- COLLECTIVE_STORE_WRITE (R306). -/
  | collectiveStoreWrite (part die addr : Nat) (w : BitVec 128)
  /-- WINDOW_LENGTH_SET (R146). -/
  | windowLengthSet (us boundary : Nat)
  /-- TIMER_SET (R409). -/
  | timerSet (part graceUs killMs : Nat)
  /-- TENANT_STOP (R412). -/
  | tenantStop (part : Nat) (tenant : Option Nat) (status : Nat)
  /-- STOP_FINAL_POINT (R412). -/
  | stopFinalPoint (part : Nat)
  /-- DIRTY_LOG_ARM (R414). -/
  | dirtyLogArm (part tenant base size : Nat)
  /-- FABRIC_WINDOW_BOUNDARY (R146). -/
  | fabricWindowBoundary
  /-- FABRIC_ACKNOWLEDGEMENT (R419). -/
  | fabricAcknowledgement (port unit window : Nat)
  /-- FABRIC_UNIT_LOST (R420). -/
  | fabricUnitLost (unit : Nat)
  /-- TIME_BASE_LOSS (R419). -/
  | timeBaseLoss
  /-- LANDING_FAILED (R418). -/
  | landingFailed (n : Nat)
  /-- LANDING_RETRAIN (R418). -/
  | landingRetrain (n : Nat)
  /-- CEILING_STEP_DOWN (R21). -/
  | ceilingStepDown
  /-- CEILING_STEP_UP (R21). -/
  | ceilingStepUp
  /-- THERMAL_THROTTLE (R22). -/
  | thermalThrottle (die : Nat)
  /-- THERMAL_STOP (R22). -/
  | thermalStop (die : Nat)
  /-- OPERATING_POINT_CHANGE (R19). -/
  | operatingPointChange (island mV10 mhz : Nat)
  /-- VOLTAGE_SETTLED (R19). -/
  | voltageSettled (island : Nat)
  /-- POWER_ON (R369). -/
  | powerOn
  /-- POWER_OFF (R370). -/
  | powerOff
  /-- REGISTER_WRITE (R7). -/
  | registerWrite (t : RegTarget) (v : BitVec 64)
  /-- REMOTE_WRITE_ARRIVAL (R420). -/
  | remoteWriteArrival (u : RemoteUnit)
  /-- TIME_BASE_REGAINED (R419). -/
  | timeBaseRegained
  /-- PACKAGE_POWER_RESTORE (R370). -/
  | packagePowerRestore
  /-- DIRTY_LOG_SLOT_FREE (R414). -/
  | dirtyLogSlotFree (part tenant : Nat)
  deriving DecidableEq, Repr, Inhabited

end Sys2Proof
end

