-- ==== Sys2Proof/Machine/Limits.lean ====
section
/-! DEFINITION. The limits a syllable's fields must meet (R169, R170 pass 1): reserved fields,
values a format table or a description marks illegal, packed-element modifiers whose width the
encoding fixes. Each function answers whether the operands are within their limits. -/

namespace Sys2Proof.Machine

/-- Bits of one item of a format tag (R65). -/
def tagWidth (t : BitVec 4) : Nat :=
  if t = 0 || t = 1 || t = 8 || t = 12 || t = 15 then 32
  else if t = 2 || t = 3 || t = 7 || t = 9 || t = 13 then 16
  else if t = 4 || t = 5 || t = 10 || t = 14 then 8 else 4

/-- R152, source column: is modifier `pm` legal for items of width `w`? -/
def pmSrcOk (w : Nat) (pm : BitVec 3) : Bool :=
  if w = 32 then pm = 0 else if w = 16 then pm.toNat < 2 else true

/-- R152, destination column, and R224: the swizzle of 8-bit items is illegal too. -/
def pmDstOk (w : Nat) (pm : BitVec 3) : Bool :=
  if w = 32 then pm = 0 else if w = 16 then pm.toNat < 2 else if w = 8 then pm.toNat < 4 else true

/-- R127: scope codes 5 to 7 are reserved. -/
def ordOk (o : BitVec 5) : Bool := (o.extractLsb' 0 3).toNat < 5

/-- R114: rounding field values 5 and 6 are reserved. -/
def rmOk (r : BitVec 3) : Bool := r ≠ 5 && r ≠ 6

/-- R180: SC is reserved outside SEL. -/
def limSR (o : FmtSR) : Bool := o.sc = 0
/-- R180: opcodes 32 to 37 reserve SB. -/
def limSR1 (o : FmtSR) : Bool := o.sc = 0 && o.sb = 0
/-- R182: POS + LEN + 1 must not exceed 64. -/
def limSF (o : FmtSF) : Bool := o.pos.toNat + o.len.toNat + 1 ≤ 64
/-- R182: EXT and EXTU reserve SB. -/
def limSFx (o : FmtSF) : Bool := limSF o && o.sb = 0
/-- R183: shift amounts 0 to 63. -/
def limSIsh (o : FmtSI) : Bool := o.imm.toNat < 64
/-- R183: ADDPC reserves SA. -/
def limSIpc (o : FmtSI) : Bool := o.sa = 0
/-- R155: BF 3 is illegal. -/
def limBC (o : FmtBC) : Bool := o.bf ≠ 3
/-- R188: BDNZ reserves SB and takes s1 to s63. -/
def limBDNZ (o : FmtBC) : Bool := o.bf ≠ 3 && o.sb = 0 && o.sa ≠ 0
/-- R155: BF 3 is illegal. -/
def limBK (o : FmtBK) : Bool := o.bf ≠ 3
/-- R155: BF 3 is illegal. -/
def limBT (o : FmtBT) : Bool := o.bf ≠ 3
/-- R187: status fields 8 to 63 are illegal. -/
def limBSW (o : FmtBT) : Bool := o.bf ≠ 3 && o.bn.toNat < 8
/-- R189: JL reserves SA. -/
def limJL (o : FmtBL) : Bool := o.bf ≠ 3 && o.sa = 0
/-- R155: BF 3 is illegal. -/
def limJLX (o : FmtBL) : Bool := o.bf ≠ 3
/-- R194: HD is zero in the S form, SB is ACAS's alone, ORD names a scope. -/
def limLA (o : FmtLA) : Bool := (o.sp = 0 || o.hd = 0) && o.sb = 0 && ordOk o.ord
/-- R194 for ACAS. -/
def limACAS (o : FmtLA) : Bool := (o.sp = 0 || o.hd = 0) && ordOk o.ord
/-- R198: RQ 0 is outside the limits. -/
def limXLATE (o : FmtLX) : Bool := o.rq ≠ 0
/-- R199: HREL reserves SA and RQ. -/
def limHREL (o : FmtLX) : Bool := o.sa = 0 && o.rq = 0

/-- R203: XGET reserves SA and FT. -/
def limXGET (o : FmtXF) : Bool := o.sa = 0 && o.ft = 0
/-- R203: XGETD reserves SA and FT and takes an even EI. -/
def limXGETD (o : FmtXF) : Bool := limXGET o && o.ei.extractLsb' 0 1 = 0
/-- R203: XPUT reserves SD; FT 15 is illegal. -/
def limXPUT (o : FmtXF) : Bool := o.sd = 0 && o.ft ≠ 15
/-- R203: XPUTD takes an even EI. -/
def limXPUTD (o : FmtXF) : Bool := limXPUT o && o.ei.extractLsb' 0 1 = 0
/-- R203: XBCST reserves EI. -/
def limXBCST (o : FmtXF) : Bool := limXPUT o && o.ei = 0
/-- R203: FT 15 is illegal. -/
def limXXCH (o : FmtXF) : Bool := o.ft ≠ 15

/-- R165: TY 3 is illegal in floating-point V3 instructions. -/
def limVF (o : FmtV3) : Bool := o.ty ≠ 3
/-- R208: the unary opcodes reserve PB and XB. -/
def limVF1 (o : FmtV3) : Bool := limVF o && o.pb = 0 && o.xb = 0
/-- R210: MS is 0 in comparisons. -/
def limVFcmp (o : FmtV3) : Bool := limVF o && o.ms = 0
/-- R212: VIADD, VISUB and VIMUL take every TY and MS. -/
def limVIsat (_ : FmtV3) : Bool := true
/-- R213: there is no unsigned 4-bit format. -/
def limVI (o : FmtV3) : Bool := !(o.ty = 3 && o.ms = 1)
/-- R213: VIABS reserves MS, PB and XB. -/
def limVIABS (o : FmtV3) : Bool := o.ms = 0 && o.pb = 0 && o.xb = 0
/-- R211, R214: TY and MS are 0. -/
def limVB (o : FmtV3) : Bool := o.ty = 0 && o.ms = 0
/-- R214: VMOV reserves PB and XB. -/
def limVMOV (o : FmtV3) : Bool := limVB o && o.pb = 0 && o.xb = 0

/-- R217, R220: DF, RM and the modifier of VCVT from a source of width `ws`. -/
def limVCVT (ws : Nat) (o : FmtVU) : Bool :=
  o.df ≠ 0 && o.df ≠ 7 && o.df ≠ 15 && rmOk o.rm &&
    (if ws ≤ tagWidth o.df then pmSrcOk ws o.pm else pmDstOk (tagWidth o.df) o.pm)
/-- R219, R220: VCVT from VQ2 writes F32; RM holds the lane quad; PM picks one of two indices. -/
def limVQ2 (o : FmtVU) : Bool := o.df = 1 && pmSrcOk 16 o.pm
/-- R221: DF 1 to 3. -/
def dfFloat (d : BitVec 4) : Bool := d = 1 || d = 2 || d = 3
/-- R221: DF 8 to 14. -/
def dfInt (d : BitVec 4) : Bool := 8 ≤ d.toNat && d.toNat < 15
/-- R221, VRSUM. -/
def limVRSUM (o : FmtVU) : Bool := dfFloat o.df && o.pm = 0 && (o.rm.toNat < 4 || o.rm = 7)
/-- R221, VRMIN and VRMAX. -/
def limVRM (o : FmtVU) : Bool := (dfFloat o.df || dfInt o.df) && o.pm = 0 && o.rm = 0
/-- R221, VRISUM and VISCAN. -/
def limVRI (o : FmtVU) : Bool := dfInt o.df && o.pm = 0 && o.rm = 0
/-- R221, VSCAN. -/
def limVSCAN (o : FmtVU) : Bool := dfFloat o.df && o.pm = 0 && rmOk o.rm
/-- R221, VNZS and VNZC. -/
def limVNZ (o : FmtVU) : Bool :=
  o.df ≠ 7 && o.df ≠ 15 && pmDstOk (tagWidth o.df) o.pm && o.rm = 0
/-- R215, VROT. -/
def limVROT (o : FmtVU) : Bool := o.pm = 0 && o.rm = 0 && o.df = 0
/-- R215, VBCST. -/
def limVBCST (o : FmtVU) : Bool := o.df ≠ 15 && o.rm = 0 && pmDstOk (tagWidth o.df) o.pm

/-- R227, VLD. -/
def limVLD (o : FmtGS) : Bool := o.pi = 0 && o.xi = 0 && o.ft ≠ 15 && pmDstOk (tagWidth o.ft) o.pm
/-- R227, VST. -/
def limVST (o : FmtGS) : Bool := o.pi = 0 && o.xi = 0 && o.ft = 0
/-- R227, VGATH. -/
def limVGATH (o : FmtGS) : Bool := o.ft ≠ 15 && pmDstOk (tagWidth o.ft) o.pm
/-- R227, VSCAT. -/
def limVSCAT (o : FmtGS) : Bool := o.ft = 0
/-- R229, VLDA. -/
def limVLDA (o : FmtGA) : Bool := o.ft ≠ 15
/-- R229, VSTA. -/
def limVSTA (o : FmtGA) : Bool := o.ft = 0
/-- R229, VLDC. -/
def limVLDC (o : FmtGA) : Bool := o.ft ≠ 15 && o.qw = 0
/-- The modifier of format GH: PML and, for opcodes 20 to 23, bit 2 (R159). -/
def ghPm (hi : Bool) (o : FmtGH) : BitVec 3 := (if hi then 4 else 0) + o.pml.setWidth 3
/-- R230, VLDH. -/
def limVLDH (hi : Bool) (o : FmtGH) : Bool :=
  o.pi = 0 && o.xi = 0 && o.ft ≠ 15 && pmDstOk (tagWidth o.ft) (ghPm hi o)
/-- R230, VSTH. -/
def limVSTH (o : FmtGH) : Bool := o.pi = 0 && o.xi = 0 && o.ft = 0
/-- R230, VGATHH. -/
def limVGATHH (hi : Bool) (o : FmtGH) : Bool := o.ft ≠ 15 && pmDstOk (tagWidth o.ft) (ghPm hi o)
/-- R230, VSCATH. -/
def limVSCATH (o : FmtGH) : Bool := o.ft = 0

/-- FMT bits 23..20 of format ET (R160). -/
def etF (o : FmtET) : BitVec 4 := o.fmt.extractLsb' 0 4
/-- FMT bit 24 of format ET (R160). -/
def etX (o : FmtET) : BitVec 1 := o.fmt.extractLsb' 4 1

/-- R237, TALLOC: kind 3 and FMT 15 are illegal, unused fields are reserved. -/
def limTALLOC (o : FmtET) : Bool :=
  o.ta = 0 && o.tb = 0 && o.sa = 0 && o.ord = 0 && etX o = 0 && etF o ≠ 15 &&
    o.imm.extractLsb' 0 2 ≠ 3 && o.imm.toNat < 128
/-- R237, TFREE and TWAIT. -/
def limTD (o : FmtET) : Bool :=
  o.ta = 0 && o.tb = 0 && o.sa = 0 && o.ord = 0 && o.fmt = 0 && o.imm = 0
/-- R237, TZERO. -/
def limTZERO (o : FmtET) : Bool :=
  o.ta = 0 && o.tb = 0 && o.sa = 0 && o.ord = 0 && etX o = 0 && etF o ≠ 15 && o.imm = 0
/-- R237, R245: TSTAT and TROWP, whose SA names the destination. -/
def limTDS (o : FmtET) : Bool := o.ta = 0 && o.tb = 0 && o.ord = 0 && o.fmt = 0 && o.imm = 0
/-- R238, MLATCH. -/
def limMLATCH (o : FmtET) : Bool :=
  o.td = 0 && o.ta = 0 && o.sa = 0 && o.ord = 0 && o.fmt = 0 && o.imm.toNat < 4
/-- R238: the operand formats of the matrix array. -/
def mmaFmt (f : BitVec 4) : Bool := (2 ≤ f.toNat && f.toNat ≤ 7) || f = 10
/-- R238, MMA: the latch only in the stationary form, the second A-tile only for VQ2. -/
def limMMA (o : FmtET) : Bool :=
  mmaFmt (etF o) && o.ord = 0 && o.imm.extractLsb' 8 1 = 0 && o.imm.extractLsb' 2 1 = 0 &&
    (etX o = 1 || o.imm.extractLsb' 0 2 = 0) && (etF o = 7 || o.imm.extractLsb' 3 5 = 0)
/-- R238, MMAS. -/
def limMMAS (o : FmtET) : Bool :=
  mmaFmt (etF o) && etX o = 0 && o.ta = 0 && o.tb = 0 && o.ord = 0 && o.imm = 0
/-- R161: selection codes are below 70. -/
def selOk (l : Lit) : Bool :=
  (List.range 8).all (fun g => (l.extractLsb' (7 * g) 7).toNat < 70) && l.extractLsb' 56 4 = 0
/-- R238, R161, MMA.X. -/
def limMMAX (o : FmtETL) : Bool :=
  mmaFmt (etF o.o) && etF o.o ≠ 7 && etX o.o = 0 && o.o.ord = 0 &&
    (o.o.imm = 0 || o.o.imm = 4) && selOk o.lit
/-- R238, R161, MMAS.X. -/
def limMMASX (o : FmtETL) : Bool := limMMAS o.o && etF o.o ≠ 7 && selOk o.lit
/-- R246: how many groups of 32 positions a line of format `f` has. -/
def tcvtGroups (f : BitVec 4) : Nat := if f = 2 || f = 3 then 8 else if f = 6 then 32 else 16
/-- R246, TCVT. -/
def limTCVT (o : FmtET) : Bool :=
  o.td ≠ o.ta && o.tb = 0 && o.ord = 0 && etX o = 0 &&
    ((2 ≤ (etF o).toNat && (etF o).toNat ≤ 6) || etF o = 10) &&
    (o.imm.extractLsb' 0 5).toNat < tcvtGroups (etF o) && rmOk (o.imm.extractLsb' 5 3) &&
    o.imm.extractLsb' 8 1 = 0
/-- R246, TMOV and TXPOSE. -/
def limTMOV (o : FmtET) : Bool :=
  o.td ≠ o.ta && o.tb = 0 && o.ord = 0 && o.fmt = 0 && o.sa = 0 && o.imm = 0
/-- R247, R248: TDRAIN and TDRAINK. -/
def limTDRAIN (o : FmtECL) : Bool :=
  ordOk o.o.ord && o.o.imm.extractLsb' 10 2 = 0 && o.lit.extractLsb' 39 21 = 0 &&
    o.lit.extractLsb' 0 4 ≠ 7 && o.lit.extractLsb' 0 4 ≠ 15 && rmOk (o.lit.extractLsb' 4 3)
/-- R236: bits 2..0 of a copy literal are reserved. -/
def litCw (l : Lit) : Bool := l.extractLsb' 0 3 = 0
/-- R236: LF. -/
def litLF (l : Lit) : BitVec 4 := l.extractLsb' 56 4
/-- R249, CPY. -/
def limCPY (o : FmtECL) : Bool :=
  ordOk o.o.ord && o.o.th = 0 && o.o.imm.extractLsb' 11 1 = 0 && litCw o.lit && (litLF o.lit).toNat < 3
/-- R251, CPYM. -/
def limCPYM (o : FmtECL) : Bool :=
  ordOk o.o.ord && o.o.imm.extractLsb' 9 1 = 0 && o.o.imm.extractLsb' 11 1 = 0 &&
    o.lit.extractLsb' 17 39 = 0 && litLF o.lit ≠ 15 && mmaFmt (o.lit.extractLsb' 10 4) &&
    (o.lit.extractLsb' 14 1 = 1 || o.lit.extractLsb' 15 2 = 0)
/-- R252, CPYI. -/
def limCPYI (o : FmtECL) : Bool :=
  ordOk o.o.ord && o.o.th = 0 && o.o.imm.extractLsb' 10 2 = 0 && litCw o.lit && litLF o.lit = 0
/-- R253: CPYS to (`dir` 0) or from (`dir` 1) the scratchpad. -/
def limCPYS (dir : BitVec 1) (o : FmtECL) : Bool :=
  ordOk o.o.ord && o.o.th = 0 && o.o.imm.extractLsb' 9 1 = dir && o.o.imm.extractLsb' 11 1 = 0 &&
    litCw o.lit && litLF o.lit = 0
/-- R251, CPYF. -/
def limCPYF (o : FmtECL) : Bool :=
  ordOk o.o.ord && o.o.sc = 0 && o.o.imm.extractLsb' 9 1 = 0 && o.o.imm.extractLsb' 11 1 = 0 &&
    litCw o.lit && litLF o.lit ≠ 15
/-- R254, CPYG: the spread form names a 4-, 8- or 16-bit format. -/
def limCPYG (o : FmtECL) : Bool :=
  ordOk o.o.ord && o.o.imm.extractLsb' 10 2 = 0 && litCw o.lit && litLF o.lit ≠ 15 &&
    (o.o.imm.extractLsb' 9 1 = 0 || tagWidth (litLF o.lit) ≠ 32)
/-- R255, CPYSC. -/
def limCPYSC (o : FmtECL) : Bool :=
  ordOk o.o.ord && o.o.th = 0 && o.o.imm.extractLsb' 9 2 ≠ 3 && o.o.imm.extractLsb' 11 1 = 0 &&
    litCw o.lit && litLF o.lit = 0
/-- R258, SFPOOL: LF is reserved. -/
def limSFPOOL (o : FmtECL) : Bool := ordOk o.o.ord && litCw o.lit && litLF o.lit = 0

/-- R160: which scalar fields and immediate values an EA instruction uses; all others are zero. -/
def limEA (sd sa sb : Bool) (imm : BitVec 11 → Bool) (o : FmtEA) : Bool :=
  (sd || o.sd = 0) && (sa || o.sa = 0) && (sb || o.sb = 0) && o.sc = 0 && o.ord = 0 && imm o.imm
/-- R257: the sequencer commands carry an order field (R143). -/
def limSQ (sa sb : Bool) (o : FmtEA) : Bool :=
  (sa || o.sa = 0) && (sb || o.sb = 0) && o.sd = 0 && o.sc = 0 && ordOk o.ord && o.imm.toNat < 512
/-- R260, WAIT: three limits stand in SA, SB and SC, the fourth in IMM11. -/
def limWAIT (o : FmtEA) : Bool := o.sd = 0 && o.ord = 0 && o.imm.toNat < 64
/-- R261, R139: ACQ modes 2 and 3 are illegal. -/
def limACQ (o : FmtEA) : Bool := limEA true true false (fun i => i.toNat < 1024) o
/-- R269: the system registers that MFSR reads. -/
def sysReadable (r : Nat) : Bool := r < 8 || r = 16 || r = 17
/-- R269: the system registers that MTSR writes. -/
def sysWritable (r : Nat) : Bool := r = 0 || r = 1 || (4 ≤ r && r < 8)

end Sys2Proof.Machine
end

