-- ==== Sys2Proof/WellFormed.lean ====
section
/-! DEFINITION. Well-formed instructions: the operand values that the encodings and descriptions of
R149 to R272 admit. Micro-words are checked when their step executes (R390), and events carry no
encoding, so both are well-formed as they stand. -/

namespace Sys2Proof
open Sys2Proof.Machine

/-- Does the instruction meet the field limits of R169 (pass 1 of R170)? -/
def Instr.wf : Instr → Bool
  | .add o => limSR o
  | .sub o => limSR o
  | .andR o => limSR o
  | .orR o => limSR o
  | .xorR o => limSR o
  | .andn o => limSR o
  | .orn o => limSR o
  | .xnor o => limSR o
  | .sll o => limSR o
  | .srl o => limSR o
  | .sra o => limSR o
  | .rol o => limSR o
  | .ror o => limSR o
  | .slt o => limSR o
  | .sltu o => limSR o
  | .seq o => limSR o
  | .sne o => limSR o
  | .min o => limSR o
  | .max o => limSR o
  | .minu o => limSR o
  | .maxu o => limSR o
  | .sel _ => true
  | .mul o => limSR o
  | .mulh o => limSR o
  | .mulhu o => limSR o
  | .divS o => limSR o
  | .divu o => limSR o
  | .remS o => limSR o
  | .remu o => limSR o
  | .addw o => limSR o
  | .subw o => limSR o
  | .mulw o => limSR o
  | .clz o => limSR1 o
  | .ctz o => limSR1 o
  | .popc o => limSR1 o
  | .brev o => limSR1 o
  | .bswap o => limSR1 o
  | .absR o => limSR1 o
  | .ext o => limSFx o
  | .extu o => limSFx o
  | .ins o => limSF o
  | .addi _ => true
  | .andi _ => true
  | .ori _ => true
  | .xori _ => true
  | .slli o => limSIsh o
  | .srli o => limSIsh o
  | .srai o => limSIsh o
  | .slti _ => true
  | .sltui _ => true
  | .addpc o => limSIpc o
  | .li _ => true
  | .lih _ => true
  | .beq o => limBC o
  | .bne o => limBC o
  | .blt o => limBC o
  | .bge o => limBC o
  | .bltu o => limBC o
  | .bgeu o => limBC o
  | .beqi o => limBK o
  | .bnei o => limBK o
  | .blti o => limBK o
  | .bgei o => limBK o
  | .btR o => limBT o
  | .bsw o => limBSW o
  | .bdnz o => limBDNZ o
  | .jl o => limJL o
  | .jlx o => limJLX o
  | .ldB _ => true
  | .ldBu _ => true
  | .ldH _ => true
  | .ldHu _ => true
  | .ldW _ => true
  | .ldWu _ => true
  | .ldD _ => true
  | .stB _ => true
  | .stH _ => true
  | .stW _ => true
  | .stD _ => true
  | .ldsB _ => true
  | .ldsBu _ => true
  | .ldsH _ => true
  | .ldsHu _ => true
  | .ldsW _ => true
  | .ldsWu _ => true
  | .ldsD _ => true
  | .stsB _ => true
  | .stsH _ => true
  | .stsW _ => true
  | .stsD _ => true
  | .aadd o => limLA o
  | .amin o => limLA o
  | .amax o => limLA o
  | .aminu o => limLA o
  | .amaxu o => limLA o
  | .aand o => limLA o
  | .aor o => limLA o
  | .axor o => limLA o
  | .aswp o => limLA o
  | .acas o => limACAS o
  | .afadd o => limLA o
  | .abadd o => limLA o
  | .xlate o => limXLATE o
  | .handleWalkComplete _ => true
  | .hrel o => limHREL o
  | .ldpW _ => true
  | .ldpD _ => true
  | .xget o => limXGET o
  | .xgetd o => limXGETD o
  | .xput o => limXPUT o
  | .xputd o => limXPUTD o
  | .xbcst o => limXBCST o
  | .xxch o => limXXCH o
  | .vadd o => limVF o
  | .vsub o => limVF o
  | .vmul o => limVF o
  | .vfma o => limVF o
  | .vfms o => limVF o
  | .vfnma o => limVF o
  | .vdiv o => limVF o
  | .vsqrt o => limVF1 o
  | .vmin o => limVF o
  | .vmax o => limVF o
  | .vabs o => limVF1 o
  | .vneg o => limVF1 o
  | .vceq o => limVFcmp o
  | .vclt o => limVFcmp o
  | .vcle o => limVFcmp o
  | .vcun o => limVFcmp o
  | .viadd o => limVIsat o
  | .visub o => limVIsat o
  | .vimul o => limVIsat o
  | .vimulh o => limVI o
  | .vimin o => limVI o
  | .vimax o => limVI o
  | .viabs o => limVIABS o
  | .vshl o => limVI o
  | .vshr o => limVI o
  | .viceq o => limVI o
  | .viclt o => limVI o
  | .vicle o => limVI o
  | .vand o => limVB o
  | .vor o => limVB o
  | .vxor o => limVB o
  | .vandn o => limVB o
  | .vsel o => limVB o
  | .vmov o => limVMOV o
  | .vperm o => limVB o
  | .vrot o => limVROT o
  | .vbcst o => limVBCST o
  | .vcvtF32 o => limVCVT 32 o
  | .vcvtBf16 o => limVCVT 16 o
  | .vcvtFp16 o => limVCVT 16 o
  | .vcvtE4m3 o => limVCVT 8 o
  | .vcvtE5m2 o => limVCVT 8 o
  | .vcvtE2m1 o => limVCVT 4 o
  | .vcvtVq2 o => limVQ2 o
  | .vcvtI32 o => limVCVT 32 o
  | .vcvtI16 o => limVCVT 16 o
  | .vcvtI8 o => limVCVT 8 o
  | .vcvtI4 o => limVCVT 4 o
  | .vcvtN32 o => limVCVT 32 o
  | .vcvtN16 o => limVCVT 16 o
  | .vcvtN8 o => limVCVT 8 o
  | .vrsum o => limVRSUM o
  | .vrmin o => limVRM o
  | .vrmax o => limVRM o
  | .vrisum o => limVRI o
  | .vscan o => limVSCAN o
  | .viscan o => limVRI o
  | .vnzs o => limVNZ o
  | .vnzc o => limVNZ o
  | .vbop _ => true
  | .vld o => limVLD o
  | .vst o => limVST o
  | .vgath o => limVGATH o
  | .vscat o => limVSCAT o
  | .vlda o => limVLDA o
  | .vsta o => limVSTA o
  | .vldc o => limVLDC o
  | .vldh o => limVLDH false o
  | .vsth o => limVSTH o
  | .vgathh o => limVGATHH false o
  | .vscath o => limVSCATH o
  | .vldhPm4 o => limVLDH true o
  | .vsthPm4 o => limVSTH o
  | .vgathhPm4 o => limVGATHH true o
  | .vscathPm4 o => limVSCATH o
  | .resultLanding _ => true
  | .ldCompletion _ _ _ => true
  | .stCompletion _ _ => true
  | .talloc o => limTALLOC o
  | .tfree o => limTD o
  | .tzero o => limTZERO o
  | .tstat o => limTDS o
  | .twait o => limTD o
  | .mlatch o => limMLATCH o
  | .mma o => limMMA o
  | .mmas o => limMMAS o
  | .mmaX o => limMMAX o
  | .mmasX o => limMMASX o
  | .matrixOperationStart _ => true
  | .streamFault _ => true
  | .trowp o => limTDS o
  | .tcvt o => limTCVT o
  | .tmov o => limTMOV o
  | .txpose o => limTMOV o
  | .tdrain o => limTDRAIN o
  | .tdraink o => limTDRAIN o
  | .tileCommandCompletion _ => true
  | .cpy o => limCPY o
  | .cpym o => limCPYM o
  | .cpyi o => limCPYI o
  | .cpysTo o => limCPYS 0 o
  | .cpysFrom o => limCPYS 1 o
  | .cpyf o => limCPYF o
  | .cpyg o => limCPYG o
  | .cpysc o => limCPYSC o
  | .cpyq o => limEA true false false (fun i => i.toNat < 32) o
  | .sqgo o => limSQ true false o
  | .sqwait o => limSQ true true o
  | .sqwaitPoll _ => true
  | .sqkill o => limSQ false false o && o.ord = 0
  | .sqstat o => limEA true false false (fun i => i.toNat < 512) o
  | .commandStart _ _ => true
  | .copyCommandCompletion _ => true
  | .engineTranslationFault _ => true
  | .sfpool o => limSFPOOL o
  | .poolingCompletion _ => true
  | .sfplan o => limEA true true false (fun i => i = 0) o
  | .hotSegmentLoad _ _ => true
  | .sfstat o => limEA true true false (fun i => i = 0) o
  | .acq o => limACQ o
  | .rel o => limEA false true false (fun i => i.toNat < 512) o
  | .fence o => limEA false false false (fun i => i.toNat < 5) o
  | .bar o => limEA false false false (fun i => i.toNat < 256) o
  | .bara o => limEA true false false (fun i => i.toNat < 256) o
  | .barw o => limEA false true false (fun i => i.toNat < 16) o
  | .frd o => limEA true true false (fun i => i = 0) o
  | .ffill o => limEA false true true (fun i => i = 0) o
  | .pwr o => limEA false true false (fun i => i.toNat < 16) o
  | .prd o => limEA true false false (fun i => i.toNat < 16) o
  | .wait o => limWAIT o
  | .yield o => limEA false false false (fun i => i = 0) o
  | .endR o => limEA false false false (fun i => i = 0) o
  | .strandRetirement _ => true
  | .batchCompletion _ => true
  | .launch o => limEA true true false (fun i => i.toNat < 16) o
  | .trap o => limEA false false false (fun i => i.toNat < 256) o
  | .rett o => limEA false false false (fun i => i = 0) o
  | .mfsr o => limEA true false false (fun i => sysReadable i.toNat) o
  | .mtsr o => limEA false true false (fun i => sysWritable i.toNat) o
  | .ifence o => limEA false false false (fun i => i = 0) o
  | .rdclk o => limEA true false false (fun i => i = 0) o
  | .rdid o => limEA true false false (fun i => i.toNat < 9) o
  | .setrm o => limEA false false false (fun i => i.toNat < 5) o
  | .rdff o => limEA true false false (fun i => i = 0) o
  | .clrff o => limEA false false false (fun i => i.toNat < 64) o
  | .brk o => limEA false false false (fun i => i.toNat < 256) o
  | .pwsz o => limEA true false false (fun i => i.toNat < 8) o
  | .bind o => limEA false true true (fun i => i.toNat < 64) o
  | .unbind o => limEA false false false (fun i => i.toNat < 64) o
  | .bindq o => limEA true false false (fun i => i.toNat < 64) o
  | .csload o => limEA true true true (fun i => i = 0) o
  | .controlStorePageLoaded _ _ => true
  | .csinv o => limEA false true false (fun i => i = 0) o
  | .csfence o => limEA false false false (fun i => i = 0) o
  | .nextblk o => limEA true false false (fun i => i = 0) o
  | .impr o => limEA true false false (fun i => i.toNat < 16) o
  | .impw o => limEA false true false (fun i => i.toNat < 16 && i ≠ 0) o
  | .impwCommit o => limEA false true false (fun i => i = 0) o
  | .gclaim o => limEA true true false (fun i => 1 ≤ i.toNat && i.toNat ≤ 64) o
  | .gdone o => limEA false true false (fun i => i = 0) o
  | .handov o => limEA true true false (fun i => i.toNat < 32) o
  | .ebop _ => true
  | .microNext _ => true
  | .jump _ => true
  | .brt _ => true
  | .brf _ => true
  | .loop0 _ => true
  | .loop1 _ => true
  | .microCall _ => true
  | .microRet _ => true
  | .microEnd _ => true
  | .microTrap _ => true
  | .poll _ => true
  | .laneUnitLanding _ => true
  | .collectiveReceive _ _ _ => true
  | .instructionHalfFill _ _ => true
  | .schedulerPlacement _ => true
  | .startGateOpen _ => true
  | .tokenRefill _ => true
  | .candidateOverdue _ _ => true
  | .priorityPreemption _ => true
  | .preemptionRequest _ => true
  | .graceTimeExpiry _ => true
  | .killTimeExpiry _ => true
  | .replayableRecordPost => true
  | .recordConsumed _ _ _ => true
  | .resume _ _ => true
  | .vector _ _ => true
  | .kill _ _ => true
  | .unload _ _ => true
  | .regionAttributeWrite _ _ _ => true
  | .splinter _ => true
  | .invalidateMapping _ _ _ => true
  | .invalidationRetired _ => true
  | .bindingWrite _ _ _ => true
  | .schedulingTableWrite _ _ _ => true
  | .bandwidthWindow => true
  | .arbiterServe _ => true
  | .partitionCreate _ _ => true
  | .partitionGrow _ _ => true
  | .partitionShrink _ _ => true
  | .partitionDestroy _ => true
  | .sliceZeroed _ => true
  | .capabilityTableRewrite _ _ => true
  | .routeEntryWrite _ _ _ => true
  | .collectiveStoreWrite _ _ _ _ => true
  | .windowLengthSet _ _ => true
  | .timerSet _ _ _ => true
  | .tenantStop _ _ _ => true
  | .stopFinalPoint _ => true
  | .dirtyLogArm _ _ _ _ => true
  | .fabricWindowBoundary => true
  | .fabricAcknowledgement _ _ _ => true
  | .fabricUnitLost _ => true
  | .timeBaseLoss => true
  | .landingFailed _ => true
  | .landingRetrain _ => true
  | .ceilingStepDown => true
  | .ceilingStepUp => true
  | .thermalThrottle _ => true
  | .thermalStop _ => true
  | .operatingPointChange _ _ _ => true
  | .voltageSettled _ => true
  | .powerOn => true
  | .powerOff => true
  | .registerWrite _ _ => true
  | .remoteWriteArrival _ => true
  | .timeBaseRegained => true
  | .packagePowerRestore => true
  | .dirtyLogSlotFree _ _ => true

end Sys2Proof
end

