-- ==== Sys2Proof/Decode.lean ====
section
/-! DEFINITION. The decoder, total on any words and rejecting by name (R52 to R57, R149 to R170), and
after it the encoder, both from the format tables of R155 to R161 and the opcode maps of R162 to
R168; micro-words follow R275 and R278. -/

namespace Sys2Proof
open Sys2Proof.Machine

/-- Why a word or a bundle is not an instruction (R169, R278). -/
inductive Reject where
  | bundleForm
  | illegalOpcode
  | branchInA0
  | limits
  | reservedBits
  | twoBindable
  | microSeq
  deriving DecidableEq, Repr, Inhabited

/-- A decoded syllable: slot code, guard, instruction and the raw word (R52). -/
structure Syllable where
  slot : BitVec 3
  guard : BitVec 13
  i : Instr
  word : Syll
  deriving DecidableEq, Repr, Inhabited

/-- OPD to format SR. -/
def decFmtSR (x : BitVec 40) : FmtSR :=
  { sd := x.extractLsb' 34 6, sa := x.extractLsb' 28 6, sb := x.extractLsb' 22 6, sc := x.extractLsb' 16 6 }
/-- Format SR to OPD, reserved bits 0. -/
def encFmtSR (o : FmtSR) : BitVec 40 :=
  o.sd ++ o.sa ++ o.sb ++ o.sc ++ 0#16

/-- OPD to format SF. -/
def decFmtSF (x : BitVec 40) : FmtSF :=
  { sd := x.extractLsb' 34 6, sa := x.extractLsb' 28 6, sb := x.extractLsb' 22 6, pos := x.extractLsb' 16 6, len := x.extractLsb' 10 6 }
/-- Format SF to OPD, reserved bits 0. -/
def encFmtSF (o : FmtSF) : BitVec 40 :=
  o.sd ++ o.sa ++ o.sb ++ o.pos ++ o.len ++ 0#10

/-- OPD to format SI. -/
def decFmtSI (x : BitVec 40) : FmtSI :=
  { sd := x.extractLsb' 34 6, sa := x.extractLsb' 28 6, imm := x.extractLsb' 0 28 }
/-- Format SI to OPD, reserved bits 0. -/
def encFmtSI (o : FmtSI) : BitVec 40 :=
  o.sd ++ o.sa ++ o.imm

/-- OPD to format SW. -/
def decFmtSW (x : BitVec 40) : FmtSW :=
  { sd := x.extractLsb' 34 6, imm := x.extractLsb' 0 32 }
/-- Format SW to OPD, reserved bits 0. -/
def encFmtSW (o : FmtSW) : BitVec 40 :=
  o.sd ++ 0#2 ++ o.imm

/-- OPD to format BC. -/
def decFmtBC (x : BitVec 40) : FmtBC :=
  { bf := x.extractLsb' 38 2, sa := x.extractLsb' 32 6, sb := x.extractLsb' 26 6, disp := x.extractLsb' 0 26 }
/-- Format BC to OPD, reserved bits 0. -/
def encFmtBC (o : FmtBC) : BitVec 40 :=
  o.bf ++ o.sa ++ o.sb ++ o.disp

/-- OPD to format BK. -/
def decFmtBK (x : BitVec 40) : FmtBK :=
  { bf := x.extractLsb' 38 2, sa := x.extractLsb' 32 6, imm := x.extractLsb' 26 6, disp := x.extractLsb' 0 26 }
/-- Format BK to OPD, reserved bits 0. -/
def encFmtBK (o : FmtBK) : BitVec 40 :=
  o.bf ++ o.sa ++ o.imm ++ o.disp

/-- OPD to format BT. -/
def decFmtBT (x : BitVec 40) : FmtBT :=
  { bf := x.extractLsb' 38 2, sa := x.extractLsb' 32 6, bn := x.extractLsb' 26 6, bs := x.extractLsb' 25 1, disp := x.extractLsb' 0 25 }
/-- Format BT to OPD, reserved bits 0. -/
def encFmtBT (o : FmtBT) : BitVec 40 :=
  o.bf ++ o.sa ++ o.bn ++ o.bs ++ o.disp

/-- OPD to format BL. -/
def decFmtBL (x : BitVec 40) : FmtBL :=
  { bf := x.extractLsb' 38 2, sd := x.extractLsb' 32 6, sa := x.extractLsb' 26 6, disp := x.extractLsb' 0 26 }
/-- Format BL to OPD, reserved bits 0. -/
def encFmtBL (o : FmtBL) : BitVec 40 :=
  o.bf ++ o.sd ++ o.sa ++ o.disp

/-- OPD to format LH. -/
def decFmtLH (x : BitVec 40) : FmtLH :=
  { sd := x.extractLsb' 34 6, hd := x.extractLsb' 30 4, sa := x.extractLsb' 24 6, imm := x.extractLsb' 0 24 }
/-- Format LH to OPD, reserved bits 0. -/
def encFmtLH (o : FmtLH) : BitVec 40 :=
  o.sd ++ o.hd ++ o.sa ++ o.imm

/-- OPD to format LS. -/
def decFmtLS (x : BitVec 40) : FmtLS :=
  { sd := x.extractLsb' 34 6, sa := x.extractLsb' 28 6, imm := x.extractLsb' 4 24 }
/-- Format LS to OPD, reserved bits 0. -/
def encFmtLS (o : FmtLS) : BitVec 40 :=
  o.sd ++ o.sa ++ o.imm ++ 0#4

/-- OPD to format LP. -/
def decFmtLP (x : BitVec 40) : FmtLP :=
  { sd := x.extractLsb' 34 6, pw := x.extractLsb' 31 3, sa := x.extractLsb' 25 6, imm := x.extractLsb' 9 16 }
/-- Format LP to OPD, reserved bits 0. -/
def encFmtLP (o : FmtLP) : BitVec 40 :=
  o.sd ++ o.pw ++ o.sa ++ o.imm ++ 0#9

/-- OPD to format LA. -/
def decFmtLA (x : BitVec 40) : FmtLA :=
  { sd := x.extractLsb' 34 6, hd := x.extractLsb' 30 4, sa := x.extractLsb' 24 6, sb := x.extractLsb' 18 6, sc := x.extractLsb' 12 6, imm := x.extractLsb' 7 5, sp := x.extractLsb' 6 1, sz := x.extractLsb' 5 1, ord := x.extractLsb' 0 5 }
/-- Format LA to OPD, reserved bits 0. -/
def encFmtLA (o : FmtLA) : BitVec 40 :=
  o.sd ++ o.hd ++ o.sa ++ o.sb ++ o.sc ++ o.imm ++ o.sp ++ o.sz ++ o.ord

/-- OPD to format LX. -/
def decFmtLX (x : BitVec 40) : FmtLX :=
  { hd := x.extractLsb' 36 4, sa := x.extractLsb' 30 6, rq := x.extractLsb' 27 3 }
/-- Format LX to OPD, reserved bits 0. -/
def encFmtLX (o : FmtLX) : BitVec 40 :=
  o.hd ++ o.sa ++ o.rq ++ 0#27

/-- OPD to format XF. -/
def decFmtXF (x : BitVec 40) : FmtXF :=
  { sd := x.extractLsb' 34 6, sa := x.extractLsb' 28 6, pl := x.extractLsb' 17 11, xl := x.extractLsb' 16 1, ei := x.extractLsb' 11 5, ft := x.extractLsb' 7 4 }
/-- Format XF to OPD, reserved bits 0. -/
def encFmtXF (o : FmtXF) : BitVec 40 :=
  o.sd ++ o.sa ++ o.pl ++ o.xl ++ o.ei ++ o.ft ++ 0#7

/-- OPD to format V3. -/
def decFmtV3 (x : BitVec 40) : FmtV3 :=
  { pd := x.extractLsb' 29 11, pa := x.extractLsb' 18 11, pb := x.extractLsb' 7 11, ty := x.extractLsb' 5 2, ms := x.extractLsb' 4 1, xd := x.extractLsb' 3 1, xa := x.extractLsb' 2 1, xb := x.extractLsb' 1 1 }
/-- Format V3 to OPD, reserved bits 0. -/
def encFmtV3 (o : FmtV3) : BitVec 40 :=
  o.pd ++ o.pa ++ o.pb ++ o.ty ++ o.ms ++ o.xd ++ o.xa ++ o.xb ++ 0#1

/-- OPD to format VU. -/
def decFmtVU (x : BitVec 40) : FmtVU :=
  { pd := x.extractLsb' 29 11, pa := x.extractLsb' 18 11, pm := x.extractLsb' 15 3, rm := x.extractLsb' 12 3, df := x.extractLsb' 8 4, sl := x.extractLsb' 3 5, xd := x.extractLsb' 2 1, xa := x.extractLsb' 1 1 }
/-- Format VU to OPD, reserved bits 0. -/
def encFmtVU (o : FmtVU) : BitVec 40 :=
  o.pd ++ o.pa ++ o.pm ++ o.rm ++ o.df ++ o.sl ++ o.xd ++ o.xa ++ 0#1

/-- OPD to format GS. -/
def decFmtGS (x : BitVec 40) : FmtGS :=
  { pl := x.extractLsb' 29 11, xl := x.extractLsb' 28 1, pm := x.extractLsb' 25 3, sa := x.extractLsb' 19 6, pi := x.extractLsb' 8 11, xi := x.extractLsb' 7 1, ft := x.extractLsb' 3 4 }
/-- Format GS to OPD, reserved bits 0. -/
def encFmtGS (o : FmtGS) : BitVec 40 :=
  o.pl ++ o.xl ++ o.pm ++ o.sa ++ o.pi ++ o.xi ++ o.ft ++ 0#3

/-- OPD to format GA. -/
def decFmtGA (x : BitVec 40) : FmtGA :=
  { pl := x.extractLsb' 29 11, xl := x.extractLsb' 28 1, th := x.extractLsb' 23 5, row := x.extractLsb' 18 5, qw := x.extractLsb' 16 2, ft := x.extractLsb' 12 4 }
/-- Format GA to OPD, reserved bits 0. -/
def encFmtGA (o : FmtGA) : BitVec 40 :=
  o.pl ++ o.xl ++ o.th ++ o.row ++ o.qw ++ o.ft ++ 0#12

/-- OPD to format GH. -/
def decFmtGH (x : BitVec 40) : FmtGH :=
  { pl := x.extractLsb' 29 11, xl := x.extractLsb' 28 1, hd := x.extractLsb' 24 4, sa := x.extractLsb' 18 6, pi := x.extractLsb' 7 11, xi := x.extractLsb' 6 1, ft := x.extractLsb' 2 4, pml := x.extractLsb' 0 2 }
/-- Format GH to OPD, reserved bits 0. -/
def encFmtGH (o : FmtGH) : BitVec 40 :=
  o.pl ++ o.xl ++ o.hd ++ o.sa ++ o.pi ++ o.xi ++ o.ft ++ o.pml

/-- OPD to format EA. -/
def decFmtEA (x : BitVec 40) : FmtEA :=
  { sd := x.extractLsb' 34 6, sa := x.extractLsb' 28 6, sb := x.extractLsb' 22 6, sc := x.extractLsb' 16 6, ord := x.extractLsb' 11 5, imm := x.extractLsb' 0 11 }
/-- Format EA to OPD, reserved bits 0. -/
def encFmtEA (o : FmtEA) : BitVec 40 :=
  o.sd ++ o.sa ++ o.sb ++ o.sc ++ o.ord ++ o.imm

/-- OPD to format ET. -/
def decFmtET (x : BitVec 40) : FmtET :=
  { td := x.extractLsb' 35 5, ta := x.extractLsb' 30 5, tb := x.extractLsb' 25 5, fmt := x.extractLsb' 20 5, sa := x.extractLsb' 14 6, ord := x.extractLsb' 9 5, imm := x.extractLsb' 0 9 }
/-- Format ET to OPD, reserved bits 0. -/
def encFmtET (o : FmtET) : BitVec 40 :=
  o.td ++ o.ta ++ o.tb ++ o.fmt ++ o.sa ++ o.ord ++ o.imm

/-- OPD to format EC. -/
def decFmtEC (x : BitVec 40) : FmtEC :=
  { sa := x.extractLsb' 34 6, sb := x.extractLsb' 28 6, sc := x.extractLsb' 22 6, th := x.extractLsb' 17 5, ord := x.extractLsb' 12 5, imm := x.extractLsb' 0 12 }
/-- Format EC to OPD, reserved bits 0. -/
def encFmtEC (o : FmtEC) : BitVec 40 :=
  o.sa ++ o.sb ++ o.sc ++ o.th ++ o.ord ++ o.imm

/-- Operand bits to a bindable opcode's operands (R166). -/
def decFmtOB (opc : BitVec 7) (x : BitVec 40) : FmtOB := { opx := opc.extractLsb' 0 5, opd := x }

/-- Opcodes of the scalar class (R162). -/
def opS (opc : BitVec 7) (x : BitVec 40) : Option Instr :=
  match opc.toNat with
  | 0 => some (.add (decFmtSR x))
  | 1 => some (.sub (decFmtSR x))
  | 2 => some (.andR (decFmtSR x))
  | 3 => some (.orR (decFmtSR x))
  | 4 => some (.xorR (decFmtSR x))
  | 5 => some (.andn (decFmtSR x))
  | 6 => some (.orn (decFmtSR x))
  | 7 => some (.xnor (decFmtSR x))
  | 8 => some (.sll (decFmtSR x))
  | 9 => some (.srl (decFmtSR x))
  | 10 => some (.sra (decFmtSR x))
  | 11 => some (.rol (decFmtSR x))
  | 12 => some (.ror (decFmtSR x))
  | 13 => some (.slt (decFmtSR x))
  | 14 => some (.sltu (decFmtSR x))
  | 15 => some (.seq (decFmtSR x))
  | 16 => some (.sne (decFmtSR x))
  | 17 => some (.min (decFmtSR x))
  | 18 => some (.max (decFmtSR x))
  | 19 => some (.minu (decFmtSR x))
  | 20 => some (.maxu (decFmtSR x))
  | 21 => some (.sel (decFmtSR x))
  | 22 => some (.mul (decFmtSR x))
  | 23 => some (.mulh (decFmtSR x))
  | 24 => some (.mulhu (decFmtSR x))
  | 25 => some (.divS (decFmtSR x))
  | 26 => some (.divu (decFmtSR x))
  | 27 => some (.remS (decFmtSR x))
  | 28 => some (.remu (decFmtSR x))
  | 29 => some (.addw (decFmtSR x))
  | 30 => some (.subw (decFmtSR x))
  | 31 => some (.mulw (decFmtSR x))
  | 32 => some (.clz (decFmtSR x))
  | 33 => some (.ctz (decFmtSR x))
  | 34 => some (.popc (decFmtSR x))
  | 35 => some (.brev (decFmtSR x))
  | 36 => some (.bswap (decFmtSR x))
  | 37 => some (.absR (decFmtSR x))
  | 38 => some (.ext (decFmtSF x))
  | 39 => some (.extu (decFmtSF x))
  | 40 => some (.ins (decFmtSF x))
  | 41 => some (.addi (decFmtSI x))
  | 42 => some (.andi (decFmtSI x))
  | 43 => some (.ori (decFmtSI x))
  | 44 => some (.xori (decFmtSI x))
  | 45 => some (.slli (decFmtSI x))
  | 46 => some (.srli (decFmtSI x))
  | 47 => some (.srai (decFmtSI x))
  | 48 => some (.slti (decFmtSI x))
  | 49 => some (.sltui (decFmtSI x))
  | 50 => some (.addpc (decFmtSI x))
  | 51 => some (.li (decFmtSW x))
  | 52 => some (.lih (decFmtSW x))
  | 64 => some (.beq (decFmtBC x))
  | 65 => some (.bne (decFmtBC x))
  | 66 => some (.blt (decFmtBC x))
  | 67 => some (.bge (decFmtBC x))
  | 68 => some (.bltu (decFmtBC x))
  | 69 => some (.bgeu (decFmtBC x))
  | 70 => some (.beqi (decFmtBK x))
  | 71 => some (.bnei (decFmtBK x))
  | 72 => some (.blti (decFmtBK x))
  | 73 => some (.bgei (decFmtBK x))
  | 74 => some (.btR (decFmtBT x))
  | 75 => some (.bsw (decFmtBT x))
  | 76 => some (.bdnz (decFmtBC x))
  | 77 => some (.jl (decFmtBL x))
  | 78 => some (.jlx (decFmtBL x))
  | _ => none

/-- Opcodes of the L class (R163). -/
def opL (opc : BitVec 7) (x : BitVec 40) : Option Instr :=
  match opc.toNat with
  | 0 => some (.ldB (decFmtLH x))
  | 1 => some (.ldBu (decFmtLH x))
  | 2 => some (.ldH (decFmtLH x))
  | 3 => some (.ldHu (decFmtLH x))
  | 4 => some (.ldW (decFmtLH x))
  | 5 => some (.ldWu (decFmtLH x))
  | 6 => some (.ldD (decFmtLH x))
  | 8 => some (.stB (decFmtLH x))
  | 9 => some (.stH (decFmtLH x))
  | 10 => some (.stW (decFmtLH x))
  | 11 => some (.stD (decFmtLH x))
  | 16 => some (.ldsB (decFmtLS x))
  | 17 => some (.ldsBu (decFmtLS x))
  | 18 => some (.ldsH (decFmtLS x))
  | 19 => some (.ldsHu (decFmtLS x))
  | 20 => some (.ldsW (decFmtLS x))
  | 21 => some (.ldsWu (decFmtLS x))
  | 22 => some (.ldsD (decFmtLS x))
  | 24 => some (.stsB (decFmtLS x))
  | 25 => some (.stsH (decFmtLS x))
  | 26 => some (.stsW (decFmtLS x))
  | 27 => some (.stsD (decFmtLS x))
  | 32 => some (.aadd (decFmtLA x))
  | 33 => some (.amin (decFmtLA x))
  | 34 => some (.amax (decFmtLA x))
  | 35 => some (.aminu (decFmtLA x))
  | 36 => some (.amaxu (decFmtLA x))
  | 37 => some (.aand (decFmtLA x))
  | 38 => some (.aor (decFmtLA x))
  | 39 => some (.axor (decFmtLA x))
  | 40 => some (.aswp (decFmtLA x))
  | 41 => some (.acas (decFmtLA x))
  | 42 => some (.afadd (decFmtLA x))
  | 43 => some (.abadd (decFmtLA x))
  | 48 => some (.xlate (decFmtLX x))
  | 49 => some (.hrel (decFmtLX x))
  | 52 => some (.ldpW (decFmtLP x))
  | 53 => some (.ldpD (decFmtLP x))
  | _ => none

/-- Opcodes of the X class (R164). -/
def opX (opc : BitVec 7) (x : BitVec 40) : Option Instr :=
  match opc.toNat with
  | 0 => some (.xget (decFmtXF x))
  | 1 => some (.xgetd (decFmtXF x))
  | 2 => some (.xput (decFmtXF x))
  | 3 => some (.xputd (decFmtXF x))
  | 4 => some (.xbcst (decFmtXF x))
  | 5 => some (.xxch (decFmtXF x))
  | _ => none

/-- Opcodes of the vector class (R165). -/
def opV (opc : BitVec 7) (x : BitVec 40) : Option Instr :=
  match opc.toNat with
  | 0 => some (.vadd (decFmtV3 x))
  | 1 => some (.vsub (decFmtV3 x))
  | 2 => some (.vmul (decFmtV3 x))
  | 3 => some (.vfma (decFmtV3 x))
  | 4 => some (.vfms (decFmtV3 x))
  | 5 => some (.vfnma (decFmtV3 x))
  | 6 => some (.vdiv (decFmtV3 x))
  | 7 => some (.vsqrt (decFmtV3 x))
  | 8 => some (.vmin (decFmtV3 x))
  | 9 => some (.vmax (decFmtV3 x))
  | 10 => some (.vabs (decFmtV3 x))
  | 11 => some (.vneg (decFmtV3 x))
  | 12 => some (.vceq (decFmtV3 x))
  | 13 => some (.vclt (decFmtV3 x))
  | 14 => some (.vcle (decFmtV3 x))
  | 15 => some (.vcun (decFmtV3 x))
  | 16 => some (.viadd (decFmtV3 x))
  | 17 => some (.visub (decFmtV3 x))
  | 18 => some (.vimul (decFmtV3 x))
  | 19 => some (.vimulh (decFmtV3 x))
  | 20 => some (.vimin (decFmtV3 x))
  | 21 => some (.vimax (decFmtV3 x))
  | 22 => some (.viabs (decFmtV3 x))
  | 23 => some (.vshl (decFmtV3 x))
  | 24 => some (.vshr (decFmtV3 x))
  | 25 => some (.viceq (decFmtV3 x))
  | 26 => some (.viclt (decFmtV3 x))
  | 27 => some (.vicle (decFmtV3 x))
  | 28 => some (.vand (decFmtV3 x))
  | 29 => some (.vor (decFmtV3 x))
  | 30 => some (.vxor (decFmtV3 x))
  | 31 => some (.vandn (decFmtV3 x))
  | 32 => some (.vsel (decFmtV3 x))
  | 33 => some (.vmov (decFmtV3 x))
  | 40 => some (.vcvtF32 (decFmtVU x))
  | 41 => some (.vcvtBf16 (decFmtVU x))
  | 42 => some (.vcvtFp16 (decFmtVU x))
  | 43 => some (.vcvtE4m3 (decFmtVU x))
  | 44 => some (.vcvtE5m2 (decFmtVU x))
  | 45 => some (.vcvtE2m1 (decFmtVU x))
  | 46 => some (.vcvtVq2 (decFmtVU x))
  | 47 => some (.vcvtI32 (decFmtVU x))
  | 48 => some (.vcvtI16 (decFmtVU x))
  | 49 => some (.vcvtI8 (decFmtVU x))
  | 50 => some (.vcvtI4 (decFmtVU x))
  | 51 => some (.vcvtN32 (decFmtVU x))
  | 52 => some (.vcvtN16 (decFmtVU x))
  | 53 => some (.vcvtN8 (decFmtVU x))
  | 56 => some (.vrsum (decFmtVU x))
  | 57 => some (.vrmin (decFmtVU x))
  | 58 => some (.vrmax (decFmtVU x))
  | 59 => some (.vrisum (decFmtVU x))
  | 60 => some (.vscan (decFmtVU x))
  | 61 => some (.viscan (decFmtVU x))
  | 62 => some (.vnzs (decFmtVU x))
  | 63 => some (.vnzc (decFmtVU x))
  | 64 => some (.vperm (decFmtV3 x))
  | 65 => some (.vrot (decFmtVU x))
  | 66 => some (.vbcst (decFmtVU x))
  | k => if 96 ≤ k then some (.vbop (decFmtOB opc x)) else none

/-- Opcodes of the G class (R167). -/
def opG (opc : BitVec 7) (x : BitVec 40) : Option Instr :=
  match opc.toNat with
  | 0 => some (.vld (decFmtGS x))
  | 1 => some (.vst (decFmtGS x))
  | 2 => some (.vgath (decFmtGS x))
  | 3 => some (.vscat (decFmtGS x))
  | 8 => some (.vlda (decFmtGA x))
  | 9 => some (.vsta (decFmtGA x))
  | 10 => some (.vldc (decFmtGA x))
  | 16 => some (.vldh (decFmtGH x))
  | 17 => some (.vsth (decFmtGH x))
  | 18 => some (.vgathh (decFmtGH x))
  | 19 => some (.vscath (decFmtGH x))
  | 20 => some (.vldhPm4 (decFmtGH x))
  | 21 => some (.vsthPm4 (decFmtGH x))
  | 22 => some (.vgathhPm4 (decFmtGH x))
  | 23 => some (.vscathPm4 (decFmtGH x))
  | _ => none

/-- Opcodes of the engine class (R168). -/
noncomputable def opE (opc : BitVec 7) (x : BitVec 40) (l : Lit) : Option Instr :=
  match opc.toNat with
  | 0 => some (.talloc (decFmtET x))
  | 1 => some (.tfree (decFmtET x))
  | 2 => some (.tzero (decFmtET x))
  | 3 => some (.tstat (decFmtET x))
  | 4 => some (.mlatch (decFmtET x))
  | 5 => some (.mma (decFmtET x))
  | 6 => some (.mmas (decFmtET x))
  | 7 => some (.mmaX ⟨decFmtET x, l⟩)
  | 8 => some (.mmasX ⟨decFmtET x, l⟩)
  | 9 => some (.tdrain ⟨decFmtEC x, l⟩)
  | 10 => some (.tdraink ⟨decFmtEC x, l⟩)
  | 11 => some (.tcvt (decFmtET x))
  | 12 => some (.tmov (decFmtET x))
  | 13 => some (.txpose (decFmtET x))
  | 14 => some (.trowp (decFmtET x))
  | 15 => some (.twait (decFmtET x))
  | 16 => some (.cpy ⟨decFmtEC x, l⟩)
  | 17 => some (.cpym ⟨decFmtEC x, l⟩)
  | 18 => some (.cpyi ⟨decFmtEC x, l⟩)
  | 19 => if x.extractLsb' 9 1 = 0 then some (.cpysTo ⟨decFmtEC x, l⟩) else some (.cpysFrom ⟨decFmtEC x, l⟩)
  | 20 => some (.cpyf ⟨decFmtEC x, l⟩)
  | 21 => some (.cpyg ⟨decFmtEC x, l⟩)
  | 22 => some (.cpysc ⟨decFmtEC x, l⟩)
  | 23 => some (.cpyq (decFmtEA x))
  | 24 => some (.sqgo (decFmtEA x))
  | 25 => some (.sqwait (decFmtEA x))
  | 26 => some (.sqkill (decFmtEA x))
  | 27 => some (.sqstat (decFmtEA x))
  | 28 => some (.sfpool ⟨decFmtEC x, l⟩)
  | 29 => some (.sfplan (decFmtEA x))
  | 30 => some (.sfstat (decFmtEA x))
  | 32 => some (.acq (decFmtEA x))
  | 33 => some (.rel (decFmtEA x))
  | 34 => some (.fence (decFmtEA x))
  | 35 => some (.bar (decFmtEA x))
  | 36 => some (.bara (decFmtEA x))
  | 37 => some (.barw (decFmtEA x))
  | 38 => some (.frd (decFmtEA x))
  | 39 => some (.ffill (decFmtEA x))
  | 40 => some (.pwr (decFmtEA x))
  | 41 => some (.prd (decFmtEA x))
  | 42 => some (.wait (decFmtEA x))
  | 43 => some (.yield (decFmtEA x))
  | 44 => some (.endR (decFmtEA x))
  | 45 => some (.launch (decFmtEA x))
  | 48 => some (.trap (decFmtEA x))
  | 49 => some (.rett (decFmtEA x))
  | 50 => some (.mfsr (decFmtEA x))
  | 51 => some (.mtsr (decFmtEA x))
  | 52 => some (.ifence (decFmtEA x))
  | 53 => some (.rdclk (decFmtEA x))
  | 54 => some (.rdid (decFmtEA x))
  | 55 => some (.setrm (decFmtEA x))
  | 56 => some (.rdff (decFmtEA x))
  | 57 => some (.clrff (decFmtEA x))
  | 58 => some (.brk (decFmtEA x))
  | 59 => some (.pwsz (decFmtEA x))
  | 64 => some (.bind (decFmtEA x))
  | 65 => some (.unbind (decFmtEA x))
  | 66 => some (.bindq (decFmtEA x))
  | 67 => some (.csload (decFmtEA x))
  | 68 => some (.csinv (decFmtEA x))
  | 69 => some (.csfence (decFmtEA x))
  | 72 => some (.nextblk (decFmtEA x))
  | 73 => some (.impr (decFmtEA x))
  | 74 => if x.extractLsb' 0 11 = 0 then some (.impwCommit (decFmtEA x)) else some (.impw (decFmtEA x))
  | 75 => some (.gclaim (decFmtEA x))
  | 76 => some (.gdone (decFmtEA x))
  | 77 => some (.handov (decFmtEA x))
  | k => if 96 ≤ k then some (.ebop (decFmtOB opc x)) else none

/-- R54, R168: does this E opcode take a literal syllable? -/
def takesLiteral (opc : BitVec 7) : Bool :=
  let k := opc.toNat
  k = 7 || k = 8 || k = 9 || k = 10 || (16 ≤ k && k ≤ 22) || k = 28

/-- Slot code of a syllable (R52). -/
def slotOf (w : Syll) : BitVec 3 := w.extractLsb' 60 3
/-- Stop bit of a syllable (R52). -/
def stopOf (w : Syll) : Bool := w.extractLsb' 63 1 = 1
/-- Guard field of a syllable (R57). -/
def guardOf (w : Syll) : BitVec 13 := w.extractLsb' 47 13
/-- Opcode of a syllable (R52). -/
def opcOf (w : Syll) : BitVec 7 := w.extractLsb' 40 7
/-- Operand bits of a syllable (R52). -/
def opdOf (w : Syll) : BitVec 40 := w.extractLsb' 0 40

/-- The opcode space of a slot code (R149). -/
noncomputable def opInstr (slot : BitVec 3) (opc : BitVec 7) (x : BitVec 40) (l : Lit) : Option Instr :=
  match slot.toNat with
  | 0 => opS opc x
  | 1 => opS opc x
  | 2 => opL opc x
  | 3 => opV opc x
  | 4 => opV opc x
  | 5 => opG opc x
  | 6 => opX opc x
  | _ => opE opc x l

/-- An encoded instruction: first slot code of its class, opcode, operand bits and literal. -/
structure Enc where
  slot : BitVec 3
  opc : BitVec 7
  opd : BitVec 40
  lit : Option Lit := none
  deriving DecidableEq, Repr, Inhabited

/-- The encoding of a native instruction under R155 to R168; micro-ops and events have no syllable. -/
def Instr.enc : Instr → Option Enc
  | .add o => some { slot := 0, opc := 0, opd := encFmtSR o }
  | .sub o => some { slot := 0, opc := 1, opd := encFmtSR o }
  | .andR o => some { slot := 0, opc := 2, opd := encFmtSR o }
  | .orR o => some { slot := 0, opc := 3, opd := encFmtSR o }
  | .xorR o => some { slot := 0, opc := 4, opd := encFmtSR o }
  | .andn o => some { slot := 0, opc := 5, opd := encFmtSR o }
  | .orn o => some { slot := 0, opc := 6, opd := encFmtSR o }
  | .xnor o => some { slot := 0, opc := 7, opd := encFmtSR o }
  | .sll o => some { slot := 0, opc := 8, opd := encFmtSR o }
  | .srl o => some { slot := 0, opc := 9, opd := encFmtSR o }
  | .sra o => some { slot := 0, opc := 10, opd := encFmtSR o }
  | .rol o => some { slot := 0, opc := 11, opd := encFmtSR o }
  | .ror o => some { slot := 0, opc := 12, opd := encFmtSR o }
  | .slt o => some { slot := 0, opc := 13, opd := encFmtSR o }
  | .sltu o => some { slot := 0, opc := 14, opd := encFmtSR o }
  | .seq o => some { slot := 0, opc := 15, opd := encFmtSR o }
  | .sne o => some { slot := 0, opc := 16, opd := encFmtSR o }
  | .min o => some { slot := 0, opc := 17, opd := encFmtSR o }
  | .max o => some { slot := 0, opc := 18, opd := encFmtSR o }
  | .minu o => some { slot := 0, opc := 19, opd := encFmtSR o }
  | .maxu o => some { slot := 0, opc := 20, opd := encFmtSR o }
  | .sel o => some { slot := 0, opc := 21, opd := encFmtSR o }
  | .mul o => some { slot := 0, opc := 22, opd := encFmtSR o }
  | .mulh o => some { slot := 0, opc := 23, opd := encFmtSR o }
  | .mulhu o => some { slot := 0, opc := 24, opd := encFmtSR o }
  | .divS o => some { slot := 0, opc := 25, opd := encFmtSR o }
  | .divu o => some { slot := 0, opc := 26, opd := encFmtSR o }
  | .remS o => some { slot := 0, opc := 27, opd := encFmtSR o }
  | .remu o => some { slot := 0, opc := 28, opd := encFmtSR o }
  | .addw o => some { slot := 0, opc := 29, opd := encFmtSR o }
  | .subw o => some { slot := 0, opc := 30, opd := encFmtSR o }
  | .mulw o => some { slot := 0, opc := 31, opd := encFmtSR o }
  | .clz o => some { slot := 0, opc := 32, opd := encFmtSR o }
  | .ctz o => some { slot := 0, opc := 33, opd := encFmtSR o }
  | .popc o => some { slot := 0, opc := 34, opd := encFmtSR o }
  | .brev o => some { slot := 0, opc := 35, opd := encFmtSR o }
  | .bswap o => some { slot := 0, opc := 36, opd := encFmtSR o }
  | .absR o => some { slot := 0, opc := 37, opd := encFmtSR o }
  | .ext o => some { slot := 0, opc := 38, opd := encFmtSF o }
  | .extu o => some { slot := 0, opc := 39, opd := encFmtSF o }
  | .ins o => some { slot := 0, opc := 40, opd := encFmtSF o }
  | .addi o => some { slot := 0, opc := 41, opd := encFmtSI o }
  | .andi o => some { slot := 0, opc := 42, opd := encFmtSI o }
  | .ori o => some { slot := 0, opc := 43, opd := encFmtSI o }
  | .xori o => some { slot := 0, opc := 44, opd := encFmtSI o }
  | .slli o => some { slot := 0, opc := 45, opd := encFmtSI o }
  | .srli o => some { slot := 0, opc := 46, opd := encFmtSI o }
  | .srai o => some { slot := 0, opc := 47, opd := encFmtSI o }
  | .slti o => some { slot := 0, opc := 48, opd := encFmtSI o }
  | .sltui o => some { slot := 0, opc := 49, opd := encFmtSI o }
  | .addpc o => some { slot := 0, opc := 50, opd := encFmtSI o }
  | .li o => some { slot := 0, opc := 51, opd := encFmtSW o }
  | .lih o => some { slot := 0, opc := 52, opd := encFmtSW o }
  | .beq o => some { slot := 1, opc := 64, opd := encFmtBC o }
  | .bne o => some { slot := 1, opc := 65, opd := encFmtBC o }
  | .blt o => some { slot := 1, opc := 66, opd := encFmtBC o }
  | .bge o => some { slot := 1, opc := 67, opd := encFmtBC o }
  | .bltu o => some { slot := 1, opc := 68, opd := encFmtBC o }
  | .bgeu o => some { slot := 1, opc := 69, opd := encFmtBC o }
  | .beqi o => some { slot := 1, opc := 70, opd := encFmtBK o }
  | .bnei o => some { slot := 1, opc := 71, opd := encFmtBK o }
  | .blti o => some { slot := 1, opc := 72, opd := encFmtBK o }
  | .bgei o => some { slot := 1, opc := 73, opd := encFmtBK o }
  | .btR o => some { slot := 1, opc := 74, opd := encFmtBT o }
  | .bsw o => some { slot := 1, opc := 75, opd := encFmtBT o }
  | .bdnz o => some { slot := 1, opc := 76, opd := encFmtBC o }
  | .jl o => some { slot := 1, opc := 77, opd := encFmtBL o }
  | .jlx o => some { slot := 1, opc := 78, opd := encFmtBL o }
  | .ldB o => some { slot := 2, opc := 0, opd := encFmtLH o }
  | .ldBu o => some { slot := 2, opc := 1, opd := encFmtLH o }
  | .ldH o => some { slot := 2, opc := 2, opd := encFmtLH o }
  | .ldHu o => some { slot := 2, opc := 3, opd := encFmtLH o }
  | .ldW o => some { slot := 2, opc := 4, opd := encFmtLH o }
  | .ldWu o => some { slot := 2, opc := 5, opd := encFmtLH o }
  | .ldD o => some { slot := 2, opc := 6, opd := encFmtLH o }
  | .stB o => some { slot := 2, opc := 8, opd := encFmtLH o }
  | .stH o => some { slot := 2, opc := 9, opd := encFmtLH o }
  | .stW o => some { slot := 2, opc := 10, opd := encFmtLH o }
  | .stD o => some { slot := 2, opc := 11, opd := encFmtLH o }
  | .ldsB o => some { slot := 2, opc := 16, opd := encFmtLS o }
  | .ldsBu o => some { slot := 2, opc := 17, opd := encFmtLS o }
  | .ldsH o => some { slot := 2, opc := 18, opd := encFmtLS o }
  | .ldsHu o => some { slot := 2, opc := 19, opd := encFmtLS o }
  | .ldsW o => some { slot := 2, opc := 20, opd := encFmtLS o }
  | .ldsWu o => some { slot := 2, opc := 21, opd := encFmtLS o }
  | .ldsD o => some { slot := 2, opc := 22, opd := encFmtLS o }
  | .stsB o => some { slot := 2, opc := 24, opd := encFmtLS o }
  | .stsH o => some { slot := 2, opc := 25, opd := encFmtLS o }
  | .stsW o => some { slot := 2, opc := 26, opd := encFmtLS o }
  | .stsD o => some { slot := 2, opc := 27, opd := encFmtLS o }
  | .aadd o => some { slot := 2, opc := 32, opd := encFmtLA o }
  | .amin o => some { slot := 2, opc := 33, opd := encFmtLA o }
  | .amax o => some { slot := 2, opc := 34, opd := encFmtLA o }
  | .aminu o => some { slot := 2, opc := 35, opd := encFmtLA o }
  | .amaxu o => some { slot := 2, opc := 36, opd := encFmtLA o }
  | .aand o => some { slot := 2, opc := 37, opd := encFmtLA o }
  | .aor o => some { slot := 2, opc := 38, opd := encFmtLA o }
  | .axor o => some { slot := 2, opc := 39, opd := encFmtLA o }
  | .aswp o => some { slot := 2, opc := 40, opd := encFmtLA o }
  | .acas o => some { slot := 2, opc := 41, opd := encFmtLA o }
  | .afadd o => some { slot := 2, opc := 42, opd := encFmtLA o }
  | .abadd o => some { slot := 2, opc := 43, opd := encFmtLA o }
  | .xlate o => some { slot := 2, opc := 48, opd := encFmtLX o }
  | .handleWalkComplete _ => none
  | .hrel o => some { slot := 2, opc := 49, opd := encFmtLX o }
  | .ldpW o => some { slot := 2, opc := 52, opd := encFmtLP o }
  | .ldpD o => some { slot := 2, opc := 53, opd := encFmtLP o }
  | .xget o => some { slot := 6, opc := 0, opd := encFmtXF o }
  | .xgetd o => some { slot := 6, opc := 1, opd := encFmtXF o }
  | .xput o => some { slot := 6, opc := 2, opd := encFmtXF o }
  | .xputd o => some { slot := 6, opc := 3, opd := encFmtXF o }
  | .xbcst o => some { slot := 6, opc := 4, opd := encFmtXF o }
  | .xxch o => some { slot := 6, opc := 5, opd := encFmtXF o }
  | .vadd o => some { slot := 3, opc := 0, opd := encFmtV3 o }
  | .vsub o => some { slot := 3, opc := 1, opd := encFmtV3 o }
  | .vmul o => some { slot := 3, opc := 2, opd := encFmtV3 o }
  | .vfma o => some { slot := 3, opc := 3, opd := encFmtV3 o }
  | .vfms o => some { slot := 3, opc := 4, opd := encFmtV3 o }
  | .vfnma o => some { slot := 3, opc := 5, opd := encFmtV3 o }
  | .vdiv o => some { slot := 3, opc := 6, opd := encFmtV3 o }
  | .vsqrt o => some { slot := 3, opc := 7, opd := encFmtV3 o }
  | .vmin o => some { slot := 3, opc := 8, opd := encFmtV3 o }
  | .vmax o => some { slot := 3, opc := 9, opd := encFmtV3 o }
  | .vabs o => some { slot := 3, opc := 10, opd := encFmtV3 o }
  | .vneg o => some { slot := 3, opc := 11, opd := encFmtV3 o }
  | .vceq o => some { slot := 3, opc := 12, opd := encFmtV3 o }
  | .vclt o => some { slot := 3, opc := 13, opd := encFmtV3 o }
  | .vcle o => some { slot := 3, opc := 14, opd := encFmtV3 o }
  | .vcun o => some { slot := 3, opc := 15, opd := encFmtV3 o }
  | .viadd o => some { slot := 3, opc := 16, opd := encFmtV3 o }
  | .visub o => some { slot := 3, opc := 17, opd := encFmtV3 o }
  | .vimul o => some { slot := 3, opc := 18, opd := encFmtV3 o }
  | .vimulh o => some { slot := 3, opc := 19, opd := encFmtV3 o }
  | .vimin o => some { slot := 3, opc := 20, opd := encFmtV3 o }
  | .vimax o => some { slot := 3, opc := 21, opd := encFmtV3 o }
  | .viabs o => some { slot := 3, opc := 22, opd := encFmtV3 o }
  | .vshl o => some { slot := 3, opc := 23, opd := encFmtV3 o }
  | .vshr o => some { slot := 3, opc := 24, opd := encFmtV3 o }
  | .viceq o => some { slot := 3, opc := 25, opd := encFmtV3 o }
  | .viclt o => some { slot := 3, opc := 26, opd := encFmtV3 o }
  | .vicle o => some { slot := 3, opc := 27, opd := encFmtV3 o }
  | .vand o => some { slot := 3, opc := 28, opd := encFmtV3 o }
  | .vor o => some { slot := 3, opc := 29, opd := encFmtV3 o }
  | .vxor o => some { slot := 3, opc := 30, opd := encFmtV3 o }
  | .vandn o => some { slot := 3, opc := 31, opd := encFmtV3 o }
  | .vsel o => some { slot := 3, opc := 32, opd := encFmtV3 o }
  | .vmov o => some { slot := 3, opc := 33, opd := encFmtV3 o }
  | .vperm o => some { slot := 3, opc := 64, opd := encFmtV3 o }
  | .vrot o => some { slot := 3, opc := 65, opd := encFmtVU o }
  | .vbcst o => some { slot := 3, opc := 66, opd := encFmtVU o }
  | .vcvtF32 o => some { slot := 3, opc := 40, opd := encFmtVU o }
  | .vcvtBf16 o => some { slot := 3, opc := 41, opd := encFmtVU o }
  | .vcvtFp16 o => some { slot := 3, opc := 42, opd := encFmtVU o }
  | .vcvtE4m3 o => some { slot := 3, opc := 43, opd := encFmtVU o }
  | .vcvtE5m2 o => some { slot := 3, opc := 44, opd := encFmtVU o }
  | .vcvtE2m1 o => some { slot := 3, opc := 45, opd := encFmtVU o }
  | .vcvtVq2 o => some { slot := 3, opc := 46, opd := encFmtVU o }
  | .vcvtI32 o => some { slot := 3, opc := 47, opd := encFmtVU o }
  | .vcvtI16 o => some { slot := 3, opc := 48, opd := encFmtVU o }
  | .vcvtI8 o => some { slot := 3, opc := 49, opd := encFmtVU o }
  | .vcvtI4 o => some { slot := 3, opc := 50, opd := encFmtVU o }
  | .vcvtN32 o => some { slot := 3, opc := 51, opd := encFmtVU o }
  | .vcvtN16 o => some { slot := 3, opc := 52, opd := encFmtVU o }
  | .vcvtN8 o => some { slot := 3, opc := 53, opd := encFmtVU o }
  | .vrsum o => some { slot := 3, opc := 56, opd := encFmtVU o }
  | .vrmin o => some { slot := 3, opc := 57, opd := encFmtVU o }
  | .vrmax o => some { slot := 3, opc := 58, opd := encFmtVU o }
  | .vrisum o => some { slot := 3, opc := 59, opd := encFmtVU o }
  | .vscan o => some { slot := 3, opc := 60, opd := encFmtVU o }
  | .viscan o => some { slot := 3, opc := 61, opd := encFmtVU o }
  | .vnzs o => some { slot := 3, opc := 62, opd := encFmtVU o }
  | .vnzc o => some { slot := 3, opc := 63, opd := encFmtVU o }
  | .vbop o => some { slot := 3, opc := 3#2 ++ o.opx, opd := o.opd }
  | .vld o => some { slot := 5, opc := 0, opd := encFmtGS o }
  | .vst o => some { slot := 5, opc := 1, opd := encFmtGS o }
  | .vgath o => some { slot := 5, opc := 2, opd := encFmtGS o }
  | .vscat o => some { slot := 5, opc := 3, opd := encFmtGS o }
  | .vlda o => some { slot := 5, opc := 8, opd := encFmtGA o }
  | .vsta o => some { slot := 5, opc := 9, opd := encFmtGA o }
  | .vldc o => some { slot := 5, opc := 10, opd := encFmtGA o }
  | .vldh o => some { slot := 5, opc := 16, opd := encFmtGH o }
  | .vsth o => some { slot := 5, opc := 17, opd := encFmtGH o }
  | .vgathh o => some { slot := 5, opc := 18, opd := encFmtGH o }
  | .vscath o => some { slot := 5, opc := 19, opd := encFmtGH o }
  | .vldhPm4 o => some { slot := 5, opc := 20, opd := encFmtGH o }
  | .vsthPm4 o => some { slot := 5, opc := 21, opd := encFmtGH o }
  | .vgathhPm4 o => some { slot := 5, opc := 22, opd := encFmtGH o }
  | .vscathPm4 o => some { slot := 5, opc := 23, opd := encFmtGH o }
  | .resultLanding _ => none
  | .ldCompletion _ _ _ => none
  | .stCompletion _ _ => none
  | .talloc o => some { slot := 7, opc := 0, opd := encFmtET o }
  | .tfree o => some { slot := 7, opc := 1, opd := encFmtET o }
  | .tzero o => some { slot := 7, opc := 2, opd := encFmtET o }
  | .tstat o => some { slot := 7, opc := 3, opd := encFmtET o }
  | .twait o => some { slot := 7, opc := 15, opd := encFmtET o }
  | .mlatch o => some { slot := 7, opc := 4, opd := encFmtET o }
  | .mma o => some { slot := 7, opc := 5, opd := encFmtET o }
  | .mmas o => some { slot := 7, opc := 6, opd := encFmtET o }
  | .mmaX o => some { slot := 7, opc := 7, opd := encFmtET o.o, lit := some o.lit }
  | .mmasX o => some { slot := 7, opc := 8, opd := encFmtET o.o, lit := some o.lit }
  | .matrixOperationStart _ => none
  | .streamFault _ => none
  | .trowp o => some { slot := 7, opc := 14, opd := encFmtET o }
  | .tcvt o => some { slot := 7, opc := 11, opd := encFmtET o }
  | .tmov o => some { slot := 7, opc := 12, opd := encFmtET o }
  | .txpose o => some { slot := 7, opc := 13, opd := encFmtET o }
  | .tdrain o => some { slot := 7, opc := 9, opd := encFmtEC o.o, lit := some o.lit }
  | .tdraink o => some { slot := 7, opc := 10, opd := encFmtEC o.o, lit := some o.lit }
  | .tileCommandCompletion _ => none
  | .cpy o => some { slot := 7, opc := 16, opd := encFmtEC o.o, lit := some o.lit }
  | .cpym o => some { slot := 7, opc := 17, opd := encFmtEC o.o, lit := some o.lit }
  | .cpyi o => some { slot := 7, opc := 18, opd := encFmtEC o.o, lit := some o.lit }
  | .cpysTo o => some { slot := 7, opc := 19, opd := encFmtEC o.o, lit := some o.lit }
  | .cpysFrom o => some { slot := 7, opc := 19, opd := encFmtEC o.o, lit := some o.lit }
  | .cpyf o => some { slot := 7, opc := 20, opd := encFmtEC o.o, lit := some o.lit }
  | .cpyg o => some { slot := 7, opc := 21, opd := encFmtEC o.o, lit := some o.lit }
  | .cpysc o => some { slot := 7, opc := 22, opd := encFmtEC o.o, lit := some o.lit }
  | .cpyq o => some { slot := 7, opc := 23, opd := encFmtEA o }
  | .sqgo o => some { slot := 7, opc := 24, opd := encFmtEA o }
  | .sqwait o => some { slot := 7, opc := 25, opd := encFmtEA o }
  | .sqwaitPoll _ => none
  | .sqkill o => some { slot := 7, opc := 26, opd := encFmtEA o }
  | .sqstat o => some { slot := 7, opc := 27, opd := encFmtEA o }
  | .commandStart _ _ => none
  | .copyCommandCompletion _ => none
  | .engineTranslationFault _ => none
  | .sfpool o => some { slot := 7, opc := 28, opd := encFmtEC o.o, lit := some o.lit }
  | .poolingCompletion _ => none
  | .sfplan o => some { slot := 7, opc := 29, opd := encFmtEA o }
  | .hotSegmentLoad _ _ => none
  | .sfstat o => some { slot := 7, opc := 30, opd := encFmtEA o }
  | .acq o => some { slot := 7, opc := 32, opd := encFmtEA o }
  | .rel o => some { slot := 7, opc := 33, opd := encFmtEA o }
  | .fence o => some { slot := 7, opc := 34, opd := encFmtEA o }
  | .bar o => some { slot := 7, opc := 35, opd := encFmtEA o }
  | .bara o => some { slot := 7, opc := 36, opd := encFmtEA o }
  | .barw o => some { slot := 7, opc := 37, opd := encFmtEA o }
  | .frd o => some { slot := 7, opc := 38, opd := encFmtEA o }
  | .ffill o => some { slot := 7, opc := 39, opd := encFmtEA o }
  | .pwr o => some { slot := 7, opc := 40, opd := encFmtEA o }
  | .prd o => some { slot := 7, opc := 41, opd := encFmtEA o }
  | .wait o => some { slot := 7, opc := 42, opd := encFmtEA o }
  | .yield o => some { slot := 7, opc := 43, opd := encFmtEA o }
  | .endR o => some { slot := 7, opc := 44, opd := encFmtEA o }
  | .strandRetirement _ => none
  | .batchCompletion _ => none
  | .launch o => some { slot := 7, opc := 45, opd := encFmtEA o }
  | .trap o => some { slot := 7, opc := 48, opd := encFmtEA o }
  | .rett o => some { slot := 7, opc := 49, opd := encFmtEA o }
  | .mfsr o => some { slot := 7, opc := 50, opd := encFmtEA o }
  | .mtsr o => some { slot := 7, opc := 51, opd := encFmtEA o }
  | .ifence o => some { slot := 7, opc := 52, opd := encFmtEA o }
  | .rdclk o => some { slot := 7, opc := 53, opd := encFmtEA o }
  | .rdid o => some { slot := 7, opc := 54, opd := encFmtEA o }
  | .setrm o => some { slot := 7, opc := 55, opd := encFmtEA o }
  | .rdff o => some { slot := 7, opc := 56, opd := encFmtEA o }
  | .clrff o => some { slot := 7, opc := 57, opd := encFmtEA o }
  | .brk o => some { slot := 7, opc := 58, opd := encFmtEA o }
  | .pwsz o => some { slot := 7, opc := 59, opd := encFmtEA o }
  | .bind o => some { slot := 7, opc := 64, opd := encFmtEA o }
  | .unbind o => some { slot := 7, opc := 65, opd := encFmtEA o }
  | .bindq o => some { slot := 7, opc := 66, opd := encFmtEA o }
  | .csload o => some { slot := 7, opc := 67, opd := encFmtEA o }
  | .controlStorePageLoaded _ _ => none
  | .csinv o => some { slot := 7, opc := 68, opd := encFmtEA o }
  | .csfence o => some { slot := 7, opc := 69, opd := encFmtEA o }
  | .nextblk o => some { slot := 7, opc := 72, opd := encFmtEA o }
  | .impr o => some { slot := 7, opc := 73, opd := encFmtEA o }
  | .impw o => some { slot := 7, opc := 74, opd := encFmtEA o }
  | .impwCommit o => some { slot := 7, opc := 74, opd := encFmtEA o }
  | .gclaim o => some { slot := 7, opc := 75, opd := encFmtEA o }
  | .gdone o => some { slot := 7, opc := 76, opd := encFmtEA o }
  | .handov o => some { slot := 7, opc := 77, opd := encFmtEA o }
  | .ebop o => some { slot := 7, opc := 3#2 ++ o.opx, opd := o.opd }
  | .microNext _ => none
  | .jump _ => none
  | .brt _ => none
  | .brf _ => none
  | .loop0 _ => none
  | .loop1 _ => none
  | .microCall _ => none
  | .microRet _ => none
  | .microEnd _ => none
  | .microTrap _ => none
  | .poll _ => none
  | .laneUnitLanding _ => none
  | .collectiveReceive _ _ _ => none
  | .instructionHalfFill _ _ => none
  | .schedulerPlacement _ => none
  | .startGateOpen _ => none
  | .tokenRefill _ => none
  | .candidateOverdue _ _ => none
  | .priorityPreemption _ => none
  | .preemptionRequest _ => none
  | .graceTimeExpiry _ => none
  | .killTimeExpiry _ => none
  | .replayableRecordPost => none
  | .recordConsumed _ _ _ => none
  | .resume _ _ => none
  | .vector _ _ => none
  | .kill _ _ => none
  | .unload _ _ => none
  | .regionAttributeWrite _ _ _ => none
  | .splinter _ => none
  | .invalidateMapping _ _ _ => none
  | .invalidationRetired _ => none
  | .bindingWrite _ _ _ => none
  | .schedulingTableWrite _ _ _ => none
  | .bandwidthWindow => none
  | .arbiterServe _ => none
  | .partitionCreate _ _ => none
  | .partitionGrow _ _ => none
  | .partitionShrink _ _ => none
  | .partitionDestroy _ => none
  | .sliceZeroed _ => none
  | .capabilityTableRewrite _ _ => none
  | .routeEntryWrite _ _ _ => none
  | .collectiveStoreWrite _ _ _ _ => none
  | .windowLengthSet _ _ => none
  | .timerSet _ _ _ => none
  | .tenantStop _ _ _ => none
  | .stopFinalPoint _ => none
  | .dirtyLogArm _ _ _ _ => none
  | .fabricWindowBoundary => none
  | .fabricAcknowledgement _ _ _ => none
  | .fabricUnitLost _ => none
  | .timeBaseLoss => none
  | .landingFailed _ => none
  | .landingRetrain _ => none
  | .ceilingStepDown => none
  | .ceilingStepUp => none
  | .thermalThrottle _ => none
  | .thermalStop _ => none
  | .operatingPointChange _ _ _ => none
  | .voltageSettled _ => none
  | .powerOn => none
  | .powerOff => none
  | .registerWrite _ _ => none
  | .remoteWriteArrival _ => none
  | .timeBaseRegained => none
  | .packagePowerRestore => none
  | .dirtyLogSlotFree _ _ => none

/-- R169, pass 1 for one syllable: an opcode of its class, allowed in its slot, within its limits,
every reserved bit zero (the encoder writes zeros there). `lit` is the literal's data, 0 without. -/
noncomputable def decodeSyll (w : Syll) (lit : Lit) : Except Reject Instr :=
  match opInstr (slotOf w) (opcOf w) (opdOf w) lit with
  | none => .error .illegalOpcode
  | some i =>
    if slotOf w = 0 && 64 ≤ (opcOf w).toNat then .error .branchInA0
    else if !i.wf then .error .limits
    else match i.enc with
      | some e => if e.opd = opdOf w then .ok i else .error .reservedBits
      | none => .error .illegalOpcode

/-- A syllable of instruction `i` in the slot it is given, with its literal syllable after it. The stop
bit stands in the last of the words (R52, R54). -/
def encodeAt (slot : BitVec 3) (stop : BitVec 1) (guard : BitVec 13) (i : Instr) : List Syll :=
  match i.enc with
  | none => []
  | some e =>
    match e.lit with
    | none => [stop ++ slot ++ guard ++ e.opc ++ e.opd]
    | some l => [0#1 ++ slot ++ guard ++ e.opc ++ e.opd, stop ++ 7#3 ++ l]

/-- The words of an instruction that stands alone, unguarded, in the first slot of its class. -/
def encode (i : Instr) : List Syll :=
  match i.enc with
  | none => []
  | some e => encodeAt e.slot 1 0 i

/-- Is the instruction a native one, with an encoding as a syllable? -/
def Instr.native (i : Instr) : Bool := i.enc.isSome

/-- A bindable opcode (R166). -/
def isBindable (w : Syll) : Bool :=
  (slotOf w = 3 || slotOf w = 4 || slotOf w = 7) && 96 ≤ (opcOf w).toNat

/-- R54: strictly ascending slot codes, a literal only as the last syllable directly after an E
syllable that takes one. `prev` is the slot code before, 0 standing for none as slot + 1. -/
def bundleForm (prev : Nat) : List Syll → Bool
  | [] => false
  | [w] =>
    prev ≤ (slotOf w).toNat && stopOf w && !(slotOf w = 7 && takesLiteral (opcOf w))
  | w :: l :: rest =>
    prev ≤ (slotOf w).toNat && !stopOf w &&
      (if slotOf w = 7 then
        takesLiteral (opcOf w) && rest.isEmpty && stopOf l && slotOf l = 7
      else bundleForm ((slotOf w).toNat + 1) (l :: rest))

/-- The syllables of a well-formed run, in ascending slot order, each against R169; `bound` says that one before them is
bindable, so that another bindable opcode fails (R169, R170). -/
noncomputable def decodeRun (bound : Bool) : List Syll → Except (Reject × Syll) (List Syllable)
  | [] => .ok []
  | w :: rest =>
    if bound && isBindable w then .error (.twoBindable, w) else
    let takes := slotOf w = 7 && takesLiteral (opcOf w)
    let lit : Lit := if takes then (rest.headD 0).extractLsb' 0 60 else 0
    match decodeSyll w lit with
    | .error r => .error (r, w)
    | .ok i =>
      if takes then .ok [⟨slotOf w, guardOf w, i, w⟩]
      else match decodeRun (bound || isBindable w) rest with
        | .error e => .error e
        | .ok ss => .ok (⟨slotOf w, guardOf w, i, w⟩ :: ss)

/-- R55, R169, R170: pass 1 over a bundle's run of syllables. A run that is not well-formed fails at its first syllable. -/
noncomputable def decodeBundle (run : List Syll) : Except (Reject × Syll) (List Syllable) :=
  if !(run.length ≤ 8 && bundleForm 0 run) then .error (.bundleForm, run.headD 0)
  else decodeRun false run

/-- The fields of a micro-word (R275). -/
def decMicroFields (w : BitVec 128) : MicroFields :=
  { tgt := w.extractLsb' 110 14, cnd := w.extractLsb' 104 6, tf3 := w.extractLsb' 78 26,
    tf2 := w.extractLsb' 52 26, tf1 := w.extractLsb' 26 26, tf0 := w.extractLsb' 0 26 }

/-- Micro-words by SEQ (R278); SEQ 11 to 15 raise a micro-word trap. -/
noncomputable def decodeMicro (w : BitVec 128) : Except Reject Instr :=
  let m := decMicroFields w
  match (w.extractLsb' 124 4).toNat with
  | 0 => .ok (.microNext m)
  | 1 => .ok (.jump m)
  | 2 => .ok (.brt m)
  | 3 => .ok (.brf m)
  | 4 => .ok (.loop0 m)
  | 5 => .ok (.loop1 m)
  | 6 => .ok (.microCall m)
  | 7 => .ok (.microRet m)
  | 8 => .ok (.microEnd m)
  | 9 => .ok (.microTrap m)
  | 10 => .ok (.poll m)
  | _ => .error .microSeq

/-- A micro-word's 128 bits (R275). -/
def encMicroFields (seq : BitVec 4) (m : MicroFields) : BitVec 128 :=
  seq ++ m.tgt ++ m.cnd ++ m.tf3 ++ m.tf2 ++ m.tf1 ++ m.tf0

/-- The micro-word of a micro-op. -/
def encodeMicro : Instr → Option (BitVec 128)
  | .microNext m => some (encMicroFields 0 m)
  | .jump m => some (encMicroFields 1 m)
  | .brt m => some (encMicroFields 2 m)
  | .brf m => some (encMicroFields 3 m)
  | .loop0 m => some (encMicroFields 4 m)
  | .loop1 m => some (encMicroFields 5 m)
  | .microCall m => some (encMicroFields 6 m)
  | .microRet m => some (encMicroFields 7 m)
  | .microEnd m => some (encMicroFields 8 m)
  | .microTrap m => some (encMicroFields 9 m)
  | .poll m => some (encMicroFields 10 m)
  | _ => none

/-- Word `k` of a bit string numbered from its first word's least significant bit. -/
def tableWord (w k : Nat) : Syll := BitVec.ofNat 64 (w / 2 ^ (64 * k))

/-- What the decoder reads from an instruction whose bits are `w`: the first syllable with the second
word as its literal; the stop bit is the bundle's and is not asked for. -/
noncomputable def decodeTableWord (nbits w : Nat) : Option Instr :=
  let w := w % 2 ^ nbits
  match decodeSyll (tableWord w 0) ((tableWord w 1).extractLsb' 0 60) with
  | .ok i => some i
  | .error _ => none

end Sys2Proof
end

