-- ==== Sys2Proof/Config.lean ====
section
/-! DEFINITION. What the spec leaves to the module or leaves open: opaque constants without a body, so
that no proof can see a value (log 7 to 10, 18). Those applied to a plain counter give a fresh value each
time `State.free` advances; the others are fixed for the module. -/

namespace Sys2Proof

/-- A word of the base region of the control store other than VSEL's and MLATCH's (R305; log 8). -/
opaque Config.baseWord : Nat → BitVec 128

/-- The highest frequency in MHz of an island at a voltage step (R18; log 8). -/
opaque Config.maxFreq : Nat → Nat → Nat

/-- Does the cluster cache write back this line now (R93, an eviction; log 7)? -/
opaque Config.evicts : Nat → Bool

/-- Does a fetch before IFENCE return the old syllable (R90; log 10)? -/
opaque Config.fetchesOld : Nat → Bool

/-- How many steps of the sum a raw C-tile read has seen (R405; log 9). -/
opaque Config.rawPrefix : Nat → Nat

/-- Bytes that a read from another device returns (R367; log 18). -/
opaque Config.remoteByte : Nat → BitVec 8

/-- A byte of the lattice table of a VQ2 operation that names none (R239; log 26). -/
opaque Config.noLattice : Nat → BitVec 8

/-- Is the module of stepping C0 rather than B1 (R1; log 8)? -/
opaque Config.steppingC0 : Bool

/-- The module's identity in its fabric domain (R361 key 5; log 8). -/
opaque Config.deviceId : BitVec 12

/-- Where the control complex places a partition's reach and binding tables in region 15 (R361 keys 15, 16; log 52). -/
opaque Config.tableSlot : Nat → Nat

/-- DX, BW and LT of an entry of the reach table, by 64 · cluster + slice (R92; log 8). -/
opaque Config.reach : Nat → BitVec 26

/-- Twice the bytes of 1/256 of what a copy engine moves in a bandwidth window (R324; log 8). -/
opaque Config.engineUnit2 : Nat

/-- Which line of a full cluster cache goes (R93; log 7). -/
opaque Config.victim : Nat → Nat

/-- Step counts of the base routines that the spec does not print: class, opcode, entry, steps (R305, R361 key
17; log 8). -/
opaque Config.baseRoutines : List (Nat × Nat × Nat × Nat)

/-- The port that a loss of the time base names in its record (R419; log 8). -/
opaque Config.lossPort : Nat → Nat

end Sys2Proof
end

