-- ==== Sys2Proof/Machine/State.lean ====
section
/-! DEFINITION. The whole machine as plain data: the device, its partitions, batches, gangs, strands,
cores, clusters and engine commands, and `State.reset`, the machine after steps 1 to 4 of the power-on
sequence of R369. INVENTORY.md lists every field with its rule and its reset value. -/

namespace Sys2Proof.Machine

/-- A memory or a register file: values at rising keys, none of them 0; an unlisted key reads 0. -/
abbrev Cells (w : Nat) := List (Nat × BitVec w)

/-- Records kept under an identity or an index, keys rising. -/
abbrev Table (α : Type) := List (Nat × α)

/-- The windows of a context (R34, word 0x28). -/
structure Windows where
  pl : Nat := 0
  wt : Nat := 0
  at_ : Nat := 0
  ct : Nat := 0
  sb : Nat := 0
  th : Nat := 0
  deriving DecidableEq, Repr, Inhabited

/-- A handle register (R101). -/
structure Handle where
  hs : BitVec 2 := 0
  ps : BitVec 3 := 0
  kd : BitVec 3 := 0
  pr : Bool := false
  pw : Bool := false
  pa : Bool := false
  pb : BitVec 40 := 0
  vb : BitVec 44 := 0
  rq : BitVec 3 := 0
  deriving DecidableEq, Repr, Inhabited

/-- A valid entry of the redirect queue (R69); RV is 1 by its being listed. -/
structure Redirect where
  rd : BitVec 2 := 0
  ra1 : Bool := false
  ra2 : Bool := false
  rt : BitVec 56 := 0
  deriving DecidableEq, Repr, Inhabited

/-- A reference to a plane line: window plane, direction and index (R63, R151). -/
structure LineRef where
  pn : BitVec 5 := 0
  dir : BitVec 2 := 0
  ix : BitVec 5 := 0
  deriving DecidableEq, Repr, Inhabited

/-- Where a result goes when it lands (R59, R75). A line result carries its 32 new elements and for
each the bits it writes (R152). -/
inductive Dest where
  | scalar (n : BitVec 6) (v : BitVec 64)
  | handle (n : BitVec 4) (h : Handle)
  | line (l : LineRef) (pm : BitVec 3) (vals masks : List (BitVec 32)) (tag : BitVec 4)
  | none
  deriving DecidableEq, Repr, Inhabited

/-- A result in flight (R59): it lands before the issue of step `due`. `walk` holds issue at the landing
step while an XLATE's or a parameter-window load's walk runs (R102, R193); `pre` marks results older
than a handler entry (R385). -/
structure Landing where
  due : Nat := 0
  origin : Nat := 0
  slot : BitVec 3 := 0
  dest : Dest := .none
  ff : BitVec 5 := 0
  wo : Bool := false
  pre : Bool := false
  walk : Bool := false
  deriving DecidableEq, Repr, Inhabited

/-- A place that a held load or store reaches: the lane it serves, kind, physical and virtual address, bytes. -/
structure HeldSpan where
  lane : Nat := 0
  kind : Nat := 0
  pa : Nat := 0
  va : Nat := 0
  n : Nat := 0
  deriving DecidableEq, Repr, Inhabited

/-- What an access does when its home performs it: an atomic; a scalar load to a register, from a handle or from a parameter window;
a load to a line, with item width, modifier and format; a store of a value; a store of a line's items. -/
inductive HeldWork where
  | atomic
  | load (d : BitVec 6) (signed : Bool)
  | window (d : BitVec 6)
  | line (l : LineRef) (w : Nat) (pm : BitVec 3) (ft : BitVec 4)
  | store (v : BitVec 64)
  | scatter (w : Nat) (pm : BitVec 3) (vals : List (BitVec 32))
  deriving DecidableEq, Repr, Inhabited

/-- An access that an arbiter or its home holds back (R326, R415). An atomic: opcode, memory key, 8-byte or 4-byte size, virtual
address, operands, acquire flag with scope. A load or a store: what it does and its places. For each its resource, its place in the
order of issue, which it shares with commands, and first byte and length of the page of its handle (R104). -/
structure HeldAccess where
  work : HeldWork := .atomic
  spans : List HeldSpan := []
  page : Nat × Nat := (0, 0)
  op : Nat := 0
  kind : Nat := 0
  pa : Nat := 0
  va : Nat := 0
  dbl : Bool := false
  b : BitVec 64 := 0
  c : BitVec 64 := 0
  ord : BitVec 5 := 0
  res : Nat := 0
  num : Nat := 0
  deriving DecidableEq, Repr, Inhabited

/-- An outstanding ld-class operation (R72): its result, the lanes still to be written, and the access
still to be performed when it is held (R326). -/
structure LdOp where
  dest : Dest := .none
  lanes : BitVec 32 := 0
  wo : Bool := false
  pre : Bool := false
  held : Option HeldAccess := .none
  deriving DecidableEq, Repr, Inhabited

/-- An outstanding st-class operation (R72): has it completed, and the access still held (R326). -/
structure StOp where
  done : Bool := false
  held : Option HeldAccess := .none
  deriving DecidableEq, Repr, Inhabited

/-- An outstanding tl-class operation (R72): the command, and has it finished? -/
structure TlOp where
  cmd : Nat := 0
  done : Bool := false
  deriving DecidableEq, Repr, Inhabited

/-- A tile-table entry (R86) with the writers and drains that wait to move it, in issue order (R87). Its TG is the
generation of the strand's window (R365; log 73). -/
structure Tile where
  ts : BitVec 2 := 0
  tk : BitVec 2 := 0
  bi : BitVec 5 := 0
  ft : BitVec 4 := 0
  rc : Nat := 0
  dc : Nat := 0
  pend : List Nat := []
  deriving DecidableEq, Repr, Inhabited

/-- QC (R86): the writers and drains that still wait to move the tile. -/
def Tile.qc (t : Tile) : Nat := t.pend.length

/-- A hold latch (R153, R154). -/
structure HoldLatch where
  hv : Bool := false
  pm : BitVec 3 := 0
  hx : BitVec 1 := 0
  hf : BitVec 11 := 0
  deriving DecidableEq, Repr, Inhabited

/-- A load group record (R296). -/
structure LoadGroup where
  gv : Bool := false
  gn : BitVec 5 := 0
  gma : BitVec 14 := 0
  gsrc : BitVec 44 := 0
  deriving DecidableEq, Repr, Inhabited

/-- A result of a lane unit on its way (R286): temporary or resolved line, value, flags. -/
structure LaneLanding where
  temp : Bool := true
  mt : BitVec 3 := 0
  line : LineRef := {}
  tag : BitVec 4 := 0
  vals : List (BitVec 32) := []
  ff : BitVec 5 := 0
  deriving DecidableEq, Repr, Inhabited

/-- The micro state of a context (R295, R283, R292), the temporaries at 32·i + lane, the landings of
lane units, and for each raw C-tile element the length of the prefix last returned (R405). -/
structure Micro where
  mv : Bool := false
  mc : BitVec 1 := 0
  mop : BitVec 5 := 0
  mpc : BitVec 14 := 0
  msn : Nat := 0
  msb : BitVec 12 := 0
  mra : BitVec 14 := 0
  cf : BitVec 8 := 0
  mf : BitVec 5 := 0
  rmu : BitVec 2 := 0
  opb : BitVec 40 := 0
  lc0 : BitVec 16 := 0
  lc1 : BitVec 16 := 0
  ag : Cells 64 := []
  lp : Cells 64 := []
  mt : Cells 32 := []
  pend : List LaneLanding := []
  raw : Table Nat := []
  /-- the routine was bound before the entry to the handler that its strand is in (R385) -/
  pre : Bool := false
  deriving DecidableEq, Repr, Inhabited

/-- The fault restart record of a streaming matrix operation (R401). -/
structure Restart where
  fv : Bool := false
  td : BitVec 5 := 0
  x : Bool := false
  fm : BitVec 4 := 0
  ord : BitVec 5 := 0
  desc : List (BitVec 64) := []
  lit : BitVec 60 := 0
  deriving DecidableEq, Repr, Inhabited

/-- A trap with what R379 to R395 give it. -/
structure Trap where
  cause : BitVec 16 := 0
  val : BitVec 64 := 0
  aux : BitVec 64 := 0
  mpc : BitVec 14 := 0
  slot : BitVec 3 := 0
  /-- raised by a RETT whose saved state is bad (R386) -/
  rett : Bool := false
  /-- raised by a step of a bound routine (R390) -/
  routine : Bool := false
  /-- the value that a refused commit leaves in im0 (R339) -/
  im0 : Option (BitVec 64) := .none
  deriving DecidableEq, Repr, Inhabited

/-- One strand with its context while it is resident; at rest the device keeps the same data beside the
folio and frame it wrote (log 6). -/
structure Strand where
  gang : Nat := 0
  part : Nat := 0
  batch : Nat := 0
  rank : Nat := 0
  role : Nat := 0
  resident : Bool := false
  core : Nat := 0
  ctx : Nat := 0
  ended : Bool := false
  /-- windows, and the module's placement of them needs no further state (R64) -/
  win : Windows := {}
  s : Cells 64 := []
  hd : Table Handle := []
  /-- element (i, j) of window plane p at 1024·p + 32·i + j -/
  planes : Cells 32 := []
  ptag : Cells 4 := []
  wmem : Cells 8 := []
  amem : Cells 8 := []
  cmem : Cells 8 := []
  smem : Cells 8 := []
  tiles : Table Tile := []
  pc : BitVec 56 := 0
  entry : BitVec 56 := 0
  rq : List Redirect := []
  ldq : List LdOp := []
  stq : List StOp := []
  cpq : List Nat := []
  tlq : List TlOp := []
  fly : List Landing := []
  steps : Nat := 0
  rm : BitVec 3 := 0
  ff : BitVec 5 := 0
  wo : Bool := false
  ha : Bool := false
  cb : Bool := false
  fs : Bool := false
  st : BitVec 4 := 0
  sq : BitVec 4 := 0
  bs : BitVec 32 := 0
  gi : BitVec 16 := 0
  fp : BitVec 12 := 0
  fb : BitVec 56 := 0
  fol : BitVec 56 := 0
  pwb : BitVec 56 := 0
  ig : BitVec 32 := 0
  sc : BitVec 8 := 0
  wc : BitVec 8 := 0
  /-- system registers 0 to 7 (R269) -/
  sys : Cells 64 := []
  latches : Table HoldLatch := []
  /-- parameter window descriptors as read at placement (R41, R193) -/
  pw : Cells 64 := []
  /-- binding slots 32·class + opcode − 96 (R296) -/
  bind : Cells 64 := []
  groups : Table LoadGroup := []
  micro : Micro := {}
  restart : Restart := {}
  gen : BitVec 32 := 0
  /-- folio lines queued behind this one on a future's waiter chain are in its frame word 0 (R45) -/
  link : BitVec 64 := 0
  /-- contexts of the core that must issue or block before this one after a YIELD, and its time (R31) -/
  yieldHold : Option (List Nat × Nat) := .none
  /-- trap whose VECTOR answer is taken at restoration (R382) -/
  vectorTrap : Option Trap := .none
  /-- image pages written and not fenced: code address, old syllable (R90) -/
  stale : Table (BitVec 64) := []
  /-- halts of R74 have stopped issue of this strand -/
  halted : Bool := false
  /-- its folio has been written by the halt in progress (R409) -/
  written : Bool := false
  /-- a halt found its wait ended, so its bundle issues before the halt takes it out (R140, R234) -/
  finishing : Bool := false
  /-- a fence holds the next bundle until every held access is performed (R141, R143) -/
  fenced : Bool := false
  /-- the widest scope of the fences whose hold that is (R141) -/
  fenceScope : Nat := 0
  /-- the resource at which the bundle's own access, which its home performs as an atomic, waits to be served (R326) -/
  asks : Option Nat := .none
  /-- a CSFENCE holds the next bundle until the control-store pages of the context are loaded (R272) -/
  csFenced : Bool := false
  /-- flags and, as bit 5, WO that results older than the handler entry brought since the last issue step: an MTSR of TSTS
  does not take them away (R385) -/
  late : BitVec 6 := 0
  /-- PC was set by a redirect, by RETT or by resumption (R388) -/
  mid : Bool := false
  /-- bundle waiting flag of the last issue attempt, for the selector (R27) -/
  blocked : Bool := false
  deriving DecidableEq, Repr, Inhabited

/-- A barrier of a gang (R262). -/
structure Barrier where
  arrived : List Nat := []
  phase : BitVec 16 := 0
  mask : BitVec 4 := 0
  /-- ranks whose BAR waits, and ranks whose BAR's wait has ended and has not yet issued again -/
  waiting : List Nat := []
  released : List Nat := []
  deriving DecidableEq, Repr, Inhabited

/-- A live block of a rank (R341): its block word and granted mask. -/
structure LiveBlock where
  rank : Nat := 0
  word : BitVec 64 := 0
  granted : BitVec 64 := 0
  /-- the registers of the imposition the block was issued under (R340) -/
  im : Cells 64 := []
  deriving DecidableEq, Repr, Inhabited

/-- The pre-emption request of a gang (R409): when it was made, when its halt began, and the timers in
force when it was made. -/
structure Preempt where
  since : Nat := 0
  halt : Option Nat := .none
  grace : Nat := 0
  kill : Nat := 0
  deriving DecidableEq, Repr, Inhabited

/-- Why a gang has been halted: the ST its folios take (R31, R74, R384, R396). -/
structure Halt where
  st : BitVec 4 := 0
  deriving DecidableEq, Repr, Inhabited

/-- A gang (R29, R30, R47, R262, R329 to R344). -/
structure Gang where
  batch : Nat := 0
  part : Nat := 0
  gi : Nat := 0
  cluster : Nat := 0
  placed : Bool := false
  gate : Bool := false
  started : Bool := false
  killed : Bool := false
  stopped : Bool := false
  /-- strand identities by rank -/
  strands : List Nat := []
  pipes : Table (List (BitVec 64)) := []
  bars : Table Barrier := []
  im : Cells 64 := []
  /-- the imposition in force, its generation, cursors by rank, live blocks (R338 to R341) -/
  imf : Cells 64 := []
  gen : BitVec 16 := 0
  cursors : Table Nat := []
  blocks : List LiveBlock := []
  claimed : Bool := false
  endSeen : Bool := false
  prefixOver : Bool := false
  pre : Option Preempt := .none
  halt : Option Halt := .none
  /-- a record of this gang waits for RESUME, VECTOR or KILL (R382) -/
  answer : Bool := false
  placedAt : Nat := 0
  firstPlaced : Bool := false
  deriving DecidableEq, Repr, Inhabited

/-- A batch with the device's copy of its record and binding list (R34, R36, R37). -/
structure Batch where
  part : Nat := 0
  queue : Nat := 0
  ticket : BitVec 64 := 0
  ep : List (BitVec 56) := []
  gc : Nat := 0
  n : List Nat := []
  win : Windows := {}
  pwt : BitVec 56 := 0
  fa : BitVec 56 := 0
  fr : BitVec 56 := 0
  ig : BitVec 32 := 0
  cbm : BitVec 4 := 0
  pd : Nat := 0
  pn : Nat := 0
  fz : Nat := 0
  hc : Nat := 0
  suc : List (BitVec 64) := []
  cwa : BitVec 56 := 0
  groups : List (BitVec 128) := []
  binds : List (BitVec 64) := []
  nextGang : Nat := 0
  gangs : List Nat := []
  gangsEnded : Nat := 0
  error : Bool := false
  complete : Bool := false
  /-- voltage rounds (R322): completion times of clusters by barrier and phase, last arriver and its run -/
  rounds : List (Nat × Nat × Nat × Nat) := []
  lastRun : Table (Nat × Nat) := []
  deriving DecidableEq, Repr, Inhabited

/-- A placeable entry of a partition queue: a batch or a re-entered gang at the head (R40, R319). -/
inductive QEntry where
  | batch (b : Nat)
  | gang (g : Nat)
  deriving DecidableEq, Repr, Inhabited

/-- A partition queue: its queue word (R310), entries, sequence counter, candidate times (R317, R321). -/
structure PQueue where
  qe : Bool := false
  pri : BitVec 2 := 0
  ten : BitVec 4 := 0
  /-- closed by a tenant stop (R412) -/
  shut : Bool := false
  head : List Nat := []
  batches : List Nat := []
  seq : BitVec 32 := 0
  candSince : Option Nat := .none
  overdue : Bool := false
  /-- the entry at the head, and since when (R321) -/
  headSince : Option (QEntry × Nat) := .none
  deriving DecidableEq, Repr, Inhabited

/-- A tenant record (R312). -/
structure Tenant where
  rf : Nat := 0
  cap : Nat := 0
  bal : Int := 0
  cr : Nat := 0
  db : Nat := 0
  bl : Nat := 0
  deriving DecidableEq, Repr, Inhabited

/-- Requests at a sync object's home (R136): strand and exclusive or shared. -/
structure SyncReq where
  strand : Nat := 0
  excl : Bool := false
  granted : Bool := false
  value : BitVec 64 := 0
  deriving DecidableEq, Repr, Inhabited

/-- An entry of the binding table with its sync object and request queue (R134, R136). -/
structure Binding where
  bv : Bool := false
  hsc : BitVec 3 := 0
  rb : BitVec 56 := 0
  np : BitVec 28 := 0
  md : BitVec 2 := 0
  bk : Bool := false
  sh : Nat := 0
  seq : BitVec 32 := 0
  own : BitVec 56 := 0
  waiters : List SyncReq := []
  deriving DecidableEq, Repr, Inhabited

/-- A segment of a pooling plan (R348). -/
structure Segment where
  fr : Nat := 0
  sn : Nat := 0
  va : BitVec 56 := 0
  ld : Nat := 0
  tr : Nat := 0
  deriving DecidableEq, Repr, Inhabited

/-- An accepted placement plan (R347 to R350): its translations are those of the memory and region file
at acceptance but for the ranges invalidated since; its hot image; the landings it names that have failed
since acceptance (R418). -/
structure Plan where
  tid : Nat := 0
  fmt : BitVec 4 := 0
  dim : Nat := 0
  nr : Nat := 0
  segs : List Segment := []
  tables : List Host.Cell := []
  regs : Cells 64 := []
  stale : List (Nat × Nat) := []
  /-- bytes of hot rows, row r at RS · r -/
  hot : Cells 8 := []
  loaded : Bool := true
  broken : List Nat := []
  /-- hot rows that could not be loaded (R355) -/
  lostRows : List Nat := []
  deriving DecidableEq, Repr, Inhabited

/-- A request to change a configuration value at the next token-period boundary (R313). -/
structure PendingWrite where
  off : Nat := 0
  word : BitVec 64 := 0
  deriving DecidableEq, Repr, Inhabited

/-- An armed dirty-page log (R414). -/
structure DirtyLog where
  base : Nat := 0
  size : Nat := 0
  ring : List (BitVec 64) := []
  /-- entries appended since the log was armed -/
  pos : Nat := 0
  pages : List Nat := []
  armed : Bool := false
  /-- sequence numbers of final entries that wait for a slot -/
  finals : List (BitVec 32) := []
  deriving DecidableEq, Repr, Inhabited

/-- A range of virtual addresses whose mapping was another: the tables and the region file as they were (R144). -/
structure OldMap where
  va : Nat := 0
  len : Nat := 0
  tables : List Host.Cell := []
  regs : Cells 64 := []
  deriving DecidableEq, Repr, Inhabited

/-- A tenant stop (R412, R413): the tenant, or every one; where in the control complex's DRAM its status goes, the status once
it is written, and the gangs killed under it. -/
structure TenantStop where
  tenant : Option Nat := .none
  status : Option Nat := .none
  killed : Nat := 0
  words : List (BitVec 64) := []
  deriving DecidableEq, Repr, Inhabited

/-- A partition (R16, R309 to R327, R346 to R366, R409 to R416). -/
structure Partition where
  live : Bool := false
  res : Resources := {}
  tenants : Table Tenant := []
  queues : Table PQueue := []
  lw : Cells 4 := []
  /-- region attribute entries 0 to 15 (R96) -/
  regions : Cells 64 := []
  /-- ranges that valid table entries mapped before the control complex changed them, and that have not been invalidated since,
  oldest first (R144) -/
  before : List OldMap := []
  /-- bandwidth entries 152·tenant + resource (R324) -/
  bw : Cells 32 := []
  pending : List PendingWrite := []
  served : Table Nat := []
  /-- bytes of requests that a cap holds back into later windows (R326) -/
  later : Table Nat := []
  atomics : Table Nat := []
  /-- bandwidth entries whose AB was 0 and has been rewritten in this window (R415) -/
  lateAb : List Nat := []
  /-- tenants and resources with a request that has waited in every clock of the bandwidth window (R416; log 70) -/
  starved : List (Nat × Nat) := []
  noBudget : List Nat := []
  unloaded : List (BitVec 32) := []
  bindings : Table Binding := []
  /-- pooling tables: the plan last accepted for each; the plans by identity -/
  pools : Table Nat := []
  plans : Table Plan := []
  /-- the next token-period boundary (R314); the gang that a priority-3 candidate asked to leave (R321) -/
  tokenAt : Nat := 0
  prioReq : Option Nat := .none
  graceUs : Nat := 200
  killMs : Nat := 20
  cap : List (BitVec 8) := []
  capSeq : Nat := 0
  sseq : BitVec 32 := 0
  stops : List TenantStop := []
  dirty : Table DirtyLog := []
  fatalSeq : BitVec 32 := 0
  replaySeq : BitVec 32 := 0
  ovf : Bool := false
  shrinking : Option Resources := .none
  destroying : Bool := false
  /-- pages of HBM and of landings that its tables have mapped: kind, first byte, length (R366; log 73) -/
  had : List (Nat × Nat × Nat) := []
  deriving DecidableEq, Repr, Inhabited

/-- One half of instruction memory (R89). -/
structure Half where
  filled : Bool := false
  ig : BitVec 32 := 0
  base : BitVec 40 := 0
  absent : List Nat := []
  mem : Cells 8 := []
  deriving DecidableEq, Repr, Inhabited

/-- A writable control-store page (R274, R301). -/
structure CsPage where
  valid : Bool := false
  owner : Option Nat := .none
  part : Nat := 0
  ig : BitVec 32 := 0
  image : BitVec 56 := 0
  loading : Bool := false
  order : Nat := 0
  /-- micro-address of the first word of the group it was loaded with -/
  base : Nat := 0
  words : Cells 128 := []
  deriving DecidableEq, Repr, Inhabited

/-- A stationary latch (R242): what it holds, of whom, loaded at which write count of the tile. -/
structure StatLatch where
  bytes : Cells 8 := []
  ctx : Option Nat := .none
  th : BitVec 5 := 0
  bi : BitVec 5 := 0
  wc : Nat := 0
  deriving DecidableEq, Repr, Inhabited

/-- A core (R79, R89, R242, R273, R291, R27). -/
structure Core where
  half0 : Half := {}
  half1 : Half := {}
  pages : Table CsPage := []
  latches : Table StatLatch := []
  /-- writes performed on each W-tile buffer of a context, keyed 32·context + buffer (R242) -/
  wcount : Table Nat := []
  sequencer : Option Nat := .none
  /-- strands that wait for the sequencer, in the order in which their bundles became ready (R291) -/
  seqWait : List Nat := []
  ctx : Nat := 0
  run : Nat := 0
  /-- the core's last turn was a step of a routine, beside which other contexts issue (R61; log 3) -/
  stepped : Bool := false
  deriving DecidableEq, Repr, Inhabited

/-- A line of a cluster data cache (R93): its 64 bytes and which of them are dirty. -/
structure CacheLine where
  bytes : Cells 8 := []
  dirty : BitVec 64 := 0
  deriving DecidableEq, Repr, Inhabited

/-- A cluster (R93, R365). -/
structure Cluster where
  lines : Table CacheLine := []
  /-- the generation of its owner's lines; lines of an older one are dropped (R365; log 73) -/
  gen : BitVec 32 := 0
  deriving DecidableEq, Repr, Inhabited

/-- What an engine command does (R232). -/
inductive CmdOp where
  | talloc | tzero | tfree | mlatch | mma | mmas | tcvt | tmov | txpose | tdrain | tdraink
  | cpy | cpym | cpyi | cpysTo | cpysFrom | cpyf | cpyg | cpysc | sqgo | sqwait | sqkill | sfpool
  deriving DecidableEq, Repr, Inhabited

/-- Where a command stands (R235, R398, R420). -/
inductive CmdState where
  | queued | started | stalled | lost
  deriving DecidableEq, Repr, Inhabited

/-- An engine, tile or matrix command issued and not completed, with every operand captured at issue
(R232). -/
structure Cmd where
  op : CmdOp := .talloc
  strand : Nat := 0
  part : Nat := 0
  tenant : BitVec 4 := 0
  core : Nat := 0
  engine : Nat := 0
  queue : Nat := 0
  ord : BitVec 5 := 0
  a : BitVec 64 := 0
  b : BitVec 64 := 0
  c : BitVec 64 := 0
  imm : BitVec 12 := 0
  lit : BitVec 60 := 0
  td : Option (BitVec 5) := .none
  /-- tiles it reads: TA, TB and VQ2's second A-tile -/
  ta : Option (BitVec 5) := .none
  tb : Option (BitVec 5) := .none
  ta2 : Option (BitVec 5) := .none
  fmt : BitVec 5 := 0
  /-- bytes captured from own-window S at issue: descriptor, index list, rows, request block, strips -/
  cap : List (BitVec 8) := []
  /-- the B operand of a stationary operation, taken from its latch at the start (R242) -/
  held : Cells 8 := []
  rm : BitVec 3 := 0
  state : CmdState := .queued
  /-- progress of R398: bytes, rows, runs, lines or slabs performed -/
  prog : Nat := 0
  bytes : Nat := 0
  /-- the tile has moved for this command (R87) -/
  active : Bool := false
  /-- when a matrix operation's operands had all become ready (R241) -/
  readyAt : Option Nat := .none
  /-- the ranges whose markers stand behind the command, with the mapping before each, oldest first (R144) -/
  old : List OldMap := []
  error : BitVec 6 := 0
  /-- only the completion word is left (R429) -/
  wordLeft : Bool := false
  /-- the completion word has been sent and is awaited (R419) -/
  wordSent : Bool := false
  /-- the unit that was lost (R420) -/
  lostUnit : Option Nat := .none
  /-- remote units awaiting acknowledgement, latest window sent in (R419) -/
  units : List Nat := []
  window : Option Nat := .none
  /-- the operation that a CPYM runs after its fill: the fill (R251) -/
  after : Option Nat := .none
  /-- SFPOOL: the plan in force in queue order (R350), landings failed while it ran (R418) -/
  plan : Option Nat := .none
  deriving DecidableEq, Repr, Inhabited

/-- A record of R380 with what links it to gang, strand and command. -/
structure Record where
  fatal : Bool := false
  mod : Bool := false
  ovf : Bool := false
  ud : Bool := false
  part : Nat := 0
  cause : BitVec 16 := 0
  seq : BitVec 32 := 0
  fol : BitVec 64 := 0
  tpc : BitVec 56 := 0
  val : BitVec 64 := 0
  core : BitVec 10 := 0
  ctx : BitVec 3 := 0
  slt : BitVec 3 := 0
  mpc : BitVec 14 := 0
  time : BitVec 64 := 0
  aux : BitVec 64 := 0
  tkt : BitVec 64 := 0
  gang : Nat := 0
  strand : Nat := 0
  cmd : Option Nat := .none
  /-- its slot of the lane's ring once it is posted (R381) -/
  place : Nat := 0
  deriving DecidableEq, Repr, Inhabited

/-- A voltage and frequency island (R17 to R19, R21, R323); voltages in tenths of a millivolt. -/
structure Island where
  mv10 : Nat := 6000
  mhz : Nat := 940
  target : Option (Nat × Nat) := .none
  ceiling10 : Nat := 7500
  offset : Int := 0
  settling : Bool := false
  deriving DecidableEq, Repr, Inhabited

/-- A write or atomic unit sent to another device (R147, R419, R420): until it is acknowledged, and from then until every unit
of its command before it is, since it would be sent again after one of those. -/
structure RemoteOut where
  cmd : Nat := 0
  port : Nat := 0
  dev : Nat := 0
  addr : Nat := 0
  window : Nat := 0
  data : List (BitVec 8) := []
  add : Nat := 0
  acked : Bool := false
  /-- bytes that its command had written before the unit (R398, R420) -/
  before : Nat := 0
  deriving DecidableEq, Repr, Inhabited

/-- A mapping invalidation with the commands its markers stand behind and the handle accesses it waits
for (R104, R144, R145). -/
structure Invalidation where
  part : Nat := 0
  va : Nat := 0
  len : Nat := 0
  cmds : List Nat := []
  strands : List Nat := []
  deriving DecidableEq, Repr, Inhabited

/-- A collective program of a die's engine (R306 to R308). -/
structure CollProg where
  live : Bool := false
  part : Nat := 0
  bound : Nat := 0
  micro : Micro := {}
  deriving DecidableEq, Repr, Inhabited

/-- A collective engine (R306 to R308). -/
structure Coll where
  store : Cells 128 := []
  owner : Table Nat := []
  progs : Table CollProg := []
  tx : Table (List (List (BitVec 32))) := []
  rx : Table (List (List (BitVec 32))) := []
  deriving DecidableEq, Repr, Inhabited

/-- The rest of the module: time, power, cooling, lanes, fabric, landings. -/
structure Device where
  powered : Bool := true
  stopped : Bool := false
  /-- steps of the power-on sequence that are done, and the step whose failure has been reported (R369) -/
  boot : Nat := 4
  /-- the step of R369 that fails while it is not mended, 1 to 4; 0 is none -/
  bootFault : Nat := 0
  /-- a commanded power-off waits until every partition is destroyed (R370) -/
  offAsked : Bool := false
  /-- staging slices in which the slot drain and the record write of a hand-over cannot be performed (R417; log 88) -/
  slotFaults : List Nat := []
  bootFailed : Option Nat := .none
  /-- draws in W of the three shares of R20, each with the time from which it holds, the latest first -/
  pkgLog : List (Nat × Nat) := []
  tierLog : List (Nat × Nat) := []
  restLog : List (Nat × Nat) := []
  /-- the private DRAM of the control complex, where lanes, stop statuses and dirty-page logs stand (R14, R381, R412, R414) -/
  dram : Cells 8 := []
  /-- where the two lanes' rings stand in it, and the next slot of the replayable ring (R381) -/
  fatalBase : Nat := 0
  replayBase : Nat := 266240
  replayPos : Nat := 0
  junction : Table Nat := []
  islands : Table Island := []
  lastDown : Nat := 0
  lastUp : Nat := 0
  /-- last thermal step of each die (R22) -/
  lastHot : Table Nat := []
  windowUs : Nat := 2
  /-- a new W and the window with which it takes effect (R146) -/
  windowNext : Option (Nat × Nat) := .none
  /-- the last window whose start has been acted on -/
  windowSeen : Nat := 0
  /-- start of the bandwidth window (R325); at each resource the partition and tenant that class 3 served last (R326) -/
  bwAt : Nat := 0
  lastClass3 : Table Nat := []
  timeLost : Bool := false
  outs : Table RemoteOut := []
  performed : List (Nat × Nat) := []
  misses : List (Nat × Nat) := []
  lastSent : Table Nat := []
  routes : Cells 128 := []
  fatal : List Record := []
  replay : List Record := []
  waiting : List Record := []
  answers : List Record := []
  modSeq : BitVec 32 := 0
  modOvf : Bool := false
  ring : Nat := 1024
  /-- what the launch interface of the control complex returned last (R37) -/
  ticket : BitVec 64 := 0
  failed : List Nat := []
  zeroing : List Nat := []
  invals : Table Invalidation := []
  /-- the last generation given, and that in force in each context's window, by 8 · core + context (R365; log 73) -/
  generation : BitVec 32 := 0
  windowGen : Table (BitVec 32) := []
  /-- units with an uncorrectable error: SPC of R406, core, cluster or 0, first byte -/
  uncorrectable : List (Nat × Nat × Nat) := []
  /-- corrections that each die has counted (R406) -/
  corrected : Table Nat := []
  deriving DecidableEq, Repr, Inhabited

/-- How the bundle being issued stands: going on, to be waited for, taken by a trap, or advanced by its
own instruction (TRAP, RETT, END, YIELD, BRK, FRD). -/
inductive Status where
  | ok
  | wait
  | trapped (t : Trap)
  | ended
  deriving DecidableEq, Repr, Inhabited

/-- The bundle being issued: the address after it, the slot and word of the syllable, its status, the
redirect entry to append, the micro state of the bound routine to run. Its own address is the strand's PC. -/
structure Issue where
  next : BitVec 56 := 0
  slot : BitVec 3 := 0
  word : BitVec 64 := 0
  status : Status := .ok
  redirect : Option Redirect := .none
  bound : Option Micro := .none
  /-- operations of ld and st that the bundle itself has issued so far (R72) -/
  ownLd : Nat := 0
  ownSt : Nat := 0
  deriving DecidableEq, Repr, Inhabited

/-- A move that the agenda names: an event, the core whose turn it is, a step of a collective program, or the read of
an empty cell by a strand whose gang is about to be squashed (R45; log 3). -/
inductive Move where
  | event (i : Instr)
  | core (k : Nat)
  | coll (die prog : Nat)
  | reads (k : Nat)
  deriving DecidableEq, Repr, Inhabited

/-- Which micro-sequencer a micro-op runs on: the current strand's, or a collective program (R308). -/
inductive Agent where
  | strand
  | coll (die prog : Nat)
  deriving DecidableEq, Repr, Inhabited

/-- The machine. -/
structure State where
  /-- bytes of the three memory kinds, at kind · 2^52 + physical address (R15, R98) -/
  mem : List Host.Cell := []
  strands : Table Strand := []
  gangs : Table Gang := []
  batches : Table Batch := []
  parts : Table Partition := []
  cores : Table Core := []
  clusters : Table Cluster := []
  cmds : Table Cmd := []
  colls : Table Coll := []
  dev : Device := {}
  /-- the strand whose context issues, or the strand an event concerns -/
  cur : Nat := 0
  curCore : Nat := 0
  agent : Agent := .strand
  issue : Issue := {}
  /-- reference time in ns (R6) -/
  now : Nat := 0
  /-- moves to come; empty: the current core issues (log 3) -/
  agenda : List Move := []
  /-- the counter of free values (log 8) -/
  free : Nat := 0
  nextId : Nat := 1
  /-- steps of issue since the last event of the default order, and how many such events there have been (log 3) -/
  sinceEvent : Nat := 0
  turn : Nat := 0
  deriving DecidableEq, Repr, Inhabited

/-- What ends a run. -/
inductive Fault where
  /-- Raised by any access whose translated physical address lies beyond the capacity that R14 gives its
  memory kind: no such byte exists. Safe: a program's claims about such accesses are not provable. -/
  | addressHole (key : Nat)
  deriving DecidableEq, Repr, Inhabited

/-- Why an instruction has no meaning here. -/
inductive Refusal where
  /-- Raised by an arm of `exec` whose instruction is not modelled yet, named by its mnemonic. Safe. -/
  | notModelled (mnemonic : String)
  deriving DecidableEq, Repr, Inhabited

/-- The machine after steps 1 to 4 of R369: powered, the base regions loaded, staging zeroed, every
island at 600 mV and 940 MHz, W at 2 µs (R146), no partition and no strand. -/
def State.reset : State := {}

end Sys2Proof.Machine
end

