-- ==== Sys2Proof/Machine/Cells.lean ====
section
/-! DEFINITION. Reading and writing cells and tables in their canonical form, byte runs in the byte order
of R5, and small arithmetic shared by every meaning. -/

namespace Sys2Proof.Machine

/-- Value at a key, 0 where none is listed. -/
def cget {w : Nat} : Cells w → Nat → BitVec w
  | [], _ => 0
  | (a, x) :: r, k => if a = k then x else cget r k

/-- Put a pair before the first larger key. -/
def cput {α : Type} (k : Nat) (v : α) : List (Nat × α) → List (Nat × α)
  | [] => [(k, v)]
  | (a, x) :: r => if k < a then (k, v) :: (a, x) :: r else (a, x) :: cput k v r

/-- All pairs but those of a key. -/
def cdrop {α : Type} (k : Nat) (c : List (Nat × α)) : List (Nat × α) := c.filter (fun p => p.1 != k)

/-- Write a value: 0 removes the key, so that equal contents are equal lists. -/
def cset {w : Nat} (c : Cells w) (k : Nat) (v : BitVec w) : Cells w :=
  if v = 0 then cdrop k c else cput k v (cdrop k c)

/-- Keys rise strictly. -/
def rising {α : Type} : List (Nat × α) → Bool
  | (a, _) :: (b, y) :: r => a < b && rising ((b, y) :: r)
  | _ => true

/-- The canonical form of cells: keys rising, no listed 0. -/
def Cells.wf {w : Nat} (c : Cells w) : Bool := rising c && c.all (fun p => p.2 != 0)

/-- The record of an identity, if there is one. -/
def tfind {α : Type} : Table α → Nat → Option α
  | [], _ => none
  | (a, x) :: r, k => if a = k then some x else tfind r k

/-- The record of an identity, or the empty record. -/
def tget {α : Type} [Inhabited α] (t : Table α) (k : Nat) : α := (tfind t k).getD default

/-- Replace or add a record. -/
def tset {α : Type} (t : Table α) (k : Nat) (v : α) : Table α := cput k v (cdrop k t)

/-- Remove a record. -/
def tdel {α : Type} (t : Table α) (k : Nat) : Table α := cdrop k t

/-- Change a record that is there. -/
def tmod {α : Type} (t : Table α) (k : Nat) (f : α → α) : Table α :=
  t.map (fun p => if p.1 = k then (k, f p.2) else p)

/-- Change every record. -/
def tmap {α : Type} (t : Table α) (f : Nat → α → α) : Table α := t.map (fun p => (p.1, f p.1 p.2))

/-- The number whose little-endian bytes are given (R5). -/
def leNat : List Byte → Nat
  | [] => 0
  | b :: r => b.toNat + 256 * leNat r

/-- The `n` low bytes of a number, lowest first (R5). -/
def leBytes : Nat → Nat → List Byte
  | 0, _ => []
  | n + 1, v => BitVec.ofNat 8 v :: leBytes n (v / 256)

/-- `n` bytes from key `a` upward. -/
def cread (c : Cells 8) (a n : Nat) : List Byte := (List.range n).map (fun i => cget c (a + i))

/-- Put values at rising keys that are free, leaving out zeros. -/
def cputs {w : Nat} : Cells w → Nat → List (BitVec w) → Cells w
  | c, _, [] => c
  | c, a, b :: r => cputs (if b = 0 then c else cput a b c) (a + 1) r

/-- Remove `n` keys from `a` upward. -/
def cclear {w : Nat} (c : Cells w) (a n : Nat) : Cells w := c.filter (fun p => p.1 < a || a + n ≤ p.1)

/-- Store values from key `a` upward. -/
def cwrite {w : Nat} (c : Cells w) (a : Nat) (l : List (BitVec w)) : Cells w :=
  cputs (cclear c a l.length) a l

/-- A little-endian number of `n` bytes at key `a`. -/
def cnum (c : Cells 8) (a n : Nat) : Nat := leNat (cread c a n)

/-- Cells of any width from key `a` upward. -/
def cvals {w : Nat} (c : Cells w) (a n : Nat) : List (BitVec w) :=
  (List.range n).map (fun i => cget c (a + i))

/-- Keep the cells whose keys satisfy `p`. -/
def ckeep {w : Nat} (c : Cells w) (p : Nat → Bool) : Cells w := c.filter (fun x => p x.1)

/-- The bytes of a list at an index, 0 beyond its end. -/
def byteAt (l : List Byte) (i : Nat) : Byte := l.getD i 0

/-- The doubleword of a byte list at an offset. -/
def dwAt (l : List Byte) (off : Nat) : Word := BitVec.ofNat 64 (leNat ((l.drop off).take 8))

/-- The word of a byte list at an offset. -/
def wAt (l : List Byte) (off : Nat) : Elem := BitVec.ofNat 32 (leNat ((l.drop off).take 4))

/-- Bytes of a doubleword. -/
def dwBytes (v : Word) : List Byte := leBytes 8 v.toNat

/-- Bytes of a word. -/
def wBytes (v : Elem) : List Byte := leBytes 4 v.toNat

/-- A bit as 0 or 1 of a width. -/
def ofBool (w : Nat) (b : Bool) : BitVec w := if b then 1 else 0

/-- Bit `i` of a bit vector as a Bool. -/
def bitAt {w : Nat} (v : BitVec w) (i : Nat) : Bool := v.getLsbD i

/-- A field of a doubleword as a number. -/
def fld (v : Word) (lo len : Nat) : Nat := v.toNat / 2 ^ lo % 2 ^ len

/-- Quotient rounded up. -/
def ceilDiv (a b : Nat) : Nat := (a + b - 1) / b

/-- The first index at which a test holds. -/
def firstIdx {α : Type} (p : α → Bool) : List α → Option Nat
  | [] => none
  | x :: r => if p x then some 0 else (firstIdx p r).map (· + 1)

/-- Put an element at an index of a list. -/
def setAt {α : Type} (l : List α) (i : Nat) (v : α) : List α := l.set i v

/-- Fold over 0, 1, …, n − 1. -/
def upTo {α : Type} (n : Nat) (f : Nat → α → α) (a : α) : α := (List.range n).foldl (fun x i => f i x) a

/-- Insert into a list sorted by `le`, after its equals. -/
def insertBy {α : Type} (le : α → α → Bool) (x : α) : List α → List α
  | [] => [x]
  | y :: r => if le y x then y :: insertBy le x r else x :: y :: r

/-- Stable insertion sort. -/
def sortBy {α : Type} (le : α → α → Bool) (l : List α) : List α := l.foldl (fun acc x => insertBy le x acc) []

/-- Fold with early exit. -/
def foldE {α β ε : Type} (f : β → α → Except ε β) : List α → β → Except ε β
  | [], b => .ok b
  | x :: r, b => match f b x with
    | .ok b' => foldE f r b'
    | .error e => .error e

/-- Bytes of the private DRAM of the control complex (R14). -/
def dramBytes : Nat := 2 ^ 36

/-- Write bytes into that DRAM; none stand beyond its end. -/
def dramPut (m : Cells 8) (a : Nat) (l : List Byte) : Cells 8 := cwrite m a (l.take (dramBytes - a))

end Sys2Proof.Machine
end

