-- ==== Sys2Proof/Machine/Regs.lean ====
section
/-! DEFINITION. How a meaning stops short, the registers of a context and their one way in and out, plane
lines (R63), guards (R57), results in flight and their landing (R58 to R61, R66, R385). -/

namespace Sys2Proof.Machine

/-- A meaning that does not take its effect: its bundle waits (R27), it traps, or it reaches a physical
address that does not exist. -/
inductive Stop where
  | wait
  | trap (t : Trap)
  | fault (f : Fault)
  deriving DecidableEq, Repr, Inhabited

/-- What a meaning answers. -/
abbrev Res (α : Type) := Except Stop α

/-- A trap of a cause with its TVAL. -/
def trapE {α : Type} (cause : BitVec 16) (val : Word) : Res α :=
  .error (.trap { cause := cause, val := val })

/-- The bundle waits. -/
def waitE {α : Type} : Res α := .error .wait

/-- Go on if a condition holds, else trap. -/
def need (ok : Bool) (cause : BitVec 16) (val : Word) : Res Unit :=
  if ok then .ok () else trapE cause val

/-- Go on if a condition holds, else the bundle waits. -/
def needReady (ok : Bool) : Res Unit := if ok then .ok () else waitE

/-- Cause codes of R379, R394 and R408. -/
def cIllegal : BitVec 16 := 0x0001
/-- R166. -/
def cUnbound : BitVec 16 := 0x0002
/-- R64 and others. -/
def cWindow : BitVec 16 := 0x0003
/-- R66. -/
def cTag : BitVec 16 := 0x0004
/-- R88. -/
def cTile : BitVec 16 := 0x0005
/-- R84, R103. -/
def cAlign : BitVec 16 := 0x0006
/-- R103. -/
def cBounds : BitVec 16 := 0x0007
/-- R103. -/
def cPerm : BitVec 16 := 0x0008
/-- R95. -/
def cKind : BitVec 16 := 0x0009
/-- R103. -/
def cHandle : BitVec 16 := 0x000A
/-- R42. -/
def cPw : BitVec 16 := 0x000B
/-- R185, R388. -/
def cFlow : BitVec 16 := 0x000C
/-- R139. -/
def cSyncBind : BitVec 16 := 0x000D
/-- R139, R262. -/
def cSyncState : BitVec 16 := 0x000E
/-- R45. -/
def cFutOrder : BitVec 16 := 0x000F
/-- R46. -/
def cFutState : BitVec 16 := 0x0010
/-- R338 and others. -/
def cImp : BitVec 16 := 0x0011
/-- R252. -/
def cHalf : BitVec 16 := 0x0012
/-- R273. -/
def cMicro : BitVec 16 := 0x0013
/-- R280. -/
def cBound : BitVec 16 := 0x0014
/-- R235, R290. -/
def cIso : BitVec 16 := 0x0015
/-- R271. -/
def cContext : BitVec 16 := 0x0016
/-- R271. -/
def cStatus : BitVec 16 := 0x0017
/-- R268. -/
def cBreak : BitVec 16 := 0x0018
/-- R45. -/
def cSquash : BitVec 16 := 0x0019
/-- R396. -/
def cPage : BitVec 16 := 0x0020
/-- R417. -/
def cColl : BitVec 16 := 0x0063

/-- The strand whose context issues. -/
def State.me (s : State) : Strand := tget s.strands s.cur

/-- Change the issuing strand. -/
def State.setMe (s : State) (t : Strand) : State := { s with strands := tset s.strands s.cur t }

/-- Change the issuing strand by a function. -/
def State.onMe (s : State) (f : Strand → Strand) : State := s.setMe (f s.me)

/-- Change a strand. -/
def State.onStrand (s : State) (k : Nat) (f : Strand → Strand) : State :=
  { s with strands := tmod s.strands k f }

/-- The gang of the issuing strand. -/
def State.gang (s : State) : Gang := tget s.gangs s.me.gang

/-- Change a gang. -/
def State.onGang (s : State) (k : Nat) (f : Gang → Gang) : State := { s with gangs := tmod s.gangs k f }

/-- Change a partition. -/
def State.onPart (s : State) (k : Nat) (f : Partition → Partition) : State :=
  { s with parts := tmod s.parts k f }

/-- Change a command. -/
def State.onCmd (s : State) (k : Nat) (f : Cmd → Cmd) : State := { s with cmds := tmod s.cmds k f }

/-- Change a core, which is in its reset state until it is first changed. -/
def State.onCore (s : State) (k : Nat) (f : Core → Core) : State :=
  { s with cores := tset s.cores k (f (tget s.cores k)) }

/-- Change a cluster. -/
def State.onCluster (s : State) (k : Nat) (f : Cluster → Cluster) : State :=
  { s with clusters := tset s.clusters k (f (tget s.clusters k)) }

/-- Change the device part. -/
def State.onDev (s : State) (f : Device → Device) : State := { s with dev := f s.dev }

/-- A scalar register; s0 reads 0 (R62). -/
def Strand.reg (t : Strand) (r : BitVec 6) : Word := if r = 0 then 0 else cget t.s r.toNat

/-- Write a scalar register; writes to s0 are discarded (R60). -/
def Strand.setReg (t : Strand) (r : BitVec 6) (v : Word) : Strand :=
  if r = 0 then t else { t with s := cset t.s r.toNat v }

/-- A scalar register of the issuing strand. -/
def State.reg (s : State) (r : BitVec 6) : Word := s.me.reg r

/-- A handle register (R101). -/
def Strand.handle (t : Strand) (n : BitVec 4) : Handle := tget t.hd n.toNat

/-- A system register (R269). -/
def Strand.sysreg (t : Strand) (n : Nat) : Word := cget t.sys n

/-- Write a system register. -/
def Strand.setSys (t : Strand) (n : Nat) (v : Word) : Strand := { t with sys := cset t.sys n v }

/-- R57: does a syllable with this guard execute? -/
def Strand.guardHolds (t : Strand) (g : BitVec 13) : Bool :=
  (t.reg (g.extractLsb' 7 6)).getLsbD (g.extractLsb' 1 6).toNat == (g.extractLsb' 0 1 == 1)

/-- Where element `k` of a line lies in the plane file (R63). -/
def elemKey (l : LineRef) (k : Nat) : Nat :=
  1024 * l.pn.toNat + match l.dir.toNat with
    | 0 => 32 * l.ix.toNat + k
    | 1 => 32 * k + l.ix.toNat
    | 2 => 32 * k + (k + l.ix.toNat) % 32
    | _ => 32 * k + (l.ix.toNat + 32 - k) % 32

/-- The 32 elements of a line. -/
def Strand.line (t : Strand) (l : LineRef) : List Elem :=
  (List.range 32).map (fun k => cget t.planes (elemKey l k))

/-- The tag of a window plane (R65). -/
def Strand.tagOf (t : Strand) (p : BitVec 5) : BitVec 4 := cget t.ptag p.toNat

/-- Write the masked bits of one element (R152). -/
def mergeBits (old new mask : Elem) : Elem := (old &&& ~~~ mask) ||| (new &&& mask)

/-- Write elements of a line under their masks, starting at element `k`. -/
def putElems (l : LineRef) : Nat → Cells 32 → List Elem → List Elem → Cells 32
  | k, c, v :: vs, m :: ms =>
    putElems l (k + 1) (cset c (elemKey l k) (mergeBits (cget c (elemKey l k)) v m)) vs ms
  | _, c, _, _ => c

/-- Write a line and set its plane's tag (R66). -/
def Strand.setLine (t : Strand) (l : LineRef) (vals masks : List Elem) (tag : BitVec 4) : Strand :=
  { t with planes := putElems l 0 t.planes vals masks, ptag := cset t.ptag l.pn.toNat tag }

/-- Write a result to its destination (R59). -/
def Strand.putDest (t : Strand) : Dest → Strand
  | .scalar n v => t.setReg n v
  | .handle n h => { t with hd := tset t.hd n.toNat h }
  | .line l _ vals masks tag => t.setLine l vals masks tag
  | .none => t

/-- A status field of flags and WO ORed into FF and, for results older than the handler entry, into
TSTS (R59, R385). -/
def Strand.orFlags (t : Strand) (ff : BitVec 5) (wo pre : Bool) : Strand :=
  let l : BitVec 6 := ofBool 1 wo ++ ff
  let t := { t with ff := t.ff ||| ff, wo := t.wo || wo }
  if pre && l ≠ 0 then { t.setSys 4 (t.sysreg 4 ||| (l.setWidth 64 <<< 7)) with late := t.late ||| l } else t

/-- One landing (R59). -/
def Strand.landOne (t : Strand) (l : Landing) : Strand := (t.putDest l.dest).orFlags l.ff l.wo l.pre

/-- The landings due before the issue of the next step, in issue order (R59, R60). -/
def Strand.landDue (t : Strand) : Strand :=
  (t.fly.filter (fun l => l.due ≤ t.steps)).foldl Strand.landOne
    { t with fly := t.fly.filter (fun l => !(l.due ≤ t.steps)) }

/-- Is the next issue held by a walk (R102, R193)? -/
def Strand.walkHeld (t : Strand) : Bool := t.fly.any (fun l => l.due ≤ t.steps && l.walk)

/-- A result of exposed latency `lat` of the syllable being issued (R58, R59). -/
def State.land (s : State) (lat : Nat) (d : Dest) (ff : BitVec 5 := 0) : State :=
  s.onMe (fun t => { t with fly := t.fly ++
    [{ due := t.steps + lat, origin := t.steps, slot := s.issue.slot, dest := d, ff := ff }] })

/-- A scalar result (R59). -/
def State.landS (s : State) (lat : Nat) (d : BitVec 6) (v : Word) : State := s.land lat (.scalar d v)

/-- Exposed latencies of R61. -/
def latIA : Nat := 1
/-- IM. -/
def latIM : Nat := 3
/-- ID. -/
def latID : Nat := 18
/-- LS. -/
def latLS : Nat := 4
/-- LX. -/
def latLX : Nat := 24
/-- XT. -/
def latXT : Nat := 3
/-- VI. -/
def latVI : Nat := 2
/-- VF. -/
def latVF : Nat := 4
/-- VC. -/
def latVC : Nat := 4
/-- VR. -/
def latVR : Nat := 8
/-- GS. -/
def latGS : Nat := 6
/-- A blocking result is visible to the next bundle (R61). -/
def latEB : Nat := 1

/-- The tenant that owns the queue of a strand's batch (R310, R325). -/
def State.tenantOf (s : State) (t : Strand) : BitVec 4 :=
  (tget (tget s.parts t.part).queues t.sq.toNat).ten

/-- Has a strand an access that is still held (R326)? -/
def Strand.holding (t : Strand) : Bool := t.ldq.any (fun o => o.held.isSome) || t.stq.any (fun o => o.held.isSome)

/-- A fence of a scope at the end of a meaning holds the strand's next bundle while an access of it is held (R141, R143). -/
def State.fenceMe (s : State) (scope : Nat) : State := s.onMe (fun t =>
  if t.holding then { t with fenced := true, fenceScope := max t.fenceScope scope } else t)

/-- The cluster of a core (R12). -/
def clusterOf (core : Nat) : Nat := core / 12

end Sys2Proof.Machine
end

