-- ==== Sys2Proof/Machine/Memory.lean ====
section
/-! DEFINITION. The memories behind handles and engines: physical addresses by kind (R14, R98), the
cluster data cache (R93), page walks (R96 to R99), fabric routes (R367), the dirty-page log (R414) and
the tallies of the bandwidth arbiters (R325). -/

namespace Sys2Proof.Machine

/-- Bytes of the tables that stand in the reserved staging slice for one partition: 512 KiB for its capability table and its
binding table of 128 KiB (R134, R358, R360; log 52). -/
def tableBytes : Nat := 2 ^ 19 + 2 ^ 17

/-- The staging slice that the control complex keeps for its tables and never assigns (R136, R358; log 52). -/
def reservedSlice : Nat := 63

/-- Where the reach table stands, in the last 16 KiB of the reserved slice (R92; log 52). -/
def reachBase : Nat := 2 ^ 32 - 2 ^ 14

/-- Bytes of a memory kind (R14): HBM, the 64 slices of staging memory, capacity tier. -/
def kindBytes (kind : Nat) : Nat := match kind with
  | 0 => 2 ^ 39
  | 1 => 2 ^ 32
  | 2 => 2 ^ 42
  | _ => 0

/-- A byte of the reach table (R92): DX is 0 to 2. -/
def reachByte (i : Nat) : Byte :=
  let e := Config.reach (i / 4)
  let w : BitVec 32 := if e.extractLsb' 24 2 = 3 then (2 : BitVec 8) ++ e.extractLsb' 0 24 else (0 : BitVec 6) ++ e
  w.extractLsb' (8 * (i % 4)) 8

/-- Key of a byte of a kind in `State.mem` (log 2). -/
def memKey (kind pa : Nat) : Nat := kind * 2 ^ 52 + pa

/-- Bytes of memory as every agent but a caching cluster reads them. -/
def State.readMem (s : State) (kind pa n : Nat) : List Byte :=
  if kind = 1 && reachBase ≤ pa then (List.range n).map (fun i => reachByte (pa - reachBase + i))
  else cread s.mem (memKey kind pa) n

/-- Store bytes to memory. -/
def State.writeMem (s : State) (kind pa : Nat) (l : List Byte) : State :=
  { s with mem := cwrite s.mem (memKey kind pa) l }

/-- Do `n` bytes at `pa` exist (R14)? -/
def paExists (kind pa n : Nat) : Bool := pa + n ≤ kindBytes kind

/-- Stop at a physical address that does not exist (log 2). -/
def needPa (kind pa n : Nat) : Res Unit :=
  if paExists kind pa n then .ok () else .error (.fault (.addressHole (memKey kind pa)))

/-- A byte of HBM as cluster `c` sees it (R93). -/
def State.cacheByte (s : State) (c pa : Nat) : Byte :=
  match tfind (tget s.clusters c).lines (pa / 64) with
  | some l => cget l.bytes (pa % 64)
  | none => cget s.mem pa

/-- Bytes as a handle access of cluster `c` sees them (R91, R93). -/
def State.viewBytes (s : State) (c kind pa n : Nat) : List Byte :=
  if kind = 0 then (List.range n).map (fun i => s.cacheByte c (pa + i)) else s.readMem kind pa n

/-- The line numbers that a byte run touches. -/
def linesOf (pa n : Nat) : List Nat :=
  if n = 0 then [] else (List.range ((pa + n - 1) / 64 - pa / 64 + 1)).map (fun i => pa / 64 + i)

/-- Bring a line into a cluster's cache (R93). -/
def State.fillLine (s : State) (c ln : Nat) : State :=
  match tfind (tget s.clusters c).lines ln with
  | some _ => s
  | none => s.onCluster c (fun k => { k with
      lines := tset k.lines ln { bytes := cwrite [] 0 (s.readMem 0 (64 * ln) 64) } })

/-- The lines of a handle read come into the cache. -/
def State.touch (s : State) (c kind pa n : Nat) : State :=
  if kind = 0 then (linesOf pa n).foldl (fun s ln => s.fillLine c ln) s else s

/-- A byte written into a line of the cache. -/
def CacheLine.put (l : CacheLine) (i : Nat) (b : Byte) : CacheLine :=
  { bytes := cset l.bytes i b, dirty := l.dirty ||| (1 <<< i) }

/-- Write bytes into the lines of a cluster's cache. -/
def State.cachePut (c : Nat) : State → Nat → List Byte → State
  | s, _, [] => s
  | s, pa, b :: r =>
    cachePut c ((s.fillLine c (pa / 64)).onCluster c (fun k =>
      { k with lines := tmod k.lines (pa / 64) (fun l => l.put (pa % 64) b) })) (pa + 1) r

/-- A handle write of cluster `c` (R91, R93). -/
def State.storeVia (s : State) (c kind pa : Nat) (l : List Byte) : State :=
  if kind = 0 then s.cachePut c pa l else s.writeMem kind pa l

/-- Write a line's dirty bytes to memory (R93). -/
def State.writeBack (s : State) (c ln : Nat) : State :=
  match tfind (tget s.clusters c).lines ln with
  | none => s
  | some l =>
    State.onCluster
      { s with mem := upTo 64 (fun i m =>
          if bitAt l.dirty i then cset m (64 * ln + i) (cget l.bytes i) else m) s.mem }
      c (fun k => { k with lines := tset k.lines ln { l with dirty := 0 } })

/-- Drop a line. -/
def State.dropLine (s : State) (c ln : Nat) : State :=
  s.onCluster c (fun k => { k with lines := tdel k.lines ln })

/-- Every index that a partition owns, those it is giving back included (R363). -/
def Partition.owns (p : Partition) (f : Resources → List Nat) : List Nat :=
  f p.res ++ match p.shrinking with
    | some r => f r
    | none => []

/-- Write back the lines that satisfy `p`, and invalidate them or keep them (R93, R137, R138, R141). -/
def State.flush (s : State) (c : Nat) (p : Nat → Bool) (inval : Bool) : State :=
  (((tget s.clusters c).lines.map (·.1)).filter p).foldl
    (fun s ln => let s := s.writeBack c ln; if inval then s.dropLine c ln else s) s

/-- Lines of a cluster's cache of 6 MiB (R93). -/
def cacheLines : Nat := 98304

/-- The cache of a cluster keeps its size: the lines beyond it go, from a free place on (R93; log 7). -/
def State.fitCache (s : State) (c : Nat) : State :=
  let l := (tget s.clusters c).lines.map (·.1)
  if l.length ≤ cacheLines then s
  else
    let out := (l.rotateLeft (Config.victim (s.free + 2 ^ 60 * c) % l.length)).take (l.length - cacheLines)
    s.flush c (fun ln => out.contains ln) true

/-- Evictions that the cache makes on its own between steps: any lines, as the free values say, and those that no longer
fit (R93; log 7). -/
def State.evictTurn (s : State) : State :=
  if s.clusters.all (fun k => k.2.lines.isEmpty) then s
  else
    let s' := s.clusters.foldl (fun s k =>
      (s.flush k.1 (fun ln => Config.evicts (64 * ln + k.1 + 2 ^ 60 * s.free)) true).fitCache k.1) s
    { s' with free := s.free + 1 }

/-- The arbiter's resource of a physical address (R324); channel groups of 16 GiB in order (log 15). -/
def resourceOf (kind pa : Nat) : Option Nat := match kind with
  | 0 => some (pa / 2 ^ 34)
  | 1 => some (32 + pa / 2 ^ 26)
  | _ => none

/-- Does a partition own a resource of R324? -/
def ownsRes (r : Resources) (x : Nat) : Bool :=
  if x < 32 then r.hbm.any (fun h => h.1 = x) else if x < 96 then r.slices.contains (x - 32)
  else if x < 128 then r.engines.contains (x - 96) else r.ports.contains (x - 128)

/-- The bandwidth entry of a tenant at a resource; one that the partition does not own has none in force (R324; log 29). -/
def State.bwEntry (s : State) (part : Nat) (ten : BitVec 4) (res : Nat) : Option (BitVec 32) :=
  if ownsRes (tget s.parts part).res res then some (cget (tget s.parts part).bw (152 * ten.toNat + res)) else none

/-- Unit bytes of a resource, doubled to stay whole (R324): 14,062.5 for a channel group, 15,625 for a slice, 1,562.5 each way
for a port; a copy engine's peak is the module's (log 8). -/
def unitBytes2 (res : Nat) : Nat :=
  if res < 32 then 28125 else if res < 96 then 31250 else if res < 128 then Config.engineUnit2 else 3125

/-- Keys of a tenant's bytes at a resource in `Partition.served`: what a port receives is counted apart from what it sends
(R324). -/
def servedKey (ten : BitVec 4) (res : Nat) (inward : Bool := false) : Nat :=
  152 * ten.toNat + res + (if inward then 2432 else 0)

/-- Twice the bytes of a tenant's cap at a resource, 0 where there is none (R324). -/
def State.cap2 (s : State) (part : Nat) (ten : BitVec 4) (res : Nat) : Nat :=
  match s.bwEntry part ten res with
  | some e => if e.extractLsb' 16 8 = 0 then 0 else (e.extractLsb' 16 8).toNat * unitBytes2 res
  | none => 0

/-- R326: has the tenant reached its cap in this window? -/
def State.capped (s : State) (part : Nat) (ten : BitVec 4) (res : Nat) (inward : Bool := false) : Bool :=
  let c := s.cap2 part ten res
  c ≠ 0 && c ≤ 2 * tget (tget s.parts part).served (servedKey ten res inward)

/-- Partition and tenant as R326 orders them. -/
def tenantKey (x : Nat × BitVec 4) : Nat := 16 * x.1 + x.2.toNat

/-- A tenant's floor in units and its served bytes at a resource (R324, R326). -/
def State.floorOf (s : State) (res : Nat) (x : Nat × BitVec 4) : Nat × Nat :=
  ((((s.bwEntry x.1 x.2 res).getD 0).extractLsb' 24 8).toNat, tget (tget s.parts x.1).served (servedKey x.2 res))

/-- Is a tenant below its floor (R326, class 2)? -/
def State.belowFloor (s : State) (res : Nat) (x : Nat × BitVec 4) : Bool :=
  let f := s.floorOf res x
  2 * f.2 < f.1 * unitBytes2 res

/-- Count bytes against a tenant at a resource (R325): beyond its cap they are those of later windows (R326). A tenant of class 3 is the
last one served in it (R326). -/
def State.chargeAt (s : State) (part : Nat) (ten : BitVec 4) (res bytes : Nat) (inward : Bool := false) : State :=
  let k := servedKey ten res inward
  let late := s.capped part ten res inward
  let s := if bytes = 0 || late || s.belowFloor res (part, ten) then s
    else s.onDev (fun d => { d with lastClass3 := tset d.lastClass3 res (tenantKey (part, ten)) })
  s.onPart part (fun p =>
    if late then { p with later := tset p.later k (tget p.later k + bytes) }
    else { p with served := tset p.served k (tget p.served k + bytes) })

/-- Count bytes of memory against a tenant (R325). -/
def State.charge (s : State) (part : Nat) (ten : BitVec 4) (kind pa bytes : Nat) : State :=
  match resourceOf kind pa with
  | none => s
  | some x => s.chargeAt part ten x bytes

/-- R326, R415: has the tenant a budget for atomics at a resource in this window, `n` at once? AB counts at channel groups and
slices (R324). More than the budget of a window go when it begins (log 29). -/
def State.budgetFree (s : State) (part : Nat) (ten : BitVec 4) (res n : Nat) : Bool :=
  let p := tget s.parts part
  let k := 152 * ten.toNat + res
  match s.bwEntry part ten res with
  | some e => !s.capped part ten res && (96 ≤ res || (e.extractLsb' 0 16 ≠ 0 && !p.lateAb.contains k &&
      (tget p.atomics k = 0 || tget p.atomics k + n ≤ (e.extractLsb' 0 16).toNat)))
  | none => true

/-- R326: does the arbiter of a resource serve tenant `a` before tenant `b`, or are they one: class 2 by the ratio of served
bytes to floor, then class 3 in rotation after the tenant served last? -/
def State.servesFirst (s : State) (res : Nat) (a b : Nat × BitVec 4) : Bool :=
  let x := s.floorOf res a
  let y := s.floorOf res b
  let turn (k : Nat × BitVec 4) : Nat := (tenantKey k + 1023 - tget s.dev.lastClass3 res) % 1024
  if s.belowFloor res a then
    !s.belowFloor res b || x.2 * y.1 < y.2 * x.1 || (x.2 * y.1 = y.2 * x.1 && tenantKey a ≤ tenantKey b)
  else !s.belowFloor res b && turn a ≤ turn b

/-- R325: atomics performed at a place count 128 bytes each, and one each against AB. -/
def State.chargeAtomics (s : State) (part : Nat) (ten : BitVec 4) (res n : Nat) : State :=
  (s.chargeAt part ten res (128 * n)).onPart part (fun p =>
    { p with atomics := tset p.atomics (152 * ten.toNat + res) (tget p.atomics (152 * ten.toNat + res) + n) })

/-- Where the next entry of a dirty-page ring stands (R414). -/
def DirtyLog.slot (d : DirtyLog) : Nat := d.base + 8 * (d.pos % max 1 d.size)

/-- Append an entry to a dirty-page ring (R414). -/
def DirtyLog.append (d : DirtyLog) (e : Word) : DirtyLog := { d with ring := d.ring ++ [e], pos := d.pos + 1 }

/-- R414: log the first write to a virtual page; none while the ring is full. -/
def State.logDirty (s : State) (part : Nat) (ten : BitVec 4) (kind va : Nat) : Option State :=
  match tfind (tget s.parts part).dirty ten.toNat with
  | none => some s
  | some d =>
    let pg := va / 4096
    if !d.armed || d.pages.contains pg then some s
    else if d.size ≤ d.ring.length then none
    else
      let e : Word := BitVec.ofNat 64 (kind * 2 ^ 56 + pg % 2 ^ 44 * 4096)
      let s := s.onPart part (fun p => { p with dirty := tset p.dirty ten.toNat ({ d with pages := pg :: d.pages }.append e) })
      some { s with dev := { s.dev with dram := dramPut s.dev.dram d.slot (dwBytes e) } }

/-- Log pages in order, each a kind and an address, as far as the ring has room; did it have room for all? An entry may
stand in the ring before its write waits for the next one's (R414). -/
def State.logAll (s : State) (part : Nat) (ten : BitVec 4) : List (Nat × Nat) → State × Bool
  | [] => (s, true)
  | p :: r => match s.logDirty part ten p.1 p.2 with
    | some s' => State.logAll s' part ten r
    | none => (s, false)

/-- The pages of a byte run of a kind. -/
def pagesOf (kind va n : Nat) : List (Nat × Nat) :=
  if n = 0 then [] else (List.range ((va + n - 1) / 4096 - va / 4096 + 1)).map (fun i => (kind, 4096 * (va / 4096 + i)))

/-- The bundle waits, and what has been done of its effect stays. -/
def State.waiting (s : State) : State := { s with issue := { s.issue with status := .wait } }

/-- A valid leaf found by a walk (R98): page size code, kind, rights, physical and virtual page base. -/
structure Leaf where
  ps : Nat := 0
  kd : Nat := 0
  pr : Bool := false
  pw : Bool := false
  pa : Bool := false
  base : Nat := 0
  vbase : Nat := 0
  deriving DecidableEq, Repr, Inhabited

/-- log2 of the bytes of a page size code (R96). -/
def pageBits (ps : Nat) : Nat := match ps with
  | 0 => 12
  | 1 => 16
  | 2 => 21
  | 3 => 25
  | _ => 30

/-- Index groups of a walk from the top level down: lowest bit and length (R97). -/
def walkGroups (ps : Nat) : List (Nat × Nat) := match ps with
  | 0 => [(48, 4), (39, 9), (30, 9), (21, 9), (12, 9)]
  | 1 => [(43, 9), (34, 9), (25, 9), (16, 9)]
  | 2 => [(48, 4), (39, 9), (30, 9), (21, 9)]
  | 3 => [(43, 9), (34, 9), (25, 9)]
  | _ => [(48, 4), (39, 9), (30, 9)]

/-- The splinter page size of a parent, and its index length (R99). -/
def splinterOf (ps : Nat) : Nat × Nat := match ps with
  | 1 => (0, 4)
  | 2 => (0, 9)
  | 3 => (1, 9)
  | _ => (2, 9)

/-- The outcome of a walk: a leaf, an entry that is not valid, or a malformed entry (R99). -/
inductive Walk where
  | leaf (l : Leaf)
  | absent
  | bad (pa : Nat)
  deriving DecidableEq, Repr, Inhabited

/-- A table entry, read from memory (R97; tables are in HBM, log 2). -/
def tableEntry (m : List Host.Cell) (pa : Nat) : Word := BitVec.ofNat 64 (cnum m pa 8)

/-- R99: reserved fields of an entry. -/
def entryReserved (e : Word) : Bool := fld e 52 4 ≠ 0 || fld e 0 12 ≠ 0

/-- A leaf from its entry. -/
def leafOf (e : Word) (ps va : Nat) : Leaf :=
  { ps := ps, kd := fld e 56 3, pr := bitAt e 61, pw := bitAt e 60, pa := bitAt e 59,
    base := fld e 12 40 * 4096, vbase := va / 2 ^ pageBits ps * 2 ^ pageBits ps }

/-- The entry of a splinter table (R99). -/
def walkSplinter (m : List Host.Cell) (e : Word) (ps va : Nat) : Walk :=
  let (sp, len) := splinterOf ps
  let a := fld e 12 40 * 4096 + 8 * (va / 2 ^ pageBits sp % 2 ^ len)
  let x := tableEntry m a
  if !bitAt x 63 then .absent
  else if entryReserved x || 2 < fld x 56 3 || bitAt x 62 then .bad a
  else .leaf (leafOf x sp va)

/-- The levels of a walk below a table (R97 to R99); an entry with PV 0 is absent whatever else it holds
(DEDUCED, log 21). -/
def walkFrom (m : List Host.Cell) (ps va : Nat) : List (Nat × Nat) → Nat → Walk
  | [], _ => .absent
  | (lo, len) :: rest, table =>
    let a := table + 8 * (va / 2 ^ lo % 2 ^ len)
    let e := tableEntry m a
    if !bitAt e 63 then .absent
    else if entryReserved e || (ps = 0 && bitAt e 62) then .bad a
    else match rest with
      | _ :: _ => walkFrom m ps va rest (fld e 12 40 * 4096)
      | [] =>
        if 2 < fld e 56 3 then .bad a
        else if bitAt e 62 then walkSplinter m e ps va
        else .leaf (leafOf e ps va)

/-- The walk of a virtual address by a region file and the tables in memory (R96, R102). -/
def walkIn (m : List Host.Cell) (regions : Cells 64) (va : BitVec 56) : Walk :=
  let r := cget regions (va.toNat / 2 ^ 52)
  if !bitAt r 63 then .absent
  else walkFrom m (fld r 60 3) va.toNat (walkGroups (fld r 60 3)) (fld r 12 40 * 4096)

/-- Where a partition's capability table stands (R360), and from the key of R361 its reach table (15) or binding table
(16), which the control complex places behind it in region 15 (log 52). -/
def tableVa (key part : Nat) : Nat :=
  0xF0_0000_0000_0000 + (if key = 15 || key = 16 then 2 ^ 21 * (2 * (Config.tableSlot part % 2 ^ 29) + (key - 14)) else 0)

/-- The physical address of a partition's tables: the capability table, then the binding table (log 52). -/
def tablePa (key part : Nat) : Nat :=
  if key = 15 then reachBase else 2 ^ 26 * reservedSlice + 2 ^ 20 * part + (if key = 16 then 2 ^ 19 else 0)

/-- The reserved tables that the device maps read-only for a live partition in region 15 (R92, R134, R358, R360). -/
def State.reservedLeaf (s : State) (part va : Nat) : Option Leaf :=
  if va / 2 ^ 52 = 15 && (tget s.parts part).live then
    ([(0, 2 ^ 19), (15, 2 ^ 14), (16, 2 ^ 17)].find? (fun t => tableVa t.1 part ≤ va && va < tableVa t.1 part + t.2)).map (fun t =>
      { ps := 0, kd := 1, pr := true, base := tablePa t.1 part + (va - tableVa t.1 part) / 4096 * 4096, vbase := va / 4096 * 4096 })
  else none

/-- The walk of a virtual address of a partition in tables and a region file, behind the mapping of the reserved tables. -/
def State.walkBy (s : State) (part : Nat) (m : List Host.Cell) (regions : Cells 64) (va : BitVec 56) : Walk :=
  match s.reservedLeaf part va.toNat with
  | some l => .leaf l
  | none => walkIn m regions va

/-- The walk of a virtual address of a partition. -/
def State.walk (s : State) (part : Nat) (va : BitVec 56) : Walk := s.walkBy part s.mem (tget s.parts part).regions va

/-- The first of a list of old mappings whose range holds an address. -/
def OldMap.holding (l : List OldMap) (va : Nat) : Option OldMap := l.find? (fun r => r.va ≤ va && va < r.va + r.len)

/-- The walk of a command that translates for itself and is behind every marker (R144): what the control complex has changed
without invalidating it yet is walked as it was. -/
def State.walkInForce (s : State) (part : Nat) (va : BitVec 56) : Walk :=
  match OldMap.holding (tget s.parts part).before va.toNat with
  | some m => match s.walkBy part m.tables m.regs va with
    | .leaf f => .leaf f
    | _ => s.walk part va
  | none => s.walk part va

/-- What is left of an old mapping's range outside another range. -/
def OldMap.outside (m : OldMap) (va len : Nat) : List OldMap :=
  [{ m with len := min m.len (va - m.va) },
   { m with va := max m.va (va + len), len := m.va + m.len - max m.va (va + len) }].filter (fun x => x.len ≠ 0)

/-- The leaf of a walk, if it finds one. -/
def Walk.found : Walk → Option Leaf
  | .leaf l => some l
  | _ => none

/-- A valid route entry of the partition whose window holds the address (R367): device, remote address,
port mask. -/
def State.routeOf (s : State) (part : Nat) (va : Nat) : Option (Nat × Nat × BitVec 24) :=
  (tget s.parts part).res.routes.findSome? (fun n =>
    let e := cget s.dev.routes n
    let lo : Word := e.extractLsb' 0 64
    let hi : Word := e.extractLsb' 64 64
    let lb := fld lo 30 26 * 2 ^ 30
    if bitAt lo 63 && lb ≤ va && va < lb + (fld lo 16 14 + 1) * 2 ^ 30
    then some (fld hi 52 12, fld hi 30 22 * 2 ^ 30 + (va - lb), hi.extractLsb' 6 24) else none)

/-- An address that lies in the window of a valid route entry which the partition does not own (R367, R399). -/
def State.routeBarred (s : State) (part : Nat) (va : Nat) : Bool :=
  s.dev.routes.any (fun e =>
    let lo : Word := e.2.extractLsb' 0 64
    let lb := fld lo 30 26 * 2 ^ 30
    bitAt lo 63 && !(tget s.parts part).res.routes.contains e.1 && lb ≤ va && va < lb + (fld lo 16 14 + 1) * 2 ^ 30)

/-- The physical address of a virtual one on a leaf. -/
def Leaf.at (l : Leaf) (va : Nat) : Nat := l.base + (va - l.vbase)

/-- R102: does the leaf grant every right asked for (bit 2 atomics, bit 1 write, bit 0 read)? -/
def Leaf.grants (l : Leaf) (rq : BitVec 3) : Bool :=
  (!bitAt rq 0 || l.pr) && (!bitAt rq 1 || l.pw) && (!bitAt rq 2 || l.pa)

/-- The handle that an XLATE of `va` with rights `rq` lands (R102, R367). -/
def State.translate (s : State) (part : Nat) (va : BitVec 56) (rq : BitVec 3) : Handle :=
  let failed : Handle := { hs := 3, vb := va.extractLsb' 12 44, rq := rq }
  if (s.routeOf part va.toNat).isSome then failed
  else match s.walk part va with
    | .leaf l =>
      if l.grants rq then
        { hs := 1, ps := BitVec.ofNat 3 l.ps, kd := BitVec.ofNat 3 l.kd, pr := l.pr, pw := l.pw,
          pa := l.pa, pb := BitVec.ofNat 40 (l.base / 4096), vb := BitVec.ofNat 44 (l.vbase / 4096),
          rq := rq }
      else failed
    | _ => failed

/-- Write bytes at a partition's virtual address as the device does (folios, frames, completion words):
page by page, leaving out what does not translate to kind 0 or 1 with the write right (log 22). -/
def State.devWrite (s : State) (part va : Nat) (l : List Byte) : State :=
  let first := va / 4096
  let n := if l.isEmpty then 0 else (va + l.length - 1) / 4096 - first + 1
  (List.range n).foldl (fun s i =>
    let lo := max va (4096 * (first + i))
    let hi := min (va + l.length) (4096 * (first + i + 1))
    match s.walk part (BitVec.ofNat 56 lo) with
    | .leaf f =>
      if f.kd < 2 && f.pw && paExists f.kd (f.at lo) (hi - lo)
      then s.writeMem f.kd (f.at lo) ((l.drop (lo - va)).take (hi - lo)) else s
    | _ => s) s

/-- Read bytes at a partition's virtual address as the device does; none where a byte cannot be read. -/
def State.devRead (s : State) (part va n : Nat) : Option (List Byte) :=
  let first := va / 4096
  let k := if n = 0 then 0 else (va + n - 1) / 4096 - first + 1
  (List.range k).foldl (fun o i => o.bind (fun acc =>
    let lo := max va (4096 * (first + i))
    let hi := min (va + n) (4096 * (first + i + 1))
    match s.walk part (BitVec.ofNat 56 lo) with
    | .leaf f => if f.kd < 2 && f.pr && paExists f.kd (f.at lo) (hi - lo)
        then some (acc ++ s.readMem f.kd (f.at lo) (hi - lo)) else none
    | _ => none)) (some [])

end Sys2Proof.Machine
end

