-- ==== Sys2Proof/Machine/Records.lean ====
section
/-! DEFINITION. Trap records (R380): their words, the rings of the two lanes in the private DRAM of the control complex
(R381), the fatal lane, and the report of a malformed table entry that a walk meets (R99). -/

namespace Sys2Proof.Machine

/-- Sequence numbers count from 1 and wrap from 2^32 − 1 to 1 (R37, R380, R413). -/
def nextSeq (x : BitVec 32) : BitVec 32 := if x + 1 = 0 then 1 else x + 1

/-- The bytes of words. -/
def wordsBytes (l : List Word) : List Byte := l.flatMap dwBytes

/-- The eight words of a posted trap record (R380). -/
def Record.words (r : Record) : List Word :=
  [ (1 : BitVec 1) ++ ofBool 1 r.mod ++ ofBool 1 r.ovf ++ ofBool 1 r.ud ++ (0 : BitVec 2) ++ BitVec.ofNat 6 r.part ++ r.cause ++
      (0 : BitVec 4) ++ r.seq,
    r.fol &&& 0x00FF_FFFF_FFFF_FFC0, r.tpc.setWidth 64 &&& 0x00FF_FFFF_FFFF_FFF8, r.val,
    (0 : BitVec 16) ++ r.core ++ r.ctx ++ r.slt ++ r.mpc ++ (0 : BitVec 18), r.time, r.aux, r.tkt ]

/-- Write bytes into the private DRAM of the control complex (R14, R381). -/
def Device.dramWrite (d : Device) (a : Nat) (l : List Byte) : Device := { d with dram := dramPut d.dram a l }

/-- The first free slot of a ring from a position on (R381; log 34). -/
def freeSlot (used : List Nat) (size start : Nat) : Nat :=
  (((List.range (used.length + 1)).map (fun i => (start + i) % size)).find? (fun i => !used.contains i)).getD start

/-- Where a posted record stands (R381). -/
def Device.recordAt (d : Device) (r : Record) : Nat :=
  if r.fatal then d.fatalBase + 64 * (64 * (if r.mod then 64 else r.part) + r.place) else d.replayBase + 64 * r.place

/-- A record is posted in its slot of the fatal ring: 64 slots for each partition and 64 for the module (R380, R381). -/
def Device.postFatal (d : Device) (r : Record) : Device :=
  let here := d.fatal.filter (fun q => q.mod = r.mod && q.part = r.part)
  let r : Record := { r with place := freeSlot (here.map (·.place)) 64 ((r.seq.toNat - 1) % 64) }
  ({ d with fatal := d.fatal ++ [r] }).dramWrite (d.recordAt r) (wordsBytes r.words)

/-- A replayable record is posted in the next slot of its ring (R380, R381). -/
def Device.postReplay (d : Device) (r : Record) : Device :=
  let r : Record := { r with place := freeSlot (d.replay.map (·.place)) d.ring d.replayPos }
  ({ d with replay := d.replay ++ [r], replayPos := (r.place + 1) % d.ring }).dramWrite (d.recordAt r) (wordsBytes r.words)

/-- The control complex writes 0 to VLD of a record of a lane, which frees its slot (R380, R381). -/
def Device.consume (fatal : Bool) (d : Device) (r : Record) : Device :=
  { d with
    fatal := if fatal then d.fatal.filter (· ≠ r) else d.fatal, replay := if fatal then d.replay else d.replay.filter (· ≠ r),
    dram := cset d.dram (d.recordAt r + 7) (cget d.dram (d.recordAt r + 7) &&& 0x7F) }

/-- Post to the fatal lane, or drop the record and remember OVF (R381). -/
def State.postFatal (s : State) (r : Record) : State :=
  if r.mod then
    if 64 ≤ (s.dev.fatal.filter (fun q => q.mod)).length then s.onDev (fun d => { d with modOvf := true })
    else s.onDev (fun d => ({ d with modSeq := nextSeq d.modSeq, modOvf := false }).postFatal
      { r with fatal := true, seq := nextSeq d.modSeq, ovf := d.modOvf, part := 0 })
  else
    let p := tget s.parts r.part
    if 64 ≤ (s.dev.fatal.filter (fun q => !q.mod && q.part = r.part)).length then
      s.onPart r.part (fun p => { p with ovf := true })
    else
      (s.onDev (fun d => d.postFatal { r with fatal := true, seq := nextSeq p.fatalSeq, ovf := p.ovf })).onPart
          r.part (fun p => { p with fatalSeq := nextSeq p.fatalSeq, ovf := false })

/-- The record of a malformed table entry at a physical address (R99; SLT: log 78). -/
def State.badEntry (s : State) (a : Nat) : State :=
  s.postFatal { mod := true, cause := 0x0031, val := BitVec.ofNat 64 a, slt := 7, time := BitVec.ofNat 64 s.now }

/-- A run of bytes that a reader takes from one array (R406): SPC, the array's owner, first byte, number. The owner is 0
for HBM, staging and the tier, else a landing, a cluster, 8 · core + context, 2 · core + half or a core (log 31). -/
structure ArrayRun where
  spc : Nat := 0
  owner : Nat := 0
  lo : Nat := 0
  n : Nat := 0
  deriving DecidableEq, Repr, Inhabited

/-- LEN of a unit (R406). -/
def unitLen (spc : Nat) : Nat := if spc < 5 then 64 else if spc < 11 then 128 else if spc = 11 then 16 else 8

/-- Does a unit, with its SPC, owner and first byte, hold a byte of the run? -/
def ArrayRun.holds (r : ArrayRun) (u : Nat × Nat × Nat) : Bool :=
  u.1 = r.spc && u.2.1 = r.owner && u.2.2 < r.lo + r.n && r.lo < u.2.2 + unitLen r.spc

/-- Does a run hold a unit with an uncorrectable error? -/
def State.hasError (s : State) (r : ArrayRun) : Bool := s.dev.uncorrectable.any r.holds

/-- R406: a record, like `q` but for what the error gives it, for each unit with an uncorrectable error that a reader
reads; the reader goes on with the bits as stored. -/
def State.noteAs (s : State) (q : Record) (l : List ArrayRun) : State :=
  s.dev.uncorrectable.foldl (fun s u =>
    if l.any (fun r => r.holds u) then
      s.postFatal { q with cause := if u.1 < 5 then 0x0044 else 0x0045, val := BitVec.ofNat 64 u.2.2,
                           aux := BitVec.ofNat 64 (u.1 * 2 ^ 56 + unitLen u.1), time := BitVec.ofNat 64 s.now }
    else s) s

/-- Addresses of the entries that the levels of a walk read, as `walkFrom` goes (R97 to R99). -/
def walkEntries (m : List Host.Cell) (ps va : Nat) : List (Nat × Nat) → Nat → List Nat
  | [], _ => []
  | (lo, len) :: rest, table =>
    let a := table + 8 * (va / 2 ^ lo % 2 ^ len)
    let e := tableEntry m a
    if !bitAt e 63 || entryReserved e || (ps = 0 && bitAt e 62) then [a]
    else match rest with
      | _ :: _ => a :: walkEntries m ps va rest (fld e 12 40 * 4096)
      | [] =>
        if 2 < fld e 56 3 || !bitAt e 62 then [a]
        else [a, fld e 12 40 * 4096 + 8 * (va / 2 ^ pageBits (splinterOf ps).1 % 2 ^ (splinterOf ps).2)]

/-- What the walk of an address reads of HBM by a region file and tables (R97, R406). -/
def State.walkRunsBy (s : State) (part : Nat) (m : List Host.Cell) (regions : Cells 64) (va : BitVec 56) : List ArrayRun :=
  let r := cget regions (va.toNat / 2 ^ 52)
  if !bitAt r 63 || (s.reservedLeaf part va.toNat).isSome then []
  else (walkEntries m (fld r 60 3) va.toNat (walkGroups (fld r 60 3)) (fld r 12 40 * 4096)).map
    (fun a => { lo := a, n := 8 })

/-- What the walk of an address reads of HBM (R97, R406). -/
def State.walkRuns (s : State) (part : Nat) (va : BitVec 56) : List ArrayRun :=
  s.walkRunsBy part s.mem (tget s.parts part).regions va

/-- Report what a walk meets: a malformed table entry (R99; SLT: log 78), and entries in error that it reads (R406). -/
def State.noteFound (s : State) (part : Nat) (runs : List ArrayRun) (w : Walk) : State :=
  let s := s.noteAs { part := part } runs
  match w with
  | .bad a => s.badEntry a
  | _ => s

/-- Report what the walk of an address meets. -/
def State.noteWalk (s : State) (part : Nat) (va : BitVec 56) : State :=
  s.noteFound part (s.walkRuns part va) (s.walk part va)

/-- The energy in W · ns that a log of draws, the latest first, gives between two moments. -/
def energyIn : List (Nat × Nat) → Nat → Nat → Nat
  | [], _, _ => 0
  | (t, w) :: r, lo, hi => w * (hi - max t lo) + (if lo < t then energyIn r lo (min hi t) else 0)

/-- R20: the energy in W · ns of a share over the last 1 ms, whose average is the measured share; before its first draw it
draws nothing (log 15). -/
def State.share (s : State) (log : Device → List (Nat × Nat)) : Nat := energyIn (log s.dev) (s.now - 1000000) s.now

/-- Does the average of a share over the last 1 ms exceed a power in W (R20, R21)? -/
def State.over (s : State) (log : Device → List (Nat × Nat)) (w : Nat) : Bool := w * 1000000 < s.share log

/-- Is the average of a share over the last 1 ms below a power in W (R20, R21)? -/
def State.under (s : State) (log : Device → List (Nat × Nat)) (w : Nat) : Bool := s.share log < w * 1000000

/-- A new draw of a share (R20): what is older than 1 ms is not kept. -/
def addDraw (now w : Nat) (l : List (Nat × Nat)) : List (Nat × Nat) :=
  let recent := l.takeWhile (fun e => now < e.1 + 1000000)
  (now, w) :: recent ++ ((l.drop recent.length).take 1)

/-- Report what the walks of a byte run that the device reads or writes meet (R99, R406). -/
def State.noteRun (s : State) (part va n : Nat) : State :=
  (pagesOf 0 va n).foldl (fun s p => s.noteWalk part (BitVec.ofNat 56 (max va p.2))) s

/-- Where a byte run that the device reads lies. -/
def State.devRuns (s : State) (part va n : Nat) : List ArrayRun :=
  (pagesOf 0 va n).flatMap (fun p =>
    let lo := max va p.2
    match s.walk part (BitVec.ofNat 56 lo) with
    | .leaf f => if f.pr && f.kd < 2 then [{ spc := f.kd, lo := f.at lo, n := min (va + n) (p.2 + 4096) - lo }] else []
    | _ => [])

/-- Report what a read of a byte run by the device meets, in its walks and in what it reads (R99, R406). -/
def State.noteRead (s : State) (part va n : Nat) : State :=
  (s.noteRun part va n).noteAs { part := part } (s.devRuns part va n)

end Sys2Proof.Machine
end

