-- ==== Sys2Proof/Machine/Pack.lean ====
section
/-! DEFINITION. The layouts in which a strand's state stands in memory and in system registers: status word
and folio (R24), redirect entries, handles (R101), tile-table entries (R86), hold latches (R154), micro
header and binding block (R295, R296), fault restart record (R401), snapshot entries (R75) and the frame
(R77, R78). -/

namespace Sys2Proof.Machine

/-- A redirect entry as a word (R24 offset 0x08); an absent entry is 0 (log 23). -/
def packRedirect (e : Redirect) : Word :=
  (1 : BitVec 1) ++ e.rd ++ ofBool 1 e.ra1 ++ ofBool 1 e.ra2 ++ (0 : BitVec 3) ++
    e.rt.extractLsb' 3 53 ++ (0 : BitVec 3)

/-- Entry `k` of a redirect queue as a word. -/
def packQueue (q : List Redirect) (k : Nat) : Word := match q[k]? with
  | some e => packRedirect e
  | none => 0

/-- The redirect entry a word holds, if RV is 1. -/
def unpackRedirect (w : Word) : Option Redirect :=
  if bitAt w 63 then
    some { rd := w.extractLsb' 61 2, ra1 := bitAt w 60, ra2 := bitAt w 59,
           rt := w.extractLsb' 3 53 ++ (0 : BitVec 3) }
  else none

/-- The status word, folio offset 0x20 (R24), with a given ST. -/
def Strand.statusWord (t : Strand) (st : BitVec 4) : Word :=
  (0 : BitVec 28) ++ t.sq ++ (0 : BitVec 4) ++ t.fp ++ t.rm ++ ofBool 1 t.wo ++ t.ff ++ ofBool 1 t.ha ++
    ofBool 1 t.cb ++ ofBool 1 t.fs ++ st

/-- Folio word 0x28 (R24). -/
def Strand.batchWord (t : Strand) : Word :=
  t.bs ++ t.gi ++ (0 : BitVec 7) ++ BitVec.ofNat 2 t.role ++ BitVec.ofNat 7 t.rank

/-- The eight words of a folio (R24). -/
def Strand.folioWords (t : Strand) : List Word :=
  [ t.pc.setWidth 64, packQueue t.rq 0, packQueue t.rq 1, t.fb.setWidth 64, t.statusWord t.st,
    t.batchWord, t.pwb.setWidth 64, t.ig ++ (0 : BitVec 16) ++ t.sc ++ t.wc ]

/-- Write a strand's folio (R26). -/
def State.writeFolio (s : State) (t : Strand) : State :=
  (s.noteRun t.part t.fol.toNat 64).devWrite t.part t.fol.toNat (wordsBytes t.folioWords)

/-- R26: does a loaded folio pass its checks? -/
def folioOk (l : List Byte) : Bool :=
  let q0 := dwAt l 0x08
  let q1 := dwAt l 0x10
  let st := dwAt l 0x20
  let entry (w : Word) : Bool := fld w 61 2 ≠ 3 && !(bitAt w 63 && fld w 61 2 = 0) && fld w 56 3 = 0 && fld w 0 3 = 0
  fld st 0 4 ≤ 4 && fld st 13 3 ≤ 4 && fld st 16 12 ≠ 0 && entry q0 && entry q1 &&
    fld (dwAt l 0) 56 8 = 0 && fld (dwAt l 0) 0 3 = 0 &&
    fld (dwAt l 0x18) 56 8 = 0 && fld (dwAt l 0x18) 0 12 = 0 &&
    fld st 36 28 = 0 && fld st 28 4 = 0 && fld (dwAt l 0x28) 9 7 = 0 &&
    fld (dwAt l 0x30) 56 8 = 0 && fld (dwAt l 0x30) 0 6 = 0 && fld (dwAt l 0x38) 16 16 = 0

/-- A handle register's two words (R101). -/
def packHandle (h : Handle) : List Word :=
  [ h.hs ++ h.ps ++ h.kd ++ ofBool 1 h.pr ++ ofBool 1 h.pw ++ ofBool 1 h.pa ++ (0 : BitVec 1) ++ h.pb ++
      (0 : BitVec 12),
    (0 : BitVec 8) ++ h.vb ++ (0 : BitVec 9) ++ h.rq ]

/-- A tile-table entry's word 0x00 with a given TG (R86). -/
def packTile (e : Tile) (tg : BitVec 32) : Word :=
  e.ts ++ e.tk ++ e.bi ++ e.ft ++ (0 : BitVec 3) ++ BitVec.ofNat 8 e.rc ++ BitVec.ofNat 8 e.dc ++ tg

/-- A hold latch (R154). -/
def packLatch (h : HoldLatch) : Word :=
  ofBool 1 h.hv ++ (0 : BitVec 48) ++ h.pm ++ h.hx ++ h.hf

/-- The micro state header (R295). -/
def packMicro (m : Micro) : List Word :=
  [ ofBool 1 m.mv ++ m.mc ++ m.mop ++ m.mpc ++ BitVec.ofNat 13 m.msn ++ m.msb ++ m.mra ++ (0 : BitVec 4),
    m.cf ++ m.mf ++ m.rmu ++ (0 : BitVec 9) ++ m.opb,
    m.lc1 ++ m.lc0 ++ (0 : BitVec 32),
    cget m.ag 0, cget m.ag 1, cget m.ag 2, cget m.ag 3, 0 ]

/-- A load group record (R296). -/
def packGroup (g : LoadGroup) : List Word :=
  [ ofBool 1 g.gv ++ (0 : BitVec 6) ++ g.gn ++ g.gma ++ (0 : BitVec 38),
    (0 : BitVec 8) ++ g.gsrc ++ (0 : BitVec 12) ]

/-- The fault restart record (R401). -/
def packRestart (r : Restart) : List Word :=
  [ ofBool 1 r.fv ++ r.td ++ ofBool 1 r.x ++ r.fm ++ r.ord ++ (0 : BitVec 48),
    r.desc.getD 0 0, r.desc.getD 1 0, r.desc.getD 2 0, r.desc.getD 3 0, r.desc.getD 4 0, r.desc.getD 5 0,
    r.lit.setWidth 64 ]

/-- A snapshot entry (R75) of a result in flight at a boundary after `steps` issue steps. RS 0 stands for a result that
a routine in progress holds back until it ends (R291; log 79). -/
def packLanding (steps : Nat) (l : Landing) : List Word :=
  let head (dk : BitVec 3) (dn : BitVec 6) (dd : BitVec 2) (dl : BitVec 5) (pm : BitVec 3) (ft : BitVec 4) : Word :=
    BitVec.ofNat 5 (l.due - steps) ++ BitVec.ofNat 5 (steps - 1 - l.origin) ++ l.slot ++ dk ++ dn ++ dd ++
      dl ++ pm ++ ft ++ l.ff ++ (0 : BitVec 23)
  let pad (v : List Word) : List Word := v ++ List.replicate (16 - v.length) 0
  match l.dest with
  | .scalar n v => head 0 n 0 0 0 0 :: 0 :: pad [v]
  | .handle n h => head 1 (n.setWidth 6) 0 0 0 0 :: 0 :: pad (packHandle h)
  | .line x pm vals _ tag => head 2 (x.pn.setWidth 6) x.dir x.ix pm tag :: 0 ::
      pad ((List.range 16).map (fun i => vals.getD (2 * i + 1) 0 ++ vals.getD (2 * i) 0))
  | .none => head 0 0 0 0 0 0 :: 0 :: pad []

/-- Pad bytes with zeros to a length. -/
def padTo (n : Nat) (l : List Byte) : List Byte := l ++ List.replicate (n - l.length) 0

/-- The fixed part of a frame (R77), with the waiter link. R74 and R77 have at most 80 entries; a strand suspended within a routine also
holds back results that were due when the routine began (R291), and may have more: all are written, on into the reserved region
(DESIGN CHOICE, log 96). -/
def Strand.frameFixed (t : Strand) : List Byte :=
  let tags : List Word := (List.range 2).map (fun h => BitVec.ofNat 64
    ((List.range 16).foldl (fun a p => a + (cget t.ptag (16 * h + p)).toNat * 16 ^ p) 0))
  let w := t.win
  let windows : Word := BitVec.ofNat 64 (w.sb * 2 ^ 29 + w.ct * 2 ^ 23 + w.at_ * 2 ^ 18 + w.wt * 2 ^ 12 +
    w.th * 2 ^ 6 + w.pl)
  let snap := t.fly
  let info : Word := BitVec.ofNat 64 (1 + 256 * snap.length + (if t.micro.mv then 2 ^ 16 else 0) +
    (if t.restart.fv then 2 ^ 17 else 0))
  padTo 0x0180 (wordsBytes ([t.link, info,
      BitVec.ofNat 64 (t.ldq.length + 2 ^ 8 * t.stq.length + 2 ^ 16 * t.cpq.length + 2 ^ 24 * t.tlq.length)] ++
      tags ++ [windows, 0, 0] ++ (List.range 16).flatMap (fun i => packHandle (tget t.hd i)) ++
      packMicro t.micro)) ++
  padTo 0x40 (wordsBytes ((List.range 4).map (fun i => packLatch (tget t.latches i)))) ++
  wordsBytes (packRestart t.restart) ++
  wordsBytes ((List.range 64).map (fun i => t.reg (BitVec.ofNat 6 i))) ++
  (cvals t.micro.mt 0 256).flatMap wBytes ++
  padTo 0x800 (wordsBytes (cvals t.bind 0 64 ++ cvals t.sys 0 8 ++ cvals t.micro.lp 0 8 ++
      (List.range 24).flatMap (fun i => packGroup (tget t.groups i)))) ++
  padTo 0x4000 (snap.flatMap (fun l => wordsBytes (packLanding t.steps l)))

/-- The whole frame (R77, R78). -/
def Strand.frameBytes (t : Strand) : List Byte :=
  t.frameFixed ++ (cvals t.planes 0 (1024 * t.win.pl)).flatMap wBytes ++
    cread t.wmem 0 (16384 * t.win.wt) ++ cread t.amem 0 (16384 * t.win.at_) ++
    cread t.cmem 0 (4096 * t.win.ct) ++ cread t.smem 0 (4096 * t.win.sb) ++
    (List.range t.win.th).flatMap (fun i =>
      let e := tget t.tiles i
      wordsBytes [packTile e (if e = {} then 0 else t.gen), BitVec.ofNat 64 e.qc])

/-- R78: bytes a frame needs. -/
def frameSize (w : Windows) : Nat :=
  20480 + 4096 * w.pl + 16384 * (w.wt + w.at_) + 4096 * (w.ct + w.sb) + 16 * w.th

/-- Write a strand's frame at suspension (R74 step 5). -/
def State.writeFrame (s : State) (t : Strand) : State := (s.noteRun t.part t.fb.toNat (frameSize t.win)).devWrite t.part t.fb.toNat t.frameBytes

/-- A handle register from its two words (R101). -/
def unpackHandle (a b : Word) : Handle :=
  { hs := a.extractLsb' 62 2, ps := a.extractLsb' 59 3, kd := a.extractLsb' 56 3, pr := bitAt a 55, pw := bitAt a 54, pa := bitAt a 53,
    pb := a.extractLsb' 12 40, vb := b.extractLsb' 12 44, rq := b.extractLsb' 0 3 }

/-- A tile-table entry from its word 0x00 (R86); at a suspension no command and no drain waits for it (R74). -/
def unpackTile (w : Word) : Tile :=
  { ts := w.extractLsb' 62 2, tk := w.extractLsb' 60 2, bi := w.extractLsb' 55 5, ft := w.extractLsb' 51 4, rc := fld w 40 8,
    dc := fld w 32 8 }

/-- A hold latch from its entry (R154). -/
def unpackLatch (w : Word) : HoldLatch :=
  { hv := bitAt w 63, pm := w.extractLsb' 12 3, hx := w.extractLsb' 11 1, hf := w.extractLsb' 0 11 }

/-- A load group record from its two words (R296). -/
def unpackGroup (a b : Word) : LoadGroup :=
  { gv := bitAt a 63, gn := a.extractLsb' 52 5, gma := a.extractLsb' 38 14, gsrc := b.extractLsb' 12 44 }

/-- The fault restart record from its bytes (R401); one whose FV is 0 is none. -/
def unpackRestart (l : List Byte) : Restart :=
  let w := dwAt l 0
  if bitAt w 63 then
    { fv := true, td := w.extractLsb' 58 5, x := bitAt w 57, fm := w.extractLsb' 53 4, ord := w.extractLsb' 48 5,
      desc := (List.range 6).map (fun i => dwAt l (8 + 8 * i)), lit := (dwAt l 0x38).extractLsb' 0 60 }
  else {}

/-- Doublewords of a byte list, from the first on. -/
def dwordsOf : Nat → List Byte → List Word
  | 0, _ => []
  | n + 1, l => dwAt l 0 :: dwordsOf n (l.drop 8)

/-- Words of a byte list, from the first on. -/
def wordsOf : Nat → List Byte → List Elem
  | 0, _ => []
  | n + 1, l => wAt l 0 :: wordsOf n (l.drop 4)

/-- The micro state from a frame (R77, R295, R296); `m` is what the device keeps of it, the lengths of R405 among it. -/
def unpackMicro (m : Micro) (l : List Byte) : Micro :=
  let a := dwAt l 0x140
  let b := dwAt l 0x148
  { m with
    mv := bitAt a 63, mc := a.extractLsb' 62 1, mop := a.extractLsb' 57 5, mpc := a.extractLsb' 43 14, msn := fld a 30 13,
    msb := a.extractLsb' 18 12, mra := a.extractLsb' 4 14, cf := b.extractLsb' 56 8, mf := b.extractLsb' 51 5, rmu := b.extractLsb' 49 2,
    opb := b.extractLsb' 0 40, lc1 := (dwAt l 0x150).extractLsb' 48 16, lc0 := (dwAt l 0x150).extractLsb' 32 16,
    ag := cwrite [] 0 (dwordsOf 4 (l.drop 0x158)), mt := cwrite [] 0 (wordsOf 256 (l.drop 0x400)),
    lp := cwrite [] 0 (dwordsOf 8 (l.drop 0xA40)) }

/-- A result in flight from its snapshot entry (R75), for a strand that resumes after `steps` issue steps. The bits that a line
result writes, WO and the mark of R385, of which an entry has none, are those that the device keeps in `o`. -/
def unpackLanding (steps : Nat) (o : Landing) (l : List Byte) : Landing :=
  let h := dwAt l 0
  let masks : List (BitVec 32) := match o.dest with
    | .line _ _ _ m _ => m
    | _ => List.replicate 32 0xFFFFFFFF
  { o with
    due := steps + fld h 59 5, origin := steps - 1 - fld h 54 5, slot := h.extractLsb' 51 3, ff := h.extractLsb' 23 5,
    dest := match fld h 48 3 with
      | 0 => .scalar (h.extractLsb' 42 6) (dwAt l 0x10)
      | 1 => .handle (h.extractLsb' 42 4) (unpackHandle (dwAt l 0x10) (dwAt l 0x18))
      | _ => .line { pn := h.extractLsb' 42 5, dir := h.extractLsb' 40 2, ix := h.extractLsb' 35 5 } (h.extractLsb' 32 3)
          (wordsOf 32 (l.drop 0x10)) masks (h.extractLsb' 28 4) }

/-- What a context takes from a folio (R24, R76). -/
def Strand.ofFolio (t : Strand) (l : List Byte) : Strand :=
  let st := dwAt l 0x20
  { t with
    pc := (dwAt l 0).extractLsb' 3 53 ++ (0 : BitVec 3), rq := (unpackRedirect (dwAt l 8)).toList ++ (unpackRedirect (dwAt l 0x10)).toList,
    rm := st.extractLsb' 13 3, wo := bitAt st 12, ff := st.extractLsb' 7 5, ha := bitAt st 6, cb := bitAt st 5 }

/-- What a context takes from a frame (R76 to R78): registers, windows, micro state, bindings and the snapshot. The counters
are 0 at every suspension (R74), and what a frame does not hold stays as the device keeps it (log 6). -/
def Strand.ofFrame (t : Strand) (l : List Byte) : Strand :=
  let w := t.win
  let planes := l.drop 0x5000
  let wt := planes.drop (4096 * w.pl)
  let at_ := wt.drop (16384 * w.wt)
  let ct := at_.drop (16384 * w.at_)
  let sb := ct.drop (4096 * w.ct)
  let th := sb.drop (4096 * w.sb)
  let listed {α : Type} [BEq α] [Inhabited α] (x : List (Nat × α)) : Table α := x.filter (fun e => e.2 != default)
  { t with
    link := dwAt l 0,
    ptag := cwrite [] 0 ((List.range 32).map (fun p => (dwAt l (0x18 + 8 * (p / 16))).extractLsb' (4 * (p % 16)) 4)),
    hd := listed ((List.range 16).map (fun i => (i, unpackHandle (dwAt l (0x40 + 16 * i)) (dwAt l (0x48 + 16 * i))))),
    micro := unpackMicro t.micro l,
    latches := listed ((List.range 4).map (fun i => (i, unpackLatch (dwAt l (0x180 + 8 * i))))),
    restart := unpackRestart (l.drop 0x1C0),
    s := cwrite [] 0 (dwordsOf 64 (l.drop 0x200)),
    bind := cwrite [] 0 (dwordsOf 64 (l.drop 0x800)), sys := cwrite [] 0 (dwordsOf 8 (l.drop 0xA00)),
    groups := listed ((List.range 24).map (fun i => (i, unpackGroup (dwAt l (0xA80 + 16 * i)) (dwAt l (0xA88 + 16 * i))))),
    fly := (List.range (fld (dwAt l 8) 8 8)).map (fun i => unpackLanding t.steps (t.fly.getD i {}) (l.drop (0x1000 + 144 * i))),
    planes := cwrite [] 0 (wordsOf (1024 * w.pl) planes), wmem := cwrite [] 0 (wt.take (16384 * w.wt)),
    amem := cwrite [] 0 (at_.take (16384 * w.at_)), cmem := cwrite [] 0 (ct.take (4096 * w.ct)),
    smem := cwrite [] 0 (sb.take (4096 * w.sb)),
    tiles := listed ((List.range w.th).map (fun i => (i, unpackTile (dwAt th (16 * i))))) }

/-- R76: the strand whose context is restored, from the folio and, where FS is 1, the frame that stand in memory; what cannot be
read there is as the device keeps it (log 6). -/
def State.restored (s : State) (t : Strand) : Strand :=
  let t := match s.devRead t.part t.fol.toNat 64 with
    | some l => t.ofFolio l
    | none => t
  if !t.fs then t
  else match s.devRead t.part t.fb.toNat (frameSize t.win) with
    | some l => t.ofFrame l
    | none => t

end Sys2Proof.Machine
end

