-- ==== Sys2Proof/Machine/Ops.lean ====
section
/-! DEFINITION. The operations that many instructions and events share: records and lanes (R380, R381),
sync-object grants (R136, R140), halting a gang and taking it off its cluster (R31, R74), entry to the
strand handler, the delivery of a trap (R379, R382 to R384) and the return from the handler (R271), and
the advance of the redirect queue (R69). -/

namespace Sys2Proof.Machine

/-- A strand's batch ticket (R37). -/
def Strand.ticket (t : Strand) : Word := (0 : BitVec 28) ++ t.sq ++ t.bs

/-- The record of a trap of strand `k` (R380). -/
def State.recordOf (s : State) (k : Nat) (t : Trap) : Record :=
  let x := tget s.strands k
  { part := x.part, cause := t.cause, fol := x.fol.setWidth 64, tpc := x.pc, val := t.val,
    core := BitVec.ofNat 10 x.core, ctx := BitVec.ofNat 3 x.ctx, slt := t.slot, mpc := t.mpc,
    time := BitVec.ofNat 64 s.now, aux := t.aux, tkt := x.ticket, gang := x.gang, strand := k }

/-- The owner of the arrays of a strand's context. -/
def arrayOf (t : Strand) : Nat := 8 * t.core + t.ctx

/-- Bytes of a scratchpad window. -/
def State.padRun (s : State) (k off n : Nat) : ArrayRun := { spc := 9, owner := arrayOf (tget s.strands k), lo := off, n := n }

/-- What the core reads of its arrays to write a strand's frame (R74, R77, R78, R406). -/
def Strand.arrayRuns (t : Strand) : List ArrayRun :=
  let run (spc lo n : Nat) : ArrayRun := { spc := spc, owner := arrayOf t, lo := lo, n := n }
  [run 5 0 (4096 * t.win.pl), run 6 0 (16384 * t.win.wt), run 7 0 (16384 * t.win.at_), run 8 0 (4096 * t.win.ct),
    run 9 0 (4096 * t.win.sb), run 12 8 504, run 12 512 (8 * t.win.th)]

/-- R406: the records of a strand that reads. -/
def State.noteErrors (s : State) (k : Nat) (l : List ArrayRun) : State := s.noteAs (s.recordOf k {}) l

/-- Keep a replayable record in the order it arose until the ring takes it (R381). -/
def State.postReplay (s : State) (r : Record) : State :=
  (s.onDev (fun d => { d with
    waiting := d.waiting ++ [{ r with seq := nextSeq (tget s.parts r.part).replaySeq }] })).onPart
      r.part (fun p => { p with replaySeq := nextSeq p.replaySeq })

/-- Grant what the head of a sync object's queue allows (R136). -/
def grantHead : List SyncReq → Binding → List SyncReq × Binding
  | [], b => ([], b)
  | r :: rest, b =>
    if r.granted then
      let (rs, b') := grantHead rest b
      (r :: rs, b')
    else
      let v : Word := ofBool 1 b.bk ++ (0 : BitVec 31) ++ b.seq
      if r.excl then
        if b.md = 0 then ({ r with granted := true, value := v } :: rest, { b with md := 1 }) else (r :: rest, b)
      else if b.md = 0 || b.md = 2 then
        let (rs, b') := grantHead rest { b with md := 2, sh := b.sh + 1 }
        ({ r with granted := true, value := v } :: rs, b')
      else (r :: rest, b)

/-- Grant at a binding, naming the exclusive holder (R136). -/
def State.grant (s : State) (part n : Nat) : State :=
  let b := tget (tget s.parts part).bindings n
  let (ws, b') := grantHead b.waiters b
  let own := match ws.find? (fun r => r.granted && r.excl) with
    | some r => (tget s.strands r.strand).fol
    | none => b'.own
  s.onPart part (fun p => { p with bindings := tset p.bindings n { b' with waiters := ws, own := own } })

/-- Withdraw a strand's ungranted requests (R140). -/
def State.withdraw (s : State) (part k : Nat) : State :=
  (tget s.parts part).bindings.foldl (fun s e =>
    if e.2.waiters.any (fun r => r.strand = k && !r.granted) then
      let b := { e.2 with waiters := e.2.waiters.filter (fun r => !(r.strand = k && !r.granted)) }
      (s.onPart part (fun p => { p with bindings := tset p.bindings e.1 b })).grant part e.1
    else s) s

/-- Has a waiting ACQ of a strand been granted and not yet taken (R140)? -/
def State.grantWaits (s : State) (part k : Nat) : Bool :=
  (tget s.parts part).bindings.any (fun e => e.2.waiters.any (fun r => r.strand = k && r.granted))

/-- R140: release the exclusive holds of a killed strand with BK set and SEQ unchanged; what it was granted and
has not taken goes with it. -/
def State.dropHolds (s : State) (part k : Nat) : State :=
  let fol := (tget s.strands k).fol
  (tget s.parts part).bindings.foldl (fun s e =>
    let mine := e.2.md = 1 && e.2.own = fol
    let ws := e.2.waiters.filter (fun r => !(r.strand = k && r.granted))
    if mine || ws ≠ e.2.waiters then
      let b : Binding := if mine then { e.2 with md := 0, own := 0, bk := true, waiters := ws } else { e.2 with waiters := ws }
      (s.onPart part (fun p => { p with bindings := tset p.bindings e.1 b })).grant part e.1
    else s) s

/-- All results in flight land at once, as at the end of a strand (R48). -/
def Strand.landAll (t : Strand) : Strand := t.fly.foldl Strand.landOne { t with fly := [] }

/-- One landing of a lane unit (R286). -/
def Strand.landLane (t : Strand) (l : LaneLanding) : Strand :=
  let t := { t with micro := { t.micro with mf := t.micro.mf ||| l.ff } }
  if l.temp then
    { t with micro := { t.micro with mt := cwrite t.micro.mt (32 * l.mt.toNat) l.vals } }
  else t.setLine l.line l.vals (List.replicate 32 0xFFFFFFFF) l.tag

/-- Every pending landing of the lane units (R277, R293, R297). -/
def Strand.landLanes (t : Strand) : Strand :=
  t.micro.pend.foldl Strand.landLane { t with micro := { t.micro with pend := [] } }

/-- Free a strand's context: its page copies stay resident without an owner, but for those not yet
copied (R49, R74, R274), the micro-sequencer passes on (R291). -/
def State.freeContext (s : State) (k : Nat) : State :=
  let t := tget s.strands k
  (s.onCore t.core (fun c => { c with
    sequencer := if c.sequencer = some k then none else c.sequencer,
    seqWait := c.seqWait.filter (· ≠ k),
    pages := tmap c.pages (fun _ p => if p.owner = some k
      then { p with owner := none, valid := p.valid && !p.loading, loading := false } else p),
    latches := tmap c.latches (fun _ l => if l.ctx = some k then { l with ctx := none } else l) })).onStrand k
      (fun t => { t with resident := false, blocked := false, yieldHold := none })

/-- Have all counters of a strand reached zero (R48, R74)? -/
def Strand.drained (t : Strand) : Bool :=
  t.ldq.isEmpty && t.stq.isEmpty && t.cpq.isEmpty && t.tlq.isEmpty

/-- Rebalance offsets return to zero when a partition has no placed gang (R323). -/
def State.offsetsIdle (s : State) (part : Nat) : State :=
  if s.gangs.any (fun g => g.2.part = part && g.2.placed) then s
  else s.onDev (fun d => { d with islands := tmap d.islands (fun i x =>
    if (tget s.parts part).res.clusters.contains i then { x with offset := 0 } else x) })

/-- R323: a transfer of one voltage step from the first arriver to the last, within the limits. -/
def State.transfer (s : State) (first last : Nat) : State :=
  let off (c : Nat) : Int := (tget s.dev.islands c).offset
  if first = last || 12 ≤ off last || off first ≤ -12 then s
  else s.onDev (fun d => { d with
    islands := tset (tset d.islands last { tget d.islands last with offset := off last + 1 }) first
      { tget d.islands first with offset := off first - 1 } })

/-- R322: the round of a barrier's phase in a batch ends once every placed gang has completed the phase; the third in a row
with one last arriver makes a transfer. Only gangs still placed have arrived (log 80). -/
def State.endRound (s : State) (bt b ph : Nat) : State :=
  let x := tget s.batches bt
  let mates := s.gangs.filter (fun e => e.2.batch = bt && e.2.placed)
  let here := x.rounds.filter (fun r => r.1 = b && r.2.1 = ph && mates.any (fun e => e.1 = r.2.2.1))
  let ends := here.map (fun r => (r.2.2.2, (tget s.gangs r.2.2.1).cluster))
  if mates.all (fun e => e.2.cluster = (tget s.gangs (mates.headD (0, {})).1).cluster) ||
      !mates.all (fun e => here.any (fun r => r.2.2.1 = e.1)) then s
  else
    let last := ends.foldl (fun a e => if a.1 < e.1 || (a.1 = e.1 && a.2 < e.2) then e else a) (ends.headD (0, 0))
    let first := ends.foldl (fun a e => if e.1 < a.1 || (a.1 = e.1 && e.2 < a.2) then e else a) (ends.headD (0, 0))
    let run := match tfind x.lastRun b with
      | some (c, n) => if c = last.2 then n + 1 else 1
      | none => 1
    let x : Batch := { x with
      rounds := x.rounds.filter (fun r => !(r.1 = b && r.2.1 = ph)),
      lastRun := if run = 3 then tdel x.lastRun b else tset x.lastRun b (last.2, run) }
    let s : State := { s with batches := tset s.batches bt x }
    if run = 3 then s.transfer first.2 last.2 else s

/-- Gangs in ascending batch ticket: the order in which transfers of one clock are made (R323). -/
def State.byTicket (s : State) (l : List Nat) : List Nat :=
  let ticket (g : Nat) : Nat := (tget s.batches (tget s.gangs g).batch).ticket.toNat
  sortBy (fun a b => decide (ticket a ≤ ticket b)) l

/-- R322: a gang of the batch has ended or left its cluster, and rounds that waited for it alone end. -/
def State.endRounds (s : State) (bt : Nat) : State :=
  (tget s.batches bt).rounds.foldl (fun s r => s.endRound bt r.1 r.2.1) s

/-- A gang has ended, or is stopped or killed: its batch counts it (R48). -/
def State.gangOver (s : State) (g : Nat) : State :=
  let x := tget s.gangs g
  ((({ s with batches := tmod s.batches x.batch (fun b => { b with gangsEnded := b.gangsEnded + 1 }) }).onGang g
    (fun x => { x with
      placed := false, gate := false, pipes := [], bars := [], blocks := [], pre := none, halt := none })
    ).endRounds x.batch).offsetsIdle x.part

/-- Mark a batch's completion word with the error bit (R26, R39, R48). -/
def State.batchError (s : State) (b : Nat) : State :=
  { s with batches := tmod s.batches b (fun b => { b with error := true }) }

/-- A suspended gang re-enters the queue named by its SQ at the head (R319). -/
def State.requeue (s : State) (g : Nat) : State :=
  let x := tget s.gangs g
  let q := (tget s.batches x.batch).queue
  s.onPart x.part (fun p => { p with
    queues := tset p.queues q { tget p.queues q with head := (tget p.queues q).head ++ [g] } })

/-- Retirement of an ended strand whose operations have completed (R48): its folio with ST 5, its
context freed. -/
def State.retire (s : State) (k : Nat) : State :=
  let s := s.onStrand k (fun t => { t.landAll with st := 5, written := true, fs := false })
  (s.writeFolio (tget s.strands k)).freeContext k

/-- The last strand of a gang has retired (R48). -/
def State.gangDone (s : State) (g : Nat) : Bool :=
  (tget s.gangs g).strands.all (fun k => (tget s.strands k).st = 5)

/-- R45, R73: a strand back in the state of its first placement, at its entry PC. -/
def Strand.fresh (t : Strand) : Strand :=
  { gang := t.gang, part := t.part, batch := t.batch, rank := t.rank, role := t.role, resident := t.resident,
    core := t.core, ctx := t.ctx, win := t.win, pc := t.entry, entry := t.entry, cb := t.cb, st := t.st, sq := t.sq,
    bs := t.bs, gi := t.gi, fp := t.fp, fb := t.fb, fol := t.fol, pwb := t.pwb, ig := t.ig, sc := t.sc, wc := t.wc,
    pw := t.pw, gen := t.gen, link := t.link, stale := t.stale, halted := t.halted }

/-- R45: a squashed strand: at its entry PC with its registers discarded, ST 2 and SC one higher. -/
def State.takeSquashed (s : State) (k : Nat) : State :=
  let s := s.onStrand k (fun t => { t.fresh with st := 2, sc := if t.sc = 255 then 255 else t.sc + 1, written := true })
  (s.writeFolio (tget s.strands k)).freeContext k

/-- R365: the generation after one: a counter that would wrap begins at 1 again, since nothing but what is in force reads as other than
zero: whatever had an older tag has been cleared (log 73). -/
def nextGen (g : BitVec 32) : BitVec 32 := if g + 1 = 0 then 1 else g + 1

/-- R365: the window of a context receives a fresh generation. -/
def State.freshWindow (s : State) (core ctx : Nat) : State :=
  s.onDev (fun d => { d with generation := nextGen d.generation, windowGen := tset d.windowGen (8 * core + ctx) (nextGen d.generation) })

/-- R74 step 5: write the frame and the folio of a halted strand and free its context. A yielded strand
keeps ST 1 when its gang is pre-empted (R31), an ended strand retires (R48). The results that a routine in progress holds
back stay in flight (R291, R297; log 79). The context of a gang that stops receives a fresh generation (R384). -/
def State.takeOut (s : State) (k : Nat) (st : BitVec 4) : State :=
  let t := tget s.strands k
  if t.ended then s.retire k
  else if st = 2 then s.takeSquashed k
  else
    let st := if t.st = 1 && st = 4 then 1 else st
    let s := s.onStrand k (fun t =>
      let t := if t.micro.mv then t.landLanes else t.landLanes.landDue
      { t with st := st, fs := true, written := true, halted := true, fly := t.fly.map (fun l => { l with walk := false }) })
    (((s.noteErrors k (tget s.strands k).arrayRuns).writeFrame (tget s.strands k)).writeFolio (tget s.strands k)).freeContext k |> fun s' =>
      if st = 8 then s'.freshWindow (tget s.strands k).core (tget s.strands k).ctx else s'

/-- May a halted strand's frame be written now (R74 step 3, R140, R234)? -/
def Strand.mayLeave (t : Strand) : Bool := t.drained && !t.finishing && !t.written

/-- Does a halted strand still issue: a bundle whose wait has ended (R140, R234), or the routine that the bundle of its END
bound (R48, R291)? -/
def Strand.goesOn (t : Strand) : Bool := t.finishing || (t.ended && t.micro.mv)

/-- A folio that was written for an earlier halt is written again with the ST of the stop or fault that came after it
(R25, R382, R384). -/
def State.restamp (s : State) (k : Nat) (st : BitVec 4) : State :=
  let t := tget s.strands k
  if t.st = 5 || t.st = st then s
  else
    let s := if t.fs then s else (s.noteErrors k t.arrayRuns).writeFrame t
    let s := s.onStrand k (fun t => { t with st := st, fs := true })
    s.writeFolio (tget s.strands k)

/-- The cluster of a gang that leaves writes back its dirty lines, so that the gang finds its stores wherever it is placed
again (R76, R129; log 81). -/
def State.keepStores (s : State) (g : Nat) : State := s.flush (tget s.gangs g).cluster (fun _ => true) false

/-- Once every folio of a halted gang is written, the gang has left its cluster (R31); one that is stopped is over with the
error bit, whatever of its strands has ended (R384). -/
def State.leave (s : State) (g : Nat) (h : Halt) : State :=
  let s := if h.st = 3 || h.st = 8 then (tget s.gangs g).strands.foldl (fun s k => s.restamp k h.st) s else s
  let s' := ((((s.keepStores g).onGang g (fun x => { x with placed := false, gate := false, halt := none, pre := none })
    ).endRounds (tget s.gangs g).batch).offsetsIdle (tget s.gangs g).part)
  if h.st = 8 then
    ((tget s.gangs g).strands.foldl (fun s k => s.dropHolds (tget s.gangs g).part k) s').batchError (tget s.gangs g).batch
      |>.onGang g (fun x => { x with stopped := true }) |>.gangOver g
  else if s.gangDone g then s'.gangOver g
  else if h.st = 3 then s'.onGang g (fun x => { x with answer := true })
  else if h.st = 2 then
    let s' := s'.onGang g (fun x => { x with prefixOver := false, started := false })
    if (tget s.gangs g).strands.all (fun k => (tget s.strands k).wc = 0) then s'.requeue g else s'
  else s'.requeue g

/-- Has a strand of a gang that is being squashed still to read a cell if it comes to that before the squash takes effect (R45)? One
that has read awaits a fill. -/
def State.mayRead (s : State) (k : Nat) : Bool :=
  let t := tget s.strands k
  let g := tget s.gangs t.gang
  t.resident && t.halted && !t.written && !t.ended && !t.finishing && t.wc = 0 && !g.prefixOver && g.strands.contains k &&
    (match g.halt with
      | some h => h.st = 2
      | none => false)

/-- Is the next move a read of that kind by a strand of a gang, so that its squash has not taken effect yet (R45; log 3)? -/
def State.readsFirst (s : State) (g : Nat) : Bool := match s.agenda.head? with
  | some (.reads k) => (tget s.strands k).gang = g && s.mayRead k
  | _ => false

/-- Go on with the halt of a gang: once no strand of it issues any more, take out every strand that may leave, and the gang
when all have. Until then all keep their contexts (R30). A squash waits for the read that comes before it takes effect (R45). -/
def State.haltStep (s : State) (g : Nat) : State :=
  match (tget s.gangs g).halt with
  | none => s
  | some h =>
    if (tget s.gangs g).strands.any (fun k => (tget s.strands k).goesOn) || s.readsFirst g then s
    else
    let s := (tget s.gangs g).strands.foldl (fun s k =>
      if (tget s.strands k).mayLeave then s.takeOut k h.st else s) s
    if (tget s.gangs g).strands.all (fun k => (tget s.strands k).written) then s.leave g h else s

/-- Start the halt of a gang (R31, R74): no further bundle issues; a wait that has ended completes, any
other is withdrawn (R140, R234). A halt in progress goes on; a stop overrides its end, and so does a replayable trap after a
request to leave; a replayable trap during the halt for a squash leaves ST 2 (R3, R382, R384; log 60). A gang that has been
killed or stopped halts no more (R411). -/
def State.haltGang (s : State) (g : Nat) (st : BitVec 4) : State :=
  let x := tget s.gangs g
  if x.killed || x.stopped then s else
  let s := x.strands.foldl (fun s k =>
    let t := tget s.strands k
    if t.written || t.halted then s
    else
      let fin := s.grantWaits t.part k || x.bars.any (fun b => b.2.released.contains t.rank)
      (s.withdraw t.part k).onStrand k (fun t => { t with halted := true, finishing := fin && !t.ended })) s
  let s := s.onGang g (fun x => { x with bars := tmap x.bars (fun _ b => { b with waiting := [] }) })
  (s.onGang g (fun x => { x with halt := match x.halt with
    | some h => if st = 8 || (st = 3 && h.st = 4) then some { st := st } else some h
    | none => some { st := st } })).haltStep g

/-- Is a context unblocked, so that the selector may pick it but for a YIELD (R27, R30, R31, R48, R74, R140)? -/
def State.canIssue (s : State) (k : Nat) : Bool :=
  let t := tget s.strands k
  t.resident && (tget s.gangs t.gang).gate && (!t.halted || t.goesOn) && (!t.ended || t.micro.mv) && !t.blocked

/-- How a cause is delivered (R379, R394, R408). -/
inductive Delivery where
  | vector
  | replay
  | fatal
  deriving DecidableEq, Repr, Inhabited

/-- The delivery column of R379, R394 and R408 for causes that a strand raises. -/
def deliveryOf (cause : BitVec 16) : Delivery :=
  if cause = cIllegal || cause = cIso || cause = cColl then .fatal
  else if cause = cUnbound || cause = cBreak || cause = cPage || cause = 0x0041 then .replay
  else .vector

/-- The delivery of a trap. R379 gives illegal instruction as F, as its syllables raise it; R390 makes every cause of a routine but
isolation V, the one that a TRAP op takes from R379 among them: R390, which speaks of routines, is followed (DEDUCED, log 91). -/
def Trap.delivery (t : Trap) : Delivery := if t.routine && t.cause = cIllegal then .vector else deliveryOf t.cause

/-- R270, R383: what the entry to the strand handler does to the strand. PC holds what TEPC receives. A routine still to run was bound
before the entry, as is what is in flight (R385). -/
def Strand.enterHandler (t : Strand) (tr : Trap) : Strand :=
  { t with
    sys := cset (cset (cset (cset (cset (cset t.sys 1 (t.pc.setWidth 64)) 2 (tr.cause.setWidth 64)) 3 tr.val)
      4 (t.statusWord 7)) 5 (packQueue t.rq 0)) 6 (packQueue t.rq 1),
    rq := [], ha := true, mid := false,
    pc := (t.sysreg 0).extractLsb' 3 53 ++ (0 : BitVec 3),
    fly := t.fly.map (fun l => { l with pre := true }), ldq := t.ldq.map (fun o => { o with pre := true }),
    micro := { t.micro with pre := t.micro.mv } }

/-- R383, R384: has the strand a handler? TVEC counts by its bits 55..3. -/
def Strand.hasHandler (t : Strand) : Bool := (t.sysreg 0).extractLsb' 3 53 ≠ 0

/-- R383, R384: can a V-class trap of the strand enter its handler? -/
def Strand.canEnter (t : Strand) : Bool := !t.ha && t.hasHandler

/-- R384: an undeliverable or F-class trap is posted and its gang stops; the trapping strand's frame will hold
TCAUSE and TVAL as a handler would have seen them, its TEPC, TSTS, TRQ0 and TRQ1 as they were. A strand stopped by the routine
that its END bound has not ended. -/
def State.gangStop (s : State) (t : Trap) (ud : Bool) : State :=
  ((s.postFatal { s.recordOf s.cur t with ud := ud }).onMe (fun x =>
    { (x.setSys 2 (t.cause.setWidth 64)).setSys 3 t.val with ended := false })).haltGang s.me.gang 8

/-- R382, R396: an R-class trap is posted and its gang is suspended with ST 3. -/
def State.gangFault (s : State) (t : Trap) : State :=
  (s.postReplay (s.recordOf s.cur t)).haltGang s.me.gang 3

/-- R386: the handler is re-entered by a failing RETT. -/
def Strand.reenter (t : Strand) (cause : BitVec 16) (val : Word) : Strand :=
  { t with sys := cset (cset t.sys 2 (cause.setWidth 64)) 3 val, mid := false,
           pc := (t.sysreg 0).extractLsb' 3 53 ++ (0 : BitVec 3) }

/-- A value of im0 as it is written: the bits of GEN are ignored on write (R329; log 87). -/
def im0Written (v : Word) : Word := (0 : BitVec 16) ++ v.extractLsb' 0 48

/-- R339: im0 keeps what a refused commit wrote. -/
def State.keepIm0 (s : State) (w : Option Word) : State := match w with
  | some v => s.onGang s.me.gang (fun g => { g with im := cset g.im 0 (im0Written v) })
  | none => s

/-- TAKING AN EXCEPTION: the delivery of a trap of the issuing strand, whose PC and redirect queue are
those the trap's record and TEPC name (R379, R382 to R384, R386). A failing RETT re-enters the handler, but while TVEC is 0
there is none: R384 calls any V-class trap undeliverable then, and R386 does not except it (DEDUCED, log 89). -/
def State.deliver (s : State) (t : Trap) : State :=
  let s := s.keepIm0 t.im0
  match t.delivery with
  | .fatal => s.gangStop t false
  | .replay => (if t.cause = cPage && fld t.aux 52 4 ≠ 0 then s.noteWalk s.me.part (t.val.setWidth 56) else s).gangFault t
  | .vector => if t.rett && s.me.hasHandler then s.onMe (fun x => x.reenter t.cause t.val)
    else if s.me.canEnter then s.onMe (fun x => x.enterHandler t) else s.gangStop t true

/-- The outcome of a meaning: its next state, its bundle waiting, its trap taken, or its fault. -/
def finish (s : State) (r : Res State) : Host.Outcome State Fault Refusal :=
  match r with
  | .ok s' => .next s'
  | .error .wait => .next { s with issue := { s.issue with status := .wait } }
  | .error (.trap t) =>
    let t := { t with slot := if t.slot = 7 then 7 else s.issue.slot }
    let s' := s.deliver t
    .next { s' with issue := { s'.issue with status := .trapped t } }
  | .error (.fault f) => .fault f

/-- One entry of the redirect queue in the loop of R69: the next PC, whether a redirect set it, and the
entry if it stays. -/
def stepRedirect (next : BitVec 56 × Bool) (e : Redirect) : (BitVec 56 × Bool) × Option Redirect :=
  let e' := { e with rd := e.rd - 1, ra1 := e.ra2, ra2 := false }
  if e'.rd = 0 then (if e.rt = 0 then next else (e.rt, true), none) else (next, some e')

/-- The loop of R69 over the queue, oldest first. -/
def stepQueue : List Redirect → BitVec 56 × Bool → (BitVec 56 × Bool) × List Redirect
  | [], n => (n, [])
  | e :: r, n =>
    let (n', o) := stepRedirect n e
    let (n'', q) := stepQueue r n'
    (n'', o.toList ++ q)

/-- The end of an issue step (R58, R69): the queue advances, a new entry is appended, PC moves. -/
def Strand.advance (t : Strand) (next : BitVec 56) (new : Option Redirect) : Strand :=
  let ((pc, mid), q) := stepQueue t.rq (next, false)
  { t with pc := pc, mid := mid, rq := q ++ new.toList, steps := t.steps + 1, late := 0 }

/-- R69: is the next bundle annulled? -/
def Strand.annulled (t : Strand) : Bool := t.rq.any (fun e => e.ra1)

/-- R185: the checks of a branch or return target, apart from the bundle start of R388: bits 2..0 and
63..56 zero and the address not 0. -/
def targetOk (w : Word) : Bool := fld w 56 8 = 0 && fld w 0 3 = 0 && w ≠ 0

/-- R271 check 2: the saved entries and TSTS are within their limits; else the register at fault. -/
def Strand.badStatus (t : Strand) : Option Nat :=
  let st := t.sysreg 4
  let bad (w : Word) : Bool := fld w 61 2 = 3 || (bitAt w 63 && fld w 61 2 = 0) || fld w 56 3 ≠ 0 || fld w 0 3 ≠ 0
  if fld st 36 28 ≠ 0 || fld st 28 4 ≠ 0 || 5 ≤ fld st 13 3 then some 4
  else if bad (t.sysreg 5) then some 5
  else if bad (t.sysreg 6) then some 6
  else none

/-- RETURN FROM THE EXCEPTION (R271): RM, WO and FF from TSTS, the queue from TRQ0 and TRQ1, HA cleared,
PC from TEPC; results in flight no longer reach TSTS (R385). -/
def Strand.leaveHandler (t : Strand) : Strand :=
  let st := t.sysreg 4
  { t with
    rm := st.extractLsb' 13 3, wo := bitAt st 12, ff := st.extractLsb' 7 5,
    rq := (unpackRedirect (t.sysreg 5)).toList ++ (unpackRedirect (t.sysreg 6)).toList,
    ha := false, mid := true, pc := (t.sysreg 1).extractLsb' 0 56,
    fly := t.fly.map (fun l => { l with pre := false }), ldq := t.ldq.map (fun o => { o with pre := false }),
    steps := t.steps + 1, late := 0 }

/-- The current bundle has ended by its own instruction. -/
def State.endBundle (s : State) : State := { s with issue := { s.issue with status := .ended } }

end Sys2Proof.Machine
end

