-- ==== Sys2Proof/Machine/Fetch.lean ====
section
/-! DEFINITION. Instruction memory (R89, R90): the half a fetch uses, the syllables of a bundle, its
length (R389), and the start of a bundle (R388). -/

namespace Sys2Proof.Machine

/-- What a meaning answers to `exec`. -/
abbrev Out := Host.Outcome State Fault Refusal

/-- Does a half hold the code of an address for an image generation (R89)? -/
def Half.holds (h : Half) (ig : BitVec 32) (a : Nat) : Bool :=
  h.filled && h.ig = ig && h.base.toNat = a / 65536

/-- The half of a core that a fetch uses. -/
def Core.halfOf (c : Core) (ig : BitVec 32) (a : Nat) : Option Half :=
  if c.half0.holds ig a then some c.half0 else if c.half1.holds ig a then some c.half1 else none

/-- The syllable at an address as a strand fetches it (R89, R90): from its half, else as the loader would
read it from memory (log 24), else a lone stop bit. -/
def State.syllAt (s : State) (t : Strand) (a : Nat) : Syll :=
  match (tget s.cores t.core).halfOf t.ig a with
  | some h =>
    match tfind t.stale (a / 8) with
    | some old => if Config.fetchesOld (s.free + a) then old else BitVec.ofNat 64 (cnum h.mem (a % 65536) 8)
    | none => BitVec.ofNat 64 (cnum h.mem (a % 65536) 8)
  | none => match s.devRead t.part a 8 with
    | some l => BitVec.ofNat 64 (leNat l)
    | none => 1#1 ++ 0#63

/-- The run of syllables from an address: up to a stop bit, eight syllables or the end of the 64 KiB range
(R54, R389). -/
def runFrom (get : Nat → Syll) : Nat → Nat → List Syll
  | 0, _ => []
  | n + 1, a => if stopOf (get a) || (a + 8) % 65536 = 0 then [get a] else get a :: runFrom get n (a + 8)

/-- The bundle at an address. -/
def State.bundleAt (s : State) (t : Strand) (a : Nat) : List Syll := runFrom (s.syllAt t) 8 a

/-- The byte length of the bundle at an address (R389). -/
def State.bundleLen (s : State) (t : Strand) (a : Nat) : Nat := 8 * (s.bundleAt t a).length

/-- The link of JL and JLX (R189): the address after the branch's bundle and the two bundles that follow
it in memory. -/
def State.linkOf (s : State) (t : Strand) (b : Nat) : Nat :=
  let n := b + s.bundleLen t b
  let n := n + s.bundleLen t n
  n + s.bundleLen t n

/-- R388: does a bundle begin at an address? -/
def State.beginsBundle (s : State) (t : Strand) (a : Nat) : Bool :=
  a % 65536 = 0 || stopOf (s.syllAt t (a - 8))

end Sys2Proof.Machine
end

