-- ==== Sys2Proof/Machine/Flags.lean ====
section
/-! DEFINITION. The sticky flags of FF in its order (R24, R116): invalid, divide by zero, overflow, underflow,
inexact. The AK-4 has no carry, zero or sign flags; comparisons write registers and lines. How operations raise
these flags stands beside the operations in Float.lean, how they land in FF and TSTS in Regs.lean (R59, R385). -/

namespace Sys2Proof.Machine

/-- Flag invalid. -/
def ffV : BitVec 5 := 16
/-- Flag divide by zero. -/
def ffZ : BitVec 5 := 8
/-- Flag overflow. -/
def ffO : BitVec 5 := 4
/-- Flag underflow. -/
def ffU : BitVec 5 := 2
/-- Flag inexact. -/
def ffX : BitVec 5 := 1

/-- A flag if a condition holds. -/
def ffIf (b : Bool) (f : BitVec 5) : BitVec 5 := if b then f else 0

end Sys2Proof.Machine
end

