-- ==== Sys2Proof/Machine/Float.lean ====
section
/-! DEFINITION. Number formats and their arithmetic (R106 to R120): decoding to exact values, the five
rounding modes with the stochastic hash (R114, R115), the exception flags (R116), conversions (R117) and
the exact operations that every unit rounds once. Flags are five bits in FF order: invalid, divide by
zero, overflow, underflow, inexact. -/

namespace Sys2Proof.Machine

/-- A floating-point format (R106): width, exponent and fraction bits, bias, and whether its all-ones
exponent holds infinity and NaN. -/
structure Fmt where
  w : Nat := 32
  eb : Nat := 8
  mb : Nat := 23
  bias : Nat := 127
  ieee : Bool := true
  deriving DecidableEq, Repr, Inhabited

/-- FP32. -/
def fF32 : Fmt := {}
/-- BF16. -/
def fBF16 : Fmt := { w := 16, eb := 8, mb := 7, bias := 127 }
/-- FP16. -/
def fFP16 : Fmt := { w := 16, eb := 5, mb := 10, bias := 15 }
/-- FP8 E4M3. -/
def fE4M3 : Fmt := { w := 8, eb := 4, mb := 3, bias := 7, ieee := false }
/-- FP8 E5M2. -/
def fE5M2 : Fmt := { w := 8, eb := 5, mb := 2, bias := 15 }
/-- FP4 E2M1. -/
def fE2M1 : Fmt := { w := 4, eb := 2, mb := 1, bias := 1, ieee := false }

/-- The floating-point format of a tag (R65); FP32 for the others. -/
def fmtOf (tag : BitVec 4) : Fmt := match tag.toNat with
  | 2 => fBF16
  | 3 => fFP16
  | 4 => fE4M3
  | 5 => fE5M2
  | 6 => fE2M1
  | _ => fF32

/-- An exact value: NaN (signalling or not), infinity, or ±m × 2^e. -/
inductive FVal where
  | nan (signalling : Bool)
  | inf (neg : Bool)
  | fin (neg : Bool) (m : Nat) (e : Int)
  deriving DecidableEq, Repr, Inhabited

/-- A result with its flags. -/
structure FRes where
  bits : Nat := 0
  ff : BitVec 5 := 0
  deriving DecidableEq, Repr, Inhabited

/-- R106, R107: the exact value of a pattern. -/
def decodeF (f : Fmt) (x : Nat) : FVal :=
  let neg := x / 2 ^ (f.w - 1) % 2 = 1
  let e := x / 2 ^ f.mb % 2 ^ f.eb
  let m := x % 2 ^ f.mb
  if f.ieee && e = 2 ^ f.eb - 1 then
    if m = 0 then .inf neg else .nan (m < 2 ^ (f.mb - 1))
  else if f.mb = 3 && e = 15 && m = 7 then .nan false
  else if e = 0 then .fin neg m (1 - f.bias - f.mb)
  else .fin neg (2 ^ f.mb + m) ((e : Int) - f.bias - f.mb)

/-- R107: the canonical NaN of a format; E2M1 has none and takes +0 (R117). -/
def canonNaN (f : Fmt) : Nat :=
  if f.ieee then (2 ^ (f.eb + 1) - 1) * 2 ^ (f.mb - 1) else if f.mb = 3 then 0x7F else 0

/-- E5M2's canonical NaN is 0x7F (R107). -/
def nanOf (f : Fmt) : Nat := if f.w = 8 then 0x7F else canonNaN f

/-- The sign bit of a format. -/
def signBit (f : Fmt) (neg : Bool) : Nat := if neg then 2 ^ (f.w - 1) else 0

/-- The pattern of ±infinity. -/
def infOf (f : Fmt) (neg : Bool) : Nat := signBit f neg + (2 ^ f.eb - 1) * 2 ^ f.mb

/-- The pattern of the largest finite magnitude (R106). -/
def maxOf (f : Fmt) (neg : Bool) : Nat :=
  signBit f neg + (if f.ieee then (2 ^ f.eb - 1) * 2 ^ f.mb - 1
    else if f.mb = 3 then 0x7E else 7)

/-- Number of binary digits. -/
def bitLen (m : Nat) : Nat := if m = 0 then 0 else Nat.log2 m + 1

/-- 2^k for k ≥ 0, 1 below. -/
def pow2 (k : Int) : Nat := 2 ^ k.toNat

/-- R115: the hash of a seed and an index. -/
def hash32 (seed : BitVec 32) (idx : Nat) : BitVec 32 :=
  let h := seed ^^^ BitVec.ofNat 32 (idx * 0x9E3779B9)
  let h := h ^^^ (h >>> 16)
  let h := h * 0x85EBCA6B
  let h := h ^^^ (h >>> 13)
  let h := h * 0xC2B2AE35
  h ^^^ (h >>> 16)

/-- Does a magnitude with remainder `rem` of `2^sh` (and a non-zero rest below when `sticky`) round away
from zero (R114, R115)? -/
def roundsUp (mode : BitVec 3) (neg odd : Bool) (rem sh : Nat) (sticky : Bool) (h : BitVec 32) : Bool :=
  let inexact := rem ≠ 0 || sticky
  match mode.toNat with
  | 0 => 2 ^ sh < 2 * rem || (2 * rem = 2 ^ sh && (sticky || odd))
  | 1 => false
  | 2 => neg && inexact
  | 3 => !neg && inexact
  | _ => 2 ^ 24 ≤ 2 ^ 24 * rem / 2 ^ sh + h.toNat % 2 ^ 24

/-- Round m × 2^e (with a rest below when `sticky`) to a multiple of 2^q: the multiple, and is it inexact? -/
def roundAt (mode : BitVec 3) (neg : Bool) (m : Nat) (e q : Int) (sticky : Bool) (h : BitVec 32) : Nat × Bool :=
  if q ≤ e then (m * pow2 (e - q), sticky)
  else
    let sh := (q - e).toNat
    let up := roundsUp mode neg (m / 2 ^ sh % 2 = 1) (m % 2 ^ sh) sh sticky h
    (m / 2 ^ sh + (if up then 1 else 0), m % 2 ^ sh ≠ 0 || sticky)

/-- E2M1 raises invalid for a value out of its range (R116). -/
def ffRange (f : Fmt) : BitVec 5 := ffIf (!f.ieee && f.mb = 1) ffV

/-- R117: what overflow delivers. R116 lists an out-of-range value converted to E2M1 under invalid, where the row of E2M1 in R117 gives
overflow and inexact alone: all three flags are raised, as each rule says (DEDUCED, log 83). -/
def overflowed (f : Fmt) (mode : BitVec 3) (neg : Bool) : FRes :=
  let toInf := mode = 0 || mode = 4 || (mode = 2 && neg) || (mode = 3 && !neg)
  { bits := if f.ieee && toInf then infOf f neg else maxOf f neg, ff := ffO ||| ffX ||| ffRange f }

/-- Round a finite magnitude to a format, once (R114, R116, R117). -/
def roundFin (f : Fmt) (mode : BitVec 3) (neg : Bool) (m : Nat) (e : Int) (sticky : Bool) (h : BitVec 32) : FRes :=
  if m = 0 && !sticky then { bits := signBit f neg }
  else
    let top : Int := e + bitLen m - 1
    let emin : Int := 1 - f.bias
    let q := max top emin - f.mb
    let (x, inex) := roundAt mode neg m e q sticky h
    let (x, q) := if x = 2 ^ (f.mb + 1) then (2 ^ f.mb, q + 1) else (x, q)
    let emax : Int := if f.ieee then 2 ^ f.eb - 2 - f.bias else 2 ^ f.eb - 1 - f.bias
    let beyond := emax < q + f.mb || (f.mb = 3 && q + f.mb = emax && x = 15)
    if 2 ^ f.mb ≤ x && beyond then overflowed f mode neg
    else
      let (u, _) := roundAt mode neg m e (top - f.mb) sticky h
      let tiny := top < emin && !(top + 1 = emin && u = 2 ^ (f.mb + 1))
      { bits := signBit f neg + (if x < 2 ^ f.mb then x else (q + f.mb + f.bias).toNat * 2 ^ f.mb + (x - 2 ^ f.mb)),
        ff := ffIf inex ffX ||| ffIf (tiny && inex) ffU }

/-- Deliver an exact value in a floating-point format (R107, R117). -/
def roundF (f : Fmt) (mode : BitVec 3) (h : BitVec 32) : FVal → FRes
  | .nan sg => { bits := nanOf f, ff := ffIf (sg || (!f.ieee && f.mb = 1)) ffV }
  | .inf neg => if f.ieee then { bits := infOf f neg } else { bits := maxOf f neg, ff := ffO ||| ffRange f }
  | .fin neg m e => roundFin f mode neg m e false h

/-- The bounds of an integer format of a width. -/
def intMin (signed : Bool) (w : Nat) : Int := if signed then -(2 ^ (w - 1) : Nat) else 0
/-- Largest value of an integer format. -/
def intMax (signed : Bool) (w : Nat) : Int := if signed then (2 ^ (w - 1) : Nat) - 1 else (2 ^ w : Nat) - 1

/-- Saturate to the bounds of an integer format; the flag invalid when it does (R117). -/
def satInt (signed : Bool) (w : Nat) (v : Int) : Int × Bool :=
  if v < intMin signed w then (intMin signed w, true)
  else if intMax signed w < v then (intMax signed w, true) else (v, false)

/-- The pattern of an integer in a width. -/
def intBits (w : Nat) (v : Int) : Nat := (v % (2 ^ w : Nat)).toNat

/-- The value of an integer pattern. -/
def intVal (signed : Bool) (w : Nat) (x : Nat) : Int :=
  if signed && 2 ^ (w - 1) ≤ x % 2 ^ w then (x % 2 ^ w : Nat) - (2 ^ w : Nat) else (x % 2 ^ w : Nat)

/-- Deliver an exact value in an integer format (R117). -/
def roundI (signed : Bool) (w : Nat) (mode : BitVec 3) (h : BitVec 32) : FVal → FRes
  | .nan _ => { bits := 0, ff := ffV }
  | .inf neg => { bits := intBits w (if neg then intMin signed w else intMax signed w), ff := ffV }
  | .fin neg m e =>
    let (x, inex) := roundAt mode neg m e 0 false h
    let v : Int := if neg then -(x : Int) else x
    let (r, sat) := satInt signed w v
    { bits := intBits w r, ff := if sat then ffV else ffIf inex ffX }

/-- The exact value of an integer. -/
def ofIntF (v : Int) : FVal := .fin (v < 0) v.natAbs 0

/-- A signed dyadic number m × 2^e. -/
structure Dyadic where
  m : Int := 0
  e : Int := 0
  deriving DecidableEq, Repr, Inhabited

/-- Exact sum. -/
def Dyadic.add (a b : Dyadic) : Dyadic :=
  if a.m = 0 then b else if b.m = 0 then a
  else
    let e := min a.e b.e
    { m := a.m * (pow2 (a.e - e) : Int) + b.m * (pow2 (b.e - e) : Int), e := e }

/-- A signed magnitude as a dyadic number. -/
def dyadicOf (neg : Bool) (m : Nat) (e : Int) : Dyadic := { m := if neg then -(m : Int) else m, e := e }

/-- Is a value a signalling NaN? -/
def FVal.snan : FVal → Bool
  | .nan true => true
  | _ => false

/-- Is a value a NaN? -/
def FVal.isNan : FVal → Bool
  | .nan _ => true
  | _ => false

/-- Exchange the sign. -/
def FVal.negate : FVal → FVal
  | .nan sg => .nan sg
  | .inf n => .inf (!n)
  | .fin n m e => .fin (!n) m e

/-- The sign of a value that is not NaN. -/
def FVal.sign : FVal → Bool
  | .nan _ => false
  | .inf n => n
  | .fin n _ _ => n

/-- Exact sum of two values and the flag invalid; an exactly zero sum of opposite signs is +0, −0 when
rounding down (R107). A NaN result is quiet here, invalid having been noted. -/
def addV (mode : BitVec 3) (a b : FVal) : FVal × BitVec 5 :=
  let v := ffIf (a.snan || b.snan) ffV
  match a, b with
  | .nan _, _ => (.nan false, v)
  | _, .nan _ => (.nan false, v)
  | .inf n, .inf k => if n = k then (.inf n, v) else (.nan false, ffV)
  | .inf n, _ => (.inf n, v)
  | _, .inf n => (.inf n, v)
  | .fin n m e, .fin k p g =>
    let d := (dyadicOf n m e).add (dyadicOf k p g)
    if d.m = 0 then
      (.fin (if m = 0 && p = 0 && n = k then n else mode = 2) 0 0, v)
    else (.fin (d.m < 0) d.m.natAbs d.e, v)

/-- Exact product and the flag invalid. -/
def mulV (a b : FVal) : FVal × BitVec 5 :=
  let v := ffIf (a.snan || b.snan) ffV
  let n := a.sign != b.sign
  match a, b with
  | .nan _, _ => (.nan false, v)
  | _, .nan _ => (.nan false, v)
  | .inf _, .fin _ 0 _ => (.nan false, ffV)
  | .fin _ 0 _, .inf _ => (.nan false, ffV)
  | .inf _, _ => (.inf n, v)
  | _, .inf _ => (.inf n, v)
  | .fin _ m e, .fin _ p g => (.fin n (m * p) (e + g), v)

/-- Round an exact value, adding the flags already noted. -/
def deliver1 (f : Fmt) (mode : BitVec 3) (h : BitVec 32) (r : FVal × BitVec 5) : FRes :=
  let x := roundF f mode h r.1
  { x with ff := x.ff ||| r.2 }

/-- a + b, one rounding (R118). -/
def fadd (f : Fmt) (mode : BitVec 3) (h : BitVec 32) (a b : FVal) : FRes := deliver1 f mode h (addV mode a b)
/-- a − b, one rounding. -/
def fsub (f : Fmt) (mode : BitVec 3) (h : BitVec 32) (a b : FVal) : FRes := deliver1 f mode h (addV mode a b.negate)
/-- a × b, one rounding. -/
def fmul (f : Fmt) (mode : BitVec 3) (h : BitVec 32) (a b : FVal) : FRes := deliver1 f mode h (mulV a b)
/-- a × b + c, one rounding. IEEE 754 signals invalid for 0 × ∞ whatever the addend. -/
def ffma (f : Fmt) (mode : BitVec 3) (h : BitVec 32) (a b c : FVal) : FRes :=
  let p := mulV a b
  let r := addV mode p.1 c
  deliver1 f mode h (r.1, r.2 ||| p.2)

/-- A quotient of magnitudes with enough digits for any format: mantissa, exponent, is there a rest? -/
def divMag (m p : Nat) (e g : Int) : Nat × Int × Bool :=
  let k := 80 + bitLen p - bitLen m
  (m * 2 ^ k / p, e - g - k, m * 2 ^ k % p ≠ 0)

/-- a ÷ b, one rounding (R118). -/
def fdiv (f : Fmt) (mode : BitVec 3) (h : BitVec 32) (a b : FVal) : FRes :=
  let v := ffIf (a.snan || b.snan) ffV
  let n := a.sign != b.sign
  match a, b with
  | .nan _, _ => { bits := nanOf f, ff := v }
  | _, .nan _ => { bits := nanOf f, ff := v }
  | .inf _, .inf _ => { bits := nanOf f, ff := ffV }
  | .inf _, _ => { bits := infOf f n }
  | _, .inf _ => { bits := signBit f n }
  | .fin _ m e, .fin _ p g =>
    if p = 0 then
      if m = 0 then { bits := nanOf f, ff := ffV } else { bits := infOf f n, ff := ffZ }
    else if m = 0 then { bits := signBit f n }
    else
      let (q, k, r) := divMag m p e g
      roundFin f mode n q k r h

/-- Integer square root, bit by bit from bit `b` down. -/
def isqrtFrom (n : Nat) : Nat → Nat → Nat
  | 0, r => r
  | b + 1, r => if (r + 2 ^ b) * (r + 2 ^ b) ≤ n then isqrtFrom n b (r + 2 ^ b) else isqrtFrom n b r

/-- Integer square root. -/
def isqrt (n : Nat) : Nat := isqrtFrom n (bitLen n / 2 + 1) 0

/-- √a, one rounding (R118, IEEE 754). -/
def fsqrt (f : Fmt) (mode : BitVec 3) (h : BitVec 32) (a : FVal) : FRes :=
  match a with
  | .nan sg => { bits := nanOf f, ff := ffIf sg ffV }
  | .inf n => if n then { bits := nanOf f, ff := ffV } else { bits := infOf f false }
  | .fin n m e =>
    if m = 0 then { bits := signBit f n }
    else if n then { bits := nanOf f, ff := ffV }
    else
      let (m, e) := if e % 2 = 0 then (m, e) else (2 * m, e - 1)
      let k := 90 - bitLen m / 2
      let r := isqrt (m * 4 ^ k)
      roundFin f mode false r (e / 2 - k) (r * r ≠ m * 4 ^ k) h

/-- 2^x for a finite x that is not an integer has no finite expansion: its first 320 binary places, as
the product of the roots 2^(2^−i) for the bits i of the fraction (log 11). `n` bits are left, `frac` holds
them, `root` is the next root scaled by 2^320. -/
def exp2Frac : Nat → Nat → Nat → Nat → Nat
  | 0, _, _, acc => acc
  | n + 1, frac, root, acc =>
    let r := isqrt (root * 2 ^ 320)
    exp2Frac n (frac % 2 ^ n) r (if 2 ^ n ≤ frac then acc * r / 2 ^ 320 else acc)

/-- 2^v correctly rounded in FP32 (R287). -/
def fexp2 (mode : BitVec 3) (v : FVal) : FRes :=
  match v with
  | .nan sg => { bits := nanOf fF32, ff := ffIf sg ffV }
  | .inf n => if n then { bits := 0 } else { bits := infOf fF32 false }
  | .fin n m e =>
    if m = 0 then { bits := 0x3F800000 }
    else if 0 ≤ e || m % 2 ^ (-e).toNat = 0 then
      let i : Int := if 0 ≤ e then (if 12 < e then 1000 else m * pow2 e) else (m / 2 ^ (-e).toNat : Nat)
      let i : Int := min i 1000
      roundFin fF32 mode false 1 (if n then -i else i) false 0
    else
      let k := (-e).toNat
      let x : Int := if n then -(m : Int) else m
      let i : Int := x / (2 ^ k : Nat)
      let frac := (x % (2 ^ k : Nat)).toNat
      let i' := max (min i 1000) (-1000)
      roundFin fF32 mode false (exp2Frac k frac (2 ^ 321) (2 ^ 320)) (i' - 320) true 0

/-- 1 ÷ v correctly rounded in FP32 (R287). -/
def frcp (mode : BitVec 3) (v : FVal) : FRes := fdiv fF32 mode 0 (.fin false 1 0) v

/-- Order of two values that are not NaN, −0 below +0: is a below b (R119, R209)? -/
def FVal.below (a b : FVal) : Bool :=
  match a, b with
  | .inf n, .inf k => n && !k
  | .inf n, _ => n
  | _, .inf k => !k
  | .fin n m e, .fin k p g =>
    let d := (dyadicOf n m e).add (dyadicOf (!k) p g)
    if d.m = 0 then n && !k && m = 0 else d.m < 0
  | _, _ => false

/-- Numeric a < b of values that are not NaN, −0 equal to +0 (R210). -/
def FVal.lt (a b : FVal) : Bool :=
  match a, b with
  | .inf n, .inf k => n && !k
  | .inf n, .fin _ _ _ => n
  | .fin _ _ _, .inf k => !k
  | .fin n m e, .fin k p g => ((dyadicOf n m e).add (dyadicOf (!k) p g)).m < 0
  | _, _ => false

/-- Numeric a = b of values that are not NaN. -/
def FVal.eqv (a b : FVal) : Bool := !a.isNan && !b.isNan && !(a.lt b) && !(b.lt a)

/-- The adjacent sums of a list, each rounded to FP32, with their flags (R119). -/
def pairSums (mode : BitVec 3) : List Nat → BitVec 5 → List Nat × BitVec 5
  | a :: b :: r, ff =>
    let x := fadd fF32 mode 0 (decodeF fF32 a) (decodeF fF32 b)
    let (l, ff') := pairSums mode r (ff ||| x.ff)
    (x.bits :: l, ff')
  | l, ff => (l, ff)

/-- The pairwise tree of R119 over 2^n items in FP32. -/
def treeSum (mode : BitVec 3) : Nat → List Nat → BitVec 5 → Nat × BitVec 5
  | 0, l, ff => (l.headD 0, ff)
  | n + 1, l, ff =>
    let (l', ff') := pairSums mode l ff
    treeSum mode n l' ff'

end Sys2Proof.Machine
end

