-- ==== Sys2Proof/Machine/Operands.lean ====
section
/-! DEFINITION. Operand forms: plane operands with their extension bit, packed-element modifier and hold
latch (R63, R151 to R153), format tags of sources (R66), S addresses (R82, R84), accesses through handles
(R103), the translations of the E and L slots (R193, R263), tile operands (R88). -/

namespace Sys2Proof.Machine

/-- A plane operand field with its extension bit as a line (R151). -/
def lineOf (f : BitVec 11) (x : BitVec 1) : LineRef :=
  { pn := f.extractLsb' 6 5, dir := f.extractLsb' 4 2, ix := x ++ f.extractLsb' 0 4 }

/-- R64: a plane at or above PL raises a window trap naming it. -/
def needPlane (t : Strand) (p : BitVec 5) : Res Unit :=
  need (p.toNat < t.win.pl) cWindow (p.setWidth 64)

/-- R66: the tag of a source plane is 0 or the tag required; TVAL names both and the plane (R379). -/
def needTag (t : Strand) (p : BitVec 5) (want : BitVec 4) : Res Unit :=
  need (t.tagOf p = 0 || t.tagOf p = want) cTag
    ((want.setWidth 64 <<< 12) ||| ((t.tagOf p).setWidth 64 <<< 8) ||| p.setWidth 64)

/-- A source line as an executing V-class syllable names it: the line and its modifier. -/
structure Source where
  line : LineRef := {}
  pm : BitVec 3 := 0
  /-- The latch's modifier in a held read; 0 where the field names the line. -/
  held : BitVec 3 := 0
  deriving DecidableEq, Repr, Inhabited

/-- Number of the hold latch of a position (0 for A, 1 for B) of the issuing slot (R153, R154). -/
def latchNo (slot : BitVec 3) (pos : Nat) : Nat := (if slot = 4 then 2 else 0) + pos

/-- R153: resolve a latched source position: a held read, or the named line. -/
def State.source (s : State) (pos : Nat) (f : BitVec 11) (x : BitVec 1) (pm : BitVec 3) : Res Source :=
  if s.me.cb && f = 0x7FF && x = 1 then
    let h := tget s.me.latches (latchNo s.issue.slot pos)
    if h.hv then .ok { line := lineOf h.hf h.hx, pm := h.pm, held := h.pm } else trapE cIllegal s.issue.word
  else .ok { line := lineOf f x, pm := pm }

/-- R153: an executing V-class syllable whose source names a line loads that position's latch. -/
def State.loadLatch (s : State) (pos : Nat) (f : BitVec 11) (x : BitVec 1) (pm : BitVec 3) : State :=
  if s.me.cb && !(f = 0x7FF && x = 1) then
    s.onMe (fun t => { t with latches := tset t.latches (latchNo s.issue.slot pos)
                                { hv := true, pm := pm, hx := x, hf := f } })
  else s

/-- Item `j` of width `w` of an element. -/
def itemAt (w j : Nat) (e : Elem) : Nat := e.toNat / 2 ^ (w * j) % 2 ^ w

/-- The items that a source with modifier PM supplies, one to a lane (R152). -/
def pmRead (w : Nat) (pm : BitVec 3) (l : List Elem) : List Nat :=
  (List.range 32).map (fun k =>
    if w = 32 then (l.getD k 0).toNat
    else if w = 8 && bitAt pm 2 then itemAt 8 (k % 4) (l.getD (4 * (k / 4) + pm.toNat % 4) 0)
    else itemAt w pm.toNat (l.getD k 0))

/-- An element with one item everywhere. -/
def repeatItem (w v : Nat) : Elem :=
  BitVec.ofNat 32 ((List.range (32 / w)).foldl (fun acc j => acc + v * 2 ^ (w * j)) 0)

/-- R152, R153: a line as a source position with no modifier of its own reads it where its latch holds `pm`: every item of a lane is
the one item that the modifier supplies to the lane; under 0 the line stands as it is (DEDUCED, log 25). -/
def heldLine (w : Nat) (pm : BitVec 3) (l : List Elem) : List Elem :=
  if pm = 0 then l else (pmRead w pm l).map (repeatItem w)

/-- The modifier of a held read must be legal for the width it is used at (R152, R153; log 25). -/
def State.needHeldPm (s : State) (ok : Bool) : Res Unit := need ok cIllegal s.issue.word

/-- The bits of each element that a destination with modifier PM writes (R152). -/
def pmMask (w : Nat) (pm : BitVec 3) : Elem :=
  if w = 32 then 0xFFFFFFFF else BitVec.ofNat 32 ((2 ^ w - 1) * 2 ^ (w * pm.toNat))

/-- Items placed where a destination with modifier PM writes them. -/
def pmPlace (w : Nat) (pm : BitVec 3) (v : Nat) : Elem :=
  if w = 32 then BitVec.ofNat 32 v else BitVec.ofNat 32 (v % 2 ^ w * 2 ^ (w * pm.toNat))

/-- A line result of one item to a lane under a destination modifier. -/
def lineDest (l : LineRef) (w : Nat) (pm : BitVec 3) (tag : BitVec 4) (items : List Nat) : Dest :=
  .line l pm (items.map (pmPlace w pm)) (List.replicate 32 (pmMask w pm)) tag

/-- A whole-line result. -/
def wholeLine (l : LineRef) (tag : BitVec 4) (vals : List Elem) : Dest :=
  .line l 0 vals (List.replicate 32 0xFFFFFFFF) tag

/-- Where an S access goes: the strand whose window it is, the byte offset, and whether it is the own
window of class LS or GS (R83). -/
structure SPlace where
  strand : Nat := 0
  sof : Nat := 0
  own : Bool := true
  deriving DecidableEq, Repr, Inhabited

/-- R82, R84: an S address of `n` bytes, its checks in order. A rank that has retired holds no window (R48). -/
def State.sPlace (s : State) (x n : Nat) : Res SPlace := do
  need (x < 2 ^ 24) cWindow (BitVec.ofNat 64 x)
  let srk := x / 2 ^ 17
  let sof := x % 2 ^ 17
  let k ← if srk = 127 then .ok s.cur
    else match s.gang.strands[srk]? with
      | some k => if (tget s.strands k).st = 5 then trapE cWindow (BitVec.ofNat 64 x) else .ok k
      | none => trapE cWindow (BitVec.ofNat 64 x)
  need (sof + n ≤ 4096 * (tget s.strands k).win.sb) cWindow (BitVec.ofNat 64 x)
  need (sof % n = 0) cAlign (BitVec.ofNat 64 x)
  return { strand := k, sof := sof, own := srk = 127 }

/-- Bytes of an S window. -/
def State.sRead (s : State) (p : SPlace) (n : Nat) : List Byte := cread (tget s.strands p.strand).smem p.sof n

/-- Write bytes of an S window (R85). -/
def State.sWrite (s : State) (p : SPlace) (l : List Byte) : State :=
  s.onStrand p.strand (fun t => { t with smem := cwrite t.smem p.sof l })

/-- AUX of a page fault (R395): source, rights needed, handle number. -/
def faultAux (src : Nat) (rq : BitVec 3) (hdn : Nat) : Word :=
  BitVec.ofNat 64 (src * 2 ^ 52 + rq.toNat * 2 ^ 49 + hdn * 2 ^ 45)

/-- A page fault (R396). -/
def pageFault {α : Type} (va : Word) (src : Nat) (rq : BitVec 3) (hdn : Nat := 0) : Res α :=
  .error (.trap { cause := cPage, val := va, aux := faultAux src rq hdn })

/-- A place in memory: kind, physical and virtual address. -/
structure Place where
  kind : Nat := 0
  pa : Nat := 0
  va : Nat := 0
  deriving DecidableEq, Repr, Inhabited

/-- R103, checks 1 to 4: the handle is valid, of kind 0 or 1 and grants the right. `off` gives TVAL its
address. -/
def State.hOpen (s : State) (hd : BitVec 4) (off : Nat) (rq : BitVec 3) : Res Handle := do
  let h := s.me.handle hd
  let va := h.vb.toNat * 4096 + off
  need (h.hs ≠ 0) cHandle (hd.setWidth 64)
  if h.hs ≠ 1 then pageFault (BitVec.ofNat 64 (h.vb.toNat * 4096)) 0 rq hd.toNat
  need (h.kd.toNat < 2) cKind (BitVec.ofNat 64 va)
  need ((!bitAt rq 0 || h.pr) && (!bitAt rq 1 || h.pw) && (!bitAt rq 2 || h.pa)) cPerm (BitVec.ofNat 64 va)
  return h

/-- The place that an offset of an open handle names. -/
def Handle.place (h : Handle) (off : Nat) : Place :=
  { kind := h.kd.toNat, pa := h.pb.toNat * 4096 + off, va := h.vb.toNat * 4096 + off }

/-- First byte and length of the page of a handle (R101, R104). -/
def Handle.page (h : Handle) : Nat × Nat := (4096 * h.vb.toNat, 2 ^ pageBits h.ps.toNat)

/-- R103: the checks of an access of `n` bytes at offset `off` through a handle, in their order, and the
place it reaches. `align` is the size the offset must be a multiple of. -/
def State.hPlace (s : State) (hd : BitVec 4) (off n align : Nat) (rq : BitVec 3) : Res Place := do
  let h ← s.hOpen hd off rq
  need (off + n ≤ 2 ^ pageBits h.ps.toNat) cBounds (BitVec.ofNat 64 off)
  need (off % align = 0) cAlign (BitVec.ofNat 64 off)
  needPa h.kd.toNat (h.pb.toNat * 4096 + off) n
  return h.place off

/-- The translation of `n` bytes at `va` by the E unit or a parameter window (R193, R263): page fault,
access kind, permission, in that order for each page; the places page by page with their lengths. -/
def State.vPlaces (s : State) (va n src : Nat) (rq : BitVec 3) : Res (List (Place × Nat)) :=
  let first := va / 4096
  let k := if n = 0 then 0 else (va + n - 1) / 4096 - first + 1
  foldE (fun acc i => do
    let lo := max va (4096 * (first + i))
    let hi := min (va + n) (4096 * (first + i + 1))
    match if lo < 2 ^ 56 then s.walk s.me.part (BitVec.ofNat 56 lo) else .absent with
    | .leaf l =>
      need (l.kd ≠ 2) cKind (BitVec.ofNat 64 lo)
      need (l.grants rq) cPerm (BitVec.ofNat 64 lo)
      needPa l.kd (l.at lo) (hi - lo)
      return acc ++ [({ kind := l.kd, pa := l.at lo, va := lo }, hi - lo)]
    | _ => pageFault (BitVec.ofNat 64 lo) src rq) (List.range k) []

/-- Bytes at places, past the cluster data cache. -/
def State.readPlaces (s : State) (l : List (Place × Nat)) : List Byte :=
  l.flatMap (fun p => s.readMem p.1.kind p.1.pa p.2)

/-- R88 and R170: a tile handle is below TH; TVAL names it. -/
def needTile (t : Strand) (th : BitVec 5) : Res Unit :=
  need (th.toNat < t.win.th) cWindow (th.setWidth 64)

/-- An entry of the tile table. -/
def Strand.tile (t : Strand) (th : BitVec 5) : Tile := tget t.tiles th.toNat

/-- Change an entry of the tile table. -/
def Strand.onTile (t : Strand) (th : BitVec 5) (f : Tile → Tile) : Strand :=
  { t with tiles := tset t.tiles th.toNat (f (t.tile th)) }

/-- The kind check of a tile: an access-kind trap naming the handle (R170). -/
def needKind (t : Strand) (th : BitVec 5) (ok : BitVec 2 → Bool) : Res Unit :=
  need (ok (t.tile th).tk) cKind (th.setWidth 64)

/-- A tile-state trap naming the handle. -/
def tileTrap {α : Type} (th : BitVec 5) : Res α := trapE cTile (th.setWidth 64)

/-- R88: a reader waits while the tile is filling, draining, or ready with QC above 0, and traps on an
empty tile. -/
def needReady88 (t : Strand) (th : BitVec 5) : Res Unit :=
  let e := t.tile th
  if e.ts = 2 && e.qc = 0 then .ok ()
  else if e.ts = 0 && e.dc = 0 && e.qc = 0 then tileTrap th
  else waitE

/-- A tile's format must be one of those required, or RAW (R66); TVAL names the tag required, the tag
found and the handle. -/
def needTileTag (t : Strand) (th : BitVec 5) (want : BitVec 4) : Res Unit :=
  need ((t.tile th).ft = 0 || (t.tile th).ft = want) cTag
    ((want.setWidth 64 <<< 12) ||| ((t.tile th).ft.setWidth 64 <<< 8) ||| th.setWidth 64)

end Sys2Proof.Machine
end

