-- ==== Sys2Proof/Machine/Access.lean ====
section
/-! DEFINITION. Accesses of slots L and G to memory as their arbiters serve them (R325, R326): what a load and a store do when they
are performed, what waits at an arbiter, and the issue of an access that is performed at once or held. -/

namespace Sys2Proof.Machine

/-- Extension of a loaded value of `n` bytes (R190). -/
def extend (signed : Bool) (n : Nat) (v : Nat) : Word := BitVec.ofInt 64 (intVal signed (8 * n) v)

/-- The bytes of a word that an item covers: first byte and number; a 4-bit item lies in one byte. -/
def itemBytes (w j : Nat) : Nat × Nat := (w * j / 8, max 1 (w / 8))

/-- The bytes a store writes for an item, the other bits of its bytes as they were (R224). -/
def storeItem (w : Nat) (pm : BitVec 3) (old data : Elem) : List Byte :=
  let m := mergeBits old data (pmMask w pm)
  let (b, n) := itemBytes w pm.toNat
  ((wBytes m).drop b).take n

/-- The items of a load, one to a lane: those of the words read, zero in inactive lanes (R225). -/
def loadItems (w : Nat) (pm : BitVec 3) (act : List (Nat × Nat)) (word : Nat → Elem) : List Nat :=
  (List.range 32).map (fun k => match act.find? (fun p => p.1 = k) with
    | some p => itemAt w (if w = 32 then 0 else pm.toNat) (word p.2)
    | none => 0)

/-- The cluster cache part of a FENCE of a scope (R93, R141): die or wider writes back and invalidates
every line. -/
def State.fenceCache (s : State) (c : Nat) (scope : Nat) : State :=
  if 2 ≤ scope then s.flush c (fun _ => true) true else s

/-- Operand size of an atomic. -/
def HeldAccess.size (h : HeldAccess) : Nat := if h.dbl then 8 else 4

/-- The places of a held access. -/
def HeldAccess.places (h : HeldAccess) : List HeldSpan :=
  if h.work = .atomic then [{ kind := h.kind, pa := h.pa, va := h.va, n := h.size }] else h.spans

/-- Does it write memory? -/
def HeldAccess.writes (h : HeldAccess) : Bool := match h.work with
  | .atomic | .store _ | .scatter .. => true
  | .load .. | .window _ | .line .. => false

/-- The virtual pages that it writes (R414). -/
def HeldAccess.pages (h : HeldAccess) : List (Nat × Nat) :=
  if h.writes then h.places.flatMap (fun p => pagesOf p.kind p.va p.n) else []

/-- The accesses of a strand that are held. -/
def Strand.held (t : Strand) : List HeldAccess := t.ldq.filterMap (·.held) ++ t.stq.filterMap (·.held)

/-- An access of the strand to bytes of one that is still held waits for it (R129, R326). -/
def Strand.heldClash (t : Strand) (kind pa n : Nat) : Bool :=
  t.held.any (fun h => h.places.any (fun p => p.kind = kind && p.pa < pa + n && pa < p.pa + p.n))

/-- The oldest access of a strand that is held at a resource. -/
def Strand.heldAt (t : Strand) (res : Nat) : Option HeldAccess :=
  (t.held.filter (fun h => h.res = res)).foldl (fun o h => match o with
    | none => some h
    | some x => if h.num < x.num then some h else some x) none

/-- The partition and the tenant to which an access of a strand is charged (R325). -/
def State.payerOf (s : State) (k : Nat) : Nat × BitVec 4 := ((tget s.strands k).part, s.tenantOf (tget s.strands k))

/-- R326: is the tenant below its cap at every place? -/
def State.uncapped (s : State) (x : Nat × BitVec 4) (l : List HeldSpan) : Bool :=
  l.all (fun p => (resourceOf p.kind p.pa).all (fun r => !s.capped x.1 x.2 r))

/-- Has a strand an access held at a resource that may be performed now: its tenant is below its cap, an atomic's with a budget, and
there is room for the entries of the pages it writes (R326, R414)? -/
def State.heldReady (s : State) (res k : Nat) : Bool :=
  let x := s.payerOf k
  match (tget s.strands k).heldAt res with
  | none => false
  | some h => (if h.work = .atomic then s.budgetFree x.1 x.2 res 1 else s.uncapped x h.spans) && (s.logAll x.1 x.2 h.pages).2

/-- R326: does the bundle of another tenant's strand wait at a resource for an access that comes before one of tenant `x`? -/
def State.askedFirst (s : State) (res : Nat) (x : Nat × BitVec 4) : Bool :=
  s.strands.any (fun e => e.2.asks = some res && e.2.resident && !e.2.halted && s.payerOf e.1 ≠ x &&
    s.budgetFree (s.payerOf e.1).1 (s.payerOf e.1).2 res 1 && s.servesFirst res (s.payerOf e.1) x)

/-- R326: does nothing that waits at a resource come before an access of the tenant? -/
def State.firstAt (s : State) (part : Nat) (ten : BitVec 4) (res : Nat) : Bool :=
  !s.askedFirst res (part, ten) &&
    !s.strands.any (fun e => s.heldReady res e.1 && s.servesFirst res (s.payerOf e.1) (part, ten))

/-- R326, R415: may atomics of the tenant be performed at a resource now, `n` at once: it has a budget for them, and nothing that
waits there comes before them? -/
def State.atomicsFree (s : State) (part : Nat) (ten : BitVec 4) (res n : Nat) : Bool :=
  s.budgetFree part ten res n && s.firstAt part ten res

/-- R326, R415: may an atomic of the tenant be performed now? -/
def State.atomicFree (s : State) (part : Nat) (ten : BitVec 4) (res : Nat) : Bool := s.atomicsFree part ten res 1

/-- R326: may a load or a store of the tenant be performed now at a place of a kind: its cap is not reached there, and nothing that
waits there comes before it? -/
def State.placeFree (s : State) (part : Nat) (ten : BitVec 4) (kind pa : Nat) : Bool :=
  (resourceOf kind pa).all (fun r => !s.capped part ten r && s.firstAt part ten r)

/-- The first of the resources of a list of places at which an access waits. -/
def State.heldBy (s : State) (part : Nat) (ten : BitVec 4) (l : List HeldSpan) : Option Nat :=
  (l.find? (fun p => !s.placeFree part ten p.kind p.pa)).map (fun p => (resourceOf p.kind p.pa).getD 0)

/-- Bytes that an access counts at a place (R325). -/
def HeldAccess.bytesAt (h : HeldAccess) (p : HeldSpan) : Nat := match h.work with
  | .scatter w pm _ => (itemBytes w pm.toNat).2
  | _ => p.n

/-- Perform a load or a store for a strand of cluster `c` (R93, R190, R193, R224 to R226): its result, and the machine with its bytes
stored, in ascending lane order. -/
def State.accessDo (s : State) (c part : Nat) (ten : BitVec 4) (h : HeldAccess) : Dest × State :=
  let view (p : HeldSpan) : Nat := leNat (s.viewBytes c p.kind p.pa p.n)
  let touched : State := h.spans.foldl (fun s p => s.touch c p.kind p.pa p.n) s
  let (d, s) : Dest × State := match h.work with
    | .atomic => (.none, s)
    | .load d signed => (.scalar d (match h.spans with
        | p :: _ => extend signed p.n (view p)
        | [] => 0), touched)
    | .window d => (.scalar d (BitVec.ofNat 64 (leNat (h.spans.flatMap (fun p => s.readMem p.kind p.pa p.n)))), s)
    | .line l w pm ft =>
      let word (k : Nat) : Elem := match h.spans.find? (fun p => p.lane = k) with
        | some p => BitVec.ofNat 32 (view p)
        | none => 0
      (lineDest l w pm ft (loadItems w pm (h.spans.map (fun p => (p.lane, p.lane))) word), touched)
    | .store v => (.none, h.spans.foldl (fun s p => s.storeVia c p.kind p.pa (leBytes p.n v.toNat)) s)
    | .scatter w pm vals => (.none, h.spans.foldl (fun s p =>
        let old : Elem := BitVec.ofNat 32 (leNat (s.viewBytes c p.kind p.pa 4))
        s.storeVia c p.kind (p.pa + (itemBytes w pm.toNat).1) (storeItem w pm old (vals.getD p.lane 0))) s)
  (d, h.spans.foldl (fun s p => s.charge part ten p.kind p.pa (h.bytesAt p)) s)

/-- Where byte runs that the E unit reads stand, as far as it may read them (R263). -/
def State.runPlaces (s : State) (l : List (Nat × Nat)) : List (Place × Nat) :=
  l.flatMap (fun x => match s.vPlaces x.1 x.2 2 1 with
    | .ok ps => ps
    | .error _ => [])

/-- R326: may the issuing strand's tenant be served at these places now? -/
def State.readsFree (s : State) (ps : List (Place × Nat)) : Bool :=
  ps.all (fun p => s.placeFree s.me.part (s.tenantOf s.me) p.1.kind p.1.pa)

/-- R325: reads of the issuing strand at places count against its tenant. -/
def State.chargeReads (s : State) (ps : List (Place × Nat)) : State :=
  ps.foldl (fun s p => s.charge s.me.part (s.tenantOf s.me) p.1.kind p.1.pa p.2) s

/-- A load is issued: ld rises, the value goes to its register when the load completes (R72). -/
def State.pushLd (s : State) (d : Dest) (wo : Bool := false) (held : Option HeldAccess := none) : State :=
  s.onMe (fun t => { t with ldq := t.ldq ++ [{ dest := d, lanes := BitVec.allOnes 32, wo := wo, held := held }] })

/-- A store is issued: st rises. -/
def State.pushSt (s : State) (held : Option HeldAccess := none) : State :=
  s.onMe (fun t => { t with stq := t.stq ++ [{ held := held }] })

/-- The cluster of the issuing strand. -/
def State.cl (s : State) : Nat := clusterOf s.me.core

/-- An access that waits at a resource, as it is held there: its place in the order of issue follows it. -/
def State.holdAt (s : State) (h : HeldAccess) (res : Nat) : HeldAccess × State :=
  ({ h with res := res, num := s.nextId }, { s with nextId := s.nextId + 1 })

/-- A load or a store of the issuing strand whose places have been checked: performed at once, or held (R326). A store waits while
the dirty-page log has no room (R414). -/
def State.accessIssue (s : State) (h : HeldAccess) (wo : Bool := false) : Res State := do
  let part := s.me.part
  let ten := s.tenantOf s.me
  needReady (!h.spans.any (fun p => s.me.heldClash p.kind p.pa p.n))
  match s.heldBy part ten h.spans with
  | some res =>
    let (h, s) := s.holdAt h res
    return if h.writes then s.pushSt (some h) else s.pushLd .none wo (some h)
  | none => match s.logAll part ten h.pages with
    | (s, false) => return s.waiting
    | (s, true) =>
      let (d, s) := s.accessDo s.cl part ten h
      return if h.writes then s.pushSt else s.pushLd d wo

end Sys2Proof.Machine
end

