-- ==== Sys2Proof/Machine/LoadStore.lean ====
section
/-! DEFINITION. Scalar loads and stores of slot L: through handles (R190, R191), to the scratchpad (R192)
and from parameter windows (R193); XLATE and HREL (R198, R199); the completions of ld and st (R72) and of
walks (R102). Loads read and stores are performed at issue (log 4), or when their arbiter serves them (R326). -/

namespace Sys2Proof.Machine

/-- R72: a syllable that would raise a counter above 63 waits. -/
def needLd (t : Strand) : Res Unit := needReady (t.ldq.length < 63)
/-- R72 for st. -/
def needSt (t : Strand) : Res Unit := needReady (t.stq.length < 63)
/-- R72 for cp. -/
def needCp (t : Strand) : Res Unit := needReady (t.cpq.length < 63)
/-- R72 for tl. -/
def needTl (t : Strand) : Res Unit := needReady (t.tlq.length < 63)

/-- A load of `n` bytes through a handle (R191). -/
def loadH (signed : Bool) (n : Nat) (o : FmtLH) (s : State) : Out := finish s (do
  let p ← s.hPlace o.hd ((s.reg o.sa).toNat + o.imm.toNat) n n 1
  needLd s.me
  s.accessIssue { work := .load o.sd signed, spans := [{ kind := p.kind, pa := p.pa, va := p.va, n := n }],
                  page := (s.me.handle o.hd).page })

/-- A store of `n` bytes through a handle (R191). -/
def storeH (n : Nat) (o : FmtLH) (s : State) : Out := finish s (do
  let p ← s.hPlace o.hd ((s.reg o.sa).toNat + o.imm.toNat) n n 2
  needSt s.me
  s.accessIssue { work := .store (s.reg o.sd), spans := [{ kind := p.kind, pa := p.pa, va := p.va, n := n }],
                  page := (s.me.handle o.hd).page })

/-- LD.B (R191). -/
def execLdB (o : FmtLH) (s : State) : Out := loadH true 1 o s
/-- LD.BU (R191). -/
def execLdBu (o : FmtLH) (s : State) : Out := loadH false 1 o s
/-- LD.H (R191). -/
def execLdH (o : FmtLH) (s : State) : Out := loadH true 2 o s
/-- LD.HU (R191). -/
def execLdHu (o : FmtLH) (s : State) : Out := loadH false 2 o s
/-- LD.W (R191). -/
def execLdW (o : FmtLH) (s : State) : Out := loadH true 4 o s
/-- LD.WU (R191). -/
def execLdWu (o : FmtLH) (s : State) : Out := loadH false 4 o s
/-- LD.D (R191). -/
def execLdD (o : FmtLH) (s : State) : Out := loadH false 8 o s
/-- ST.B (R191). -/
def execStB (o : FmtLH) (s : State) : Out := storeH 1 o s
/-- ST.H (R191). -/
def execStH (o : FmtLH) (s : State) : Out := storeH 2 o s
/-- ST.W (R191). -/
def execStW (o : FmtLH) (s : State) : Out := storeH 4 o s
/-- ST.D (R191). -/
def execStD (o : FmtLH) (s : State) : Out := storeH 8 o s

/-- A scratchpad load (R192): own window in class LS, sibling window counted under ld. -/
def loadS (signed : Bool) (n : Nat) (o : FmtLS) (s : State) : Out := finish s (do
  let p ← s.sPlace ((s.reg o.sa).toNat + o.imm.toNat) n
  let v := extend signed n (leNat (s.sRead p n))
  if p.own then return s.landS latLS o.sd v
  else do
    needLd s.me
    return s.pushLd (.scalar o.sd v))

/-- A scratchpad store (R192). -/
def storeS (n : Nat) (o : FmtLS) (s : State) : Out := finish s (do
  let p ← s.sPlace ((s.reg o.sa).toNat + o.imm.toNat) n
  let l := leBytes n (s.reg o.sd).toNat
  if p.own then return s.sWrite p l
  else do
    needSt s.me
    return (s.sWrite p l).pushSt)

/-- LDS.B (R192). -/
def execLdsB (o : FmtLS) (s : State) : Out := loadS true 1 o s
/-- LDS.BU (R192). -/
def execLdsBu (o : FmtLS) (s : State) : Out := loadS false 1 o s
/-- LDS.H (R192). -/
def execLdsH (o : FmtLS) (s : State) : Out := loadS true 2 o s
/-- LDS.HU (R192). -/
def execLdsHu (o : FmtLS) (s : State) : Out := loadS false 2 o s
/-- LDS.W (R192). -/
def execLdsW (o : FmtLS) (s : State) : Out := loadS true 4 o s
/-- LDS.WU (R192). -/
def execLdsWu (o : FmtLS) (s : State) : Out := loadS false 4 o s
/-- LDS.D (R192). -/
def execLdsD (o : FmtLS) (s : State) : Out := loadS false 8 o s
/-- STS.B (R192). -/
def execStsB (o : FmtLS) (s : State) : Out := storeS 1 o s
/-- STS.H (R192). -/
def execStsH (o : FmtLS) (s : State) : Out := storeS 2 o s
/-- STS.W (R192). -/
def execStsW (o : FmtLS) (s : State) : Out := storeS 4 o s
/-- STS.D (R192). -/
def execStsD (o : FmtLS) (s : State) : Out := storeS 8 o s

/-- A parameter-window load of `n` bytes (R193). A descriptor that became malformed reads as unbound
(R41) when it is read at placement. -/
def loadP (n : Nat) (o : FmtLP) (s : State) : Out := finish s (do
  let w := cget s.me.pw o.pw.toNat
  need (bitAt w 63) cPw (o.pw.setWidth 64)
  let off := (s.reg o.sa).toNat + o.imm.toNat
  need (off % n = 0) cAlign (BitVec.ofNat 64 off)
  let lim := 64 * (fld w 50 11 + 1)
  let below := min n (lim - off)
  let ps ← s.vPlaces (fld w 0 50 * 64 + off) below 1 1
  needLd s.me
  s.accessIssue { work := .window o.sd, spans := ps.map (fun p => { kind := p.1.kind, pa := p.1.pa, va := p.1.va, n := p.2 }) }
    (lim < off + n))

/-- LDP.W (R193). -/
def execLdpW (o : FmtLP) (s : State) : Out := loadP 4 o s
/-- LDP.D (R193). -/
def execLdpD (o : FmtLP) (s : State) : Out := loadP 8 o s

/-- R198: the handle that XLATE lands. -/
def State.xlateResult (s : State) (va : Word) (rq : BitVec 3) : Handle :=
  if fld va 56 8 ≠ 0 then { hs := 3, vb := va.extractLsb' 12 44, rq := rq }
  else s.translate s.me.part (va.extractLsb' 0 56) rq

/-- XLATE (R102, R198): the handle lands 24 issue steps on; a malformed entry is reported (R99). -/
def execXlate (o : FmtLX) (s : State) : Out :=
  let va := s.reg o.sa
  let s' := if fld va 56 8 = 0 then s.noteWalk s.me.part (va.extractLsb' 0 56) else s
  .next (s'.onMe (fun t => { t with
    fly := t.fly ++ [{ due := t.steps + latLX, origin := t.steps, slot := s.issue.slot,
                       dest := .handle o.hd (s.xlateResult va o.rq), walk := true }] }))

/-- HREL (R199). -/
def execHrel (o : FmtLX) (s : State) : Out := .next (s.land latLX (.handle o.hd {}))

/-- HANDLE_WALK_COMPLETE (R102): the oldest walk in flight of a strand finishes. -/
def execHandleWalkComplete (strand : Nat) (s : State) : Out :=
  .next (s.onStrand strand (fun t => { t with fly := doneFirst t.fly }))
where
  /-- Mark the first walk done. -/
  doneFirst : List Landing → List Landing
    | [] => []
    | l :: r => if l.walk then { l with walk := false } :: r else l :: doneFirst r

/-- RESULT_LANDING (R59): the results of a strand due at its next step land now, unless a walk holds the
step or a routine runs, after which they land (R291). -/
def execResultLanding (strand : Nat) (s : State) : Out :=
  .next (s.onStrand strand (fun t => if t.walkHeld || t.micro.mv then t else t.landDue))

/-- Lanes of a destination masked off: those not written yet (R72). -/
def Dest.onlyLanes (d : Dest) (m : BitVec 32) : Dest := match d with
  | .line l pm vals masks tag =>
    .line l pm vals ((masks.zip (List.range 32)).map (fun p => if bitAt m p.2 then p.1 else 0)) tag
  | d => d

/-- Is the operation's result written in full? -/
def LdOp.done (o : LdOp) : Bool := o.lanes = 0

/-- Completed operations leave a counter in issue order (R72). -/
def popDone {α : Type} (p : α → Bool) : List α → List α
  | [] => []
  | x :: r => if p x then popDone p r else x :: r

/-- Write lanes of the n-th outstanding load (R72): a line may be read before every lane is there; its plane's tag is set
when the load completes (R230). -/
def Strand.completeLd (t : Strand) (n : Nat) (lanes : BitVec 32) : Strand :=
  match t.ldq[n]? with
  | none => t
  | some o =>
    if o.held.isSome || o.lanes &&& lanes = 0 then t
    else
      let (d, left) : Dest × BitVec 32 := match o.dest with
        | .line .. => (o.dest.onlyLanes (o.lanes &&& lanes), o.lanes &&& ~~~ lanes)
        | d => (d, 0)
      let t := if left = 0 then t.putDest d else { t.putDest d with ptag := t.ptag }
      let t := if left = 0 then t.orFlags 0 o.wo o.pre else t
      { t with ldq := popDone LdOp.done (t.ldq.set n { o with lanes := left }) }

/-- LD_COMPLETION (R72); an access that is held does not complete before it has been performed (R326). -/
def execLdCompletion (strand n : Nat) (lanes : BitVec 32) (s : State) : Out :=
  .next ((s.onStrand strand (fun t => t.completeLd n lanes)).haltStep (tget s.strands strand).gang)

/-- The n-th outstanding store has been performed at its scope (R72, R128). -/
def Strand.completeSt (t : Strand) (n : Nat) : Strand :=
  match t.stq[n]? with
  | none => t
  | some o =>
    if o.held.isSome then t
    else { t with stq := popDone (fun o => o.done) (t.stq.set n { o with done := true }) }

/-- ST_COMPLETION (R72); an access that is held does not complete before it has been performed (R326). -/
def execStCompletion (strand n : Nat) (s : State) : Out :=
  .next ((s.onStrand strand (fun t => t.completeSt n)).haltStep (tget s.strands strand).gang)

end Sys2Proof.Machine
end

