-- ==== Sys2Proof/Machine/Atomic.lean ====
section
/-! DEFINITION. Atomics (R142, R143, R194 to R197), the fences their order fields stand for, and the
budgets under which a home holds them (R326, R415). -/

namespace Sys2Proof.Machine

/-- Lanes of `w` bits of two numbers added in a format, nearest even, no flag (R196). -/
def laneAdd (f : Fmt) (w lanes v x : Nat) : Nat :=
  (List.range lanes).foldl (fun acc j =>
    acc + (fadd f 0 0 (decodeF f (v / 2 ^ (w * j) % 2 ^ w)) (decodeF f (x / 2 ^ (w * j) % 2 ^ w))).bits * 2 ^ (w * j)) 0

/-- R195: the new value of an atomic of `n` bytes from the value `v` found and the operands. -/
def atomicNew (op n v x y : Nat) : Nat :=
  let sv := intVal true (8 * n) v
  let sx := intVal true (8 * n) x
  match op with
  | 32 => (v + x) % 2 ^ (8 * n)
  | 33 => if sv ≤ sx then v else x
  | 34 => if sv ≤ sx then x else v
  | 35 => min v x
  | 36 => max v x
  | 37 => v &&& x
  | 38 => v ||| x
  | 39 => v ^^^ x
  | 40 => x
  | 41 => if v = y then x else v
  | 42 => laneAdd fF32 32 (n / 4) v x
  | _ => laneAdd fBF16 16 (n / 2) v x

/-- Perform an atomic at its home for a strand of cluster `c` (R93, R142, R195): the value found, and the
machine after it, an acquire's fence included (R143). -/
def State.atomicDo (s : State) (c part : Nat) (ten : BitVec 4) (h : HeldAccess) : Word × State :=
  let n := h.size
  let s := if h.kind = 0 then (s.writeBack c (h.pa / 64)).dropLine c (h.pa / 64) else s
  let v := leNat (s.readMem h.kind h.pa n)
  let s := s.writeMem h.kind h.pa (leBytes n (atomicNew h.op n v (h.b.toNat % 2 ^ (8 * n)) (h.c.toNat % 2 ^ (8 * n))))
  let s := s.chargeAtomics part ten h.res 1
  (BitVec.ofNat 64 v, if bitAt h.ord 4 then s.fenceCache c (h.ord.extractLsb' 0 3).toNat else s)

/-- R415: the record of an atomic without budget, once for a tenant and resource. -/
def State.noBudgetRecord (s : State) (k part : Nat) (ten : BitVec 4) (res : Nat) : State :=
  let key := 152 * ten.toNat + res
  if res < 96 && ((s.bwEntry part ten res).any (fun e => e.extractLsb' 0 16 = 0)) && !(tget s.parts part).noBudget.contains key then
    (s.postFatal { s.recordOf k { cause := 0x0062, val := BitVec.ofNat 64 res, slot := 2 } with part := part }).onPart part
      (fun p => { p with noBudget := key :: p.noBudget })
  else s

/-- R326, R415: an access that its home performs as an atomic is not served yet: its bundle waits for its turn. -/
def State.holdBack (s : State) (res : Nat) : State :=
  ((s.noBudgetRecord s.cur s.me.part (s.tenantOf s.me) res).onMe (fun t => { t with asks := some res })).waiting

/-- An atomic whose place has been checked: performed at once, or held by its home (R326). -/
def atomicIssue (h : HeldAccess) (sd : BitVec 6) (s : State) : Res State := do
  let t := s.me
  let ten := s.tenantOf t
  if sd = 0 then needSt t else needLd t
  needReady (!t.heldClash h.kind h.pa h.size)
  needReady (!(bitAt h.ord 3 && t.holding))
  let s := if bitAt h.ord 3 then s.fenceCache s.cl (h.ord.extractLsb' 0 3).toNat else s
  if s.atomicFree t.part ten h.res then
    match s.logAll t.part ten (pagesOf h.kind h.va h.size) with
    | (s, false) => return s.waiting
    | (s, true) =>
      let (v, s) := s.atomicDo s.cl t.part ten h
      let s := if bitAt h.ord 4 then s.fenceMe (h.ord.extractLsb' 0 3).toNat else s
      return if sd = 0 then s.pushSt else s.pushLd (.scalar sd v)
  else
    let (h, s) := (s.noBudgetRecord s.cur t.part ten h.res).holdAt h h.res
    let s := if sd = 0 then s.pushSt (some h) else s.pushLd (.scalar sd 0) false (some h)
    return if bitAt h.ord 4 then s.fenceMe (h.ord.extractLsb' 0 3).toNat else s

/-- The handle form of an atomic (R197). -/
def atomicH (op : Nat) (o : FmtLA) (s : State) : Res State := do
  let n := if o.sz = 1 then 8 else 4
  let p ← s.hPlace o.hd ((s.reg o.sc).toNat + o.imm.toNat * n) n n 4
  atomicIssue { op := op, kind := p.kind, pa := p.pa, va := p.va, dbl := o.sz = 1, b := s.reg o.sa, c := s.reg o.sb,
                page := (s.me.handle o.hd).page, ord := o.ord, res := (resourceOf p.kind p.pa).getD 0 } o.sd s

/-- The scratchpad form of an atomic (R197): performed at the target bank. -/
def atomicS (op : Nat) (o : FmtLA) (s : State) : Res State := do
  let n := if o.sz = 1 then 8 else 4
  let p ← s.sPlace ((s.reg o.sc).toNat + o.imm.toNat * n) n
  if o.sd = 0 then needSt s.me else needLd s.me
  needReady (!(bitAt o.ord 3 && s.me.holding))
  let scope := (o.ord.extractLsb' 0 3).toNat
  let s := if bitAt o.ord 3 then s.fenceCache s.cl scope else s
  let v := leNat (s.sRead p n)
  let s := s.sWrite p (leBytes n (atomicNew op n v ((s.reg o.sa).toNat % 2 ^ (8 * n)) ((s.reg o.sb).toNat % 2 ^ (8 * n))))
  let s := if bitAt o.ord 4 then (s.fenceCache s.cl scope).fenceMe scope else s
  return if o.sd = 0 then s.pushSt else s.pushLd (.scalar o.sd (BitVec.ofNat 64 v))

/-- An atomic of an opcode of R195. -/
def atomic (op : Nat) (o : FmtLA) (s : State) : Out :=
  finish s (if o.sp = 1 then atomicS op o s else atomicH op o s)

/-- AADD (R195). -/
def execAadd (o : FmtLA) (s : State) : Out := atomic 32 o s
/-- AMIN (R195). -/
def execAmin (o : FmtLA) (s : State) : Out := atomic 33 o s
/-- AMAX (R195). -/
def execAmax (o : FmtLA) (s : State) : Out := atomic 34 o s
/-- AMINU (R195). -/
def execAminu (o : FmtLA) (s : State) : Out := atomic 35 o s
/-- AMAXU (R195). -/
def execAmaxu (o : FmtLA) (s : State) : Out := atomic 36 o s
/-- AAND (R195). -/
def execAand (o : FmtLA) (s : State) : Out := atomic 37 o s
/-- AOR (R195). -/
def execAor (o : FmtLA) (s : State) : Out := atomic 38 o s
/-- AXOR (R195). -/
def execAxor (o : FmtLA) (s : State) : Out := atomic 39 o s
/-- ASWP (R195). -/
def execAswp (o : FmtLA) (s : State) : Out := atomic 40 o s
/-- ACAS (R195). -/
def execAcas (o : FmtLA) (s : State) : Out := atomic 41 o s
/-- AFADD (R196). -/
def execAfadd (o : FmtLA) (s : State) : Out := atomic 42 o s
/-- ABADD (R196). -/
def execAbadd (o : FmtLA) (s : State) : Out := atomic 43 o s

/-- A strand none of whose accesses is held any more: the hold of its fences ends, and their cache part is done after it (R141). -/
def State.endHold (s : State) (k : Nat) : State :=
  let t := tget s.strands k
  if t.fenced && !t.holding then
    (s.fenceCache (clusterOf t.core) t.fenceScope).onStrand k (fun t => { t with fenced := false, fenceScope := 0 })
  else s

/-- Perform the oldest access of strand `k` that is held at a resource (R326, R414). -/
def State.serveHeld (s : State) (k res : Nat) : State :=
  let t := tget s.strands k
  let ten := s.tenantOf t
  match t.heldAt res with
  | none => s
  | some h =>
    let s := (s.logAll t.part ten h.pages).1
    let (d, s) : (Dest → Dest) × State := if h.work = .atomic then
        let (v, s) := s.atomicDo (clusterOf t.core) t.part ten h
        (fun d => match d with
          | .scalar r _ => .scalar r v
          | d => d, s)
      else
        let (d, s) := s.accessDo (clusterOf t.core) t.part ten h
        (fun _ => d, s)
    (s.onStrand k (fun t => { t with
      ldq := t.ldq.map (fun o => if o.held = some h then { o with dest := d o.dest, held := none } else o),
      stq := t.stq.map (fun o => if o.held = some h then {} else o) })).endHold k

/-- R326: the waiting requests of a resource, one access after another in the order of the classes; a request whose bundle
waits for its turn has it before those that come after it. -/
def State.serveAll (res : Nat) : Nat → State → State
  | 0, s => s
  | n + 1, s => match (s.strands.map (·.1)).filter (s.heldReady res) with
    | [] => s
    | k :: r =>
      let k := r.foldl (fun a b => if s.servesFirst res (s.payerOf a) (s.payerOf b) then a else b) k
      if s.askedFirst res (s.payerOf k) then s else State.serveAll res n (s.serveHeld k res)

/-- ARBITER_SERVE (R326): the arbiter of a resource serves what waits there; held accesses are what waits between steps in
this model. Device traffic is served at once (log 70). -/
def execArbiterServe (resource : Nat) (s : State) : Out :=
  .next (State.serveAll resource ((s.strands.map (fun e => e.2.held.length)).foldl (· + ·) 0) s)

end Sys2Proof.Machine
end

