-- ==== Sys2Proof/Machine/Xfer.lean ====
section
/-! DEFINITION. The transfers of slot X between scalar registers and plane lines (R201 to R203). -/

namespace Sys2Proof.Machine

/-- The line that a transfer names. -/
def xfRef (o : FmtXF) : LineRef := lineOf o.pl o.xl

/-- A transfer: after the window check of R203, its scalar result and its line result, the elements of the
line as read at issue with the named ones replaced (R202). -/
def transfer (o : FmtXF) (sc : List Elem → Option Word) (ln : List Elem → Option (List Elem)) (s : State) : Out :=
  finish s (do
    let r := xfRef o
    needPlane s.me r.pn
    let e := s.me.line r
    let s' := match sc e with
      | some v => s.landS latXT o.sd v
      | none => s
    match ln e with
    | some l => return s'.land latXT (wholeLine r o.ft l)
    | none => return s')

/-- The low half of a scalar. -/
def loW (a : Word) : Elem := a.extractLsb' 0 32
/-- The high half of a scalar. -/
def hiW (a : Word) : Elem := a.extractLsb' 32 32
/-- An element of a line. -/
def elemAt (l : List Elem) (i : Nat) : Elem := l.getD i 0

/-- XGET (R201). -/
def execXget (o : FmtXF) (s : State) : Out :=
  transfer o (fun e => some ((elemAt e o.ei.toNat).setWidth 64)) (fun _ => none) s
/-- XGETD (R201). -/
def execXgetd (o : FmtXF) (s : State) : Out :=
  transfer o (fun e => some (elemAt e (o.ei.toNat + 1) ++ elemAt e o.ei.toNat)) (fun _ => none) s
/-- XPUT (R201). -/
def execXput (o : FmtXF) (s : State) : Out :=
  transfer o (fun _ => none) (fun e => some (setAt e o.ei.toNat (loW (s.reg o.sa)))) s
/-- XPUTD (R201). -/
def execXputd (o : FmtXF) (s : State) : Out :=
  transfer o (fun _ => none)
    (fun e => some (setAt (setAt e o.ei.toNat (loW (s.reg o.sa))) (o.ei.toNat + 1) (hiW (s.reg o.sa)))) s
/-- XBCST (R201). -/
def execXbcst (o : FmtXF) (s : State) : Out :=
  transfer o (fun _ => none) (fun _ => some (List.replicate 32 (loW (s.reg o.sa)))) s
/-- XXCH (R201). -/
def execXxch (o : FmtXF) (s : State) : Out :=
  transfer o (fun e => some ((elemAt e o.ei.toNat).setWidth 64))
    (fun e => some (setAt e o.ei.toNat (loW (s.reg o.sa)))) s

end Sys2Proof.Machine
end

