-- ==== Sys2Proof/Machine/VecFloat.lean ====
section
/-! DEFINITION. The shared form of V3 instructions (R158, R204 to R206) and floating-point arithmetic and
comparison on lines (R208 to R210). -/

namespace Sys2Proof.Machine

/-- R66: the tag of a source plane is 0 or one of those accepted, the first of which TVAL names. -/
def needTags (t : Strand) (p : BitVec 5) (want : List (BitVec 4)) : Res Unit :=
  need (t.tagOf p = 0 || want.contains (t.tagOf p)) cTag
    (((want.headD 0).setWidth 64 <<< 12) ||| ((t.tagOf p).setWidth 64 <<< 8) ||| p.setWidth 64)

/-- The lines of a V3 instruction: destination and sources, with the latched modifiers of held sources; PB is no source of a unary
one. -/
structure V3Lines where
  d : LineRef := {}
  a : LineRef := {}
  b : LineRef := {}
  pa : BitVec 3 := 0
  pb : BitVec 3 := 0
  deriving DecidableEq, Repr, Inhabited

/-- A check of a source position that names a line, or holds one. -/
def named (r : Res Source) (f : BitVec 5 → Res Unit) : Res Unit := match r with
  | .ok x => f x.line.pn
  | .error _ => .ok ()

/-- The lines of a V3 syllable, with the checks of windows and then of the format tags that its sources accept; a held read of an
empty latch fails after these (R153, R170). `pdSrc`: PD is a source whose tag is checked. -/
def State.v3Lines (s : State) (un pdSrc : Bool) (accept : List (BitVec 4)) (o : FmtV3) : Res V3Lines := do
  let d := lineOf o.pd o.xd
  let ra := s.source 0 o.pa o.xa 0
  let rb := if un then ra else s.source 1 o.pb o.xb 0
  needPlane s.me d.pn
  named ra (needPlane s.me)
  named rb (needPlane s.me)
  let tags (p : BitVec 5) : Res Unit := if accept.isEmpty then .ok () else needTags s.me p accept
  named ra tags
  named rb tags
  if pdSrc then tags d.pn else pure ()
  let a ← ra
  let b ← rb
  return { d := d, a := a.line, b := b.line, pa := a.held, pb := b.held }

/-- R153: load the latches of the positions that named a line. -/
def State.v3Latch (s : State) (un : Bool) (o : FmtV3) : State :=
  let s := s.loadLatch 0 o.pa o.xa 0
  if un then s else s.loadLatch 1 o.pb o.xb 0

/-- An operation on the items of one lane: the result element and the flags. -/
def laneOp (w : Nat) (f : Nat → Nat → Nat → FRes) (a b d : Elem) : Elem × BitVec 5 :=
  (List.range (32 / w)).foldl (fun acc j =>
    let r := f (itemAt w j a) (itemAt w j b) (itemAt w j d)
    (acc.1 ||| BitVec.ofNat 32 (r.bits % 2 ^ w * 2 ^ (w * j)), acc.2 ||| r.ff)) (0, 0)

/-- An operation on the items of three lines. -/
def lineOp (w : Nat) (f : Nat → Nat → Nat → FRes) : List Elem → List Elem → List Elem → List Elem × BitVec 5
  | a :: as, b :: bs, d :: ds =>
    let x := laneOp w f a b d
    let r := lineOp w f as bs ds
    (x.1 :: r.1, x.2 ||| r.2)
  | _, _, _ => ([], 0)

/-- A V3 instruction: its lines, the tags its sources accept, its latency, result tag and item function. -/
def vec3 (un pdSrc : Bool) (lat w : Nat) (accept : List (BitVec 4)) (tag : Strand → V3Lines → BitVec 4)
    (f : Nat → Nat → Nat → FRes) (o : FmtV3) (s : State) : Out := finish s (do
  let t := s.me
  let l ← s.v3Lines un pdSrc accept o
  s.needHeldPm (pmSrcOk w l.pa && pmSrcOk w l.pb)
  let (v, ff) := lineOp w f (heldLine w l.pa (t.line l.a)) (heldLine w l.pb (t.line l.b)) (t.line l.d)
  return (s.v3Latch un o).land lat (wholeLine l.d (tag t l) v) ff)

/-- The tag of a floating-point TY: F32, BF16, FP16 (R165). -/
def tyTag (ty : BitVec 2) : BitVec 4 := ty.setWidth 4 + 1

/-- The rounding mode that MS selects (R158). -/
def msMode (s : State) (ms : BitVec 1) : BitVec 3 := if ms = 0 || s.me.rm = 4 then 0 else s.me.rm

/-- Floating-point V3 arithmetic (R208). -/
def vecF (un pdSrc : Bool) (f : Fmt → BitVec 3 → FVal → FVal → FVal → FRes) (o : FmtV3) (s : State) : Out :=
  let fm := fmtOf (tyTag o.ty)
  vec3 un pdSrc latVF fm.w [tyTag o.ty] (fun _ _ => tyTag o.ty)
    (fun a b d => f fm (msMode s o.ms) (decodeF fm a) (decodeF fm b) (decodeF fm d)) o s

/-- The pattern that a value of a format came from, its NaN canonical. -/
def exactF (f : Fmt) (v : FVal) : FRes := { (roundF f 0 0 v) with ff := 0 }

/-- VMIN and VMAX on items (R209). -/
def fminmax (mx : Bool) (f : Fmt) (a b : FVal) : FRes :=
  if a.isNan || b.isNan then { bits := nanOf f, ff := ffIf (a.snan || b.snan) ffV }
  else exactF f (if mx then (if a.below b then b else a) else (if b.below a then b else a))

/-- The magnitude of a value. -/
def FVal.magnitude : FVal → FVal
  | .nan sg => .nan sg
  | .inf _ => .inf false
  | .fin _ m e => .fin false m e

/-- VADD (R208). -/
def execVadd (o : FmtV3) (s : State) : Out := vecF false false (fun f m a b _ => fadd f m 0 a b) o s
/-- VSUB (R208). -/
def execVsub (o : FmtV3) (s : State) : Out := vecF false false (fun f m a b _ => fsub f m 0 a b) o s
/-- VMUL (R208). -/
def execVmul (o : FmtV3) (s : State) : Out := vecF false false (fun f m a b _ => fmul f m 0 a b) o s
/-- VFMA (R208, R209). -/
def execVfma (o : FmtV3) (s : State) : Out := vecF false true (fun f m a b d => ffma f m 0 a b d) o s
/-- VFMS (R208, R209). -/
def execVfms (o : FmtV3) (s : State) : Out := vecF false true (fun f m a b d => ffma f m 0 a b d.negate) o s
/-- VFNMA (R208, R209). -/
def execVfnma (o : FmtV3) (s : State) : Out := vecF false true (fun f m a b d => ffma f m 0 a.negate b d) o s
/-- VDIV (R208). -/
def execVdiv (o : FmtV3) (s : State) : Out := vecF false false (fun f m a b _ => fdiv f m 0 a b) o s
/-- VSQRT (R208, R209). -/
def execVsqrt (o : FmtV3) (s : State) : Out := vecF true false (fun f m a _ _ => fsqrt f m 0 a) o s
/-- VMIN (R208, R209). -/
def execVmin (o : FmtV3) (s : State) : Out := vecF false false (fun f _ a b _ => fminmax false f a b) o s
/-- VMAX (R208, R209). -/
def execVmax (o : FmtV3) (s : State) : Out := vecF false false (fun f _ a b _ => fminmax true f a b) o s
/-- VABS (R208, R209). -/
def execVabs (o : FmtV3) (s : State) : Out := vecF true false (fun f _ a _ _ => exactF f a.magnitude) o s
/-- VNEG (R208, R209). -/
def execVneg (o : FmtV3) (s : State) : Out := vecF true false (fun f _ a _ _ => exactF f a.negate) o s

/-- A mask item (R210). -/
def maskItem (w : Nat) (b : Bool) : Nat := if b then 2 ^ w - 1 else 0

/-- A comparison of lines (R210): its condition and when it raises invalid. -/
def vecCmp (p : FVal → FVal → Bool) (inv : FVal → FVal → Bool) (o : FmtV3) (s : State) : Out :=
  let fm := fmtOf (tyTag o.ty)
  vec3 false false latVF fm.w [tyTag o.ty] (fun _ _ => 0)
    (fun a b _ => { bits := maskItem fm.w (p (decodeF fm a) (decodeF fm b)),
                    ff := ffIf (inv (decodeF fm a) (decodeF fm b)) ffV }) o s

/-- Either operand is a signalling NaN. -/
def anySnan (a b : FVal) : Bool := a.snan || b.snan
/-- Either operand is a NaN. -/
def anyNan (a b : FVal) : Bool := a.isNan || b.isNan

/-- VCEQ (R210). -/
def execVceq (o : FmtV3) (s : State) : Out := vecCmp FVal.eqv anySnan o s
/-- VCLT (R210). -/
def execVclt (o : FmtV3) (s : State) : Out := vecCmp FVal.lt anyNan o s
/-- VCLE (R210). -/
def execVcle (o : FmtV3) (s : State) : Out := vecCmp (fun a b => a.lt b || a.eqv b) anyNan o s
/-- VCUN (R210). -/
def execVcun (o : FmtV3) (s : State) : Out := vecCmp anyNan anySnan o s

end Sys2Proof.Machine
end

