-- ==== Sys2Proof/Machine/VecInt.lean ====
section
/-! DEFINITION. Integer, bitwise, selection and movement instructions on lines (R211 to R215). -/

namespace Sys2Proof.Machine

/-- Item width of an integer TY (R165). -/
def tyW (ty : BitVec 2) : Nat := 32 / 2 ^ ty.toNat

/-- Tag Iw of a TY (R65). -/
def tyI (ty : BitVec 2) : BitVec 4 := 8 + ty.setWidth 4
/-- Tag Nw of a TY; there is no N4 (R65). -/
def tyN (ty : BitVec 2) : BitVec 4 := 12 + ty.setWidth 4

/-- Tags accepted for a width (R213). -/
def tyAccept (ty : BitVec 2) : List (BitVec 4) := if ty = 3 then [tyI ty] else [tyI ty, tyN ty]

/-- An integer V3 instruction on item values (R212): `uns` says that MS selects unsigned operands. -/
def vecI (un uns mask : Bool) (f : Nat → Int → Int → Int) (o : FmtV3) (s : State) : Out :=
  let w := tyW o.ty
  let sg := !(uns && o.ms = 1)
  vec3 un false latVI w (tyAccept o.ty) (fun _ _ => if mask then 0 else if sg then tyI o.ty else tyN o.ty)
    (fun a b _ => { bits := intBits w (f w (intVal sg w a) (intVal sg w b)) }) o s

/-- Saturate when MS is 1 (R212). -/
def satMs (o : FmtV3) (w : Nat) (v : Int) : Int := if o.ms = 1 then (satInt true w v).1 else v

/-- The shift amount: the low log2(w) bits of b (R212). -/
def shiftOf (w : Nat) (b : Int) : Nat := (b % (w : Int)).toNat

/-- A mask value. -/
def maskInt (b : Bool) : Int := if b then -1 else 0

/-- VIADD (R212). -/
def execViadd (o : FmtV3) (s : State) : Out := vecI false false false (fun w a b => satMs o w (a + b)) o s
/-- VISUB (R212). -/
def execVisub (o : FmtV3) (s : State) : Out := vecI false false false (fun w a b => satMs o w (a - b)) o s
/-- VIMUL (R212). -/
def execVimul (o : FmtV3) (s : State) : Out := vecI false false false (fun w a b => satMs o w (a * b)) o s
/-- VIMULH (R212). -/
def execVimulh (o : FmtV3) (s : State) : Out := vecI false true false (fun w a b => Int.fdiv (a * b) (2 ^ w : Nat)) o s
/-- VIMIN (R212). -/
def execVimin (o : FmtV3) (s : State) : Out := vecI false true false (fun _ a b => min a b) o s
/-- VIMAX (R212). -/
def execVimax (o : FmtV3) (s : State) : Out := vecI false true false (fun _ a b => max a b) o s
/-- VIABS (R212). -/
def execViabs (o : FmtV3) (s : State) : Out := vecI true false false (fun _ a _ => a.natAbs) o s
/-- VSHL (R212). -/
def execVshl (o : FmtV3) (s : State) : Out := vecI false true false (fun w a b => a * (2 ^ shiftOf w b : Nat)) o s
/-- VSHR (R212). -/
def execVshr (o : FmtV3) (s : State) : Out := vecI false true false (fun w a b => Int.fdiv a (2 ^ shiftOf w b : Nat)) o s
/-- VICEQ (R212). -/
def execViceq (o : FmtV3) (s : State) : Out := vecI false true true (fun _ a b => maskInt (a = b)) o s
/-- VICLT (R212). -/
def execViclt (o : FmtV3) (s : State) : Out := vecI false true true (fun _ a b => maskInt (a < b)) o s
/-- VICLE (R212). -/
def execVicle (o : FmtV3) (s : State) : Out := vecI false true true (fun _ a b => maskInt (a ≤ b)) o s

/-- A bitwise V3 instruction on whole elements; the result takes PA's tag (R211, R214). -/
def vecB (un : Bool) (f : BitVec 32 → BitVec 32 → BitVec 32 → BitVec 32) (o : FmtV3) (s : State) : Out :=
  vec3 un false latVI 32 [] (fun t l => t.tagOf l.a.pn)
    (fun a b d => { bits := (f (BitVec.ofNat 32 a) (BitVec.ofNat 32 b) (BitVec.ofNat 32 d)).toNat }) o s

/-- VAND (R214). -/
def execVand (o : FmtV3) (s : State) : Out := vecB false (fun a b _ => a &&& b) o s
/-- VOR (R214). -/
def execVor (o : FmtV3) (s : State) : Out := vecB false (fun a b _ => a ||| b) o s
/-- VXOR (R214). -/
def execVxor (o : FmtV3) (s : State) : Out := vecB false (fun a b _ => a ^^^ b) o s
/-- VANDN (R214). -/
def execVandn (o : FmtV3) (s : State) : Out := vecB false (fun a b _ => a &&& ~~~ b) o s
/-- VSEL (R211). -/
def execVsel (o : FmtV3) (s : State) : Out := vecB false (fun a b d => (a &&& d) ||| (b &&& ~~~ d)) o s
/-- VMOV (R214). -/
def execVmov (o : FmtV3) (s : State) : Out := vecB true (fun a _ _ => a) o s

/-- VPERM (R214). -/
def execVperm (o : FmtV3) (s : State) : Out := finish s (do
  let t := s.me
  let l ← s.v3Lines false false [] o
  s.needHeldPm (pmSrcOk 32 l.pa && pmSrcOk 32 l.pb)
  let a := t.line l.a
  return (s.v3Latch false o).land latVI
    (wholeLine l.d (t.tagOf l.a.pn) ((t.line l.b).map (fun b => elemAt a (b.toNat % 32)))))

/-- The auxiliary line of a VU instruction: line SL of the source's plane, in its direction (R158). -/
def auxLine (a : LineRef) (sl : BitVec 5) : LineRef := { a with ix := sl }

/-- The source of a VU syllable, with the window checks of destination, source and other planes; a held read of an empty latch
fails after these (R153, R170). -/
def State.vuSource (s : State) (o : FmtVU) (others : List (BitVec 5) := []) : Res Source := do
  let a := s.source 0 o.pa o.xa o.pm
  needPlane s.me (lineOf o.pd o.xd).pn
  named a (needPlane s.me)
  match others.find? (fun p => s.me.win.pl ≤ p.toNat) with
  | some p => do
    needPlane s.me p
    a
  | none => a

/-- VROT (R215). It reads whole elements, for which a latched modifier other than 0 is illegal (R152, R153; log 25). -/
def execVrot (o : FmtVU) (s : State) : Out := finish s (do
  let t := s.me
  let a ← s.vuSource o
  s.needHeldPm (pmSrcOk 32 a.held)
  let c := (elemAt (t.line (auxLine a.line o.sl)) 0).toNat % 32
  let l := t.line a.line
  return (s.loadLatch 0 o.pa o.xa o.pm).land latVI (wholeLine (lineOf o.pd o.xd) (t.tagOf a.line.pn)
    ((List.range 32).map (fun k => elemAt l ((k + c) % 32)))))

/-- VBCST (R215). -/
def execVbcst (o : FmtVU) (s : State) : Out := finish s (do
  let t := s.me
  let a ← s.vuSource o
  let w := tagWidth o.df
  if o.df = 0 then pure () else needTags t a.line.pn [o.df]
  s.needHeldPm (pmDstOk w a.pm)
  let c := (elemAt (t.line (auxLine a.line o.sl)) 0).toNat % 32
  let v := itemAt w a.pm.toNat (elemAt (t.line a.line) c)
  return (s.loadLatch 0 o.pa o.xa o.pm).land latVI
    (wholeLine (lineOf o.pd o.xd) o.df (List.replicate 32 (repeatItem w v))))

end Sys2Proof.Machine
end

