-- ==== Sys2Proof/Machine/VecCvt.lean ====
section
/-! DEFINITION. Conversions of slot V (R216 to R220). -/

namespace Sys2Proof.Machine

/-- The exact value of an item of a format (R106, R108). -/
def valueOf (tag : BitVec 4) (x : Nat) : FVal :=
  if 8 ≤ tag.toNat then ofIntF (intVal (tag.toNat < 12) (tagWidth tag) x) else decodeF (fmtOf tag) x

/-- An exact value delivered in a format (R117). -/
def convertTo (tag : BitVec 4) (mode : BitVec 3) (h : BitVec 32) (v : FVal) : FRes :=
  if 8 ≤ tag.toNat then roundI (tag.toNat < 12) (tagWidth tag) mode h v else roundF (fmtOf tag) mode h v

/-- An E8M0 scale applied exactly (R110). R110 says that an element under scale 255 decodes as NaN and not which: it is quiet, so
that it raises no invalid, unless the element is itself a signalling NaN (DESIGN CHOICE, log 83). -/
def scaleV (e : Nat) (v : FVal) : FVal :=
  if e = 255 then .nan v.snan
  else match v with
    | .fin n m x => .fin n m (x + (e : Int) - 127)
    | v => v

/-- Is a format block-scaled in VCVT (R218)? -/
def scaledTag (tag : BitVec 4) : Bool := tag = 4 || tag = 5 || tag = 6

/-- The mode of an RM field: 7 means the strand's RM (R114, R216). -/
def rmField (s : State) (rm : BitVec 3) : BitVec 3 := if rm = 7 then s.me.rm else rm

/-- R217: source lane, source item and destination item of lane `k`. -/
def cvtPos (ws wd : Nat) (pmSrc pmDst : BitVec 3) (k : Nat) : Nat × Nat × Nat :=
  let ps := 32 / ws
  let pd := 32 / wd
  if wd < ws then (k, pmDst.toNat % ps, pmDst.toNat)
  else if ws = 8 && bitAt pmSrc 2 then (4 * (k / 4) + pmSrc.toNat % 4, k % 4, pmSrc.toNat % 4 % pd)
  else (k, pmSrc.toNat, pmSrc.toNat % pd)

/-- VCVT from a format (R216 to R218). Where it narrows, its own modifier is the destination's, and a held source goes under its
latch's too (R153, log 25). -/
def vcvt (src : BitVec 4) (o : FmtVU) (s : State) : Out := finish s (do
  let t := s.me
  let a ← s.vuSource o
  needTags t a.line.pn [src]
  let ws := tagWidth src
  let wd := tagWidth o.df
  s.needHeldPm (pmSrcOk ws (if wd < ws then a.held else a.pm))
  let l := if wd < ws then heldLine ws a.held (t.line a.line) else t.line a.line
  let aux := t.line (auxLine a.line o.sl)
  let mode := rmField s o.rm
  let rs := (List.range 32).map (fun k =>
    let (sk, sj, dj) := cvtPos ws wd a.pm o.pm k
    let x := valueOf src (itemAt ws sj (elemAt l sk))
    let x := if scaledTag src then scaleV ((elemAt aux k).toNat % 256) x else x
    let seed := if scaledTag src then 0 else elemAt aux k
    (dj, convertTo o.df mode (hash32 seed (32 / wd * k + dj)) x))
  let d : Dest := .line (lineOf o.pd o.xd) (BitVec.ofNat 3 (rs.headD (0, {})).1)
    (rs.map (fun r => pmPlace wd (BitVec.ofNat 3 r.1) r.2.bits))
    (rs.map (fun r => pmMask wd (BitVec.ofNat 3 r.1))) o.df
  return (s.loadLatch 0 o.pa o.xa o.pm).land latVC d (rs.foldl (fun ff r => ff ||| r.2.ff) 0))

/-- VCVT_F32 (R216). -/
def execVcvtF32 (o : FmtVU) (s : State) : Out := vcvt 1 o s
/-- VCVT_BF16 (R216). -/
def execVcvtBf16 (o : FmtVU) (s : State) : Out := vcvt 2 o s
/-- VCVT_FP16 (R216). -/
def execVcvtFp16 (o : FmtVU) (s : State) : Out := vcvt 3 o s
/-- VCVT_E4M3 (R218). -/
def execVcvtE4m3 (o : FmtVU) (s : State) : Out := vcvt 4 o s
/-- VCVT_E5M2 (R218). -/
def execVcvtE5m2 (o : FmtVU) (s : State) : Out := vcvt 5 o s
/-- VCVT_E2M1 (R218). -/
def execVcvtE2m1 (o : FmtVU) (s : State) : Out := vcvt 6 o s
/-- VCVT_I32 (R216). -/
def execVcvtI32 (o : FmtVU) (s : State) : Out := vcvt 8 o s
/-- VCVT_I16 (R216). -/
def execVcvtI16 (o : FmtVU) (s : State) : Out := vcvt 9 o s
/-- VCVT_I8 (R216). -/
def execVcvtI8 (o : FmtVU) (s : State) : Out := vcvt 10 o s
/-- VCVT_I4 (R216). -/
def execVcvtI4 (o : FmtVU) (s : State) : Out := vcvt 11 o s
/-- VCVT_N32 (R216). -/
def execVcvtN32 (o : FmtVU) (s : State) : Out := vcvt 12 o s
/-- VCVT_N16 (R216). -/
def execVcvtN16 (o : FmtVU) (s : State) : Out := vcvt 13 o s
/-- VCVT_N8 (R216). -/
def execVcvtN8 (o : FmtVU) (s : State) : Out := vcvt 14 o s

/-- R112: weight `k` of an index under a lattice entry, in quarters. -/
def vq2Quarters (entry : Elem) (idx k : Nat) : Int :=
  let c : Int := itemAt 4 k entry
  let neg := if k < 7 then idx / 2 ^ (k + 1) % 2 = 1
    else ((List.range 7).countP (fun i => idx / 2 ^ (i + 1) % 2 = 1)) % 2 = 1
  (if neg then -2 * c else 2 * c) + (if idx % 2 = 1 then 1 else -1)

/-- A decoded weight as a value (R112). -/
def vq2Value (entry : Elem) (idx k : Nat) : FVal :=
  let q := vq2Quarters entry idx k
  .fin (q < 0) q.natAbs (-2)

/-- VCVT_VQ2 (R219): the lattice table is window plane SL. -/
def execVcvtVq2 (o : FmtVU) (s : State) : Out := finish s (do
  let t := s.me
  let a ← s.vuSource o [o.sl]
  needTags t a.line.pn [7]
  s.needHeldPm (pmSrcOk 16 a.pm)
  let l := t.line a.line
  let w := (List.range 32).map (fun k =>
    let idx := itemAt 16 a.pm.toNat (elemAt l (4 * o.rm.toNat + k / 8))
    let b := idx / 256
    let entry := cget t.planes (1024 * o.sl.toNat + 32 * (b / 32) + b % 32)
    BitVec.ofNat 32 (roundF fF32 0 0 (vq2Value entry idx (k % 8))).bits)
  return (s.loadLatch 0 o.pa o.xa o.pm).land latVC (wholeLine (lineOf o.pd o.xd) 1 w))

end Sys2Proof.Machine
end

