-- ==== Sys2Proof/Machine/VecRed.lean ====
section
/-! DEFINITION. Reductions, scans and the nonzero scan (R221 to R223). -/

namespace Sys2Proof.Machine

/-- The items of a line in position order (R109). -/
def lineItems (w : Nat) (l : List Elem) : List Nat :=
  l.flatMap (fun e => (List.range (32 / w)).map (fun j => itemAt w j e))

/-- Items packed into a line in position order. -/
def packItems (w : Nat) (l : List Nat) : List Elem :=
  let p := 32 / w
  (List.range 32).map (fun k => BitVec.ofNat 32
    ((List.range p).foldl (fun acc j => acc + l.getD (p * k + j) 0 % 2 ^ w * 2 ^ (w * j)) 0))

/-- A reduction or scan of class VR: from the source line and its auxiliary line, the result line, its tag
and its flags (R221). These take no modifier of their own; a held read goes under its latch's (R153, log 25). -/
def vecR (o : FmtVU) (s : State) (f : List Nat → List Elem → List Elem × BitVec 4 × BitVec 5) : Out :=
  finish s (do
    let t := s.me
    let a ← s.vuSource o
    needTags t a.line.pn [o.df]
    let w := tagWidth o.df
    s.needHeldPm (pmSrcOk w a.held)
    let (v, tag, ff) := f (lineItems w (heldLine w a.held (t.line a.line))) (t.line (auxLine a.line o.sl))
    return (s.loadLatch 0 o.pa o.xa o.pm).land latVR (wholeLine (lineOf o.pd o.xd) tag v) ff)

/-- One value in every element. -/
def everywhere (v : Nat) : List Elem := List.replicate 32 (BitVec.ofNat 32 v)

/-- An item widened exactly to FP32 (R119). -/
def widen (tag : BitVec 4) (x : Nat) : FRes := convertTo 1 0 0 (valueOf tag x)

/-- VRSUM (R119, R221): a mode of 4 from the strand's RM rounds to nearest even. -/
def execVrsum (o : FmtVU) (s : State) : Out :=
  let m := rmField s o.rm
  let m := if m = 4 then 0 else m
  vecR o s (fun xs _ =>
    let ws := xs.map (widen o.df)
    let ff := ws.foldl (fun f r => f ||| r.ff) 0
    let r := treeSum m (if tagWidth o.df = 32 then 5 else 6) (ws.map (·.bits)) ff
    (everywhere r.1, 1, r.2))

/-- The extreme of values that are not NaN (R119). -/
def extreme (mx : Bool) : List FVal → FVal → FVal
  | [], acc => acc
  | v :: r, acc => extreme mx r (if mx then (if acc.below v then v else acc) else (if v.below acc then v else acc))

/-- VRMIN and VRMAX (R119, R221). -/
def vecExtreme (mx : Bool) (o : FmtVU) (s : State) : Out :=
  vecR o s (fun xs _ =>
    let vs := xs.map (valueOf o.df)
    let ff := ffIf (vs.any FVal.snan) ffV
    if vs.any FVal.isNan then (everywhere (nanOf fF32), 1, ff)
    else
      let v := extreme mx vs (vs.headD (.inf false))
      if o.df.toNat < 8 then (everywhere (roundF fF32 0 0 v).bits, 1, ff)
      else if o.df.toNat < 12 then (everywhere (roundI true 32 0 0 v).bits, 8, 0)
      else (everywhere (roundI false 32 0 0 v).bits, 12, 0))

/-- VRMIN (R221). -/
def execVrmin (o : FmtVU) (s : State) : Out := vecExtreme false o s
/-- VRMAX (R221). -/
def execVrmax (o : FmtVU) (s : State) : Out := vecExtreme true o s

/-- The integer value of an item (R108). -/
def itemInt (tag : BitVec 4) (x : Nat) : Int := intVal (tag.toNat < 12) (tagWidth tag) x

/-- VRISUM (R119, R221). -/
def execVrisum (o : FmtVU) (s : State) : Out :=
  let sg := o.df.toNat < 12
  vecR o s (fun xs _ =>
    let v := xs.foldl (fun a x => a + itemInt o.df x) (0 : Int)
    (everywhere (intBits 32 (satInt sg 32 v).1), if sg then 8 else 12, 0))

/-- The prefix sums of R120 from position `n` on, the previous result being `p`; `seed n` gives the seed. -/
def scanFrom (f : Fmt) (mode : BitVec 3) (seed : Nat → BitVec 32) : Nat → Nat → List Nat → List Nat × BitVec 5
  | _, _, [] => ([], 0)
  | n, p, x :: r =>
    let y := fadd f mode (hash32 (seed n) n) (decodeF f p) (decodeF f x)
    let z := scanFrom f mode seed (n + 1) y.bits r
    (y.bits :: z.1, y.ff ||| z.2)

/-- VSCAN (R120, R221, R222). -/
def execVscan (o : FmtVU) (s : State) : Out :=
  let f := fmtOf o.df
  let p := 32 / f.w
  let mode := rmField s o.rm
  vecR o s (fun xs aux =>
    match xs with
    | [] => ([], o.df, 0)
    | x :: r =>
      let y := roundF f mode 0 (decodeF f x)
      let z := scanFrom f mode (fun n => elemAt aux (n / p)) 1 y.bits r
      (packItems f.w (y.bits :: z.1), o.df, y.ff ||| z.2))

/-- Prefix sums mod 2^w (R221). -/
def iscanFrom (w : Nat) : Nat → List Nat → List Nat
  | _, [] => []
  | p, x :: r => (p + x) % 2 ^ w :: iscanFrom w ((p + x) % 2 ^ w) r

/-- VISCAN (R221, R222). -/
def execViscan (o : FmtVU) (s : State) : Out :=
  let w := tagWidth o.df
  vecR o s (fun xs _ => (packItems w (iscanFrom w 0 xs), o.df, 0))

/-- R223: is an item zero? -/
def itemZero (tag : BitVec 4) (x : Nat) : Bool :=
  if 1 ≤ tag.toNat && tag.toNat < 7 then x % 2 ^ (tagWidth tag - 1) = 0 else x = 0

/-- The positions of the lanes whose item `j` is not zero, in ascending lane order (R223). -/
def liveOf (tag : BitVec 4) (j : Nat) (l : List Elem) : List Nat :=
  let w := tagWidth tag
  ((List.range 32).filter (fun k => !itemZero tag (itemAt w j (elemAt l k)))).map (fun k => 32 / w * k + j)

/-- The nonzero scan (R223). -/
def nonzero (o : FmtVU) (s : State) (f : List Nat → List Elem) : Out := finish s (do
  let t := s.me
  let a ← s.vuSource o
  if o.df = 0 then pure () else needTags t a.line.pn [o.df]
  s.needHeldPm (pmDstOk (tagWidth o.df) a.pm)
  return (s.loadLatch 0 o.pa o.xa o.pm).land latVR
    (wholeLine (lineOf o.pd o.xd) 12 (f (liveOf o.df a.pm.toNat (t.line a.line)))))

/-- VNZS (R223). -/
def execVnzs (o : FmtVU) (s : State) : Out :=
  nonzero o s (fun l => (List.range 32).map (fun m => match l[m]? with
    | some n => BitVec.ofNat 32 n
    | none => 0xFFFFFFFF))

/-- VNZC (R223). -/
def execVnzc (o : FmtVU) (s : State) : Out := nonzero o s (fun l => everywhere l.length)

end Sys2Proof.Machine
end

