-- ==== Sys2Proof/Machine/VecMem.lean ====
section
/-! DEFINITION. The vector memory slot G: scratchpad, tile and handle forms (R224 to R230). Loads read
and stores are performed at issue (log 4); an index line carries no tag check (R204). -/

namespace Sys2Proof.Machine

/-- The active lanes of an access with their word index (R225): every lane of a contiguous form, the lanes
whose index is not the null index in a gather or scatter. -/
def activeLanes : Option (List Elem) → List (Nat × Nat)
  | none => (List.range 32).map (fun k => (k, k))
  | some l => ((List.range 32).map (fun k => (k, (elemAt l k).toNat))).filter (fun p => p.2 ≠ 0xFFFFFFFF)

/-- The index line of a gather or scatter with its window check. -/
def State.indexLine (s : State) (ixd : Bool) (pi : BitVec 11) (xi : BitVec 1) : Res (Option (List Elem)) :=
  if ixd then do
    needPlane s.me (lineOf pi xi).pn
    return some (s.me.line (lineOf pi xi))
  else return none

/-- R224: the modifier of a store, whose width comes from the data plane's tag. -/
def State.needStorePm (s : State) (p : BitVec 5) (pm : BitVec 3) : Res Unit :=
  need (pmDstOk (tagWidth (s.me.tagOf p)) pm) cIllegal s.issue.word

/-- R227: the checks of a scratchpad access and the strand whose window it reaches. -/
def State.gsTarget (s : State) (x : Nat) (act : List (Nat × Nat)) : Res Nat := do
  need (x < 2 ^ 24) cWindow (BitVec.ofNat 64 x)
  need (x % 4 = 0) cAlign (BitVec.ofNat 64 x)
  let srk := x / 2 ^ 17
  let k := if srk = 127 then some s.cur
    else (s.gang.strands[srk]?).filter (fun k => (tget s.strands k).st ≠ 5)
  match k with
  | some k => do
    match act.find? (fun p => 4096 * (tget s.strands k).win.sb < x % 2 ^ 17 + 4 * p.2 + 4) with
    | some p => trapE cWindow (BitVec.ofNat 64 (x + 4 * p.2))
    | none => return k
  | none => if act.isEmpty then return s.cur else trapE cWindow (BitVec.ofNat 64 x)

/-- A load or gather from a scratchpad window (R227). -/
def gsLoad (ixd : Bool) (o : FmtGS) (s : State) : Out := finish s (do
  let d := lineOf o.pl o.xl
  needPlane s.me d.pn
  let act := activeLanes (← s.indexLine ixd o.pi o.xi)
  let x := (s.reg o.sa).toNat
  let k ← s.gsTarget x act
  let w := tagWidth o.ft
  let m := (tget s.strands k).smem
  let dest := lineDest d w o.pm o.ft
    (loadItems w o.pm act (fun i => BitVec.ofNat 32 (cnum m (x % 2 ^ 17 + 4 * i) 4)))
  if x / 2 ^ 17 = 127 then return s.land latGS dest
  else do
    needLd s.me
    return s.pushLd dest)

/-- A store or scatter to a scratchpad window (R226, R227): the highest lane's item is kept. -/
def gsStore (ixd : Bool) (o : FmtGS) (s : State) : Out := finish s (do
  let d := lineOf o.pl o.xl
  needPlane s.me d.pn
  let act := activeLanes (← s.indexLine ixd o.pi o.xi)
  s.needStorePm d.pn o.pm
  let x := (s.reg o.sa).toNat
  let k ← s.gsTarget x act
  let w := tagWidth (s.me.tagOf d.pn)
  let l := s.me.line d
  let put (m : Cells 8) (p : Nat × Nat) : Cells 8 :=
    let a := x % 2 ^ 17 + 4 * p.2
    cwrite m (a + (itemBytes w o.pm.toNat).1)
      (storeItem w o.pm (BitVec.ofNat 32 (cnum m a 4)) (elemAt l p.1))
  let s' := s.onStrand k (fun t => { t with smem := act.foldl put t.smem })
  if x / 2 ^ 17 = 127 then return s'
  else do
    needSt s.me
    return s'.pushSt)

/-- VLD (R227). -/
def execVld (o : FmtGS) (s : State) : Out := gsLoad false o s
/-- VST (R227). -/
def execVst (o : FmtGS) (s : State) : Out := gsStore false o s
/-- VGATH (R227). -/
def execVgath (o : FmtGS) (s : State) : Out := gsLoad true o s
/-- VSCAT (R226). -/
def execVscat (o : FmtGS) (s : State) : Out := gsStore true o s

/-- Bytes of an A-tile buffer. -/
def aBytes : Nat := 16384
/-- Bytes of a W-tile buffer. -/
def wTileBytes : Nat := 16384
/-- Bytes of a C-tile buffer. -/
def cBytes : Nat := 4096

/-- The equality of formats that R229 asks for unless either is 0. -/
def needSameTag (th : BitVec 5) (want found : BitVec 4) : Res Unit :=
  need (want = found || want = 0 || found = 0) cTag
    ((want.setWidth 64 <<< 12) ||| (found.setWidth 64 <<< 8) ||| th.setWidth 64)

/-- The elements of a 128-byte span. -/
def spanElems (m : Cells 8) (a : Nat) : List Elem :=
  (List.range 32).map (fun k => BitVec.ofNat 32 (cnum m (a + 4 * k) 4))

/-- A tile read of slot G (R229): the span's bytes land 6 steps on under FT. -/
def tileLoad (kind : BitVec 2) (mem : Strand → Cells 8) (size row : Nat) (o : FmtGA) (s : State) : Out :=
  finish s (do
    let t := s.me
    let d := lineOf o.pl o.xl
    needPlane t d.pn
    needTile t o.th
    needKind t o.th (fun k => k = kind)
    needSameTag o.th o.ft (t.tile o.th).ft
    needReady88 t o.th
    let a := size * (t.tile o.th).bi.toNat + row * o.row.toNat + 128 * o.qw.toNat
    return s.land latGS (wholeLine d o.ft (spanElems (mem t) a)))

/-- VLDA (R229). -/
def execVlda (o : FmtGA) (s : State) : Out := tileLoad 1 Strand.amem aBytes 512 o s
/-- VLDC (R229). -/
def execVldc (o : FmtGA) (s : State) : Out := tileLoad 2 Strand.cmem cBytes 128 o s

/-- VSTA (R229). -/
def execVsta (o : FmtGA) (s : State) : Out := finish s (do
  let t := s.me
  let d := lineOf o.pl o.xl
  needPlane t d.pn
  needTile t o.th
  needKind t o.th (fun k => k = 1)
  needSameTag o.th (t.tagOf d.pn) (t.tile o.th).ft
  needReady88 t o.th
  needReady ((t.tile o.th).rc = 0)
  let a := aBytes * (t.tile o.th).bi.toNat + 512 * o.row.toNat + 128 * o.qw.toNat
  return s.onMe (fun t => { t with amem := cwrite t.amem a ((t.line d).flatMap wBytes) }))

/-- R230: the checks of a handle access for every active lane, and their places by lane. Checks 1 to 4 apply once, and so also where no
lane is active (DEDUCED, log 95). -/
def State.ghPlaces (s : State) (hd : BitVec 4) (base : Nat) (act : List (Nat × Nat)) (rq : BitVec 3) :
    Res (List (Nat × Place)) := do
  let offs := act.map (fun p => (p.1, base + 4 * p.2))
  let h ← s.hOpen hd (offs.headD (0, base)).2 rq
  match offs.find? (fun p => 2 ^ pageBits h.ps.toNat < p.2 + 4) with
  | some p => trapE cBounds (BitVec.ofNat 64 p.2)
  | none => pure ()
  match offs.find? (fun p => p.2 % 4 ≠ 0) with
  | some p => trapE cAlign (BitVec.ofNat 64 p.2)
  | none => pure ()
  foldE (fun (_ : Unit) p => needPa h.kd.toNat (h.pb.toNat * 4096 + p.2) 4) offs ()
  return offs.map (fun p => (p.1, h.place p.2))

/-- The places of a handle access, a word to a lane. -/
def ghSpans (l : List (Nat × Place)) : List HeldSpan :=
  l.map (fun p => { lane := p.1, kind := p.2.kind, pa := p.2.pa, va := p.2.va, n := 4 })

/-- A load or gather through a handle (R230). -/
def ghLoad (ixd hi : Bool) (o : FmtGH) (s : State) : Out := finish s (do
  let d := lineOf o.pl o.xl
  needPlane s.me d.pn
  let act := activeLanes (← s.indexLine ixd o.pi o.xi)
  let ps ← s.ghPlaces o.hd (s.reg o.sa).toNat act 1
  needLd s.me
  s.accessIssue { work := .line d (tagWidth o.ft) (ghPm hi o) o.ft, spans := ghSpans ps, page := (s.me.handle o.hd).page })

/-- A store or scatter through a handle (R226, R230). -/
def ghStore (ixd hi : Bool) (o : FmtGH) (s : State) : Out := finish s (do
  let d := lineOf o.pl o.xl
  needPlane s.me d.pn
  let act := activeLanes (← s.indexLine ixd o.pi o.xi)
  let pm := ghPm hi o
  s.needStorePm d.pn pm
  let ps ← s.ghPlaces o.hd (s.reg o.sa).toNat act 2
  needSt s.me
  s.accessIssue { work := .scatter (tagWidth (s.me.tagOf d.pn)) pm (s.me.line d), spans := ghSpans ps, page := (s.me.handle o.hd).page })

/-- VLDH with PM bit 2 = 0 (R230). -/
def execVldh (o : FmtGH) (s : State) : Out := ghLoad false false o s
/-- VSTH with PM bit 2 = 0 (R230). -/
def execVsth (o : FmtGH) (s : State) : Out := ghStore false false o s
/-- VGATHH with PM bit 2 = 0 (R230). -/
def execVgathh (o : FmtGH) (s : State) : Out := ghLoad true false o s
/-- VSCATH with PM bit 2 = 0 (R230). -/
def execVscath (o : FmtGH) (s : State) : Out := ghStore true false o s
/-- VLDH with PM bit 2 = 1 (R230). -/
def execVldhPm4 (o : FmtGH) (s : State) : Out := ghLoad false true o s
/-- VSTH with PM bit 2 = 1 (R230). -/
def execVsthPm4 (o : FmtGH) (s : State) : Out := ghStore false true o s
/-- VGATHH with PM bit 2 = 1 (R230). -/
def execVgathhPm4 (o : FmtGH) (s : State) : Out := ghLoad true true o s
/-- VSCATH with PM bit 2 = 1 (R230). -/
def execVscathPm4 (o : FmtGH) (s : State) : Out := ghStore true true o s

end Sys2Proof.Machine
end

