-- ==== Sys2Proof/Machine/Engine.lean ====
section
/-! DEFINITION. Engine commands (R231 to R236): how one is issued, the moves of tile states (R87), the
sides a command reads and writes with their translation (R91, R98, R144, R367, R399), the performance of
its units in order of progress (R398), its completion word (R236, R429) and its end (R72). -/

namespace Sys2Proof.Machine

/-- Is the command counted under tl (R232)? -/
def CmdOp.isTl : CmdOp → Bool
  | .talloc | .tzero | .tfree | .mlatch | .mma | .mmas | .tcvt | .tmov | .txpose | .tdrain | .tdraink => true
  | _ => false

/-- Is it a matrix operation (R241)? -/
def CmdOp.isMatrix (o : CmdOp) : Bool := o = .mma || o = .mmas

/-- Is it a drain in the sense of R87 (R237, R247)? -/
def CmdOp.isDrain (o : CmdOp) : Bool := o = .tdrain || o = .tdraink || o = .tfree

/-- Does it wait in a copy-engine queue (R235)? -/
def CmdOp.isQueued : CmdOp → Bool
  | .tdrain | .tdraink | .cpy | .cpym | .cpyi | .cpysTo | .cpysFrom | .cpyf | .cpyg | .cpysc
  | .sqgo | .sqwait | .sqkill => true
  | _ => false

/-- Does it translate for itself under markers (R144)? -/
def CmdOp.translates (o : CmdOp) : Bool := o.isQueued || o = .sfpool || o = .mmas

/-- Bytes of a buffer of a tile kind. -/
def bufBytes (tk : BitVec 2) : Nat := if tk = 2 then cBytes else aBytes

/-- The buffer memory of a kind: W, A or C. -/
def Strand.bufMem (t : Strand) (tk : BitVec 2) : Cells 8 :=
  if tk = 0 then t.wmem else if tk = 1 then t.amem else t.cmem

/-- Replace the buffer memory of a kind. -/
def Strand.setBuf (t : Strand) (tk : BitVec 2) (m : Cells 8) : Strand :=
  if tk = 0 then { t with wmem := m } else if tk = 1 then { t with amem := m } else { t with cmem := m }

/-- First byte of a tile's buffer. -/
def Tile.base (e : Tile) : Nat := bufBytes e.tk * e.bi.toNat

/-- A run of bytes of a buffer of a strand's context (R406): SPC 6, 7 or 8 by its kind. -/
def bufRun (t : Strand) (tk : BitVec 2) (off n : Nat) : ArrayRun :=
  { spc := 6 + min tk.toNat 2, owner := arrayOf t, lo := off, n := n }

/-- The bytes of a whole tile. -/
def Strand.tileRun (t : Strand) (e : Tile) : ArrayRun := bufRun t e.tk e.base (bufBytes e.tk)

/-- Bytes of a tile from an offset. -/
def Strand.tileBytes (t : Strand) (e : Tile) (off n : Nat) : List Byte := cread (t.bufMem e.tk) (e.base + off) n

/-- Write bytes of a tile at an offset. -/
def Strand.writeTile (t : Strand) (e : Tile) (off : Nat) (l : List Byte) : Strand :=
  t.setBuf e.tk (cwrite (t.bufMem e.tk) (e.base + off) l)

/-- Tell the core that a W-tile buffer has been written, for its stationary latches (R242). -/
def State.countWrite (s : State) (k : Nat) (e : Tile) : State :=
  let t := tget s.strands k
  if e.tk = 0 then
    s.onCore t.core (fun c => { c with
      wcount := tset c.wcount (32 * t.ctx + e.bi.toNat) (tget c.wcount (32 * t.ctx + e.bi.toNat) + 1) })
  else s

/-- Move a tile for the command at the head of those that wait (R87): a writer makes it filling, from
ready once RC is 0; a drain makes it draining, once RC and DC are 0. An empty tile passes through draining for TFREE (R237), or
for a drain whose writer has been withdrawn before it (log 13). A matrix operation that finds it empty
starts from zero (R88); a CPYM counts its follow-on operation as a reader from here on (R251). -/
def State.moveTile (s : State) (k : Nat) (th : BitVec 5) : Option State :=
  let t := tget s.strands k
  let e := t.tile th
  match e.pend with
  | [] => none
  | n :: rest =>
    let c := tget s.cmds n
    if c.op.isDrain then
      if e.ts = 0 || (e.ts = 2 && e.rc = 0) || (e.ts = 1 && e.dc = 0) then
        some ((s.onStrand k (fun t => t.onTile th (fun e => { e with ts := 3, pend := rest }))).onCmd n
          (fun c => { c with active := true }))
      else none
    else if e.ts = 3 || (e.ts = 2 && e.rc ≠ 0) then none
    else
      let zero := c.op.isMatrix && e.ts = 0
      some ((s.onStrand k (fun t =>
        let t := if zero then t.setBuf e.tk (cclear (t.bufMem e.tk) e.base (bufBytes e.tk)) else t
        t.onTile th (fun e => { e with ts := 1, dc := e.dc + 1, pend := rest,
                                       rc := if c.op = .cpym then e.rc + 1 else e.rc }))).onCmd n
        (fun c => { c with active := true }))

/-- Every move of a tile that can be made now, in issue order. -/
def State.moveTiles : Nat → State → Nat → BitVec 5 → State
  | 0, s, _, _ => s
  | n + 1, s, k, th => match s.moveTile k th with
    | some s' => State.moveTiles n s' k th
    | none => s

/-- Move a tile as far as it goes. -/
def State.settleTile (s : State) (k : Nat) (th : BitVec 5) : State :=
  State.moveTiles (((tget s.strands k).tile th).pend.length) s k th

/-- A tile becomes the source of one more command (R88). -/
def State.readTile (s : State) (th : BitVec 5) : State :=
  s.onMe (fun t => t.onTile th (fun e => { e with rc := e.rc + 1 }))

/-- A command's last read of a source tile (R88). -/
def State.unreadTile (s : State) (k : Nat) (o : Option (BitVec 5)) : State := match o with
  | none => s
  | some th => (s.onStrand k (fun t => t.onTile th (fun e => { e with rc := e.rc - 1 }))).settleTile k th

/-- What a command of the issuing strand carries whatever it does (R232). -/
def State.newCmd (s : State) (op : CmdOp) : Cmd :=
  { op := op, strand := s.cur, part := s.me.part, tenant := s.tenantOf s.me, core := s.me.core }

/-- R232 step 3: place a command, raise its counter, and let its tiles move. Its source tiles' RC rises. -/
def State.place (s : State) (c : Cmd) : State :=
  let n := s.nextId
  let s := { s with cmds := tset s.cmds n c, nextId := n + 1 }
  let s := s.onMe (fun t =>
    if c.op.isTl then { t with tlq := t.tlq ++ [{ cmd := n }] } else { t with cpq := t.cpq ++ [n] })
  let src (s : State) (o : Option (BitVec 5)) : State := match o with
    | some th => s.readTile th
    | none => s
  let s := src (src (src s (if c.after.isSome then none else c.ta)) c.ta2) c.tb
  match c.td with
  | none => s
  | some th => if c.op = .talloc then s
    else (s.onMe (fun t => t.onTile th (fun e => { e with pend := e.pend ++ [n] }))).settleTile s.cur th

/-- R235: an engine that the partition does not own raises an isolation trap that names it. -/
def State.needEngine (s : State) (eng : Nat) : Res Unit :=
  need ((tget s.parts s.me.part).res.engines.contains eng) cIso (BitVec.ofNat 64 eng)

/-- ENG and Q of an immediate (R235). -/
def Cmd.at (c : Cmd) (imm : Nat) : Cmd := { c with engine := imm % 32, queue := imm / 32 % 16 }

/-- An earlier command on the same tile is still to be performed. -/
def State.behindOnTile (s : State) (n : Nat) : Bool :=
  let c := tget s.cmds n
  c.td.isSome && s.cmds.any (fun e => e.1 < n && e.2.strand = c.strand && e.2.td = c.td)

/-- Does a command issued before `n` still read the tile that `n` names: the operation that follows a CPYM (R88, R251)? -/
def State.readEarlier (s : State) (n : Nat) : Bool :=
  let c := tget s.cmds n
  s.cmds.any (fun e => e.1 < n && e.2.strand = c.strand && (e.2.ta = c.td || e.2.ta2 = c.td || e.2.tb = c.td))

/-- May a command that names a tile be performed on it now (R87, R88)? -/
def State.tileFree (s : State) (n : Nat) : Bool :=
  let c := tget s.cmds n
  c.td.isNone || c.op = .talloc || (c.active && !s.behindOnTile n && !s.readEarlier n)

/-- The command leaves its tile (R87): a writer's share of DC falls, a drain ends in empty or ready; one
that never moved the tile just goes, a CPYM leaving its follow-on operation as a reader (R251). -/
def Tile.leave (e : Tile) (n : Nat) (c : Cmd) : Tile :=
  if !c.active then { e with pend := e.pend.filter (· ≠ n), rc := if c.op = .cpym then e.rc + 1 else e.rc }
  else if c.op.isDrain then { e with ts := if c.op = .tdraink then 2 else 0 }
  else { e with dc := e.dc - 1, ts := if e.dc = 1 && e.ts = 1 then 2 else e.ts }

/-- The end of a command (R72, R87, R88): its tiles, its counter, the invalidations that wait for it
(R145), and the halt that may wait for it (R74). -/
def State.endCmd (s : State) (n : Nat) : State :=
  let c := tget s.cmds n
  let s : State := { s with cmds := tdel s.cmds n }
  let s : State := match c.td with
    | none => s
    | some th => if c.op = .talloc then s
      else ((if c.active && !c.op.isDrain then s.countWrite c.strand ((tget s.strands c.strand).tile th) else s
        ).onStrand c.strand (fun t => t.onTile th (fun e => e.leave n c))).settleTile c.strand th
  let s := ((s.unreadTile c.strand c.ta).unreadTile c.strand c.ta2).unreadTile c.strand c.tb
  let s := s.onStrand c.strand (fun t =>
    if c.op.isTl then
      { t with tlq := popDone (fun o => o.done) (t.tlq.map (fun o => if o.cmd = n then { o with done := true } else o)) }
    else { t with cpq := t.cpq.filter (· ≠ n) })
  let s := s.onDev (fun d => { d with invals := tmap d.invals (fun _ i => { i with cmds := i.cmds.filter (· ≠ n) }) })
  s.haltStep (tget s.strands c.strand).gang

/-- Set the format of the tile a command has written. -/
def State.setFt (s : State) (c : Cmd) (ft : BitVec 4) : State := match c.td with
  | some th => s.onStrand c.strand (fun t => t.onTile th (fun e => { e with ft := ft }))
  | none => s

/-- What a command reads or writes: a virtual address, a staging slice form (R91), bytes at hand, a
scratchpad window, a buffer of the issuer, a half of its core's instruction memory, the spread positions of
a tile (R254). -/
inductive Side where
  | va (a : Nat)
  | slice (a : Nat)
  | bytes (l : List (BitVec 8))
  | spad (k off : Nat)
  | buf (tk : BitVec 2) (off : Nat)
  | imem (half off : Nat)
  | spread (off m w : Nat)
  deriving DecidableEq, Repr, Inhabited

/-- A side further on. -/
def Side.plus : Side → Nat → Side
  | .va a, n => .va (a + n)
  | .slice a, n => .slice (a + n)
  | .bytes l, n => .bytes (l.drop n)
  | .spad k off, n => .spad k (off + n)
  | .buf tk off, n => .buf tk (off + n)
  | .imem h off, n => .imem h (off + n)
  | .spread off m w, _ => .spread off m w

/-- Offset in its page of a side that is translated. -/
def Side.pageOff : Side → Nat
  | .va a => a % 4096
  | .slice a => a % 4096
  | _ => 0

/-- Cut `n` bytes at the page boundaries of both sides: offsets and lengths. -/
def cutFrom (x y : Nat) : Nat → Nat → Nat → List (Nat × Nat)
  | 0, _, _ => []
  | f + 1, o, n =>
    if n ≤ o then []
    else
      let len := min (n - o) (min (4096 - (x + o) % 4096) (4096 - (y + o) % 4096))
      (o, len) :: cutFrom x y f (o + len) n

/-- The pieces of `n` bytes between two sides. -/
def pieces (x y : Side) (n : Nat) : List (Nat × Nat) := cutFrom x.pageOff y.pageOff (n / 2048 + 3) 0 n

/-- One side cut at its page boundaries. -/
def Side.cut (x : Side) (n : Nat) : List (Side × Nat) := (pieces x x n).map (fun p => (x.plus p.1, p.2))

/-- A unit of R398: its extent of progress, the parts read, the parts written, and the lane bytes of
atomic additions (0: stored). -/
structure CopyUnit where
  ext : Nat := 0
  src : List (Side × Nat) := []
  dst : List (Side × Nat) := []
  add : Nat := 0
  word : Bool := false
  /-- what a unit whose bytes were made beforehand was made from (R406) -/
  from_ : List ArrayRun := []
  deriving DecidableEq, Repr, Inhabited

/-- Why a unit is not performed: its walk fails (R398), it may not be performed (R399), it must wait, with what stands by
then (R326, R414, R415), or its physical address does not exist. -/
inductive UnitErr where
  | walk (va : Nat) (rq : BitVec 3)
  | refuse (ec : BitVec 6) (cause : BitVec 16) (val : Nat)
  | wait (s : State)
  | hole (f : Fault)
  deriving DecidableEq, Repr, Inhabited

/-- A side with its place: memory, another device, or at hand. -/
inductive Loc where
  | mem (kind pa : Nat)
  | remote (dev addr port : Nat)
  | here
  deriving DecidableEq, Repr, Inhabited

/-- The walk of a command: ranges invalidated behind it are walked as they stood before their first marker (R144);
bits above 55 make it fail. -/
def State.cmdWalk (s : State) (c : Cmd) (va : Nat) : Walk :=
  if 2 ^ 56 ≤ va then .absent
  else match OldMap.holding c.old va with
    | some m => s.walkBy c.part m.tables m.regs (BitVec.ofNat 56 va)
    | none => s.walkInForce c.part (BitVec.ofNat 56 va)

/-- The old mapping by which a command walks an address, where there is one (R144): that of the first marker behind the command, or
one that has been changed and not invalidated yet, while it finds the page. -/
def State.oldMapOf (s : State) (c : Cmd) (va : Nat) : Option OldMap :=
  match OldMap.holding c.old va with
  | some m => some m
  | none => (OldMap.holding (tget s.parts c.part).before va).filter (fun m =>
      (s.walkBy c.part m.tables m.regs (BitVec.ofNat 56 va)).found.isSome)

/-- What the walk of an address by a command reads of HBM (R97, R144, R406). -/
def State.cmdWalkRuns (s : State) (c : Cmd) (va : Nat) : List ArrayRun := match s.oldMapOf c va with
  | some m => s.walkRunsBy c.part m.tables m.regs (BitVec.ofNat 56 va)
  | none => s.walkRuns c.part (BitVec.ofNat 56 va)

/-- Report what the walk of an address by a command meets in the tables that it walks (R99, R144). -/
def State.noteCmdWalk (s : State) (c : Cmd) (va : Nat) : State :=
  if 2 ^ 56 ≤ va then s else s.noteFound c.part (s.cmdWalkRuns c va) (s.cmdWalk c va)

/-- R367: the port that carries a page: ports in ascending number, by bits 19..12 of the remote address. -/
def portOf (pm : BitVec 24) (addr : Nat) : Nat :=
  let ps := (List.range 24).filter (fun i => bitAt pm i)
  ps.getD (addr / 4096 % 256 % ps.length) 0

/-- The place of a side for `n` bytes within one page (R91, R98, R367, R399, R418). -/
def State.locate (s : State) (c : Cmd) (x : Side) (n : Nat) (rq : BitVec 3) (kinds : List Nat) :
    Except UnitErr Loc := match x with
  | .va a =>
    match if c.op.isQueued && !c.op.isDrain then s.routeOf c.part a else none with
    | some (dev, addr, pm) => .ok (.remote dev addr (portOf pm addr))
    | none => if c.op.isQueued && !c.op.isDrain && s.routeBarred c.part a then .error (.refuse 3 0x0042 a)
      else match s.cmdWalk c a with
      | .leaf l =>
        if !l.grants rq then .error (.walk a rq)
        else if !kinds.contains l.kd then .error (.refuse 4 0x0043 a)
        else if l.kd = 2 && s.dev.failed.contains (l.at a / 2 ^ 38) then .error (.refuse 4 0x0043 a)
        else if paExists l.kd (l.at a) n then .ok (.mem l.kd (l.at a))
        else .error (.hole (.addressHole (memKey l.kd (l.at a))))
      | _ => .error (.walk a rq)
  | .slice a =>
    if (tget s.parts c.part).res.slices.contains (a % 2 ^ 32 / 2 ^ 26) then .ok (.mem 1 (a % 2 ^ 32))
    else .error (.refuse 3 0x0042 (a % 2 ^ 32))
  | _ => .ok .here

/-- The arrays that a side of a command is read from at its place (R406). -/
def State.sideRuns (s : State) (c : Cmd) (x : Side) (l : Loc) (n : Nat) : List ArrayRun :=
  match l, x with
  | .mem kind pa, _ => [{ spc := kind, lo := pa, n := n }]
  | .here, .spad k off => [{ spc := 9, owner := arrayOf (tget s.strands k), lo := off, n := n }]
  | .here, .buf tk off => [bufRun (tget s.strands c.strand) tk off n]
  | _, _ => []

/-- What the walk of a side's page reads (R97, R406). -/
def State.sideWalk (s : State) (c : Cmd) : Side → Loc → List ArrayRun
  | .va a, .mem _ _ => s.cmdWalkRuns c a
  | _, _ => []

/-- The bytes of a side at its place. Bytes of another device are free (log 18). -/
def State.readSide (s : State) (c : Cmd) (x : Side) (l : Loc) (n : Nat) : List Byte :=
  match l with
  | .mem kind pa => s.readMem kind pa n
  | .remote dev addr _ => (List.range n).map (fun i => Config.remoteByte (s.free + 2 ^ 64 * (addr + i) + 2 ^ 128 * dev))
  | .here => match x with
    | .bytes l => (List.range n).map (fun i => byteAt l i)
    | .spad k off => cread (tget s.strands k).smem off n
    | .buf tk off => cread ((tget s.strands c.strand).bufMem tk) off n
    | _ => []

/-- Lanes of `w` bytes added at a memory place (R196, R255). -/
def addLanes (w : Nat) (old new : List Byte) : List Byte :=
  leBytes old.length (laneAdd (if w = 4 then fF32 else fBF16) (8 * w) (old.length / w) (leNat old) (leNat new))

/-- Write 4-, 8- or 16-bit items of a row to position `m` of the 32 lines of a tile (R254). -/
def spreadRow (off m w : Nat) (row : List Byte) (c : Cells 8) : Cells 8 :=
  (List.range 32).foldl (fun c j =>
    let a := off + 512 * j + w * m / 8
    let item := leNat row / 2 ^ (w * j) % 2 ^ w
    if w = 4 then
      let b := (cget c a).toNat
      cset c a (BitVec.ofNat 8 (if m % 2 = 0 then b / 16 * 16 + item else item * 16 + b % 16))
    else cwrite c a (leBytes (w / 8) item)) c

/-- The current window: window N is the interval from N · W to (N + 1) · W of the time base (R146). -/
def State.windowNow (s : State) : Nat := s.now / (1000 * s.dev.windowUs)

/-- Send bytes to another device as a unit to be acknowledged (R147, R419). -/
def State.sendRemote (s : State) (n : Nat) (dev addr port : Nat) (l : List Byte) (add : Nat) : State :=
  let u := s.nextId
  let s : State := { s with nextId := u + 1 }
  let before := (tget s.cmds n).bytes
  let o : RemoteOut := { cmd := n, port := port, dev := dev, addr := addr, window := s.windowNow, data := l, add := add, before := before }
  (s.onDev (fun d => { d with outs := tset d.outs u o, lastSent := tset d.lastSent port s.windowNow })).onCmd n
    (fun c => { c with units := c.units ++ [u], window := some s.windowNow })

/-- Write bytes to a side at its place for command `n`. -/
def State.writeSide (s : State) (n : Nat) (c : Cmd) (x : Side) (l : Loc) (add : Nat) (b : List Byte) : State :=
  match l with
  | .mem kind pa =>
    let new := if add = 0 then b else addLanes add (s.readMem kind pa b.length) b
    s.writeMem kind pa new
  | .remote dev addr port => s.sendRemote n dev addr port b add
  | .here => match x with
    | .spad k off => s.onStrand k (fun t => { t with smem := cwrite t.smem off b })
    | .buf tk off => s.onStrand c.strand (fun t => t.setBuf tk (cwrite (t.bufMem tk) off b))
    | .imem h off => s.onCore c.core (fun k =>
        let f (x : Half) : Half := { x with mem := cwrite x.mem off b }
        if h = 0 then { k with half0 := f k.half0 } else { k with half1 := f k.half1 })
    | .spread off m w => s.onStrand c.strand (fun t =>
        let tk := match c.td with
          | some th => (t.tile th).tk
          | none => 0
        t.setBuf tk (spreadRow off m w b (t.bufMem tk)))
    | _ => s

/-- The places of a list of parts. -/
def State.locateAll (s : State) (c : Cmd) (rq : BitVec 3) (kinds : List Nat) (l : List (Side × Nat)) :
    Except UnitErr (List (Side × Nat × Loc)) :=
  foldE (fun acc p => (s.locate c p.1 p.2 rq kinds).map (fun x => acc ++ [(p.1, p.2, x)])) l []

/-- Kinds that a command's reads and writes may reach (R248, R255, R399). -/
def Cmd.kinds (c : Cmd) (add : Nat) : List Nat := if c.op.isDrain || add ≠ 0 then [0, 1] else [0, 1, 2]

/-- The pages a unit writes (R414); a page of another device is logged with kind 0 (log 82). -/
def writtenPages (l : List (Side × Nat × Loc)) : List (Nat × Nat) :=
  l.flatMap (fun p => match p.1, p.2.2 with
    | .va a, .mem kind _ => pagesOf kind a p.2.1
    | .va a, .remote .. => pagesOf 0 a p.2.1
    | _, _ => [])

/-- The resources that a unit's parts reach: memory, and a port in one direction (R324). -/
def resourcesOf (l : List (Side × Nat × Loc)) (inward : Bool) : List (Nat × Bool × Nat) :=
  l.filterMap (fun p => match p.2.2 with
    | .mem kind pa => (resourceOf kind pa).map (fun x => (x, false, p.2.1))
    | .remote _ _ port => some (128 + port, inward, p.2.1)
    | .here => none)

/-- R326: may the unit be served in this window: no cap of its tenant is reached at its engine or at what it reaches, and its
additions have their budget? A command without a budget has its record posted (R415). -/
def State.unitServed (s : State) (n : Nat) (u : CopyUnit) (src dst : List (Side × Nat × Loc)) : Bool :=
  let c := tget s.cmds n
  !(c.op.isQueued && s.capped c.part c.tenant (96 + c.engine)) &&
    (resourcesOf src true ++ resourcesOf dst false).all (fun x => !s.capped c.part c.tenant x.1 x.2.1) &&
    (u.add = 0 || (resourcesOf dst false).all (fun x => s.atomicsFree c.part c.tenant x.1 (x.2.2 / u.add)))

/-- R415: the records of a unit whose additions have no budget at a resource. -/
def State.unitHeld (s : State) (n : Nat) (u : CopyUnit) (dst : List (Side × Nat × Loc)) : State :=
  let c := tget s.cmds n
  if u.add = 0 then s
  else (resourcesOf dst false).foldl (fun s x => s.noBudgetRecord c.strand c.part c.tenant x.1) s

/-- Write consecutive bytes to parts. -/
def State.writeParts (n : Nat) (c : Cmd) (add : Nat) : State → List (Side × Nat × Loc) → List Byte → State
  | s, [], _ => s
  | s, p :: r, b => State.writeParts n c add (s.writeSide n c p.1 p.2.2 add (b.take p.2.1)) r (b.drop p.2.1)

/-- Perform one unit of command `n` (R398): every part is translated before any is written. -/
def State.doUnit (s : State) (n : Nat) (u : CopyUnit) : Except UnitErr State := do
  let c := tget s.cmds n
  let src ← s.locateAll c 1 (c.kinds 0) u.src
  let dst ← s.locateAll c (if u.add = 0 then 2 else 4) (if u.word then [0, 1] else c.kinds u.add) u.dst
  let data := src.flatMap (fun p => s.readSide c p.1 p.2.2 p.2.1)
  let runs := u.from_ ++ (if u.add = 0 then src else src ++ dst).flatMap (fun p => s.sideRuns c p.1 p.2.2 p.2.1) ++
    (src ++ dst).flatMap (fun p => s.sideWalk c p.1 p.2.2)
  if !s.unitServed n u src dst then .error (.wait (s.unitHeld n u dst))
  else
    let total := (dst.map (fun p => p.2.1)).foldl (· + ·) 0
    match s.logAll c.part c.tenant (writtenPages dst) with
    | (s, false) => .error (.wait s)
    | (s, true) =>
      let s := s.noteErrors c.strand runs
      let s := (resourcesOf src true).foldl (fun s x => s.chargeAt c.part c.tenant x.1 x.2.2 x.2.1) s
      let s := (resourcesOf dst false).foldl (fun s x =>
        if u.add = 0 || 128 ≤ x.1 then s.chargeAt c.part c.tenant x.1 x.2.2
        else s.chargeAtomics c.part c.tenant x.1 (x.2.2 / u.add)) s
      let s := if c.op.isQueued then s.chargeAt c.part c.tenant (96 + c.engine) total else s
      let s := State.writeParts n c u.add { s with free := s.free + 1 } dst data
      return s.onCmd n (fun c => { c with bytes := c.bytes + total })

/-- Perform units in order until one cannot be performed: the machine, and the unit with why. -/
def State.doUnits (n : Nat) : State → List CopyUnit → State × Option (Nat × UnitErr)
  | s, [] => (s, none)
  | s, u :: r => match s.doUnit n u with
    | .ok s' => State.doUnits n s' r
    | .error (.wait s') => (s'.onCmd n (fun c => { c with prog := u.ext }), some (u.ext, .wait s'))
    | .error e => (s.onCmd n (fun c => { c with prog := u.ext }), some (u.ext, e))

/-- A command's completion word address (R236, R257): CPYM, SQWAIT and SQKILL have none. -/
def Cmd.cwa (c : Cmd) : Nat :=
  match c.op with
  | .cpy | .cpyi | .cpysTo | .cpysFrom | .cpyf | .cpyg | .cpysc | .sfpool => c.lit.toNat / 8 % 2 ^ 53 * 8
  | .sqgo => fld (dwAt c.cap 0x28) 3 53 * 8
  | _ => 0

/-- The completion word (R236). -/
def Cmd.word (c : Cmd) : Word :=
  (1 : BitVec 1) ++ ofBool 1 (c.error ≠ 0) ++ c.error ++ (0 : BitVec 16) ++ BitVec.ofNat 40 c.bytes

/-- The extent of a command's progress before its completion word (R429). -/
def unitsExtent (l : List CopyUnit) (full : Nat) : Nat := if l.isEmpty then 0 else full

/-- Has every unit that the command has sent to another device been acknowledged (R419)? -/
def State.unitsBack (s : State) (c : Cmd) : Bool := c.units.all (fun u => (tfind s.dev.outs u).isNone)

/-- Is the command's last write performed at its scope (R143, R148, R419)? -/
def State.released (s : State) (c : Cmd) : Bool :=
  s.unitsBack c &&
  (!(bitAt c.ord 3 && c.ord.extractLsb' 0 3 = 4) || match c.window with
    | some w => w + 2 ≤ s.windowNow
    | none => true)

/-- Write the completion word, if there is one (R236, R429); where it may not be written its record is posted and the command
goes on (R399, R429). -/
def State.writeWord (s : State) (n : Nat) : Except UnitErr State :=
  let c := tget s.cmds n
  if c.cwa = 0 then .ok s
  else
    let b := c.bytes
    match s.doUnit n { src := [(.bytes (dwBytes c.word), 8)], dst := Side.cut (.va c.cwa) 8, word := true } with
    | .ok s' => .ok (s'.onCmd n (fun c => { c with bytes := b }))
    | .error (.refuse _ cause val) =>
      .ok (s.postFatal (s.recordOf c.strand { cause := cause, val := BitVec.ofNat 64 val, slot := 7 }))
    | .error e => .error e

/-- AUX of an engine translation fault (R395, R429). -/
def Cmd.faultAux (c : Cmd) (rq : BitVec 3) (prog : Nat) : Word :=
  if c.op = .sfpool then BitVec.ofNat 64 (6 * 2 ^ 52 + rq.toNat * 2 ^ 49)
  else BitVec.ofNat 64 (c.engine * 2 ^ 59 + c.queue * 2 ^ 55 + 4 * 2 ^ 52 + rq.toNat * 2 ^ 49 + prog % 2 ^ 40)

/-- A command stalls at a failed walk: its record is posted and it awaits an answer (R398). -/
def State.stall (s : State) (n : Nat) (va : Nat) (rq : BitVec 3) (prog : Nat) : State :=
  let c := tget s.cmds n
  let s := s.noteCmdWalk c va
  (s.postReplay { s.recordOf c.strand { cause := 0x0040, val := BitVec.ofNat 64 va, slot := 7,
                                        aux := c.faultAux rq prog } with cmd := some n }).onCmd n
    (fun c => { c with state := .stalled, prog := prog })

/-- A command whose units are over, or that ends early with an error: its word is next (R398, R399). -/
def State.toWord (s : State) (n : Nat) (ec : BitVec 6) : State :=
  s.onCmd n (fun c => { c with wordLeft := true, state := .started,
                               error := if ec = 0 then c.error else ec })

end Sys2Proof.Machine
end

