-- ==== Sys2Proof/Machine/Tile.lean ====
section
/-! DEFINITION. The tile-table instructions (R237), row progress (R245), moves and conversions between
tiles (R246). -/

namespace Sys2Proof.Machine

/-- TALLOC (R237): the entry is written at issue; tl falls at the command's completion (log 13). -/
def execTalloc (o : FmtET) (s : State) : Out := finish s (do
  let t := s.me
  let tk : BitVec 2 := o.imm.extractLsb' 0 2
  let bi : BitVec 5 := o.imm.extractLsb' 2 5
  let lim := if tk = 0 then t.win.wt else if tk = 1 then t.win.at_ else t.win.ct
  needTile t o.td
  need (bi.toNat < lim) cWindow (o.td.setWidth 64)
  need ((t.tile o.td).ts = 0) cTile (o.td.setWidth 64)
  need (!(t.tiles.any (fun e => e.1 ≠ o.td.toNat && e.2.ts ≠ 0 && e.2.tk = tk && e.2.bi = bi))) cTile (o.td.setWidth 64)
  needTl t
  return (s.onMe (fun t => t.onTile o.td (fun e => { e with tk := tk, bi := bi, ft := etF o }))).place
    { s.newCmd .talloc with td := some o.td })

/-- TFREE (R237): a releasing drain that writes nothing. -/
def execTfree (o : FmtET) (s : State) : Out := finish s (do
  needTile s.me o.td
  needTl s.me
  return s.place { s.newCmd .tfree with td := some o.td })

/-- TZERO (R237). -/
def execTzero (o : FmtET) (s : State) : Out := finish s (do
  needTile s.me o.td
  needTl s.me
  return s.place { s.newCmd .tzero with td := some o.td, fmt := (etF o).setWidth 5 })

/-- TSTAT (R237): SA names the destination, TG reads as 0. -/
def execTstat (o : FmtET) (s : State) : Out := finish s (do
  needTile s.me o.td
  return s.landS latEB o.sa (packTile (s.me.tile o.td) 0))

/-- TWAIT (R237). -/
def execTwait (o : FmtET) (s : State) : Out := finish s (do
  needTile s.me o.td
  needReady ((s.me.tile o.td).ts = 0 || (s.me.tile o.td).ts = 2)
  return s)

/-- The streaming operation outstanding on a tile of the issuing strand (R245). -/
def State.streamOn (s : State) (th : BitVec 5) : Option Cmd :=
  (s.cmds.find? (fun e => e.2.strand = s.cur && e.2.op = .mmas && e.2.td = some th)).map (·.2)

/-- TROWP (R245). -/
def execTrowp (o : FmtET) (s : State) : Out := finish s (do
  needTile s.me o.td
  return s.landS latEB o.sa (match s.streamOn o.td with
    | some c => BitVec.ofNat 64 c.prog
    | none => BitVec.allOnes 64))

/-- TCVT (R246). -/
def execTcvt (o : FmtET) (s : State) : Out := finish s (do
  let t := s.me
  needTile t o.td
  needTile t o.ta
  needKind t o.td (fun k => k ≠ 2)
  needKind t o.ta (fun k => k = 2)
  let want : BitVec 4 := if etF o = 10 then 8 else 1
  needTileTag t o.ta want
  needReady88 t o.ta
  needTl t
  return s.place { s.newCmd .tcvt with td := some o.td, ta := some o.ta, fmt := o.fmt, imm := o.imm.setWidth 12,
                                       a := s.reg o.sa, rm := rmField s (o.imm.extractLsb' 5 3) })

/-- TMOV (R246). -/
def execTmov (o : FmtET) (s : State) : Out := finish s (do
  let t := s.me
  needTile t o.td
  needTile t o.ta
  needKind t o.td (fun k => (k = 2) == ((t.tile o.ta).tk = 2))
  needReady88 t o.ta
  needTl t
  return s.place { s.newCmd .tmov with td := some o.td, ta := some o.ta })

/-- TXPOSE (R246). -/
def execTxpose (o : FmtET) (s : State) : Out := finish s (do
  let t := s.me
  needTile t o.td
  needTile t o.ta
  needKind t o.td (fun k => k = 2)
  needKind t o.ta (fun k => k = 2)
  needReady88 t o.ta
  needTl t
  return s.place { s.newCmd .txpose with td := some o.td, ta := some o.ta })

/-- The 1,024 elements of a C-tile in row order. -/
def Strand.cElems (t : Strand) (e : Tile) : List Nat :=
  (List.range 1024).map (fun i => leNat (t.tileBytes e (4 * i) 4))

/-- Lines of 32 items packed at position `pos` of each 512-byte line (R109, R246). -/
def putItems (w : Nat) (base pos : Nat) (c : Cells 8) (line : Nat) (items : List Nat) : Cells 8 :=
  let v := items.foldr (fun x acc => x % 2 ^ w + 2 ^ w * acc) 0
  cwrite c (base + 512 * line + w * pos / 8) (leBytes (4 * w) v)

/-- The effect of TZERO, TCVT, TMOV and TXPOSE on the tile they write (R237, R246). -/
def State.doTileOp (s : State) (c : Cmd) : State :=
  let t := tget s.strands c.strand
  match c.td with
  | none => s
  | some th =>
    let d := t.tile th
    let src := t.tile (c.ta.getD 0)
    let put (f : Strand → Strand) (ft : BitVec 4) : State := (s.onStrand c.strand f).setFt c ft
    match c.op with
    | .tzero => put (fun t => t.setBuf d.tk (cclear (t.bufMem d.tk) d.base (bufBytes d.tk))) (c.fmt.setWidth 4)
    | .tmov => put (fun t => t.writeTile d 0 (t.tileBytes src 0 (bufBytes d.tk))) src.ft
    | .txpose =>
      let l := t.cElems src
      put (fun t => t.writeTile d 0 ((List.range 1024).flatMap (fun i => leBytes 4 (l.getD (32 * (i % 32) + i / 32) 0)))) src.ft
    | .tcvt =>
      let ft : BitVec 4 := c.fmt.setWidth 4
      let l := t.cElems src
      let w := tagWidth ft
      let item (i j : Nat) : Nat :=
        (convertTo ft c.rm (hash32 (c.a.extractLsb' 0 32) (32 * i + j)) (valueOf (if ft = 10 then 8 else 1) (l.getD (32 * i + j) 0))).bits
      put (fun t => t.setBuf d.tk ((List.range 32).foldl (fun m i =>
        putItems w d.base (32 * (c.imm.toNat % 32)) m i ((List.range 32).map (item i))) (t.bufMem d.tk))) ft
    | _ => s

end Sys2Proof.Machine
end

