-- ==== Sys2Proof/Machine/Matrix.lean ====
section
/-! DEFINITION. The matrix array (R110 to R113, R121, R122, R238 to R244): operands and scale strips, step
sums, plain, stationary, compacted and streaming operations, their start, their completion with that of
every other tile command (R232), and stream faults (R400, R401). -/

namespace Sys2Proof.Machine

/-- A step of eight K positions of an operand line; a position that is not selected is absent (R243). -/
abbrev MatStep := List (Option FVal)

/-- The items of a line of bytes (R109). -/
def byteItems (w : Nat) (l : List Byte) : List Nat :=
  if w = 4 then l.flatMap (fun b => [b.toNat % 16, b.toNat / 16])
  else if w = 8 then l.map (·.toNat)
  else if w = 32 then (List.range (l.length / 4)).map (fun i => leNat ((l.drop (4 * i)).take 4))
  else (List.range (l.length / 2)).map (fun i => (byteAt l (2 * i)).toNat + 256 * (byteAt l (2 * i + 1)).toNat)

/-- Cut a list into steps of eight. -/
def eights {α : Type} : Nat → List α → List (List α)
  | 0, _ => []
  | n + 1, l => if l.isEmpty then [] else l.take 8 :: eights n (l.drop 8)

/-- Operands of a line: items of a format, each scaled by the byte of its block of 256 positions (R110,
R240); item `m` stands at position `m + base` for the choice of its block. -/
def lineVals (tag : BitVec 4) (strip : List Byte) (base : Nat) (l : List Byte) : List FVal :=
  let xs := byteItems (tagWidth tag) l
  (List.range xs.length).zipWith (fun m x =>
    let v := valueOf tag x
    if scaledTag tag then scaleV (byteAt strip ((base + m) / 256)).toNat v else v) xs

/-- The weights of a VQ2 line: 256 indices of eight weights, blocks of 256 weights (R112, R240). -/
def vq2Vals (table : List Byte) (strip : List Byte) (l : List Byte) : List FVal :=
  let xs := byteItems 16 l
  ((List.range xs.length).zipWith (fun m x =>
    (List.range 8).map (fun k => scaleV (byteAt strip ((8 * m + k) / 256)).toNat
      (vq2Value (wAt table (4 * (x / 256))) x k))) xs).flatten

/-- Steps of a line whose every position is used. -/
def plainSteps (l : List FVal) : List MatStep := (eights l.length l).map (fun x => x.map some)

/-- R161: the masks with four ones in ascending order. -/
def selMask (code : Nat) : BitVec 8 :=
  BitVec.ofNat 8 (((List.range 256).filter (fun m => (List.range 8).countP (fun i => bitAt (BitVec.ofNat 8 m) i) = 4)).getD code 0)

/-- One group of eight positions: the stored items at the selected ones (R243). -/
def expandGroup (mask : BitVec 8) : Nat → List FVal → MatStep
  | 0, _ => []
  | n + 1, l => if bitAt mask (7 - n) then l.head? :: expandGroup mask n (l.drop 1)
    else none :: expandGroup mask n l

/-- Steps of a compacted line (R243): group q takes four stored items under code q mod 8. -/
def compactSteps (lit : BitVec 60) (l : List FVal) : List MatStep :=
  let masks := (List.range 8).map (fun g => selMask (lit.extractLsb' (7 * g) 7).toNat)
  (List.range (l.length / 4)).map (fun q => expandGroup (masks.getD (q % 8) 0) 8 ((l.drop (4 * q)).take 4))

/-- The exact sum of a step's products (R121). -/
def stepSum (a b : MatStep) : FVal :=
  let ps := (a.zip b).filterMap (fun p => match p.1, p.2 with
    | some x, some y => some (mulV x y).1
    | _, _ => none)
  if ps.any FVal.isNan then .nan false
  else
    let pos := ps.any (fun v => v = .inf false)
    let neg := ps.any (fun v => v = .inf true)
    if pos && neg then .nan false
    else if pos then .inf false
    else if neg then .inf true
    else
      let d := ps.foldl (fun d v => match v with
        | .fin n m e => d.add (dyadicOf n m e)
        | _ => d) ({} : Dyadic)
      .fin (d.m < 0) d.m.natAbs d.e

/-- The value of a finite sum of integers. -/
def intOfF : FVal → Int
  | .fin n m e => (if n then -(m : Int) else m) * pow2 e
  | _ => 0

/-- One step added to an accumulator element (R121, R122). -/
def accStep (i8 : Bool) (c : Nat) (t : FVal) : Nat :=
  if i8 then intBits 32 (satInt true 32 (intVal true 32 c + intOfF t)).1
  else (deliver1 fF32 0 0 (addV 0 (decodeF fF32 c) t)).bits

/-- The first `n` steps of an element's sum. -/
def accFirst (i8 : Bool) (n : Nat) (a b : List MatStep) (c : Nat) : Nat :=
  ((a.zip b).take n).foldl (fun c p => accStep i8 c (stepSum p.1 p.2)) c

/-- The operands of an operation or of one slab: 32 A rows and 32 B columns as steps. -/
structure MatIn where
  i8 : Bool := false
  a : List (List MatStep) := []
  b : List (List MatStep) := []

/-- The whole accumulator tile after an operation (R121). -/
def MatIn.run (x : MatIn) (c : List Nat) : List Nat :=
  (List.range 1024).map (fun n =>
    let a := x.a.getD (n / 32) []
    accFirst x.i8 a.length a (x.b.getD (n % 32) []) (c.getD n 0))

/-- Bytes per strip line of a block-scaled format (R111). -/
def stripB (tag : BitVec 4) : Nat := if tag = 6 then 4 else if tag = 7 then 8 else 2

/-- Strip bytes of line `i`. -/
def stripLine (strip : List Byte) (n i : Nat) : List Byte := (strip.drop (n * i)).take n

/-- A strip of scales 1 (R111). -/
def unitStrip (n : Nat) : List Byte := List.replicate n 0x7F

/-- The B operand of a line of bytes in a format, plain or compacted. -/
def bSteps (fm : BitVec 4) (x : Bool) (lit : BitVec 60) (table strip : List Byte) (base : Nat) (l : List Byte) :
    List MatStep :=
  if fm = 7 then plainSteps (vq2Vals table strip l)
  else if x then compactSteps lit (lineVals fm strip base l)
  else plainSteps (lineVals fm strip base l)

/-- The format of a matrix command. -/
def Cmd.mfmt (c : Cmd) : BitVec 4 := c.fmt.extractLsb' 0 4

/-- Captured bytes of a tile operation: A strip, B strip, lattice table (R239). -/
def Cmd.strips (c : Cmd) : List Byte × List Byte × List Byte :=
  let na := if c.mfmt = 7 then 256 else 32 * stripB c.mfmt
  let nb := 32 * stripB c.mfmt
  (c.cap.take na, (c.cap.drop na).take nb, c.cap.drop (na + nb))

/-- The 60 literal bits and the half of an X form: bit 63 of `b` marks it, bit 0 of `b` is the half. -/
def Cmd.isX (c : Cmd) : Bool := bitAt c.b 63

/-- The operands of MMA and MMA.X (R240, R243). -/
def State.tileOperands (s : State) (c : Cmd) : MatIn :=
  let t := tget s.strands c.strand
  let fm := c.mfmt
  let (sa, sb, table) := c.strips
  let ea := t.tile (c.ta.getD 0)
  let ea2 := t.tile (c.ta2.getD 0)
  let eb := t.tile (c.tb.getD 0)
  let aRow (i : Nat) : List FVal :=
    if fm = 7 then
      lineVals 6 (stripLine sa 4 i) 0 (t.tileBytes ea (512 * i) 512) ++
        lineVals 6 (stripLine (sa.drop 128) 4 i) 0 (t.tileBytes ea2 (512 * i) 512)
    else lineVals fm (stripLine sa (stripB fm) i) 0 (t.tileBytes ea (512 * i) 512)
  let half := if c.isX && bitAt c.b 0 then 256 else 0
  let bCol (j : Nat) : List Byte :=
    if bitAt c.fmt 4 then cread c.held (512 * j) 512
    else if c.isX then t.tileBytes eb (512 * j + half) 256 else t.tileBytes eb (512 * j) 512
  { i8 := fm = 10,
    a := (List.range 32).map (fun i => plainSteps (aRow i)),
    b := (List.range 32).map (fun j => bSteps fm c.isX c.lit table (stripLine sb (stripB fm) j) half (bCol j)) }

/-- R239: the strips and table that a scale word names, read at issue; without SP every scale is 0x7F and
the lattice table is free (log 26). -/
def State.scaleBytes (s : State) (fm : BitVec 4) (w : Word) : Res (List Byte) := do
  let na := if fm = 7 then 256 else 32 * stripB fm
  let nb := 32 * stripB fm
  let lim := 4096 * s.me.win.sb
  if !(scaledTag fm || fm = 7) then return []
  else if !bitAt w 63 then
    return unitStrip (na + nb) ++ (List.range 1024).map (fun i => Config.noLattice i)
  else do
    let aso := fld w 0 17
    let bso := fld w 17 17
    let lto := fld w 34 17
    need (aso % 64 = 0) cAlign (BitVec.ofNat 64 aso)
    need (bso % 64 = 0) cAlign (BitVec.ofNat 64 bso)
    need (fm ≠ 7 || lto % 64 = 0) cAlign (BitVec.ofNat 64 lto)
    need (aso + na ≤ lim) cWindow (BitVec.ofNat 64 aso)
    need (bso + nb ≤ lim) cWindow (BitVec.ofNat 64 bso)
    need (fm ≠ 7 || lto + 1024 ≤ lim) cWindow (BitVec.ofNat 64 lto)
    return cread s.me.smem aso na ++ cread s.me.smem bso nb ++ cread s.me.smem lto 1024

/-- R240: the format of the accumulator tile: FP32, or I32 for I8, or RAW. -/
def accTag (fm : BitVec 4) : BitVec 4 := if fm = 10 then 8 else 1

/-- Matrix operations of the issuing strand that are outstanding. -/
def State.matrixOut (s : State) (p : Cmd → Bool) : Bool :=
  s.cmds.any (fun e => e.2.strand = s.cur && e.2.op.isMatrix && p e.2)

/-- The checks and the command of MMA, MMA.X and the follow-on operation of CPYM (R238 to R240, R243,
R251). `fill` is the FT that a fill in the same syllable gives TA, whose state is then not waited for. -/
def State.mmaCmd (s : State) (td ta tb : BitVec 5) (ta2 : Option (BitVec 5)) (fmt : BitVec 5) (sw : Word)
    (imm : BitVec 12) (x : Bool) (half : Bool) (lit : BitVec 60) (fill : Option (BitVec 4)) : Res Cmd := do
  let t := s.me
  let fm : BitVec 4 := fmt.extractLsb' 0 4
  let aTag : BitVec 4 := if fm = 7 then 6 else fm
  needTile t td
  needTile t ta
  match ta2 with
  | some a => needTile t a
  | none => pure ()
  needTile t tb
  needKind t td (fun k => k = 2)
  needKind t ta (fun k => k = 1)
  match ta2 with
  | some a => needKind t a (fun k => k = 1)
  | none => pure ()
  needKind t tb (fun k => k = 0)
  match fill with
  | some ft =>
    need (ft = 0 || ft = aTag) cTag
      ((aTag.setWidth 64 <<< 12) ||| (ft.setWidth 64 <<< 8) ||| ta.setWidth 64)
  | none => needTileTag t ta aTag
  match ta2 with
  | some a => needTileTag t a aTag
  | none => pure ()
  needTileTag t tb fm
  needTileTag t td (accTag fm)
  if fill.isSome then pure () else needReady88 t ta
  match ta2 with
  | some a => needReady88 t a
  | none => pure ()
  needReady88 t tb
  let cap ← s.scaleBytes fm sw
  needReady (!(s.matrixOut (fun c => c.op = .mmas)))
  needTl t
  return { s.newCmd .mma with
    td := some td, ta := some ta, tb := some tb, ta2 := ta2, fmt := fmt, cap := cap, imm := imm, lit := lit,
    b := ofBool 1 x ++ (0 : BitVec 62) ++ ofBool 1 half }

/-- MMA (R238, R240). -/
def execMma (o : FmtET) (s : State) : Out := finish s (do
  let ta2 : Option (BitVec 5) := if etF o = 7 then some (o.imm.extractLsb' 3 5) else none
  let c ← s.mmaCmd o.td o.ta o.tb ta2 o.fmt (s.reg o.sa) (o.imm.setWidth 12) false false 0 none
  return s.place c)

/-- MMA_X (R243). -/
def execMmaX (o : FmtETL) (s : State) : Out := finish s (do
  let c ← s.mmaCmd o.o.td o.o.ta o.o.tb none o.o.fmt (s.reg o.o.sa) 0 true (bitAt o.o.imm 2) o.lit none
  return s.place c)

/-- MLATCH (R242). -/
def execMlatch (o : FmtET) (s : State) : Out := finish s (do
  needTile s.me o.tb
  needKind s.me o.tb (fun k => k = 0)
  needReady88 s.me o.tb
  needTl s.me
  return s.place { s.newCmd .mlatch with tb := some o.tb, imm := o.imm.setWidth 12 })

/-- R84: an own-window S operand of `n` bytes at a multiple of `align`. -/
def State.ownS (s : State) (x : Word) (n align : Nat) : Res Nat := do
  need (x.toNat < 2 ^ 24 && x.toNat / 2 ^ 17 = 127) cWindow x
  need (x.toNat % 2 ^ 17 + n ≤ 4096 * s.me.win.sb) cWindow x
  need (x.toNat % align = 0) cAlign x
  return x.toNat % 2 ^ 17

/-- NR and RP0 of a stream descriptor (R244). -/
def descNR (d : List Byte) : Nat := fld (dwAt d 0x28) 0 16
/-- RP0. -/
def descRP (d : List Byte) : Nat := fld (dwAt d 0x28) 16 16

/-- MMAS and MMAS.X (R244): the checks, and the command with its descriptor and lattice table. R244 names no trap for a
lattice table offset that is no multiple of 64, and the table is read where the offset says (log 26). -/
def mmasIssue (o : FmtET) (x : Bool) (lit : BitVec 60) (s : State) : Res State := do
  let t := s.me
  let fm := etF o
  needTile t o.td
  needKind t o.td (fun k => k = 2)
  needTileTag t o.td (accTag fm)
  let a ← s.ownS (s.reg o.sa) 64 64
  let d := cread t.smem a 64
  let w := dwAt d 0x28
  need (fld w 49 15 = 0 && dwAt d 0x30 = 0 && dwAt d 0x38 = 0 && descNR d ≠ 0 && descRP d < descNR d &&
    fld (dwAt d 0x10) 0 32 % 64 = 0 && fld (dwAt d 0x10) 32 32 % 64 = 0) cIllegal s.issue.word
  need (fm ≠ 7 || fld w 32 17 + 1024 ≤ 4096 * t.win.sb) cWindow (BitVec.ofNat 64 (fld w 32 17))
  needReady (!(s.matrixOut (fun _ => true)))
  needTl t
  let table := if fm = 7 then cread t.smem (fld w 32 17) 1024 else []
  return s.place { s.newCmd .mmas with
    td := some o.td, fmt := o.fmt, cap := d ++ table, lit := lit, prog := descRP d,
    b := ofBool 1 x ++ (0 : BitVec 63) }

/-- MMAS (R244). -/
def execMmas (o : FmtET) (s : State) : Out := finish s (mmasIssue o false 0 s)
/-- MMAS_X (R244). -/
def execMmasX (o : FmtETL) (s : State) : Out := finish s (mmasIssue o.o true o.lit s)

/-- Bytes at a virtual address that a streaming pipe reads, or the address that fails (R244, R400). -/
def State.streamBytes (s : State) (c : Cmd) (va n : Nat) : Except UnitErr (List Byte) :=
  foldE (fun acc p => do
    let l ← s.locate c p.1 p.2 1 [0, 1]
    return acc ++ s.readSide c p.1 l p.2) (Side.cut (.va va) n) []

/-- The operands of slab `r` of a streaming operation (R244). -/
def State.slabOperands (s : State) (c : Cmd) (r : Nat) : Except UnitErr MatIn := do
  let d := c.cap
  let fm := c.mfmt
  let la := if fm = 7 then 1024 else 512
  let lb := if c.isX then 256 else 512
  let aFmt : BitVec 4 := if fm = 7 then 6 else fm
  let items (tag : BitVec 4) (bytes : Nat) : Nat := bytes * 8 / tagWidth tag
  let na := items aFmt la / 256
  let nb := if fm = 7 then 8 else max 1 (items fm lb / 256)
  let scaled := scaledTag fm || fm = 7
  let word (i : Nat) : Nat := (dwAt d (8 * i)).toNat
  let strip (base n j : Nat) : Except UnitErr (List Byte) :=
    if base = 0 || !scaled then .ok (unitStrip n) else s.streamBytes c (base + 32 * n * r + n * j) n
  let a ← foldE (fun acc i => do
    let st ← strip (word 3) na i
    let l ← s.streamBytes c (word 0 + la * r + fld (dwAt d 0x10) 0 32 * i) la
    return acc ++ [plainSteps (lineVals aFmt st 0 l)]) (List.range 32) []
  let b ← foldE (fun acc j => do
    let st ← strip (word 4) nb j
    let l ← s.streamBytes c (word 1 + lb * r + fld (dwAt d 0x10) 32 32 * j) lb
    return acc ++ [bSteps fm c.isX c.lit (d.drop 64) st 0 l]) (List.range 32) []
  return { i8 := fm = 10, a := a, b := b }

/-- Add operands into the accumulator tile of a command. -/
def State.accumulate (s : State) (c : Cmd) (x : MatIn) : State := match c.td with
  | none => s
  | some th => s.onStrand c.strand (fun t =>
      let e := t.tile th
      t.writeTile e 0 ((x.run (t.cElems e)).flatMap (leBytes 4)))

/-- What a tile or matrix command reads on chip when it is performed (R406). -/
def State.tileRuns (s : State) (c : Cmd) : List ArrayRun :=
  let t := tget s.strands c.strand
  let run (th : Option (BitVec 5)) : List ArrayRun := match th with
    | some h => [t.tileRun (t.tile h)]
    | none => []
  match c.op with
  | .mlatch => run c.tb
  | .tcvt | .tmov | .txpose => run c.ta
  | .mma => run c.td ++ run c.ta ++ run c.ta2 ++ (if bitAt c.fmt 4 then [] else run c.tb)
  | .mmas => run c.td
  | _ => []

/-- The bytes that a run of virtual memory stands in for a streaming pipe (R406). -/
def State.streamRuns (s : State) (c : Cmd) (va n : Nat) : List ArrayRun :=
  (Side.cut (.va va) n).flatMap (fun p => match s.locate c p.1 p.2 1 [0, 1] with
    | .ok l => s.sideRuns c p.1 l p.2
    | .error _ => [])

/-- The virtual addresses and lengths of what slab `r` of a streaming operation reads: its lines and the scale strips that it
names (R244). -/
def slabSpans (c : Cmd) (r : Nat) : List (Nat × Nat) :=
  let d := c.cap
  let fm := c.mfmt
  let la := if fm = 7 then 1024 else 512
  let lb := if c.isX then 256 else 512
  let na := la * 8 / tagWidth (if fm = 7 then 6 else fm) / 256
  let nb := if fm = 7 then 8 else max 1 (lb * 8 / tagWidth fm / 256)
  let word (i : Nat) : Nat := (dwAt d (8 * i)).toNat
  let strip (base n i : Nat) : List (Nat × Nat) :=
    if base = 0 || !(scaledTag fm || fm = 7) then [] else [(base + 32 * n * r + n * i, n)]
  (List.range 32).flatMap (fun i =>
    (word 0 + la * r + fld (dwAt d 0x10) 0 32 * i, la) :: (word 1 + lb * r + fld (dwAt d 0x10) 32 32 * i, lb) ::
      (strip (word 3) na i ++ strip (word 4) nb i))

/-- Where slab `r` of a streaming operation stands (R244, R406). -/
def State.slabRuns (s : State) (c : Cmd) (r : Nat) : List ArrayRun := (slabSpans c r).flatMap (fun x => s.streamRuns c x.1 x.2)

/-- What the walks of a slab's pages read (R406). -/
def State.slabWalks (s : State) (c : Cmd) (r : Nat) : List ArrayRun :=
  (slabSpans c r).flatMap (fun x => (pagesOf 0 x.1 x.2).flatMap (fun p => s.cmdWalkRuns c (max x.1 p.2)))

/-- R326: has the tenant of a streaming operation reached its cap at a resource that its next slab reads? -/
def State.slabHeld (s : State) (c : Cmd) : Bool :=
  (s.slabRuns c c.prog).any (fun r => (resourceOf r.spc r.lo).any (fun x => s.capped c.part c.tenant x))

/-- Are the operands of a matrix operation ready (R241): TD has moved for it and no earlier command but a matrix operation is to be
performed on it, or to read it; and a CPYM's fill is over (R251)? An earlier operation of its own context into TD does not count: it
starts first by the order of the context, and the array keeps them apart (R240). -/
def State.operandsReady (s : State) (n : Nat) : Bool :=
  let c := tget s.cmds n
  let before (e : Nat × Cmd) : Bool := e.1 < n && e.2.strand = c.strand && !e.2.op.isMatrix &&
    (e.2.td = c.td || e.2.ta = c.td || e.2.ta2 = c.td || e.2.tb = c.td)
  c.op.isMatrix && c.state = .queued && (c.td.isNone || (c.active && !s.cmds.any before)) && c.after.all (fun f => (tfind s.cmds f).isNone)

/-- May a matrix operation be next: its operands are ready, its tile is its own, and no older one of its context is still to start
(R241)? -/
def State.matrixReady (s : State) (n : Nat) : Bool :=
  let c := tget s.cmds n
  s.operandsReady n && s.tileFree n && !s.cmds.any (fun e => e.1 < n && e.2.strand = c.strand && e.2.op.isMatrix && e.2.state = .queued)

/-- R241: note when the operands of matrix operations become ready, whatever stands before them in their contexts. -/
def State.noteReady (s : State) : State :=
  { s with cmds := tmap s.cmds (fun n c => if c.readyAt.isNone && s.operandsReady n then { c with readyAt := some s.now } else c) }

/-- R241: did the operands of another context's next operation on the core become ready before those of `n`? R241 gives no order for
operands that become ready at the same moment: the lower command number starts first (DESIGN CHOICE, log 93). -/
def State.readyBefore (s : State) (n : Nat) : Bool :=
  let c := tget s.cmds n
  let at_ (c : Cmd) : Nat := c.readyAt.getD s.now
  s.cmds.any (fun e => e.1 ≠ n && e.2.core = c.core && s.matrixReady e.1 && (at_ e.2 < at_ c || (at_ e.2 = at_ c && e.1 < n)))

/-- MATRIX_OPERATION_START (R241, R242): an operation whose operands are ready starts when the array is free, those of
different contexts in the order in which they became ready; a stationary form takes B from its latch, reloaded
where it does not hold TB as it stands. -/
def execMatrixOperationStart (cmd : Nat) (s : State) : Out :=
  let c := tget s.cmds cmd
  let busy := s.cmds.any (fun e => e.2.core = c.core && e.2.op.isMatrix && e.2.state = .started)
  if !s.matrixReady cmd || s.readyBefore cmd || busy then .next s
  else
    let s := s.onCmd cmd (fun c => { c with state := .started })
    if c.op = .mma && bitAt c.fmt 4 then
      let t := tget s.strands c.strand
      let e := t.tile (c.tb.getD 0)
      let n := c.imm.toNat % 4
      let k := tget s.cores c.core
      let l := tget k.latches n
      let wc := tget k.wcount (32 * t.ctx + e.bi.toNat)
      let fresh : StatLatch := { bytes := cwrite [] 0 (t.tileBytes e 0 wTileBytes), ctx := some c.strand,
                                 th := c.tb.getD 0, bi := e.bi, wc := wc }
      let l' := if l.ctx = some c.strand && l.th = c.tb.getD 0 && l.bi = e.bi && l.wc = wc then l else fresh
      let s := if l' = l then s else s.noteErrors c.strand [t.tileRun e]
      .next ((s.onCore c.core (fun k => { k with latches := tset k.latches n l' })).onCmd cmd
        (fun c => { c with held := l'.bytes }))
    else .next s

/-- The slab at a streaming operation's progress is added (R244) and counted (R325); its tile command ends with the last. -/
def State.nextSlab (s : State) (n : Nat) (c : Cmd) : State :=
  match s.slabOperands c c.prog with
  | .error _ => s
  | .ok x =>
    let runs := s.slabRuns c c.prog
    let s := s.noteErrors c.strand (s.tileRuns c ++ runs ++ s.slabWalks c c.prog)
    let s := runs.foldl (fun s r => s.charge c.part c.tenant r.spc r.lo r.n) s
    let s := (s.accumulate c x).onCmd n (fun c => { c with prog := c.prog + 1 })
    if descNR c.cap ≤ c.prog + 1 then (s.setFt c (accTag c.mfmt)).endCmd n else s

/-- TILE_COMMAND_COMPLETION (R232, R237, R241, R242, R246): a tile or matrix command is performed and
lowers tl; a streaming operation adds its next slab. Drains complete as copy-engine commands do. -/
def execTileCommandCompletion (cmd : Nat) (s : State) : Out :=
  match tfind s.cmds cmd with
  | none => .next s
  | some c =>
    let t := tget s.strands c.strand
    match c.op with
    | .talloc => .next (s.endCmd cmd)
    | .tfree => .next (if s.tileFree cmd then s.endCmd cmd else s)
    | .mlatch =>
      let e := t.tile (c.tb.getD 0)
      let l : StatLatch := { bytes := cwrite [] 0 (t.tileBytes e 0 wTileBytes), ctx := some c.strand,
                             th := c.tb.getD 0, bi := e.bi,
                             wc := tget (tget s.cores c.core).wcount (32 * t.ctx + e.bi.toNat) }
      let s := s.noteErrors c.strand (s.tileRuns c)
      .next ((s.onCore c.core (fun k => { k with latches := tset k.latches (c.imm.toNat % 4) l })).endCmd cmd)
    | .tzero | .tcvt | .tmov | .txpose =>
      .next (if s.tileFree cmd then ((s.noteErrors c.strand (s.tileRuns c)).doTileOp c).endCmd cmd else s)
    | .mma =>
      .next (if c.state = .started then
        (((s.noteErrors c.strand (s.tileRuns c)).accumulate c (s.tileOperands c)).setFt c (accTag c.mfmt)).endCmd cmd else s)
    | .mmas => match s.slabOperands c c.prog with
      | .error (.hole f) => .fault f
      | _ => .next (if c.state = .started && !s.slabHeld c then s.nextSlab cmd c else s)
    | _ => .next s

/-- The place where the slab at a streaming operation's progress fails. -/
def State.slabFault (s : State) (c : Cmd) : Option Nat :=
  match s.slabOperands c c.prog with
  | .error (.walk va _) => some va
  | .error (.refuse _ _ va) => some va
  | _ => none

/-- STREAM_FAULT (R400, R401): the slabs before the failing one are in the sum; the operation counts as
complete, its restart record is written, and the gang is suspended. Of a gang that has been killed or stopped, which is never placed
again (R384, R411), the operation ends there too, and its record is posted, but there is nothing to suspend or restart (log 93). -/
def execStreamFault (cmd : Nat) (s : State) : Out :=
  match tfind s.cmds cmd with
  | none => .next s
  | some c =>
    match if c.op = .mmas && c.state = .started then s.slabFault c else none with
    | none => .next s
    | some va =>
      let w5 := dwAt c.cap 0x28
      let desc := (List.range 5).map (fun i => dwAt c.cap (8 * i)) ++
        [(w5 &&& ~~~ (0xFFFF0000 : Word)) ||| BitVec.ofNat 64 (c.prog * 2 ^ 16)]
      let r : Restart := { fv := true, td := c.td.getD 0, x := c.isX, fm := c.mfmt, ord := c.ord, desc := desc,
                           lit := c.lit }
      let post := s.recordOf c.strand { cause := 0x0041, val := BitVec.ofNat 64 va, slot := 7,
                                        aux := BitVec.ofNat 64 (5 * 2 ^ 52 + 2 ^ 49 + c.prog) }
      let s := s.noteCmdWalk c va
      let s := s.postReplay post
      let x := tget s.gangs (tget s.strands c.strand).gang
      let s := if x.killed || x.stopped then s else s.onStrand c.strand (fun t => { t with restart := r })
      .next ((s.haltGang (tget s.strands c.strand).gang 3).setFt c (accTag c.mfmt) |>.endCmd cmd)

/-- R396 step 3, R401: re-issue a streaming operation from the restart record of strand `k`; a VQ2 lattice table is read from the window
as restored. -/
def State.restartStream (s : State) (k : Nat) : State :=
  let t := tget s.strands k
  if !t.restart.fv then s
  else
    let r := t.restart
    let d := wordsBytes (r.desc ++ [0, 0])
    let table := if r.fm = 7 then cread t.smem (fld (dwAt d 0x28) 32 17) 1024 else []
    let s := if r.fm = 7 then s.noteErrors k [s.padRun k (fld (dwAt d 0x28) 32 17) 1024] else s
    let at_ : State := { s with cur := k }
    let c : Cmd := { at_.newCmd .mmas with
      td := some r.td, fmt := r.fm.setWidth 5, cap := d ++ table, lit := r.lit, prog := descRP d, ord := r.ord,
      b := ofBool 1 r.x ++ (0 : BitVec 63) }
    { (at_.place c).onStrand k (fun t => { t with restart := {} }) with cur := s.cur }

end Sys2Proof.Machine
end

