-- ==== Sys2Proof/Machine/Copy.lean ====
section
/-! DEFINITION. Drains (R247, R248, R123), copy commands (R249 to R255), queries (R256), the sequencer
(R257), and the events of copy-engine queues: start (R235), completion (R72, R236), translation fault
(R398). -/

namespace Sys2Proof.Machine

/-- A copy-engine command of format EC with its fields (R235, R236). -/
def State.ecCmd (s : State) (op : CmdOp) (o : FmtECL) : Cmd :=
  Cmd.at { s.newCmd op with ord := o.o.ord, a := s.reg o.o.sa, b := s.reg o.o.sb, c := s.reg o.o.sc,
                            imm := o.o.imm, lit := o.lit } o.o.imm.toNat

/-- The last checks of a copy command, its engine (R235) and its counter (R72), and its placing. -/
def State.placeCopy (s : State) (c : Cmd) : Res State := do
  s.needEngine c.engine
  needCp s.me
  return s.place c

/-- R250: a size of 2^40 or more is out of bounds. -/
def needSize (n : Word) : Res Unit := need (n.toNat < 2 ^ 40) cBounds n

/-- CPY (R249). -/
def execCpy (o : FmtECL) (s : State) : Out := finish s (do
  needSize (s.reg o.o.sc)
  s.placeCopy (s.ecCmd .cpy o))

/-- R251: the checks of a fill's tile and stride. -/
def State.needFill (s : State) (o : FmtECL) : Res Unit := do
  needTile s.me o.o.th
  needKind s.me o.o.th (fun k => k ≠ 2)
  need (fld (s.reg o.o.sb) 0 6 = 0) cAlign (s.reg o.o.sb)

/-- CPYF (R251). -/
def execCpyf (o : FmtECL) (s : State) : Out := finish s (do
  s.needFill o
  s.placeCopy { s.ecCmd .cpyf o with td := some o.o.th, fmt := (litLF o.lit).setWidth 5 })

/-- CPYM (R251): the fill, and the matrix operation that follows it, checked and placed in the same step: windows, kinds,
tags and states of all its tiles in the order of R170, then the checks of the fill. A
VQ2 operation takes its second A-tile from handle 0, the literal having no field for it (log 27). -/
def execCpym (o : FmtECL) (s : State) : Out := finish s (do
  needTile s.me o.o.th
  let fmt : BitVec 5 := o.lit.extractLsb' 10 5
  let ta2 : Option (BitVec 5) := if fmt.extractLsb' 0 4 = 7 then some 0 else none
  let m ← s.mmaCmd (o.lit.extractLsb' 0 5) o.o.th (o.lit.extractLsb' 5 5) ta2 fmt (s.reg o.o.sc)
    ((o.lit.extractLsb' 15 2).setWidth 12) false false 0 (some (litLF o.lit))
  s.needFill o
  let n := s.nextId
  let s' ← s.placeCopy { s.ecCmd .cpym o with td := some o.o.th, fmt := (litLF o.lit).setWidth 5 }
  return s'.place { m with after := some n })

/-- CPYI (R252). -/
def execCpyi (o : FmtECL) (s : State) : Out := finish s (do
  let dst := s.reg o.o.sb
  let n := s.reg o.o.sc
  needSize n
  need (fld dst 0 6 = 0) cBounds dst
  need (fld n 0 6 = 0 && fld dst 0 16 + n.toNat ≤ 65536) cBounds n
  let k := tget s.cores s.me.core
  let h := if bitAt o.o.imm 9 then k.half1 else k.half0
  need (!(h.holds s.me.ig s.me.pc.toNat)) cHalf dst
  s.placeCopy (s.ecCmd .cpyi o))

/-- CPYS (R253): the S side is checked for its whole range (R84, R250); its address must be a multiple of 4, the size of R253's words,
where any are moved (DEDUCED, log 101). -/
def cpysIssue (op : CmdOp) (o : FmtECL) (s : State) : Res State := do
  let n := s.reg o.o.sc
  let x := (s.reg o.o.sb).toNat
  needSize n
  need (fld n 0 2 = 0) cAlign n
  need (x < 2 ^ 24) cWindow (s.reg o.o.sb)
  let k := if x / 2 ^ 17 = 127 then some s.cur
    else (s.gang.strands[x / 2 ^ 17]?).filter (fun k => (tget s.strands k).st ≠ 5)
  match k with
  | none => trapE cWindow (s.reg o.o.sb)
  | some k => do
    need (x % 2 ^ 17 + n.toNat ≤ 4096 * (tget s.strands k).win.sb) cWindow (s.reg o.o.sb)
    need (n = 0 || x % 4 = 0) cAlign (s.reg o.o.sb)
    s.placeCopy { s.ecCmd op o with after := some k }

/-- CPYS.TO (R253). -/
def execCpysTo (o : FmtECL) (s : State) : Out := finish s (cpysIssue .cpysTo o s)
/-- CPYS.FROM (R253). -/
def execCpysFrom (o : FmtECL) (s : State) : Out := finish s (cpysIssue .cpysFrom o s)

/-- Row length and count of CPYG and CPYSC. -/
def rowLen (c : Word) : Nat := fld c 0 16
/-- Count. -/
def rowCount (c : Word) : Nat := fld c 16 13

/-- CPYG (R254). -/
def execCpyg (o : FmtECL) (s : State) : Out := finish s (do
  let c := s.reg o.o.sc
  let rb := rowLen c
  let n := rowCount c
  let w := tagWidth (litLF o.lit)
  needTile s.me o.o.th
  needKind s.me o.o.th (fun k => k ≠ 2)
  need (if bitAt o.o.imm 9 then rb = 4 * w && n ≤ 4096 / w else 1 ≤ rb && rb ≤ 512 && n * rb ≤ 16384) cBounds c
  let a ← s.ownS (s.reg o.o.sb) (4 * n) 4
  s.placeCopy { s.ecCmd .cpyg o with td := some o.o.th, fmt := (litLF o.lit).setWidth 5,
                                     cap := cread s.me.smem a (4 * n) })

/-- Bytes of CPYSC's index list up to its rows. -/
def listBytes (n : Nat) : Nat := (4 * n + 63) / 64 * 64

/-- CPYSC (R255). Of a row length that is out of its range and no multiple of 4 the bounds trap is raised: R250 gives no order
(DESIGN CHOICE, log 102). -/
def execCpysc (o : FmtECL) (s : State) : Out := finish s (do
  let c := s.reg o.o.sc
  let rb := rowLen c
  let n := rowCount c
  need (4 ≤ rb && rb ≤ 4096) cBounds c
  need (rb % 4 = 0) cAlign c
  let mode := (o.o.imm.extractLsb' 9 2).toNat
  need (mode = 0 || fld (s.reg o.o.sa) 0 (3 - mode) = 0) cAlign (s.reg o.o.sa)
  let size := listBytes n + n * rb
  let a ← s.ownS (s.reg o.o.sb) size 64
  s.placeCopy { s.ecCmd .cpysc o with cap := cread s.me.smem a size })

/-- Is a tile empty once every writer and drain issued on it has had its turn, the last of them a releasing drain (R87)? -/
def State.willEmpty (s : State) (th : BitVec 5) : Bool :=
  let e := s.me.tile th
  let frees (o : CmdOp) : Bool := o = .tdrain || o = .tfree
  match e.pend.getLast? with
  | some n => frees (tget s.cmds n).op
  | none => e.ts = 3 && s.cmds.any (fun x => x.2.strand = s.cur && x.2.td = some th && x.2.active && frees x.2.op)

/-- The tile state that a drain asks for: R87 has no row for one of an empty tile, which is a tile-state trap (R88, R379); one behind
a releasing drain waits until that is known (log 13). -/
def State.needDrainable (s : State) (th : BitVec 5) : Res Unit :=
  let e := s.me.tile th
  if e.ts = 0 && e.qc = 0 then tileTrap th else if s.willEmpty th then waitE else .ok ()

/-- A drain's checks (R170, R247, R248). -/
def drainIssue (op : CmdOp) (o : FmtECL) (s : State) : Res State := do
  let t := s.me
  let e := t.tile o.o.th
  let df : BitVec 4 := o.lit.extractLsb' 0 4
  needTile t o.o.th
  needKind t o.o.th (fun k => df = 0 || k = 2)
  need (df = 0 || (e.ft = 1 && df.toNat < 7) || (e.ft = 8 && 8 ≤ df.toNat && df ≠ 11)) cTag
    ((df.setWidth 64 <<< 12) ||| (e.ft.setWidth 64 <<< 8) ||| o.o.th.setWidth 64)
  s.needDrainable o.o.th
  need (df ≠ 0 || s.reg o.o.sc = 0) cIllegal s.issue.word
  need (fld (s.reg o.o.sb) 0 4 = 0) cAlign (s.reg o.o.sb)
  let c := s.ecCmd op o
  s.needEngine c.engine
  needTl t
  return s.place { c with td := some o.o.th, fmt := e.ft.setWidth 5, rm := rmField s (o.lit.extractLsb' 4 3) }

/-- TDRAIN (R248). -/
def execTdrain (o : FmtECL) (s : State) : Out := finish s (drainIssue .tdrain o s)
/-- TDRAINK (R248). -/
def execTdraink (o : FmtECL) (s : State) : Out := finish s (drainIssue .tdraink o s)

/-- Commands of a copy-engine queue in order (R235). -/
def State.queueOf (s : State) (eng q : Nat) : List (Nat × Cmd) :=
  s.cmds.filter (fun e => e.2.op.isQueued && e.2.engine = eng && e.2.queue = q)

/-- CPYQ (R256). -/
def execCpyq (o : FmtEA) (s : State) : Out :=
  let e := o.imm.toNat % 32
  let busy := (List.range 16).foldl (fun m q => if (s.queueOf e q).isEmpty then m else m + 2 ^ q) 0
  .next (s.landS latEB o.sd (if (tget s.parts s.me.part).res.engines.contains e
    then BitVec.ofNat 64 (2 ^ 63 + busy) else 0))

/-- SQSTAT (R256). -/
def execSqstat (o : FmtEA) (s : State) : Out := finish s (do
  let e := o.imm.toNat % 32
  s.needEngine e
  let l := s.queueOf e (o.imm.toNat / 32 % 16)
  let waits : Bool := match l with
    | (_, c) :: _ => c.op = .sqwait
    | [] => false
  return s.landS latEB o.sd (BitVec.ofNat 64 (l.length % 65536 + (if waits then 2 ^ 62 else 0) +
    (if l.any (fun c => c.2.op = .sqkill) then 2 ^ 61 else 0))))

/-- A sequencer command of format EA. -/
def State.sqCmd (s : State) (op : CmdOp) (o : FmtEA) : Cmd :=
  Cmd.at { s.newCmd op with ord := o.ord, a := s.reg o.sa, b := s.reg o.sb } o.imm.toNat

/-- SQGO (R257): the descriptor is read and checked at issue. -/
def execSqgo (o : FmtEA) (s : State) : Out := finish s (do
  let a ← s.ownS (s.reg o.sa) 64 64
  let d := cread s.me.smem a 64
  need (fld (dwAt d 0x10) 48 16 ≠ 0 && fld (dwAt d 0x10) 32 16 ≠ 0 && fld (dwAt d 0x28) 56 8 = 0 &&
    fld (dwAt d 0x28) 0 3 = 0 && (dwAt d 0x30).toNat < 3 && dwAt d 0x38 = 0) cIllegal s.issue.word
  s.placeCopy { s.sqCmd .sqgo o with cap := d })

/-- SQWAIT (R257). -/
def execSqwait (o : FmtEA) (s : State) : Out := finish s (do
  need (fld (s.reg o.sa) 0 3 = 0) cAlign (s.reg o.sa)
  s.placeCopy (s.sqCmd .sqwait o))

/-- SQKILL (R257): every command of the queue not started is withdrawn with error code 1; its completion
word and its counter follow as its completion. -/
def execSqkill (o : FmtEA) (s : State) : Out := finish s (do
  let c := s.sqCmd .sqkill o
  let l := (s.queueOf c.engine c.queue).filter (fun e => e.2.state = .queued && e.2.op ≠ .sqkill)
  let s' ← s.placeCopy c
  return l.foldl (fun s e => s.toWord e.1 1) s')

/-- The units of a byte run between two sides (R249). -/
def byteUnits (x y : Side) (n : Nat) : List CopyUnit :=
  (pieces x y n).map (fun p => { ext := p.1, src := [(x.plus p.1, p.2)], dst := [(y.plus p.1, p.2)] })

/-- A side that is a slice form or a virtual address (R91). -/
def sideOf (slice : Bool) (a : Nat) : Side := if slice then .slice a else .va a

/-- Signed 32-bit stride times a count, added to an address on 64 bits (R257). -/
def strided (a s : Nat) (i : Nat) : Nat :=
  (BitVec.ofNat 64 a + BitVec.ofInt 64 (intVal true 32 s * i)).toNat

/-- The runs of SQGO (R257). -/
def sqgoUnits (d : List Byte) : List CopyUnit :=
  let w := dwAt d 0x10
  let n1 := fld w 32 16
  let run := fld w 0 32
  (List.range (fld w 48 16 * n1)).map (fun r =>
    let at_ (base strides : Nat) : Nat :=
      strided (strided (dwAt d base).toNat (fld (dwAt d strides) 32 32) (r / n1)) (fld (dwAt d strides) 0 32) (r % n1)
    { ext := r, src := Side.cut (.va (at_ 8 0x20)) run, dst := Side.cut (.va (at_ 0 0x18)) run })

/-- The items of a drained C-tile line with their flags (R248). -/
def drainItems (c : Cmd) (l : List Nat) (i : Nat) : List FRes :=
  let df : BitVec 4 := c.lit.extractLsb' 0 4
  (List.range 32).map (fun j => convertTo df c.rm (hash32 (c.lit.extractLsb' 7 32) (32 * i + j))
    (valueOf (c.fmt.setWidth 4) (l.getD (32 * i + j) 0)))

/-- The bytes of 32 items of a width. -/
def itemsBytes (w : Nat) (l : List FRes) : List Byte :=
  leBytes (4 * w) (l.foldr (fun r acc => r.bits % 2 ^ w + 2 ^ w * acc) 0)

/-- The status word of a drain (R123). -/
def State.drainStatus (s : State) (c : Cmd) (e : Tile) (l : List Nat) : Word :=
  let fs := (List.range 32).flatMap (drainItems c l)
  let vs := l.map (valueOf (c.fmt.setWidth 4))
  let int := c.fmt = 8
  let count (b : Bool) (n : Nat) : Nat := if b then n else 0
  let t := tget s.strands c.strand
  let ue := s.hasError (t.tileRun e)
  BitVec.ofNat 64 (2 ^ 63 + (if ue then 2 ^ 62 else 0) + vs.countP FVal.isNan * 2 ^ 49 +
    vs.countP (fun v => v = .inf true || v = .inf false) * 2 ^ 38 +
    count int (l.countP (fun x => x = 2 ^ 31 || x = 2 ^ 31 - 1)) * 2 ^ 27 +
    fs.countP (fun r => r.ff &&& (if int then ffV else ffO) ≠ 0) * 2 ^ 16 +
    fs.countP (fun r => r.ff &&& ffU ≠ 0) * 2 ^ 5 + (if fs.any (fun r => r.ff &&& ffX ≠ 0) then 16 else 0))

/-- The lines of a drain and its status word (R248, R429). -/
def State.drainUnits (s : State) (c : Cmd) : List CopyUnit :=
  let t := tget s.strands c.strand
  let e := t.tile (c.td.getD 0)
  let df : BitVec 4 := c.lit.extractLsb' 0 4
  let l := t.cElems e
  let line (i : Nat) : List Byte :=
    if df = 0 then (if e.tk = 2 then t.tileBytes e (128 * i) 128 else t.tileBytes e (512 * i) 512)
    else itemsBytes (tagWidth df) (drainItems c l i)
  (List.range 32).map (fun i =>
    let b := line i
    let row := bufBytes e.tk / 32
    { ext := i, src := [(.bytes b, b.length)], from_ := [bufRun t e.tk (e.base + row * i) row],
      dst := Side.cut (sideOf (bitAt c.imm 9) (c.a + BitVec.ofNat 64 i * c.b).toNat) b.length }) ++
  if df ≠ 0 && c.c ≠ 0 then
    [{ ext := 32, src := [(.bytes (dwBytes (s.drainStatus c e l)), 8)], dst := Side.cut (.va c.c.toNat) 8 }]
  else []

/-- The units of a command in order of progress, and its full extent (R398). -/
def State.unitsOf (s : State) (c : Cmd) : List CopyUnit × Nat :=
  let a := c.a.toNat
  let n := c.c.toNat
  let t := tget s.strands c.strand
  let e := t.tile (c.td.getD 0)
  let idx (m : Nat) : Nat := (wAt c.cap (4 * m)).toNat
  let rb := rowLen c.c
  let row (m : Nat) : Nat := (c.a + BitVec.ofNat 64 (rb * idx m)).toNat
  match c.op with
  | .cpy => (byteUnits (sideOf (bitAt c.imm 10) c.b.toNat) (sideOf (bitAt c.imm 9) a) n, n)
  | .cpysTo => (byteUnits (sideOf (bitAt c.imm 10) a) (.spad (c.after.getD 0) (c.b.toNat % 2 ^ 17)) n, n)
  | .cpysFrom => (byteUnits (.spad (c.after.getD 0) (c.b.toNat % 2 ^ 17)) (sideOf (bitAt c.imm 10) a) n, n)
  | .cpyi => (byteUnits (.va a) (.imem (if bitAt c.imm 9 then 1 else 0) (fld c.b 0 16)) n, n)
  | .cpyf | .cpym =>
    ((List.range 32).flatMap (fun i =>
      (byteUnits (sideOf (bitAt c.imm 10) (c.a + BitVec.ofNat 64 i * c.b).toNat) (.buf e.tk (e.base + 512 * i)) 512).map
        (fun u => { u with ext := 512 * i + u.ext })), 16384)
  | .cpyg =>
    ((List.range (rowCount c.c)).map (fun m =>
      { ext := m,
        src := if idx m = 0xFFFFFFFF then [(.bytes [], rb)] else Side.cut (.va (row m)) rb,
        dst := [(if bitAt c.imm 9 then .spread e.base m (tagWidth (c.fmt.setWidth 4)) else .buf e.tk (e.base + rb * m), rb)] }),
      rowCount c.c)
  | .cpysc =>
    ((List.range (rowCount c.c)).map (fun m =>
      if idx m = 0xFFFFFFFF then { ext := m }
      else { ext := m, src := [(.bytes (c.cap.drop (listBytes (rowCount c.c) + rb * m)), rb)],
             dst := Side.cut (.va (row m)) rb,
             add := match (c.imm.extractLsb' 9 2).toNat with
               | 1 => 4
               | 2 => 2
               | _ => 0 }), rowCount c.c)
  | .sqgo => (sqgoUnits c.cap, fld (dwAt c.cap 0x10) 48 16 * fld (dwAt c.cap 0x10) 32 16)
  | .tdrain | .tdraink => (s.drainUnits c, 32)
  | _ => ([], 0)

/-- Does another context fetch from the half that a CPYI writes (R252)? -/
def State.halfBusy (s : State) (c : Cmd) : Bool :=
  let k := tget s.cores c.core
  let h := if bitAt c.imm 9 then k.half1 else k.half0
  c.op = .cpyi && c.c ≠ 0 &&
    s.strands.any (fun e => e.1 ≠ c.strand && e.2.resident && e.2.core = c.core && h.holds e.2.ig e.2.pc.toNat)

/-- The tags and presence of a half after a CPYI (R89, R90): the half takes the strand's IG and the code base
of the command; until each strand's IFENCE a fetch of the bytes written may still see the old syllable. -/
def State.tagHalf (s : State) (old : Half) (c : Cmd) : State :=
  let ig := (tget s.strands c.strand).ig
  let off := fld c.b 0 16
  let base : BitVec 40 := c.b.extractLsb' 16 40
  let fix (h : Half) : Half := { h with
    filled := true, ig := ig, base := base,
    absent := if h.ig = ig && h.base = base then
      h.absent.filter (fun p => !(off / 4096 ≤ p && p * 4096 < off + c.c.toNat)) else [] }
  let s := s.onCore c.core (fun k => if bitAt c.imm 9 then { k with half1 := fix k.half1 } else { k with half0 := fix k.half0 })
  { s with strands := tmap s.strands (fun _ t =>
      if t.resident && t.core = c.core && t.ig = ig then
        { t with stale := (List.range (c.c.toNat / 8)).foldl (fun l i =>
            let a := base.toNat * 8192 + off / 8 + i
            if (tfind l a).isSome then l else tset l a (BitVec.ofNat 64 (cnum old.mem (off + 8 * i) 8))) t.stale }
      else t) }

/-- Is every command ahead of `n` in its queue started and running (R235, R398)? -/
def State.atTurn (s : State) (n : Nat) : Bool :=
  let c := tget s.cmds n
  (s.queueOf c.engine c.queue).all (fun e => n ≤ e.1 || e.2.state = .started)

/-- R143: may the first read of an acquiring command `n` take place: is no atomic held that its strand issued before it? -/
def State.acquired (s : State) (n : Nat) (c : Cmd) : Bool :=
  !(bitAt c.ord 4 && (tget s.strands c.strand).held.any (fun h => h.num < n))

/-- A command whose units are over: its format, its word once its writes are released, its end when the word has been
performed too (R143, R236, R419). R86, R125 and R251 give no moment at which a copy sets its tile's FT: it is set here, at the copy's end
(DESIGN CHOICE, log 98). -/
def State.closeCmd (s : State) (n : Nat) : State :=
  let c := tget s.cmds n
  if !s.released c then s
  else match if c.wordSent then .ok s else s.writeWord n with
    | .ok s' =>
      let s' := if c.error ≠ 1 && (c.op = .cpyf || c.op = .cpym || c.op = .cpyg) then s'.setFt c (c.fmt.setWidth 4) else s'
      if s'.unitsBack (tget s'.cmds n) then s'.endCmd n else s'.onCmd n (fun c => { c with wordSent := true })
    | .error (.wait s') => s'
    | .error _ => s

/-- The remaining units of a started command, performed as far as they go. A half written by CPYI is tagged
with its first bytes. -/
def State.runCmd (s : State) (n : Nat) : State × Option (Nat × UnitErr) :=
  let c := tget s.cmds n
  if c.wordLeft then (s, none)
  else
    let k := tget s.cores c.core
    let r := State.doUnits n s ((s.unitsOf c).1.filter (fun u => c.prog ≤ u.ext))
    if c.op = .cpyi && c.c ≠ 0 && c.bytes < (tget r.1.cmds n).bytes
    then (r.1.tagHalf (if bitAt c.imm 9 then k.half1 else k.half0) c, r.2) else r

/-- The record of a command ended by R399. -/
def State.refuseRecord (s : State) (c : Cmd) (cause : BitVec 16) (val : Nat) : State :=
  s.postFatal (s.recordOf c.strand { cause := cause, val := BitVec.ofNat 64 val, slot := 7 })

/-- COPY_COMMAND_COMPLETION (R72, R236, R399): a started command performs what is left and ends, or as far as its caps and
its tenant's dirty-page ring allow (R326, R414); one whose walk fails does not end here (ENGINE_TRANSLATION_FAULT). SQKILL
ends when its queue is empty before it. -/
def execCopyCommandCompletion (cmd : Nat) (s : State) : Out :=
  match tfind s.cmds cmd with
  | none => .next s
  | some c =>
    if c.op = .sqkill then
      .next (if (s.queueOf c.engine c.queue).all (fun e => cmd ≤ e.1) then s.endCmd cmd else s)
    else if !c.op.isQueued || c.state ≠ .started || s.halfBusy c then .next s
    else match s.runCmd cmd with
      | (s', none) => .next ((s'.toWord cmd 0).closeCmd cmd)
      | (s', some (_, .refuse ec cause val)) => .next (((s'.refuseRecord c cause val).toWord cmd ec).closeCmd cmd)
      | (_, some (_, .hole f)) => .fault f
      | (s', some (_, .wait _)) => .next s'
      | _ => .next s

/-- The poll of an SQWAIT (R257): the word's place and value. -/
def State.pollWord (s : State) (c : Cmd) : Except UnitErr (Loc × Nat) := do
  let l ← s.locate c (.va c.a.toNat) 8 4 [0, 1]
  return (l, leNat (s.readSide c (.va c.a.toNat) l 8))

/-- The resource at which an SQWAIT polls. -/
def pollRes : Loc → Nat
  | .mem kind pa => (resourceOf kind pa).getD 0
  | .remote _ _ port => 128 + port
  | .here => 0

/-- SQWAIT_POLL (R257): one atomic read of the word by an SQWAIT at its turn, for which an acquire makes the cluster cache
write back first (R93) and the tenant's budget is asked (R326); it completes when the value is at least b, and an acquire
then acts as a FENCE of its scope (R143). -/
def execSqwaitPoll (cmd : Nat) (s : State) : Out :=
  match tfind s.cmds cmd with
  | none => .next s
  | some c =>
    if c.op ≠ .sqwait || c.state ≠ .queued || !s.atTurn cmd || !s.acquired cmd c then .next s
    else
      let s := { s with free := s.free + 1 }
      let s := if bitAt c.ord 4 && 2 ≤ (c.ord.extractLsb' 0 3).toNat
        then s.flush (clusterOf c.core) (fun _ => true) false else s
      match s.pollWord c with
      | .ok (l, v) =>
        if !s.atomicFree c.part c.tenant (pollRes l) then .next (s.noBudgetRecord c.strand c.part c.tenant (pollRes l))
        else
        let s := (s.noteErrors c.strand (s.sideRuns c (.va c.a.toNat) l 8 ++ s.sideWalk c (.va c.a.toNat) l)).chargeAtomics c.part c.tenant (pollRes l) 1
        if c.b.toNat ≤ v then
          let s := if bitAt c.ord 4 then s.fenceCache (clusterOf c.core) (c.ord.extractLsb' 0 3).toNat else s
          .next (s.endCmd cmd)
        else .next s
      | .error (.refuse ec cause val) => .next (((s.refuseRecord c cause val).toWord cmd ec).closeCmd cmd)
      | .error (.hole f) => .fault f
      | .error _ => .next s

/-- ENGINE_TRANSLATION_FAULT (R398, R429): the units before the one whose walk fails are performed; once every unit sent
has been acknowledged, the record is posted and the command stalls. The last such unit is the completion word, which for a
pooling command comes after its pooling (R354). -/
def execEngineTranslationFault (cmd : Nat) (s : State) : Out :=
  match tfind s.cmds cmd with
  | none => .next s
  | some c =>
    if c.op = .sqwait then
      match s.pollWord c with
      | .error (.walk va rq) =>
        .next (if c.state = .queued && s.atTurn cmd then s.stall cmd va rq 0 else s)
      | _ => .next s
    else if c.state ≠ .started || (c.op = .sfpool && !c.wordLeft) then .next s
    else match s.runCmd cmd with
      | (s', some (q, .walk va rq)) => .next (if s'.unitsBack (tget s'.cmds cmd) then s'.stall cmd va rq q else s')
      | (s', none) =>
        if !s'.released (tget s'.cmds cmd) then .next s
        else match (s'.toWord cmd 0).writeWord cmd with
          | .error (.walk va rq) => .next ((s'.toWord cmd 0).stall cmd va rq (s.unitsOf c).2)
          | _ => .next s
      | _ => .next s

/-- R420: the lost unit of a command, and every unit after it, acknowledged or not, is sent again in the current window. -/
def State.sendAgain (s : State) (n u : Nat) : State :=
  let w := s.windowNow
  let again (e : Nat × RemoteOut) : Bool := e.2.cmd = n && u ≤ e.1
  let ports := (s.dev.outs.filter again).map (fun e => e.2.port)
  (s.onDev (fun d => { d with
    outs := tmap d.outs (fun k o => if again (k, o) then { o with window := w, acked := false } else o),
    lastSent := ports.foldl (fun t p => tset t p w) d.lastSent })).onCmd n (fun c => { c with window := some w })

/-- An answer to a stalled or lost command (R398, R420): RESUME translates afresh under the mapping in force or sends the
lost units again, KILL ends it with error code 2 and the bytes written before its lost unit, without its word if that was what
failed (R429). -/
def State.answerCmd (s : State) (n : Nat) (kill : Bool) : State :=
  match tfind s.cmds n with
  | none => s
  | some c =>
    if kill then
      if c.wordLeft && (c.state = .stalled || c.wordSent) then
        (s.onDev (fun d => { d with outs := d.outs.filter (fun o => o.2.cmd ≠ n) })).endCmd n
      else (((s.onCmd n (fun c => { c with units := [], bytes := match c.state, c.lostUnit with
        | .lost, some u => (tget s.dev.outs u).before
        | _, _ => c.bytes })).onDev (fun d => { d with
        outs := d.outs.filter (fun o => o.2.cmd ≠ n) })).toWord n 2).closeCmd n
    else
      let s := s.onCmd n (fun c => { c with
        state := if c.op = .sqwait then .queued else .started, old := if c.state = .lost then c.old else [], lostUnit := none })
      match c.state, c.lostUnit with
      | .lost, some u => s.sendAgain n u
      | _, _ => s

end Sys2Proof.Machine
end

