-- ==== Sys2Proof/Machine/Pool.lean ====
section
/-! DEFINITION. Pooling in the capacity tier (R258, R259, R346 to R356). A plan takes its place in the
SFPOOL queue by its identity: commands placed after it use it (R350). -/

namespace Sys2Proof.Machine

/-- Bytes per element of a pooling format (R346). -/
def poolEb (fmt : BitVec 4) : Nat := tagWidth fmt / 8

/-- Row stride (R346). -/
def rowStride (fmt : BitVec 4) (dim : Nat) : Nat := 64 * ceilDiv (dim * poolEb fmt) 64

/-- Index count, bag count, vector length and weighting of SFPOOL (R258). -/
def poolN (c : Word) : Nat := fld c 0 9
/-- Bag count B. -/
def poolB (c : Word) : Nat := fld c 9 9
/-- Vector length L. -/
def poolL (c : Word) : Nat := fld c 18 10
/-- Lines per bag. -/
def poolQ (c : Word) : Nat := ceilDiv (poolL c) 128

/-- The bag ends of a captured request block (R351). -/
def bagEnd (cap : List Byte) (g : Nat) : Nat := (wAt cap (4 * g)).toNat

/-- Do the bag ends rise to n (R258, step 8)? -/
def bagEndsOk (cap : List Byte) (b n : Nat) : Bool :=
  (List.range b).all (fun g => g = 0 || bagEnd cap (g - 1) ≤ bagEnd cap g) && bagEnd cap (b - 1) = n

/-- SFPOOL (R258, R352): its checks in the single order of R258; it captures the request block and the plan
that the queue then holds for the table. -/
def execSfpool (o : FmtECL) (s : State) : Out := finish s (do
  let t := s.me
  let a := s.reg o.o.sa
  let c := s.reg o.o.sc
  let n := poolN c
  let b := poolB c
  let sof := a.toNat % 2 ^ 17
  let size := if bitAt c 28 then 0x800 + 4 * n else 0x400 + 4 * n
  needTile t o.o.th
  needKind t o.o.th (fun k => k = 1)
  need (1 ≤ n && n ≤ 256 && 1 ≤ b && b ≤ 256 && 1 ≤ poolL c && poolL c ≤ 512) cIllegal s.issue.word
  need (b * poolQ c ≤ 16) cBounds c
  need (fld a 0 6 = 0) cAlign a
  need (a.toNat < 2 ^ 24 && a.toNat / 2 ^ 17 = 127 && sof + size ≤ 4096 * t.win.sb) cWindow a
  need (32 * o.o.imm.toNat + 32 ≤ 4096 * t.win.sb) cWindow (BitVec.ofNat 64 (32 * o.o.imm.toNat))
  let cap := cread t.smem sof size
  need (bagEndsOk cap b n) cBounds (BitVec.ofNat 64 (bagEnd cap (b - 1)))
  needCp t
  return s.place { s.newCmd .sfpool with
    ord := o.o.ord, a := a, b := s.reg o.o.sb, c := c, imm := o.o.imm, lit := o.lit, td := some o.o.th, cap := cap,
    plan := tfind (tget s.parts t.part).pools (fld (s.reg o.o.sb) 0 16) })

/-- The walk of a page as SFPLAN translated it (R350). -/
def State.planWalk (s : State) (part : Nat) (p : Plan) (va : Nat) : Walk :=
  if 2 ^ 56 ≤ va then .absent else s.walkBy part p.tables p.regs (BitVec.ofNat 56 va)

/-- The walk of a row's page for a command (R144, R350): as the plan was translated, but where it has been invalidated since
as the command translates for itself. -/
def State.poolWalk (s : State) (c : Cmd) (p : Plan) (va : Nat) : Walk :=
  if p.stale.any (fun r => r.1 ≤ va && va < r.1 + r.2) then s.cmdWalk c va else s.planWalk c.part p va

/-- The segment that holds a row (R348). -/
def Plan.segOf (p : Plan) (r : Nat) : Option Segment := p.segs.find? (fun g => g.fr ≤ r && r < g.fr + g.sn)

/-- The bytes of the tier that a row stands in by walks of `w` (R406). -/
def tierRuns (w : Nat → Walk) (va n : Nat) : List ArrayRun :=
  (Side.cut (.va va) n).flatMap (fun x => match x.1 with
    | .va a => match w a with
      | .leaf l => [{ spc := l.kd, lo := l.at a, n := x.2 }]
      | _ => []
    | _ => [])

/-- R355, R363, R418: is a landing failed, or absent: not the partition's, nor being withdrawn from it? -/
def State.landingGone (s : State) (part ld : Nat) : Bool :=
  s.dev.failed.contains ld || !((tget s.parts part).owns (fun r => r.landings.map (·.landing))).contains ld

/-- Kind-2 bytes of a partition at `n` bytes from a virtual address by walks of `w`; none where one is not mapped, not of
kind 2, not readable, or on a landing that is absent or failed (R355). -/
def State.tierBytes (s : State) (part : Nat) (w : Nat → Walk) (va n : Nat) : Option (List Byte) :=
  (Side.cut (.va va) n).foldl (fun acc x => acc.bind (fun b => match x.1 with
    | .va a => match w a with
      | .leaf l =>
        if l.kd = 2 && l.pr && paExists 2 (l.at a) x.2 && !s.landingGone part (l.at a / 2 ^ 38)
        then some (b ++ s.readMem 2 (l.at a) x.2) else none
      | _ => none
    | _ => none)) (some [])

/-- Where a row is read from: its landing's SRAM or the tier (R349, R406). -/
def State.rowRuns (s : State) (c : Cmd) (p : Plan) (r : Nat) : List ArrayRun :=
  match p.segOf r with
  | none => []
  | some g =>
    let rs := rowStride p.fmt p.dim
    if g.tr = 0 then [{ spc := 3, owner := g.ld, lo := rs * r, n := rs }]
    else tierRuns (s.poolWalk c p) (g.va.toNat + rs * (r - g.fr)) rs

/-- The elements of row `r`, none where its bag must fail (R349, R355, R418); a hot row that could not be loaded is one that
cannot be read (log 49). -/
def State.poolRow (s : State) (c : Cmd) (p : Plan) (r : Nat) : Option (Nat × List FVal) :=
  match p.segOf r with
  | none => none
  | some g =>
    if s.landingGone c.part g.ld || p.broken.contains g.ld || (g.tr = 0 && p.lostRows.contains r) then none
    else
      let rs := rowStride p.fmt p.dim
      let bytes := if g.tr = 0 then some (cread p.hot (rs * r) rs)
        else s.tierBytes c.part (s.poolWalk c p) (g.va.toNat + rs * (r - g.fr)) rs
      (if (s.rowRuns c p r).any s.hasError then none else bytes).map (fun b => (g.ld, ((byteItems (tagWidth p.fmt) b).take p.dim).map (valueOf p.fmt)))

/-- The weighted rows of bag `g`, by landing; none where the bag fails (R351, R355). -/
def State.bagRows (s : State) (c : Cmd) (p : Plan) (g : Nat) : Option (List (Nat × FVal × List FVal)) :=
  let lo := if g = 0 then 0 else bagEnd c.cap (g - 1)
  (List.range (bagEnd c.cap g - lo)).foldl (fun acc i => acc.bind (fun l =>
    let x := (wAt c.cap (0x400 + 4 * (lo + i))).toNat
    if x = 0xFFFFFFFF then some l
    else if p.nr ≤ x then none
    else (s.poolRow c p x).map (fun r =>
      let w := if bitAt c.c 28 then decodeF fF32 (wAt c.cap (0x800 + 4 * (lo + i))).toNat else .fin false 1 0
      l ++ [(r.1, w, r.2)]))) (some [])

/-- Element `j` of a bag's vector: the exact partial of each landing, rounded once, added in landing order
(R353, R354, and the example of R357). -/
def poolElem (rows : List (Nat × FVal × List FVal)) (j : Nat) : Nat :=
  let lds := (List.range 16).filter (fun ld => rows.any (fun r => r.1 = ld))
  let part (ld : Nat) : Nat :=
    let l := rows.filter (fun r => r.1 = ld)
    (roundF fF32 0 0 (stepSum (l.map (fun r => some r.2.1)) (l.map (fun r => r.2.2[j]?)))).bits
  match lds with
  | [] => 0
  | ld :: rest => rest.foldl (fun a x => (fadd fF32 0 0 (decodeF fF32 a) (decodeF fF32 (part x))).bits) (part ld)

/-- The rows that a pooling command reads, where its table and length are right (R406). -/
def State.poolRuns (s : State) (c : Cmd) : List ArrayRun :=
  match c.plan.bind (fun k => tfind (tget s.parts c.part).plans k) with
  | none => []
  | some p => if poolL c.c ≠ p.dim then []
    else (List.range (bagEnd c.cap (poolB c.c - 1))).flatMap (fun i => s.rowRuns c p (wAt c.cap (0x400 + 4 * i)).toNat)

/-- Report the malformed entries that the walks of a pooling command's rows meet (R99). -/
def State.notePool (s : State) (c : Cmd) : State :=
  match c.plan.bind (fun k => tfind (tget s.parts c.part).plans k) with
  | none => s
  | some p => if poolL c.c ≠ p.dim then s
    else (List.range (bagEnd c.cap (poolB c.c - 1))).foldl (fun s i =>
      let r := (wAt c.cap (0x400 + 4 * i)).toNat
      match p.segOf r with
      | none => s
      | some g => if g.tr = 0 then s else
        let rs := rowStride p.fmt p.dim
        (Side.cut (.va (g.va.toNat + rs * (r - g.fr))) rs).foldl (fun s x => match x.1 with
          | .va a => (match s.poolWalk c p a with
            | .bad e => s.badEntry e
            | _ => s)
          | _ => s) s) s

/-- The tile, the mask and the error code of a pooling command (R354, R355); R357's example gives its lines, mask, NB and FT. What R357
says of rates is timing; its link traffic is charged to no resource: R324 names none for a landing or its link (log 90). -/
def State.doPool (s : State) (n : Nat) (c : Cmd) : State :=
  let b := poolB c.c
  let l := poolL c.c
  let q := poolQ c.c
  let plan := c.plan.bind (fun k => tfind (tget s.parts c.part).plans k)
  let (ec, bags) : BitVec 6 × List (Option (List (Nat × FVal × List FVal))) := match plan with
    | none => (16, List.replicate b none)
    | some p => if l ≠ p.dim then (17, List.replicate b none) else (0, (List.range b).map (s.bagRows c p))
  let line (g : Option (List (Nat × FVal × List FVal))) : List Byte := match g with
    | none => List.replicate (512 * q) 0
    | some rows => padTo (512 * q) ((List.range l).flatMap (fun j => leBytes 4 (poolElem rows j)))
  let data := bags.flatMap line
  let mask := (List.range b).foldl (fun m g => if (bags.getD g none).isNone then m + 2 ^ g else m) 0
  let s := s.onStrand c.strand (fun t =>
    let t := t.writeTile (t.tile (c.td.getD 0)) 0 data
    { t with smem := cwrite t.smem (32 * c.imm.toNat) (leBytes 32 mask) })
  (s.setFt c 1).onCmd n (fun c => { c with wordLeft := true, state := .started, error := ec, bytes := data.length })

/-- The pooling commands of a partition that have not ended, in the order of its SFPOOL queue (R356). -/
def State.poolQueue (s : State) (part : Nat) : List (Nat × Cmd) :=
  s.cmds.filter (fun e => e.2.op = .sfpool && e.2.part = part)

/-- An acquiring command makes its issuer's cluster write back before its first read (R93, R143). -/
def State.acquireFor (s : State) (c : Cmd) : State :=
  if bitAt c.ord 4 && 2 ≤ (c.ord.extractLsb' 0 3).toNat then s.flush (clusterOf c.core) (fun _ => true) false else s

/-- The start of a partition's first pooling command that has not started (R21, R350, R356): in queue order, once every plan
before it is loaded and its tile is its own, while the tier's share draws no more than 400 W. -/
def State.startPool (s : State) (part : Nat) : State :=
  match (s.poolQueue part).find? (fun e => e.2.state = .queued) with
  | none => s
  | some (n, c) =>
    if (tget s.parts part).plans.any (fun p => p.1 < n && !p.2.loaded) || !s.tileFree n || !s.acquired n c || s.over Device.tierLog 400 then s
    else (s.acquireFor c).onCmd n (fun c => { c with state := .started })

/-- POOLING_COMPLETION (R354, R355): a started pooling command is performed; its word and its counter follow. -/
def execPoolingCompletion (cmd : Nat) (s : State) : Out :=
  match tfind s.cmds cmd with
  | none => .next s
  | some c =>
    if c.op ≠ .sfpool || c.state ≠ .started then .next s
    else if c.wordLeft then .next (s.closeCmd cmd)
    else .next ((((s.noteErrors c.strand (s.poolRuns c)).notePool c).doPool cmd c).closeCmd cmd)

/-- A segment entry of a plan record (R348). -/
def segmentAt (l : List Byte) (i : Nat) : Segment :=
  let w0 := dwAt l (32 * i)
  let w2 := dwAt l (32 * i + 16)
  { fr := fld w0 32 32, sn := fld w0 0 32, va := (dwAt l (32 * i + 8)).extractLsb' 0 56,
    ld := fld w2 60 4, tr := fld w2 58 2 }

/-- The reserved bits of a segment entry are 0 and its values are allowed (R348). -/
def segmentOk (l : List Byte) (i : Nat) : Bool :=
  let w1 := dwAt l (32 * i + 8)
  let w2 := dwAt l (32 * i + 16)
  fld w1 56 8 = 0 && fld w1 0 6 = 0 && fld w2 0 58 = 0 && fld w2 58 2 ≠ 3 && dwAt l (32 * i + 24) = 0 &&
    1 ≤ fld (dwAt l (32 * i)) 0 32

/-- Each segment begins where the one before ended (R348). -/
def segmentsChain (nr : Nat) : Nat → List Segment → Bool
  | r, [] => r = nr
  | r, g :: l => g.fr = r && segmentsChain nr (r + g.sn) l

/-- R347: the header's reserved bits and values. -/
def planHeaderOk (h : List Byte) : Bool :=
  let w0 := dwAt h 0
  let fmt := fld w0 44 4
  let op := fld w0 32 2
  let ns := fld (dwAt h 0x10) 0 11
  fld w0 0 32 = 0 && fld (dwAt h 8) 32 32 = 0 && fld (dwAt h 0x10) 11 53 = 0 &&
    (List.range 5).all (fun i => dwAt h (0x18 + 8 * i) = 0) &&
    1 ≤ fmt && fmt ≤ 4 && 1 ≤ fld w0 34 10 && fld w0 34 10 ≤ 512 && op < 2 &&
    (op = 1 || (1 ≤ ns && ns ≤ 1024 && 1 ≤ fld (dwAt h 8) 0 32 && fld (dwAt h 8) 0 32 ≤ 0xFFFFFFFE))

/-- An address in each page of a segment, in rows of `rs` bytes (R348). -/
def segmentPages (rs : Nat) (g : Segment) : List Nat :=
  (List.range ((g.va.toNat + rs * g.sn - 1) / 4096 - g.va.toNat / 4096 + 1)).map (fun i =>
    max g.va.toNat (4096 * (g.va.toNat / 4096 + i)))

/-- R348, R350 reason 2: is a page of kind 2, readable, on landing `ld`? -/
def State.pageOnLanding (s : State) (part ld a : Nat) : Bool :=
  a < 2 ^ 56 && match s.walk part (BitVec.ofNat 56 a) with
  | .leaf l => l.kd = 2 && l.pr && l.at a / 2 ^ 38 = ld
  | _ => false

/-- R348, R350 reason 2: every page of a segment is of kind 2, readable, on its landing. -/
def State.segmentMapped (s : State) (part rs : Nat) (g : Segment) : Bool := (segmentPages rs g).all (s.pageOnLanding part g.ld)

/-- The segments of a plan are as R348 has them (R350 reason 1). -/
def Plan.segmentsOk (p : Plan) (entries : List Byte) : Bool :=
  (List.range p.segs.length).all (segmentOk entries) && segmentsChain p.nr 0 p.segs

/-- Bytes of hot rows on a landing. -/
def Plan.hotBytes (p : Plan) (ld : Nat) : Nat :=
  ((p.segs.filter (fun g => g.ld = ld && g.tr = 0)).map (fun g => rowStride p.fmt p.dim * g.sn)).foldl (· + ·) 0

/-- The reason for which a plan to create or replace a table is refused (R350), none when it is accepted. -/
def State.planRefusal (s : State) (part : Nat) (p : Plan) (entries : List Byte) : Option Nat :=
  let q := tget s.parts part
  let rs := rowStride p.fmt p.dim
  let others := (q.pools.filter (fun e => e.1 ≠ p.tid)).map (fun e => tget q.plans e.2)
  if !p.segmentsOk entries then some 1
  else if !(p.segs.all (fun g => q.res.landings.any (fun x => x.landing = g.ld) && s.segmentMapped part rs g)) then some 2
  else if q.res.landings.any (fun x => x.sram < ((p :: others).map (fun p => p.hotBytes x.landing)).foldl (· + ·) 0) then some 3
  else if p.segs.any (fun g => s.dev.failed.contains g.ld) then some 4
  else if (tfind q.pools p.tid).isNone && 1024 ≤ q.pools.length then some 5
  else none

/-- The list up to and with its first element that fails. -/
def throughFirst {α : Type} (ok : α → Bool) : List α → List α
  | [] => []
  | a :: l => if ok a then a :: throughFirst ok l else [a]

/-- The pages that SFPLAN translates, up to the first that refuses the plan (R350 reason 2; log 84). -/
def State.planPages (s : State) (part : Nat) (p : Plan) (entries : List Byte) : List Nat :=
  if !p.segmentsOk entries then []
  else
    let owned := p.segs.takeWhile (fun g => (tget s.parts part).res.landings.any (fun x => x.landing = g.ld))
    (throughFirst (fun x => s.pageOnLanding part x.1 x.2)
      (owned.flatMap (fun g => (segmentPages (rowStride p.fmt p.dim) g).map (fun a => (g.ld, a))))).map (fun x => x.2)

/-- Report what the translations of a plan's pages meet (R99, R406). -/
def State.notePlan (s : State) (part : Nat) (p : Plan) (entries : List Byte) : State :=
  ((s.planPages part p entries).filter (· < 2 ^ 56)).foldl (fun s a => s.noteWalk part (BitVec.ofNat 56 a)) s

/-- The value SFPLAN returns on a refusal. -/
def planRefused (r : Nat) : Word := BitVec.ofNat 64 (2 ^ 63 + r)

/-- SFPLAN (R259, R347 to R350). What it reads counts against the tenant of its strand (R325), and its bundle waits while an arbiter
would hold the reads (R326). A header that fails reason 1 refuses the record before the rest of it is translated (log 84). -/
def execSfplan (o : FmtEA) (s : State) : Out := finish s (do
  let a := s.reg o.sa
  let part := s.me.part
  need (fld a 0 6 = 0) cAlign a
  let hs ← s.vPlaces a.toNat 64 2 1
  needReady (s.readsFree hs)
  let h := s.readPlaces hs
  let before := s
  let s := s.chargeReads hs
  let w0 := dwAt h 0
  let tid := fld w0 48 16
  let q := tget s.parts part
  if !planHeaderOk h then return s.landS latEB o.sd (planRefused 1)
  else if fld w0 32 2 = 1 then
    if fld (dwAt h 0x10) 0 11 ≠ 0 || (tfind q.pools tid).isNone then return s.landS latEB o.sd (planRefused 1)
    else return (s.onPart part (fun q => { q with pools := tdel q.pools tid })).landS latEB o.sd 0
  else do
    let ns := fld (dwAt h 0x10) 0 11
    let es ← s.vPlaces (a.toNat + 64) (32 * ns) 2 1
    needReady (before.readsFree es)
    let entries := s.readPlaces es
    let s := s.chargeReads es
    let p : Plan := { tid := tid, fmt := w0.extractLsb' 44 4, dim := fld w0 34 10, nr := fld (dwAt h 8) 0 32,
                      segs := (List.range ns).map (segmentAt entries), tables := s.mem, regs := q.regions,
                      loaded := false }
    let refusal := s.planRefusal part p entries
    let s := s.notePlan part p entries
    match refusal with
    | some r => return s.landS latEB o.sd (planRefused r)
    | none =>
      let n := s.nextId
      let s : State := { s with nextId := n + 1 }
      return (s.onPart part (fun q => { q with
        pools := tset q.pools tid n, plans := tset q.plans n { p with loaded := !(p.segs.any (fun g => g.tr = 0)) } })
        ).landS latEB o.sd 0)

/-- HOT_SEGMENT_LOAD (R349, R350): the oldest plan of the table still to be loaded copies its hot segments from their DRAM
images, by the translations that SFPLAN made: it is ahead of every marker placed since (R144). A row whose image cannot be read is
lost (log 49). -/
def execHotSegmentLoad (part table : Nat) (s : State) : Out :=
  match (tget s.parts part).plans.find? (fun e => e.2.tid = table && !e.2.loaded) with
  | none => .next s
  | some (n, p) =>
    let rs := rowStride p.fmt p.dim
    let w := s.planWalk part p
    let row (g : Segment) (i : Nat) : Option (List Byte) := s.tierBytes part w (g.va.toNat + rs * i) rs
    let segs := p.segs.filter (fun g => g.tr = 0)
    let hot := segs.foldl (fun m g => (List.range g.sn).foldl (fun m i => match row g i with
      | some b => cwrite m (rs * (g.fr + i)) b
      | none => m) m) ([] : Cells 8)
    let lost := segs.flatMap (fun g => ((List.range g.sn).filter (fun i => (row g i).isNone)).map (fun i => g.fr + i))
    let runs := segs.flatMap (fun g => (List.range g.sn).flatMap (fun i => tierRuns w (g.va.toNat + rs * i) rs))
    .next ((s.noteAs { part := part } runs).onPart part (fun q => { q with
      plans := tset q.plans n { p with hot := hot, loaded := true, lostRows := p.lostRows ++ lost } }))

/-- COMMAND_START (R235): the first command of the queue that has not started does so, its tile and its
half being free; an acquire makes the issuer's cluster write back first (R93, R143). SQWAIT and SQKILL never
start: they complete from the queue. Numbers 32 to 95 stand for the SFPOOL queues of partitions 0 to 63 (R356). -/
def execCommandStart (engine queue : Nat) (s : State) : Out :=
  if 32 ≤ engine then .next (if queue = 0 then s.startPool (engine - 32) else s)
  else match (s.queueOf engine queue).find? (fun e => e.2.state = .queued) with
  | none => .next s
  | some (n, c) =>
    if c.op = .sqwait || c.op = .sqkill || !s.atTurn n || !s.tileFree n || s.halfBusy c || !s.acquired n c then .next s
    else .next ((s.acquireFor c).onCmd n (fun c => { c with state := .started }))

/-- SFSTAT (R259, R418). -/
def execSfstat (o : FmtEA) (s : State) : Out :=
  let q := tget s.parts s.me.part
  let v : Nat := match tfind q.pools (fld (s.reg o.sa) 0 16) with
    | none => 0
    | some n =>
      let lds := (tget q.plans n).segs.map (fun g => g.ld)
      let mask (p : Nat → Bool) : Nat := ((List.range 16).filter p).foldl (fun m i => m + 2 ^ i) 0
      2 ^ 63 + mask (fun i => lds.contains i) +
        2 ^ 16 * mask (fun i => lds.contains i && s.dev.failed.contains i)
  .next (s.landS latEB o.sd (BitVec.ofNat 64 v))

end Sys2Proof.Machine
end

