-- ==== Sys2Proof/Machine/Bundle.lean ====
section
/-! DEFINITION. The end of a bundle's issue step: its advance (R69) and the start of the routine it bound
(R292), for the instructions that end their bundle themselves and for every other bundle alike. -/

namespace Sys2Proof.Machine

/-- A line pointer word of R283 from its tag, extension bit and operand field. -/
def lpWord (tag : BitVec 4) (x : BitVec 1) (f : BitVec 11) : Word :=
  (0 : BitVec 45) ++ tag ++ (0 : BitVec 3) ++ x ++ f

/-- Number of the binding slot of a class and an opcode minus 96 (R296). -/
def bindSlot (cls : BitVec 1) (opx : BitVec 5) : Nat := 32 * cls.toNat + opx.toNat

/-- R292: the micro state at the first step of a routine bound to an opcode. -/
def Strand.boundMicro (t : Strand) (cls : BitVec 1) (o : FmtOB) : Micro :=
  let w := cget t.bind (bindSlot cls o.opx)
  let d := o.opd
  { mv := true, mc := cls, mop := o.opx, mpc := w.extractLsb' 0 14, msb := w.extractLsb' 16 12,
    cf := d.extractLsb' 0 8, rmu := if t.rm.toNat < 4 then t.rm.extractLsb' 0 2 else 0, opb := d,
    lp := cwrite [] 0 [lpWord 0 (d.extractLsb' 3 1) (d.extractLsb' 29 11), lpWord 0 (d.extractLsb' 2 1) (d.extractLsb' 18 11),
                       lpWord 0 (d.extractLsb' 1 1) (d.extractLsb' 7 11)],
    mt := t.micro.mt, raw := t.micro.raw }

/-- The routine that the bundle bound is about to run (R291). -/
def State.startBound (s : State) : State :=
  match s.issue.bound with
  | some m => s.onMe (fun t => { t with micro := m })
  | none => s

/-- The issuing strand's bundle completes its issue step (R58, R69, R291). -/
def State.advanceMe (s : State) : State :=
  (s.onMe (fun t => t.advance s.issue.next s.issue.redirect)).startBound

/-- The bundle completes and ends by its own instruction. -/
def State.completeMe (s : State) : State := s.advanceMe.endBundle

end Sys2Proof.Machine
end

