-- ==== Sys2Proof/Machine/Sync.lean ====
section
/-! DEFINITION. Synchronisation and suspension: sync objects (R136 to R139), FENCE (R141), barriers (R262)
with the voltage rounds they drive (R322, R323), futures (R45, R46, R263), pipes (R47, R264), WAIT (R72),
YIELD (R31), END (R48), and the retirement of strands and batches (R48). -/

namespace Sys2Proof.Machine

/-- Does the region of a binding hold the page of a cache line (R134)? -/
def State.regionHas (s : State) (part : Nat) (b : Binding) (ln : Nat) : Bool :=
  (List.range (b.np.toNat + 1)).any (fun i =>
    match s.walk part (BitVec.ofNat 56 (b.rb.toNat + 4096 * i)) with
    | .leaf l => l.kd = 0 && l.at (b.rb.toNat + 4096 * i) / 4096 = ln / 64
    | _ => false)

/-- Does a virtual address lie in the region of a binding? -/
def Binding.covers (b : Binding) (va : Nat) : Bool :=
  b.rb.toNat ≤ va && va < b.rb.toNat + 4096 * (b.np.toNat + 1)

/-- The binding index of ACQ and REL (R261) and its entry; an invalid one traps (R139). -/
def State.bindingOf (s : State) (o : FmtEA) : Res (Nat × Binding) := do
  let x := (s.reg o.sa).toNat + o.imm.toNat % 512
  let b := tget (tget s.parts s.me.part).bindings x
  need (x < 4096 && b.bv) cSyncBind (BitVec.ofNat 64 x)
  return (x, b)

/-- The value an ACQ returns (R136). -/
def Binding.value (b : Binding) : Word := ofBool 1 b.bk ++ (0 : BitVec 31) ++ b.seq

/-- ACQ (R136, R137): the request joins the queue of the object's home; the bundle waits until it is
granted. An object whose binding has been made invalid meanwhile traps at the next attempt, and the request stays in its queue
(DESIGN CHOICE, log 99). -/
def execAcq (o : FmtEA) (s : State) : Out := finish s (do
  let (x, b) ← s.bindingOf o
  let mine (r : SyncReq) : Bool := r.strand = s.cur
  need (b.waiters.any mine || !(b.md = 1 && b.own = s.me.fol)) cSyncState (BitVec.ofNat 64 x)
  let s := if b.waiters.any mine then s
    else
      let b' : Binding := { b with waiters := b.waiters ++ [{ strand := s.cur, excl := o.imm.toNat / 512 = 0 }] }
      (s.onPart s.me.part (fun p => { p with bindings := tset p.bindings x b' })).grant s.me.part x
  let b := tget (tget s.parts s.me.part).bindings x
  match b.waiters.find? mine with
  | some { granted := true, value := v, .. } =>
    let b' : Binding := { b with waiters := b.waiters.filter (fun r => !mine r) }
    let s := s.onPart s.me.part (fun p => { p with bindings := tset p.bindings x b' })
    let s := if 2 ≤ b.hsc.toNat then s.flush s.cl (s.regionHas s.me.part b) true else s
    return s.landS latEB o.sd v
  | _ => return { s with issue := { s.issue with status := .wait } })

/-- REL (R138, R139). -/
def execRel (o : FmtEA) (s : State) : Out := finish s (do
  let (x, b) ← s.bindingOf o
  need (b.md ≠ 0 && !(b.md = 1 && b.own ≠ s.me.fol)) cSyncState (BitVec.ofNat 64 x)
  needReady (!s.me.held.any (fun h => h.places.any (fun p => b.covers p.va)))
  let s := if 2 ≤ b.hsc.toNat then s.flush s.cl (s.regionHas s.me.part b) false else s
  let b' : Binding :=
    if b.md = 1 then { b with seq := b.seq + 1, bk := false, own := 0, md := 0 }
    else { b with sh := b.sh - 1, md := if b.sh ≤ 1 then 0 else 2 }
  return (s.onPart s.me.part (fun p => { p with bindings := tset p.bindings x b' })).grant s.me.part x)

/-- FENCE (R141): the next bundle waits until every held access is performed, and the cluster cache gives up its lines then too; the
other stores and loads are performed at issue (log 4), and none of them leaves the device. -/
def execFence (o : FmtEA) (s : State) : Out :=
  .next ((s.fenceCache s.cl (o.imm.toNat % 8)).fenceMe (o.imm.toNat % 8))

/-- Ranks of a gang whose role bit is set in a mask; mask 0 means every role (R262). -/
def State.participants (s : State) (g : Nat) (m : BitVec 4) : List Nat :=
  (List.range (tget s.gangs g).strands.length).filter (fun r =>
    m = 0 || bitAt m (tget s.strands ((tget s.gangs g).strands.getD r 0)).role)

/-- R322: gang `g` has completed phase `ph` of barrier `b`, which is recorded while the placed gangs of its batch occupy two
or more clusters; the round may end. -/
def State.barrierRound (s : State) (g b ph : Nat) : State :=
  let bt := (tget s.gangs g).batch
  if s.gangs.all (fun e => !(e.2.batch = bt && e.2.placed) || e.2.cluster = (tget s.gangs g).cluster) then s
  else ({ s with batches := tmod s.batches bt (fun x => { x with rounds := x.rounds ++ [(b, ph, g, s.now)] }) }).endRound bt b ph

/-- The arrival of R262: the phase found, and the machine after it. It is an atomic with RE 1, so it waits for the atomics of
the strand that are held (R143). -/
def State.arrive (s : State) (b : Nat) (m : BitVec 4) : Res (BitVec 16 × State) := do
  let g := s.me.gang
  let x := tget s.gang.bars b
  let all := s.participants g m
  need (all.contains s.me.rank && (x.arrived.isEmpty || x.mask = m)) cSyncState (BitVec.ofNat 64 b)
  needReady (!s.me.holding)
  let set := if x.arrived.contains s.me.rank then x.arrived else s.me.rank :: x.arrived
  if all.all (fun r => set.contains r) then
    let y : Barrier := { x with arrived := [], mask := m, phase := x.phase + 1, waiting := [], released := x.released ++ x.waiting }
    return (x.phase, (s.onGang g (fun q => { q with bars := tset q.bars b y })).barrierRound g b x.phase.toNat)
  else
    return (x.phase, s.onGang g (fun q => { q with bars := tset q.bars b { x with arrived := set, mask := m } }))

/-- Change a barrier of the issuing strand's gang. -/
def State.onBar (s : State) (b : Nat) (f : Barrier → Barrier) : State :=
  s.onGang s.me.gang (fun q => { q with bars := tset q.bars b (f (tget q.bars b)) })

/-- BAR (R262): arrive and wait for the next phase. A rank whose wait has ended goes on without arriving
again. The end of the wait is an acquire (R143). -/
def execBar (o : FmtEA) (s : State) : Out := finish s (do
  let b := o.imm.toNat % 16
  let r := s.me.rank
  if (tget s.gang.bars b).released.contains r then
    return (s.onBar b (fun x => { x with released := x.released.filter (· ≠ r) })).fenceMe 1
  else
    let (p, s) ← s.arrive b (o.imm.extractLsb' 4 4)
    if (tget s.gang.bars b).phase ≠ p then return s.fenceMe 1
    else
      let s := s.onBar b (fun x => { x with waiting := r :: x.waiting.filter (· ≠ r) })
      return { s with issue := { s.issue with status := .wait } })

/-- BARA (R262). -/
def execBara (o : FmtEA) (s : State) : Out := finish s (do
  let (p, s) ← s.arrive (o.imm.toNat % 16) (o.imm.extractLsb' 4 4)
  return s.landS latEB o.sd (p.setWidth 64))

/-- BARW (R262). -/
def execBarw (o : FmtEA) (s : State) : Out := finish s (do
  needReady ((tget s.gang.bars (o.imm.toNat % 16)).phase ≠ (s.reg o.sa).extractLsb' 0 16)
  return s.fenceMe 1)

/-- An access of the E unit to a future cell (R263): its place, and its two words as its home holds them. -/
def State.cellOf (s : State) (a : Word) (rq : BitVec 3) : Res (Place × State × Word × Word) := do
  need (fld a 0 4 = 0) cAlign a
  let ps ← s.vPlaces a.toNat 16 2 rq
  let p := (ps.headD ({}, 0)).1
  let s := if p.kind = 0 then (s.writeBack s.cl (p.pa / 64)).dropLine s.cl (p.pa / 64) else s
  let l := s.readMem p.kind p.pa 16
  return (p, s, dwAt l 0, dwAt l 8)

/-- R45: the squash of the gang of a reader whose cell is empty: its folio goes on the cell's chain. -/
def State.squash (s : State) (p : Place) (w : Word) : State :=
  let t := s.me
  let s := s.postReplay (s.recordOf s.cur { cause := cSquash, val := BitVec.ofNat 64 p.va, slot := 7 })
  let s := s.writeMem p.kind p.pa (dwBytes (s.readMem p.kind p.pa 8 |> fun l => dwAt l 0) ++
    dwBytes ((w &&& ~~~ (0x00FF_FFFF_FFFF_FFC0 : Word)) ||| t.fol.setWidth 64))
  let link : Word := w &&& 0x00FF_FFFF_FFFF_FFC0
  let s := (s.onMe (fun t => { t with wc := t.wc + 1, link := link })).noteRun t.part t.fb.toNat 8
  let s := s.devWrite t.part t.fb.toNat (dwBytes link)
  (s.haltGang t.gang 2).endBundle

/-- FRD (R45, R263): a full cell's value, with an acquire (R130), or the squash of a gang still in its prefix. Only FST 1 is
full. The access is an atomic at the cell's home (R325, R326; log 29). -/
def execFrd (o : FmtEA) (s : State) : Out := finish s (do
  let a := s.reg o.sa
  let (p, s, v, w) ← s.cellOf a 1
  need (fld w 62 2 = 1 || !s.gang.prefixOver) cFutOrder a
  let ten := s.tenantOf s.me
  let res := (resourceOf p.kind p.pa).getD 0
  if !s.atomicFree s.me.part ten res then return s.holdBack res
  else
    let s := s.chargeAtomics s.me.part ten res 1
    if fld w 62 2 = 1 then return ((s.fenceCache s.cl 3).landS latEB o.sd v).fenceMe 3
    else return s.squash p w)

/-- R46: the waiter that a link of a chain names: the strand with that folio that awaits a fill, one that may run again before
one that has been killed or stopped, whose folio a later batch may have taken. -/
def State.waiter (s : State) (part : Nat) (link : Word) : Option (Nat × Strand) :=
  let l := s.strands.filter (fun e => e.2.part = part && e.2.fol.setWidth 64 = link && 0 < e.2.wc.toNat)
  match l.find? (fun e => !(tget s.gangs e.2.gang).killed && !(tget s.gangs e.2.gang).stopped) with
  | some e => some e
  | none => l.head?

/-- R46: the walk of a detached chain: each waiter awaits one fill less, and a squashed gang that awaits none is
placed at the head of its queue; one that is still leaving its cluster, when it has left. The folio of a waiter that has not
left its context is written when it leaves (R26), that of a complete batch no more. -/
def State.wake : Nat → State → Nat → Word → State
  | 0, s, _, _ => s
  | n + 1, s, part, link =>
    match s.waiter part link with
    | none => s
    | some (k, t) =>
      let s := s.onStrand k (fun t => { t with wc := t.wc - 1, link := 0 })
      let s := if t.resident || (tget s.batches t.batch).complete then s else s.writeFolio (tget s.strands k)
      let x := tget s.gangs t.gang
      let s := if t.st = 2 && x.halt.isNone && !x.placed && x.strands.all (fun j => (tget s.strands j).wc = 0)
        then s.requeue t.gang else s
      State.wake n s part t.link

/-- FFILL (R46, R263). -/
def execFfill (o : FmtEA) (s : State) : Out := finish s (do
  let a := s.reg o.sa
  let (p, s, _, w) ← s.cellOf a 6
  need (fld w 62 2 ≠ 1) cFutState a
  needReady (!s.me.holding)
  let part := s.me.part
  let ten := s.tenantOf s.me
  let res := (resourceOf p.kind p.pa).getD 0
  match if s.atomicFree part ten res then s.logAll part ten (pagesOf p.kind p.va 16) else (s.holdBack res, false) with
  | (s, false) => return s.waiting
  | (s, true) =>
    let s := s.fenceCache s.cl 3
    let w' := (w &&& ~~~ (0xC0FF_FFFF_FFFF_FFC0 : Word)) ||| 0x4000_0000_0000_0000
    let s := (s.writeMem p.kind p.pa (dwBytes (s.reg o.sb) ++ dwBytes w')).chargeAtomics part ten res 1
    return State.wake s.strands.length s part (w &&& 0x00FF_FFFF_FFFF_FFC0))

/-- The pipe an instruction names, and its entries (R264). -/
def State.pipeOf (s : State) (o : FmtEA) : Res (Nat × List Word) := do
  let n := o.imm.toNat % 16
  need (n < (tget s.batches s.gang.batch).pn) cWindow (BitVec.ofNat 64 n)
  return (n, tget s.gang.pipes n)

/-- PWR (R47, R264): an atomic with RE 1. -/
def execPwr (o : FmtEA) (s : State) : Out := finish s (do
  let (n, l) ← s.pipeOf o
  needReady (l.length < (tget s.batches s.gang.batch).pd + 1 && !s.me.holding)
  return s.onGang s.me.gang (fun q => { q with pipes := tset q.pipes n (l ++ [s.reg o.sa]) }))

/-- PRD (R47, R264): an atomic with AQ 1. -/
def execPrd (o : FmtEA) (s : State) : Out := finish s (do
  let (n, l) ← s.pipeOf o
  match l with
  | [] => waitE
  | v :: r => return ((s.onGang s.me.gang (fun q => { q with pipes := tset q.pipes n r })).landS latEB o.sd v).fenceMe 1)

/-- WAIT (R72, R260): SA, SB, SC and IMM11 are the limits of ld, st, cp and tl as they stand before the bundle, whose own
operations do not count. -/
def execWait (o : FmtEA) (s : State) : Out := finish s (do
  let t := s.me
  needReady (t.ldq.length - s.issue.ownLd ≤ o.sa.toNat && t.stq.length - s.issue.ownSt ≤ o.sb.toNat && t.cpq.length ≤ o.sc.toNat &&
    t.tlq.length ≤ o.imm.toNat)
  return s)

/-- YIELD (R31, R265, R409): the strand's folio is written with ST 1 and FS 0 and its context is passed
over for a while; a pending request for its gang is honoured, and the folio is written again as the strand leaves. -/
def execYield (_ : FmtEA) (s : State) : Out :=
  let s := (s.completeMe).onMe (fun t => { t with st := 1, fs := false })
  let s := s.writeFolio s.me
  match s.gang.pre with
  | some p =>
    .next ((s.onGang s.me.gang (fun q => { q with pre := some { p with halt := some (p.halt.getD s.now) } })).haltGang s.me.gang 4)
  | none =>
    let others := (s.strands.filter (fun e => e.1 ≠ s.cur && e.2.core = s.me.core && s.canIssue e.1)).map (·.1)
    .next (s.onMe (fun t => { t with yieldHold := some (others, s.now + 64) }))

/-- END (R48, R265). -/
def execEndR (_ : FmtEA) (s : State) : Out :=
  .next ((s.completeMe).onMe (fun t => { t with ended := true }))

/-- STRAND_RETIREMENT (R48): an ended strand whose operations have completed. -/
def execStrandRetirement (strand : Nat) (s : State) : Out :=
  let t := tget s.strands strand
  if t.ended && t.resident && t.drained && !t.micro.mv then
    let s := s.retire strand
    .next (if (tget s.gangs t.gang).halt.isSome then s.haltStep t.gang
      else if s.gangDone t.gang then s.gangOver t.gang else s)
  else .next s

/-- R39: one successor ticket: a held batch of the partition is held by one less; any other ticket sets the
error bit. -/
def State.release (s : State) (part : Nat) (batch : Nat) (ticket : Word) : State :=
  if ticket = 0 then s
  else match s.batches.find? (fun e => e.2.part = part && e.2.ticket = ticket && e.2.hc ≠ 0 && !e.2.complete) with
    | some (n, _) => { s with batches := tmod s.batches n (fun b => { b with hc := b.hc - 1 }) }
    | none => s.batchError batch

/-- R48: the completion word of a batch, or the record that it cannot be written (R394). -/
def State.completionWord (s : State) (n : Nat) : State :=
  let b := tget s.batches n
  let w : Word := (1 : BitVec 1) ++ ofBool 1 b.error ++ (0 : BitVec 30) ++ b.ticket.extractLsb' 0 32
  let r : Record := { part := b.part, cause := 0x0046, val := b.cwa.setWidth 64, tkt := b.ticket, slt := 7,
                      time := BitVec.ofNat 64 s.now }
  if b.cwa = 0 then s
  else match s.walk b.part b.cwa with
    | .leaf l =>
      if l.pw && l.kd < 2 then s.devWrite b.part b.cwa.toNat (dwBytes w)
      else s.postFatal r
    | _ => (s.noteWalk b.part b.cwa).postFatal r

/-- BATCH_COMPLETION (R39, R48): every gang has ended; the batch's writes reach package scope, its
successors are released and its completion word is written. -/
def execBatchCompletion (batch : Nat) (s : State) : Out :=
  let b := tget s.batches batch
  if (tfind s.batches batch).isNone || b.complete || b.gangsEnded < b.gc ||
      s.cmds.any (fun c => (tget s.strands c.2.strand).batch = batch) then .next s
  else
    let s := ((tget s.parts b.part).owns (·.clusters)).foldl (fun s c => s.flush c (fun _ => true) false) s
    let s := b.suc.foldl (fun s t => s.release b.part batch t) s
    let s := s.completionWord batch
    .next { s with batches := tmod s.batches batch (fun b => { b with complete := true }) }

end Sys2Proof.Machine
end

