-- ==== Sys2Proof/Machine/Launch.lean ====
section
/-! DEFINITION. LAUNCH (R34 to R38, R41, R266): the batch record, its binding list and parameter window
table, their checks in order; and what it takes to fit a gang on a cluster (R320, R332), which the last of
those checks and the scheduler share; the allocation of writable control-store pages (R301). -/

namespace Sys2Proof.Machine

/-- The writable pages of a control store (R273). -/
def csPages : List Nat := (List.range 24).map (· + 8)

/-- Runs of `n` consecutive writable pages, lowest first. -/
def csRuns (n : Nat) : List Nat := csPages.filter (fun p => p + n ≤ 32)

/-- Does a page hold this image (R274)? -/
def CsPage.holds (p : CsPage) (part : Nat) (ig : BitVec 32) (image : Nat) : Bool :=
  p.valid && p.part = part && p.ig = ig && p.image.toNat = image

/-- R301 step 3: the run of pages that a group of `n` pages from `image` takes: one that holds its images,
else one without images, else any unowned one; and is it taken over without copying? -/
def csAlloc (pages : Table CsPage) (part : Nat) (ig : BitVec 32) (image n : Nat) : Option (Nat × Bool) :=
  let free (p : Nat) : Bool := (tget pages p).owner.isNone
  let run (test : Nat → Nat → Bool) : Option Nat :=
    (csRuns n).find? (fun p => (List.range n).all (fun j => free (p + j) && test p j))
  match run (fun p j => (tget pages (p + j)).holds part ig (image + 4096 * j)) with
  | some p => some (p, true)
  | none => match run (fun p j => !(tget pages (p + j)).valid) with
    | some p => some (p, false)
    | none => (run (fun _ _ => true)).map (fun p => (p, false))

/-- The pages of a run become owned by a context; those to be copied are loading, `order` counts them. -/
def csTake (pages : Table CsPage) (k part : Nat) (ig : BitVec 32) (image first n : Nat) (kept : Bool) (order : Nat) :
    Table CsPage :=
  (List.range n).foldl (fun t j =>
    let old := tget t (first + j)
    tset t (first + j)
      (if kept then { old with owner := some k }
       else { valid := true, owner := some k, part := part, ig := ig, image := BitVec.ofNat 56 (image + 4096 * j),
              loading := true, order := order + j, base := 256 * first, words := old.words })) pages

/-- What a core has free for strands to come (R320). -/
structure Room where
  ctxs : List Nat := []
  win : Windows := {}
  pages : Table CsPage := []
  deriving DecidableEq, Repr, Inhabited

/-- A core without strands. -/
def Room.empty : Room :=
  { ctxs := List.range 8, win := { pl := 32, wt := 32, at_ := 16, ct := 32, sb := 32, th := 128 } }

/-- One set of windows within another. -/
def Windows.within (a b : Windows) : Bool :=
  a.pl ≤ b.pl && a.wt ≤ b.wt && a.at_ ≤ b.at_ && a.ct ≤ b.ct && a.sb ≤ b.sb && a.th ≤ b.th

/-- Windows less those taken. -/
def Windows.less (a b : Windows) : Windows :=
  { pl := a.pl - b.pl, wt := a.wt - b.wt, at_ := a.at_ - b.at_, ct := a.ct - b.ct, sb := a.sb - b.sb, th := a.th - b.th }

/-- What a core has free now (R320). -/
def State.roomOf (s : State) (core : Nat) : Room :=
  let here := s.strands.filter (fun e => e.2.resident && e.2.core = core)
  { ctxs := (List.range 8).filter (fun c => !here.any (fun e => e.2.ctx = c)),
    win := here.foldl (fun w e => w.less e.2.win) Room.empty.win,
    pages := (tget s.cores core).pages }

/-- What a strand needs: its identity, windows, the groups it loads as (pages, image), the core its
placement map names. -/
structure Need where
  strand : Nat := 0
  win : Windows := {}
  groups : List (Nat × Nat) := []
  core : Option Nat := .none
  deriving DecidableEq, Repr, Inhabited

/-- The pages that a list of groups takes, in order. -/
def csFit (part : Nat) (ig : BitVec 32) (k : Nat) : List (Nat × Nat) → Table CsPage → Option (Table CsPage)
  | [], t => some t
  | (n, image) :: r, t => match csAlloc t part ig image n with
    | some (p, kept) => csFit part ig k r (csTake t k part ig image p n kept 0)
    | none => none

/-- A core after a strand has taken its place there, if it fits. -/
def Room.take (r : Room) (part : Nat) (ig : BitVec 32) (x : Need) : Option Room :=
  match r.ctxs with
  | [] => none
  | _ :: cs =>
    if !x.win.within r.win then none
    else match csFit part ig x.strand x.groups r.pages with
      | some t => some { ctxs := cs, win := r.win.less x.win, pages := t }
      | none => none

/-- R320: the lowest core that a strand fits, or the one its map names. -/
def fitOne (part : Nat) (ig : BitVec 32) (rooms : List Room) (x : Need) : Option (Nat × List Room) :=
  ((List.range 12).filter (fun c => x.core = none || x.core = some c)).findSome? (fun c =>
    ((rooms.getD c {}).take part ig x).map (fun r => (c, rooms.set c r)))

/-- R320: the cores of a gang's strands in rank order, if it fits the cluster. -/
def fitGang (part : Nat) (ig : BitVec 32) : List Room → List Need → Option (List Nat)
  | _, [] => some []
  | rooms, x :: r => match fitOne part ig rooms x with
    | none => none
    | some (c, rooms') => (fitGang part ig rooms' r).map (fun l => c :: l)

/-- The role of a rank (R35). -/
def roleOf (n : List Nat) (rank : Nat) : Nat :=
  let n0 := n.getD 0 0
  let n1 := n0 + n.getD 1 0
  let n2 := n1 + n.getD 2 0
  if rank < n0 then 0 else if rank < n1 then 1 else if rank < n2 then 2 else 3

/-- Strands of a gang (R34). -/
def Batch.width (b : Batch) : Nat := b.n.foldl (· + ·) 0

/-- Group entry `i` of a binding list: its pages and its first image (R36). -/
def Batch.group (b : Batch) (i : Nat) : Nat × Nat :=
  let e := b.groups.getD i 0
  (fld (e.extractLsb' 64 64) 0 5, fld (e.extractLsb' 0 64) 12 44 * 4096)

/-- The binding entries that a role receives (R36). -/
def Batch.bindsOf (b : Batch) (role : Nat) : List Word := b.binds.filter (fun e => bitAt e (60 + role))

/-- The groups that a role loads, in ascending index (R36). -/
def Batch.groupsOf (b : Batch) (role : Nat) : List Nat :=
  (List.range b.groups.length).filter (fun i => (b.bindsOf role).any (fun e => fld e 49 5 = i))

/-- What the ranks of a new gang of a batch need. -/
def Batch.needs (b : Batch) : List Need :=
  (List.range b.width).map (fun r =>
    { strand := r, win := b.win, groups := (b.groupsOf (roleOf b.n r)).map b.group })

/-- R34: a batch record of 128 bytes. -/
def parseRecord (d : List Byte) : Batch :=
  let w (o : Nat) : Word := dwAt d o
  { ep := [0, 8, 16, 24].map (fun o => (w o).extractLsb' 0 56),
    gc := fld (w 0x20) 32 16, n := [0, 8, 16, 24].map (fun i => fld (w 0x20) i 7),
    win := { pl := fld (w 0x28) 0 6, th := fld (w 0x28) 6 6, wt := fld (w 0x28) 12 6, at_ := fld (w 0x28) 18 5,
             ct := fld (w 0x28) 23 6, sb := fld (w 0x28) 29 6 },
    pwt := (w 0x30).extractLsb' 0 56, fa := (w 0x38).extractLsb' 0 56, fr := (w 0x40).extractLsb' 0 56,
    ig := (w 0x48).extractLsb' 32 32, cbm := (w 0x48).extractLsb' 23 4, pd := fld (w 0x48) 17 6,
    pn := fld (w 0x48) 12 5, fz := fld (w 0x48) 0 12, hc := fld (w 0x50) 0 16, suc := [w 0x58, w 0x60],
    cwa := (w 0x68).extractLsb' 0 56 }

/-- R34, R78: the form of a batch record. -/
def recordOk (d : List Byte) : Bool :=
  let w (o : Nat) : Word := dwAt d o
  let b := parseRecord d
  let zero (o lo len : Nat) : Bool := fld (w o) lo len = 0
  [0, 8, 16, 24].all (fun o => zero o 56 8 && zero o 0 3) &&
    zero 0x20 48 16 && [7, 15, 23, 31].all (fun i => zero 0x20 i 1) && zero 0x28 35 29 &&
    zero 0x30 56 8 && zero 0x30 0 6 && zero 0x38 56 8 && zero 0x38 0 6 && zero 0x40 56 8 && zero 0x40 0 12 &&
    zero 0x48 27 5 && zero 0x50 16 48 && zero 0x68 56 8 && zero 0x68 0 3 && zero 0x70 56 8 && zero 0x70 0 6 &&
    w 0x78 = 0 && b.gc ≠ 0 && 1 ≤ b.width && b.width ≤ 96 &&
    b.win.within { pl := 32, wt := 32, at_ := 16, ct := 32, sb := 32, th := 32 } &&
    b.pn ≤ 16 && b.fz ≠ 0 && frameSize b.win ≤ 4096 * b.fz

/-- Is a list free of repeats? -/
def noRepeat : List Nat → Bool
  | [] => true
  | x :: r => !r.contains x && noRepeat r

/-- R36: the form of a binding list: its header, and the groups and entries put into the batch. -/
def bindingsOk (head : List Byte) (b : Batch) : Bool :=
  fld (dwAt head 0) 16 48 = 0 && dwAt head 8 = 0 &&
    (List.range b.groups.length).all (fun i =>
      let e := b.groups.getD i 0
      let lo : Word := e.extractLsb' 0 64
      let hi : Word := e.extractLsb' 64 64
      fld lo 56 8 = 0 && fld lo 0 12 = 0 && fld hi 5 59 = 0 && 1 ≤ fld hi 0 5 && fld hi 0 5 ≤ 24) &&
    b.binds.all (fun e =>
      fld e 0 23 = 0 && fld e 60 4 ≠ 0 && (List.range 4).all (fun r => !bitAt e (60 + r) || b.n.getD r 0 ≠ 0) &&
      (if fld e 49 5 = 31 then fld e 23 14 < 0x0800
       else fld e 49 5 < b.groups.length && fld e 23 14 < 256 * (b.group (fld e 49 5)).1)) &&
    (List.range 4).all (fun r =>
      let l := b.bindsOf r
      l.length ≤ 32 && noRepeat (l.map (fun e => fld e 54 6)) &&
        ((b.groupsOf r).map (fun i => (b.group i).1)).foldl (· + ·) 0 ≤ 24)

/-- R41: the form of a parameter window descriptor. -/
def descriptorOk (w : Word) : Bool := !bitAt w 63 || (fld w 61 2 = 0 && fld w 50 11 < 1024)

/-- A refusal of LAUNCH (R37). -/
def launchRefused (reason : Nat) : Word := BitVec.ofNat 64 (2 ^ 63 + reason)

/-- LAUNCH by an agent that reads with `rd` (R37): the value returned, and the machine after it. A binding list whose header
names more than 24 groups or 64 entries is refused with reason 2 on its header alone: its body, whose length only an
accepted count gives, is neither translated nor read (DESIGN CHOICE, log 84). -/
def State.launch (s : State) (part queue : Nat) (a : Word) (rd : Nat → Nat → Res (List Byte)) : Res (Word × State) := do
  need (fld a 0 6 = 0) cAlign a
  let p := tget s.parts part
  let q := tget p.queues queue
  if !q.qe || q.shut then return (launchRefused 5, s)
  if 1024 ≤ q.batches.length then return (launchRefused 1, s)
  let d ← rd a.toNat 128
  let bla := fld (dwAt d 0x70) 6 50 * 64
  let head ← if bla = 0 then .ok [] else rd bla 16
  let ng := fld (dwAt head 0) 0 8
  let nb := fld (dwAt head 0) 8 8
  let many := 24 < ng || 64 < nb
  let body ← if bla = 0 || many then .ok [] else rd (bla + 16) (16 * ng + 8 * nb)
  let b := parseRecord d
  let pw ← rd (b.pwt.toNat / 64 % 2 ^ 50 * 64) 64
  let b : Batch := { b with
    part := part, queue := queue, ticket := (0 : BitVec 28) ++ BitVec.ofNat 4 queue ++ nextSeq q.seq,
    groups := if many then [] else (List.range ng).map (fun i => BitVec.ofNat 128 (leNat ((body.drop (16 * i)).take 16))),
    binds := if many then [] else (List.range nb).map (fun i => dwAt body (16 * ng + 8 * i)) }
  if many || !recordOk d || !bindingsOk head b || !(List.range 8).all (fun i => descriptorOk (dwAt pw (8 * i))) then
    return (launchRefused 2, s)
  if p.unloaded.contains b.ig then return (launchRefused 3, s)
  if (fitGang part b.ig (List.replicate 12 Room.empty) b.needs).isNone then return (launchRefused 4, s)
  let n := s.nextId
  let s : State := { s with nextId := n + 1, batches := tset s.batches n b }
  let q : PQueue := { q with batches := q.batches ++ [n], seq := nextSeq q.seq }
  return (b.ticket, s.onPart part (fun p => { p with queues := tset p.queues queue q }))

/-- The byte runs that LAUNCH by an agent that reads with `rd` reads, up to the first that it cannot read (R406). -/
def State.launchRuns (s : State) (part queue : Nat) (a : Word) (rd : Nat → Nat → Res (List Byte)) : List (Nat × Nat) :=
  let q := tget (tget s.parts part).queues queue
  if fld a 0 6 ≠ 0 || !q.qe || q.shut || 1024 ≤ q.batches.length then []
  else
    let bytes (va n : Nat) : List Byte := match rd va n with
      | .ok l => l
      | .error _ => []
    let d := bytes a.toNat 128
    let bla := fld (dwAt d 0x70) 6 50 * 64
    let head := dwAt (bytes bla 16) 0
    let ng := fld head 0 8
    let nb := fld head 8 8
    let list := if bla = 0 then [] else (bla, 16) :: (if 24 < ng || 64 < nb || ng + nb = 0 then [] else [(bla + 16, 16 * ng + 8 * nb)])
    throughFirst (fun x => (rd x.1 x.2).toBool) ((a.toNat, 128) :: list ++ [(fld (dwAt d 0x30) 6 50 * 64, 64)])

/-- LAUNCH (R37, R38, R266): it reads as FRD does and acts as a release at package scope. What it reads counts against the tenant of its
strand (R325), and its bundle waits while an arbiter would hold the reads (R326). -/
def execLaunch (o : FmtEA) (s : State) : Out := finish s (do
  needReady (!s.me.holding)
  let s := s.fenceCache s.cl 3
  let q := o.imm.toNat % 16
  let rd (s : State) (a n : Nat) : Res (List Byte) := (s.vPlaces a n 2 1).map s.readPlaces
  let ps := s.runPlaces (s.launchRuns s.me.part q (s.reg o.sa) (rd s))
  needReady (s.readsFree ps)
  let s := s.chargeReads ps
  let (v, s) ← s.launch s.me.part q (s.reg o.sa) (rd s)
  return s.landS latEB o.sd v)

end Sys2Proof.Machine
end

