-- ==== Sys2Proof/Machine/System.lean ====
section
/-! DEFINITION. The system instructions (R268 to R271). -/

namespace Sys2Proof.Machine

/-- TRAP n (R268, R270): the bundle completes and the handler is entered; where it cannot be, the bundle
traps instead (R384). -/
def execTrap (o : FmtEA) (s : State) : Out :=
  let cause : BitVec 16 := 0x8000 + o.imm.setWidth 16
  if s.me.canEnter then .next (s.completeMe.onMe (fun t => t.enterHandler { cause := cause }))
  else finish s (trapE cause 0)

/-- A failure of RETT that re-enters the handler (R386). -/
def rettFails {α : Type} (cause : BitVec 16) (val : Word) : Res α :=
  .error (.trap { cause := cause, val := val, rett := true })

/-- RETT (R271, R386). -/
def execRett (_ : FmtEA) (s : State) : Out := finish s (do
  need s.me.ha cContext 0
  match s.me.badStatus with
  | some r => rettFails cStatus (BitVec.ofNat 64 r)
  | none =>
    if targetOk (s.me.sysreg 1) then return (s.onMe Strand.leaveHandler).startBound.endBundle
    else rettFails cFlow (s.me.sysreg 1))

/-- The fields of a system register that are not reserved (R7, R269): TSTS, TRQ0 and TRQ1 hold bits elsewhere, which RETT
checks (R271) and MFSR reads as zero. -/
def sysMask (r : Nat) : Word :=
  if r = 4 then 0x0000_000F_0FFF_FFFF else if r = 5 || r = 6 then 0xF8FF_FFFF_FFFF_FFF8 else 0xFFFF_FFFF_FFFF_FFFF

/-- A system register as MFSR reads it (R269). -/
def Strand.readSys (t : Strand) (r : Nat) : Word :=
  if r = 16 then t.statusWord 7 else if r = 17 then t.ig.setWidth 64 else t.sysreg r &&& sysMask r

/-- MFSR (R268, R269). -/
def execMfsr (o : FmtEA) (s : State) : Out := .next (s.landS latEB o.sd (s.me.readSys o.imm.toNat))

/-- MTSR (R268, R269): flags that landed in TSTS at this step stay (R385). -/
def execMtsr (o : FmtEA) (s : State) : Out := .next (s.onMe (fun t =>
  t.setSys o.imm.toNat (s.reg o.sa ||| (if o.imm = 4 then t.late.setWidth 64 <<< 7 else 0))))

/-- IFENCE (R90, R268): every later fetch sees what has been written. -/
def execIfence (_ : FmtEA) (s : State) : Out := .next (s.onMe (fun t => { t with stale := [] }))

/-- RDCLK (R268). -/
def execRdclk (o : FmtEA) (s : State) : Out := .next (s.landS latEB o.sd (BitVec.ofNat 64 s.now))

/-- The feature vector (R1). -/
def featureVector : Word := 0x0004_0001

/-- The identities of RDID (R12, R268). -/
def State.identity (s : State) (sel : Nat) : Word :=
  let t := s.me
  match sel with
  | 0 => BitVec.ofNat 64 t.core
  | 1 => BitVec.ofNat 64 t.ctx
  | 2 => BitVec.ofNat 64 (clusterOf t.core)
  | 3 => BitVec.ofNat 64 (clusterOf t.core / 16)
  | 4 => BitVec.ofNat 64 t.part
  | 5 => t.fol.setWidth 64
  | 6 => t.ticket
  | 7 => t.batchWord
  | _ => featureVector

/-- RDID (R268). -/
def execRdid (o : FmtEA) (s : State) : Out := .next (s.landS latEB o.sd (s.identity o.imm.toNat))

/-- SETRM (R268). -/
def execSetrm (o : FmtEA) (s : State) : Out := .next (s.onMe (fun t => { t with rm := o.imm.extractLsb' 0 3 }))

/-- RDFF (R268). -/
def execRdff (o : FmtEA) (s : State) : Out :=
  .next (s.landS latEB o.sd ((ofBool 1 s.me.wo ++ s.me.ff).setWidth 64))

/-- CLRFF (R268). -/
def execClrff (o : FmtEA) (s : State) : Out :=
  .next (s.onMe (fun t => { t with ff := t.ff &&& ~~~ (o.imm.extractLsb' 0 5), wo := t.wo && !bitAt o.imm 5 }))

/-- BRK n (R268, R382): the bundle completes and the gang is suspended with a breakpoint record. -/
def execBrk (o : FmtEA) (s : State) : Out :=
  .next (s.completeMe.gangFault { cause := cBreak, val := (o.imm.extractLsb' 0 8).setWidth 64, slot := 7 })

/-- PWSZ (R268). -/
def execPwsz (o : FmtEA) (s : State) : Out :=
  let w := cget s.me.pw (o.imm.toNat % 8)
  .next (s.landS latEB o.sd (if bitAt w 63 then BitVec.ofNat 64 (64 * (fld w 50 11 + 1)) else 0))

end Sys2Proof.Machine
end

