-- ==== Sys2Proof/Machine/Bind.lean ====
section
/-! DEFINITION. Bindings and the loading of routines (R272, R296 to R302, R36). -/

namespace Sys2Proof.Machine

/-- Does the micro-address lie in the base region or in a page that the context owns (R272, R273)? -/
def State.csReach (s : State) (k : Nat) (a : Nat) : Bool :=
  a < 0x0800 || (a < 0x2000 && (tget (tget s.cores (tget s.strands k).core).pages (a / 256)).owner = some k)

/-- A binding slot's word (R296). -/
def slotWord (bound : Nat) (ent : BitVec 14) : Word :=
  (1 : BitVec 1) ++ (0 : BitVec 35) ++ BitVec.ofNat 12 (bound - 1) ++ (0 : BitVec 2) ++ ent

/-- The slot of BIND, UNBIND and BINDQ (R272). -/
def slotOfEA (o : FmtEA) : Nat := o.imm.toNat % 64

/-- BIND (R272, R299). -/
def execBind (o : FmtEA) (s : State) : Out := finish s (do
  let a : BitVec 14 := (s.reg o.sa).extractLsb' 0 14
  let b := (s.reg o.sb).toNat
  let n := slotOfEA o
  need (1 ≤ b && b ≤ 4096) cIllegal s.issue.word
  need (s.csReach s.cur a.toNat) cIso (a.setWidth 64)
  need (bitAt (cget s.me.bind n) 63 || s.me.bind.countP (fun e => bitAt e.2 63) < 32) cWindow (BitVec.ofNat 64 n)
  return s.onMe (fun t => { t with bind := cset t.bind n (slotWord b a) }))

/-- UNBIND (R272). -/
def execUnbind (o : FmtEA) (s : State) : Out :=
  .next (s.onMe (fun t => { t with bind := cset t.bind (slotOfEA o) 0 }))

/-- BINDQ (R272): 0 when unbound. -/
def execBindq (o : FmtEA) (s : State) : Out :=
  let w := cget s.me.bind (slotOfEA o)
  .next (s.landS latEB o.sd (if bitAt w 63 then w else 0))

/-- The lowest free load group record of a strand (R296). -/
def Strand.freeGroup (t : Strand) : Option Nat := (List.range 24).find? (fun i => !(tget t.groups i).gv)

/-- R301 steps 3 and 4 for strand `k`: pages are taken and the record written; the group's micro-address. -/
def State.loadGroup (s : State) (k image n rec_ : Nat) : Option (Nat × State) :=
  let t := tget s.strands k
  let c := tget s.cores t.core
  match csAlloc c.pages t.part t.ig image n with
  | none => none
  | some (p, kept) =>
    let order := c.pages.foldl (fun m e => max m e.2.order) 0 + 1
    let g : LoadGroup := { gv := true, gn := BitVec.ofNat 5 (n - 1), gma := BitVec.ofNat 14 (256 * p),
                           gsrc := BitVec.ofNat 44 (image / 4096) }
    some (256 * p, (s.onCore t.core (fun c => { c with pages := csTake c.pages k t.part t.ig image p n kept order })).onStrand k
      (fun t => { t with groups := tset t.groups rec_ g }))

/-- CSLOAD (R272, R301). -/
def execCsload (o : FmtEA) (s : State) : Out := finish s (do
  let a := s.reg o.sa
  let b := (s.reg o.sb).toNat
  need (1 ≤ b && b ≤ 24) cBounds (s.reg o.sb)
  need (fld a 0 12 = 0) cAlign a
  let _ ← s.vPlaces a.toNat (4096 * b) 3 1
  match s.me.freeGroup with
  | none => return s.landS latEB o.sd (BitVec.ofNat 64 (2 ^ 63 + 1))
  | some g => match s.loadGroup s.cur a.toNat b g with
    | none => return s.landS latEB o.sd (BitVec.ofNat 64 (2 ^ 63 + 1))
    | some (m, s) => return s.landS latEB o.sd (BitVec.ofNat 64 m))

/-- R300: a word of a page image as the loader writes it into a group at micro-address `m`. A relocated TGT at or above 0x2000 traps when
it is executed; R300 does not say what the 14-bit field holds where the sum passes 0x3FFF: the word keeps the TGT of its image, which is
above 0x2000 too (DESIGN CHOICE, log 94). -/
def relocate (m i : Nat) (w : BitVec 128) : BitVec 128 :=
  let seq := (w.extractLsb' 124 4).toNat
  let tgt := (w.extractLsb' 110 14).toNat
  let moved := tgt + (m - 0x0800)
  if i < 252 && 1 ≤ seq && seq ≤ 6 && 0x0800 ≤ tgt && moved < 0x4000 then
    w.extractLsb' 124 4 ++ BitVec.ofNat 14 moved ++ w.extractLsb' 0 110
  else w

/-- The words of a page image loaded into a group at `m`. -/
def pageWords (m : Nat) (l : List Byte) : Cells 128 :=
  cwrite [] 0 ((List.range 256).map (fun i => relocate m i (BitVec.ofNat 128 (leNat ((l.drop (16 * i)).take 16)))))

/-- CONTROL_STORE_PAGE_LOADED (R301): the loader engine has copied a page; pages in the order of their loads.
An image that is not mapped at that moment is not copied, and what its walk met is reported (R99). -/
def execControlStorePageLoaded (core page : Nat) (s : State) : Out :=
  let c := tget s.cores core
  let p := tget c.pages page
  if !p.loading || c.pages.any (fun e => e.2.loading && e.2.order < p.order) then .next s
  else match s.walk p.part p.image with
    | .leaf l =>
      if l.kd < 2 && l.pr && paExists l.kd (l.at p.image.toNat) 4096 then
        let pa := l.at p.image.toNat
        let s := s.noteErrors (p.owner.getD 0) ({ spc := l.kd, lo := pa, n := 4096 } :: s.walkRuns p.part p.image)
        .next (s.onCore core (fun c => { c with
          pages := tset c.pages page { p with loading := false, words := pageWords p.base (s.readMem l.kd pa 4096) } }))
      else .next s
    | _ => .next (s.noteWalk p.part p.image)

/-- CSINV (R272, R302): a slot whose ENT lies in the group loses its BV and nothing else. -/
def execCsinv (o : FmtEA) (s : State) : Out := finish s (do
  let a := s.reg o.sa
  match s.me.groups.find? (fun e => e.2.gv && e.2.gma.toNat = a.toNat) with
  | none => trapE cIso a
  | some (i, g) =>
    let inGroup (p : Nat) : Bool := g.gma.toNat / 256 ≤ p && p ≤ g.gma.toNat / 256 + g.gn.toNat
    let s := s.onCore s.me.core (fun c => { c with
      pages := tmap c.pages (fun p x => if inGroup p then { x with owner := none, valid := false, loading := false } else x) })
    return s.onMe (fun t => { t with
      groups := tdel t.groups i,
      bind := (t.bind.map (fun e => (e.1, if inGroup (fld e.2 0 14 / 256) then e.2 &&& 0x7FFFFFFFFFFFFFFF else e.2))).filter
        (fun e => e.2 ≠ 0) }))

/-- Are pages of strand `k`'s context still being loaded (R272, R301)? -/
def State.csLoading (s : State) (k : Nat) : Bool :=
  (tget s.cores (tget s.strands k).core).pages.any (fun e => e.2.loading && e.2.owner = some k)

/-- CSFENCE (R272): the next bundle waits until every load of the context is over. -/
def execCsfence (_ : FmtEA) (s : State) : Out := .next (s.onMe (fun t => { t with csFenced := true }))

end Sys2Proof.Machine
end

