-- ==== Sys2Proof/Machine/Scalar.lean ====
section
/-! DEFINITION. Scalar integer instructions of slots A0 and A1 (R180 to R184). -/

namespace Sys2Proof.Machine

/-- A register-register instruction: s[SD] := f(a, b) at its latency (R180). -/
def scalarRR (lat : Nat) (f : Word → Word → Word) (o : FmtSR) (s : State) : Out :=
  .next (s.landS lat o.sd (f (s.reg o.sa) (s.reg o.sb)))

/-- An immediate instruction: s[SD] := f(a) in class IA (R183). -/
def scalarRI (f : Word → BitVec 28 → Word) (o : FmtSI) (s : State) : Out :=
  .next (s.landS latIA o.sd (f (s.reg o.sa) o.imm))

/-- A truth value as 1 or 0. -/
def truth (b : Bool) : Word := if b then 1 else 0

/-- The shift amount of a register shift: b<5..0> (R180). -/
def shamt (b : Word) : Nat := (b.extractLsb' 0 6).toNat

/-- Number of leading zero bits. -/
def clz64 (a : Word) : Nat := if a = 0 then 64 else 63 - Nat.log2 a.toNat

/-- Number of trailing zero bits. -/
def ctz64 (a : Word) : Nat := ((List.range 64).find? (fun i => bitAt a i)).getD 64

/-- Number of one bits. -/
def popc64 (a : Word) : Nat := (List.range 64).countP (fun i => bitAt a i)

/-- Bits in reverse order. -/
def brev64 (a : Word) : Word :=
  (List.range 64).foldl (fun r i => (r <<< 1) ||| (if bitAt a i then 1 else 0)) 0

/-- Bytes in reverse order. -/
def bswap64 (a : Word) : Word := BitVec.ofNat 64 (leNat (dwBytes a).reverse)

/-- The low 32 bits, sign extended. -/
def sextW (a : Word) : Word := (a.extractLsb' 0 32).signExtend 64

/-- R181: DIV, with the results it gives for b = 0 and for −2^63 ÷ −1. -/
def divSigned (a b : Word) : Word :=
  if b = 0 then BitVec.allOnes 64 else BitVec.ofInt 64 (Int.tdiv a.toInt b.toInt)

/-- R181: DIVU. -/
def divUnsigned (a b : Word) : Word := if b = 0 then BitVec.allOnes 64 else a / b

/-- R181: REM. -/
def remSigned (a b : Word) : Word :=
  if b = 0 then a else BitVec.ofInt 64 (Int.tmod a.toInt b.toInt)

/-- R181: REMU. -/
def remUnsigned (a b : Word) : Word := if b = 0 then a else a % b

/-- ADD (R180). -/
def execAdd (o : FmtSR) (s : State) : Out := scalarRR latIA (fun a b => a + b) o s
/-- SUB (R180). -/
def execSub (o : FmtSR) (s : State) : Out := scalarRR latIA (fun a b => a - b) o s
/-- AND (R180). -/
def execAndR (o : FmtSR) (s : State) : Out := scalarRR latIA (fun a b => a &&& b) o s
/-- OR (R180). -/
def execOrR (o : FmtSR) (s : State) : Out := scalarRR latIA (fun a b => a ||| b) o s
/-- XOR (R180). -/
def execXorR (o : FmtSR) (s : State) : Out := scalarRR latIA (fun a b => a ^^^ b) o s
/-- ANDN (R180). -/
def execAndn (o : FmtSR) (s : State) : Out := scalarRR latIA (fun a b => a &&& ~~~ b) o s
/-- ORN (R180). -/
def execOrn (o : FmtSR) (s : State) : Out := scalarRR latIA (fun a b => a ||| ~~~ b) o s
/-- XNOR (R180). -/
def execXnor (o : FmtSR) (s : State) : Out := scalarRR latIA (fun a b => ~~~ (a ^^^ b)) o s
/-- SLL (R180). -/
def execSll (o : FmtSR) (s : State) : Out := scalarRR latIA (fun a b => a <<< shamt b) o s
/-- SRL (R180). -/
def execSrl (o : FmtSR) (s : State) : Out := scalarRR latIA (fun a b => a >>> shamt b) o s
/-- SRA (R180). -/
def execSra (o : FmtSR) (s : State) : Out := scalarRR latIA (fun a b => a.sshiftRight (shamt b)) o s
/-- ROL (R180). -/
def execRol (o : FmtSR) (s : State) : Out := scalarRR latIA (fun a b => a.rotateLeft (shamt b)) o s
/-- ROR (R180). -/
def execRor (o : FmtSR) (s : State) : Out := scalarRR latIA (fun a b => a.rotateRight (shamt b)) o s
/-- SLT (R180). -/
def execSlt (o : FmtSR) (s : State) : Out := scalarRR latIA (fun a b => truth (a.slt b)) o s
/-- SLTU (R180). -/
def execSltu (o : FmtSR) (s : State) : Out := scalarRR latIA (fun a b => truth (a.ult b)) o s
/-- SEQ (R180). -/
def execSeq (o : FmtSR) (s : State) : Out := scalarRR latIA (fun a b => truth (a == b)) o s
/-- SNE (R180). -/
def execSne (o : FmtSR) (s : State) : Out := scalarRR latIA (fun a b => truth (a != b)) o s
/-- MIN (R180). -/
def execMin (o : FmtSR) (s : State) : Out := scalarRR latIA (fun a b => if a.sle b then a else b) o s
/-- MAX (R180). -/
def execMax (o : FmtSR) (s : State) : Out := scalarRR latIA (fun a b => if b.sle a then a else b) o s
/-- MINU (R180). -/
def execMinu (o : FmtSR) (s : State) : Out := scalarRR latIA (fun a b => if a.ule b then a else b) o s
/-- MAXU (R180). -/
def execMaxu (o : FmtSR) (s : State) : Out := scalarRR latIA (fun a b => if b.ule a then a else b) o s
/-- SEL (R180). -/
def execSel (o : FmtSR) (s : State) : Out :=
  .next (s.landS latIA o.sd (if s.reg o.sc ≠ 0 then s.reg o.sa else s.reg o.sb))
/-- MUL (R180). -/
def execMul (o : FmtSR) (s : State) : Out := scalarRR latIM (fun a b => a * b) o s
/-- MULH (R180). -/
def execMulh (o : FmtSR) (s : State) : Out :=
  scalarRR latIM (fun a b => BitVec.ofInt 64 (a.toInt * b.toInt / 2 ^ 64)) o s
/-- MULHU (R180). -/
def execMulhu (o : FmtSR) (s : State) : Out :=
  scalarRR latIM (fun a b => BitVec.ofNat 64 (a.toNat * b.toNat / 2 ^ 64)) o s
/-- DIV (R181). -/
def execDivS (o : FmtSR) (s : State) : Out := scalarRR latID divSigned o s
/-- DIVU (R181). -/
def execDivu (o : FmtSR) (s : State) : Out := scalarRR latID divUnsigned o s
/-- REM (R181). -/
def execRemS (o : FmtSR) (s : State) : Out := scalarRR latID remSigned o s
/-- REMU (R181). -/
def execRemu (o : FmtSR) (s : State) : Out := scalarRR latID remUnsigned o s
/-- ADDW (R180). -/
def execAddw (o : FmtSR) (s : State) : Out := scalarRR latIA (fun a b => sextW (a + b)) o s
/-- SUBW (R180). -/
def execSubw (o : FmtSR) (s : State) : Out := scalarRR latIA (fun a b => sextW (a - b)) o s
/-- MULW (R180). -/
def execMulw (o : FmtSR) (s : State) : Out := scalarRR latIM (fun a b => sextW (a * b)) o s
/-- CLZ (R180). -/
def execClz (o : FmtSR) (s : State) : Out := scalarRR latIA (fun a _ => BitVec.ofNat 64 (clz64 a)) o s
/-- CTZ (R180). -/
def execCtz (o : FmtSR) (s : State) : Out := scalarRR latIA (fun a _ => BitVec.ofNat 64 (ctz64 a)) o s
/-- POPC (R180). -/
def execPopc (o : FmtSR) (s : State) : Out := scalarRR latIA (fun a _ => BitVec.ofNat 64 (popc64 a)) o s
/-- BREV (R180). -/
def execBrev (o : FmtSR) (s : State) : Out := scalarRR latIA (fun a _ => brev64 a) o s
/-- BSWAP (R180). -/
def execBswap (o : FmtSR) (s : State) : Out := scalarRR latIA (fun a _ => bswap64 a) o s
/-- ABS (R180). -/
def execAbsR (o : FmtSR) (s : State) : Out := scalarRR latIA (fun a _ => if a.msb then -a else a) o s

/-- The field a<POS + LEN..POS> of format SF as a number (R182). -/
def fieldOf (o : FmtSF) (a : Word) : Nat := fld a o.pos.toNat (o.len.toNat + 1)

/-- EXT (R182). -/
def execExt (o : FmtSF) (s : State) : Out :=
  let n := o.len.toNat + 1
  let f := fieldOf o (s.reg o.sa)
  .next (s.landS latIA o.sd (BitVec.ofInt 64 (if f < 2 ^ (n - 1) then f else f - 2 ^ n)))
/-- EXTU (R182). -/
def execExtu (o : FmtSF) (s : State) : Out :=
  .next (s.landS latIA o.sd (BitVec.ofNat 64 (fieldOf o (s.reg o.sa))))
/-- INS (R182). -/
def execIns (o : FmtSF) (s : State) : Out :=
  let m : Word := BitVec.ofNat 64 ((2 ^ (o.len.toNat + 1) - 1) * 2 ^ o.pos.toNat)
  .next (s.landS latIA o.sd ((s.reg o.sa &&& ~~~ m) ||| ((s.reg o.sb <<< o.pos.toNat) &&& m)))

/-- ADDI (R183). -/
def execAddi (o : FmtSI) (s : State) : Out := scalarRI (fun a i => a + i.signExtend 64) o s
/-- ANDI (R183). -/
def execAndi (o : FmtSI) (s : State) : Out := scalarRI (fun a i => a &&& i.setWidth 64) o s
/-- ORI (R183). -/
def execOri (o : FmtSI) (s : State) : Out := scalarRI (fun a i => a ||| i.setWidth 64) o s
/-- XORI (R183). -/
def execXori (o : FmtSI) (s : State) : Out := scalarRI (fun a i => a ^^^ i.setWidth 64) o s
/-- SLLI (R183). -/
def execSlli (o : FmtSI) (s : State) : Out := scalarRI (fun a i => a <<< i.toNat) o s
/-- SRLI (R183). -/
def execSrli (o : FmtSI) (s : State) : Out := scalarRI (fun a i => a >>> i.toNat) o s
/-- SRAI (R183). -/
def execSrai (o : FmtSI) (s : State) : Out := scalarRI (fun a i => a.sshiftRight i.toNat) o s
/-- SLTI (R183). -/
def execSlti (o : FmtSI) (s : State) : Out := scalarRI (fun a i => truth (a.slt (i.signExtend 64))) o s
/-- SLTUI (R183). -/
def execSltui (o : FmtSI) (s : State) : Out := scalarRI (fun a i => truth (a.ult (i.setWidth 64))) o s
/-- ADDPC (R183): B is the address of the bundle. -/
def execAddpc (o : FmtSI) (s : State) : Out :=
  .next (s.landS latIA o.sd (s.me.pc.setWidth 64 + o.imm.signExtend 64))

/-- LI (R184). -/
def execLi (o : FmtSW) (s : State) : Out := .next (s.landS latIA o.sd (o.imm.signExtend 64))
/-- LIH (R184). -/
def execLih (o : FmtSW) (s : State) : Out :=
  .next (s.landS latIA o.sd (o.imm ++ (s.reg o.sd).extractLsb' 0 32))

end Sys2Proof.Machine
end

