-- ==== Sys2Proof/Machine/Branch.lean ====
section
/-! DEFINITION. The branches of slot A1 (R68, R69, R185 to R189). -/

namespace Sys2Proof.Machine

/-- T = base + 8 × sext(DISP), on 64 bits (R185). -/
def targetOf {n : Nat} (base : Word) (disp : BitVec n) : Word := base + (disp.signExtend 64 <<< 3)

/-- A redirect entry of a taken branch to T in form BF (R69). -/
def takenEntry (bf : BitVec 2) (target : Word) : Redirect :=
  { rd := 2, ra1 := bf = 2, ra2 := bf = 2, rt := target.extractLsb' 0 56 }

/-- The entry of a `.A` branch that is not taken (R69). -/
def annulEntry : Redirect := { rd := 2, ra1 := true, ra2 := true, rt := 0 }

/-- The effect of an executing branch on the redirect queue (R69, R185). -/
def branch (taken : Bool) (bf : BitVec 2) (target : Word) (s : State) : Res State := do
  if taken then
    need (targetOk target) cFlow target
    return { s with issue := { s.issue with redirect := some (takenEntry bf target) } }
  else if bf = 1 then
    return { s with issue := { s.issue with redirect := some annulEntry } }
  else return s

/-- The bundle's address as a 64-bit value. -/
def State.base (s : State) : Word := s.me.pc.setWidth 64

/-- A compare branch of format BC (R186). -/
def branchBC (p : Word → Word → Bool) (o : FmtBC) (s : State) : Out :=
  finish s (branch (p (s.reg o.sa) (s.reg o.sb)) o.bf (targetOf s.base o.disp) s)

/-- A compare branch of format BK (R186). -/
def branchBK (p : Word → Word → Bool) (o : FmtBK) (s : State) : Out :=
  finish s (branch (p (s.reg o.sa) (o.imm.signExtend 64)) o.bf (targetOf s.base o.disp) s)

/-- BEQ (R186). -/
def execBeq (o : FmtBC) (s : State) : Out := branchBC (fun a b => a == b) o s
/-- BNE (R186). -/
def execBne (o : FmtBC) (s : State) : Out := branchBC (fun a b => a != b) o s
/-- BLT (R186). -/
def execBlt (o : FmtBC) (s : State) : Out := branchBC (fun a b => a.slt b) o s
/-- BGE (R186). -/
def execBge (o : FmtBC) (s : State) : Out := branchBC (fun a b => b.sle a) o s
/-- BLTU (R186). -/
def execBltu (o : FmtBC) (s : State) : Out := branchBC (fun a b => a.ult b) o s
/-- BGEU (R186). -/
def execBgeu (o : FmtBC) (s : State) : Out := branchBC (fun a b => b.ule a) o s
/-- BEQI (R186). -/
def execBeqi (o : FmtBK) (s : State) : Out := branchBK (fun a b => a == b) o s
/-- BNEI (R186). -/
def execBnei (o : FmtBK) (s : State) : Out := branchBK (fun a b => a != b) o s
/-- BLTI (R186). -/
def execBlti (o : FmtBK) (s : State) : Out := branchBK (fun a b => a.slt b) o s
/-- BGEI (R186). -/
def execBgei (o : FmtBK) (s : State) : Out := branchBK (fun a b => b.sle a) o s

/-- BT (R187): taken when a<BN> = BS. -/
def execBtR (o : FmtBT) (s : State) : Out :=
  finish s (branch (bitAt (s.reg o.sa) o.bn.toNat == (o.bs == 1)) o.bf (targetOf s.base o.disp) s)

/-- R187: is the selected field of a per-tile status word non-zero? -/
def statusField (bn : Nat) (a : Word) : Bool := match bn with
  | 0 => fld a 49 11 ≠ 0
  | 1 => fld a 38 11 ≠ 0
  | 2 => fld a 27 11 ≠ 0
  | 3 => fld a 16 11 ≠ 0
  | 4 => fld a 5 11 ≠ 0
  | 5 => bitAt a 4
  | 6 => bitAt a 62
  | _ => bitAt a 62 || fld a 4 56 ≠ 0

/-- BSW (R187). -/
def execBsw (o : FmtBT) (s : State) : Out :=
  finish s (branch (statusField o.bn.toNat (s.reg o.sa) == (o.bs == 1)) o.bf (targetOf s.base o.disp) s)

/-- BDNZ (R188). -/
def execBdnz (o : FmtBC) (s : State) : Out :=
  let v := s.reg o.sa - 1
  finish s ((branch (v != 0) o.bf (targetOf s.base o.disp) s).map (fun s => s.landS latIA o.sa v))

/-- A linking branch (R189): always taken, s[SD] := the link. -/
def branchLink (o : FmtBL) (target : Word) (s : State) : Out :=
  finish s ((branch true o.bf target s).map (fun s' =>
    s'.landS latIA o.sd (BitVec.ofNat 64 (s.linkOf s.me s.me.pc.toNat))))

/-- JL (R189). -/
def execJl (o : FmtBL) (s : State) : Out := branchLink o (targetOf s.base o.disp) s
/-- JLX (R189). -/
def execJlx (o : FmtBL) (s : State) : Out := branchLink o (targetOf (s.reg o.sa) o.disp) s

end Sys2Proof.Machine
end

