-- ==== Sys2Proof/Machine/Impose.lean ====
section
/-! DEFINITION. Imposition and collation: the registers of a gang and their commit (R329 to R332, R338,
R339), blocks (R333 to R335), claims (R336, R341, R342), retirement (R343) and hand-over (R344), with the
faults of the collation map (R417). -/

namespace Sys2Proof.Machine

/-- A register of an imposition. -/
def imReg (im : Cells 64) (n : Nat) : Word := cget im n

/-- NL (R329). -/
def imNL (im : Cells 64) : Nat := fld (imReg im 0) 27 3
/-- PO_m (R329). -/
def imPO (im : Cells 64) (m : Nat) : Nat := fld (imReg im 0) (30 + 3 * m) 3
/-- TR (R329). -/
def imTR (im : Cells 64) : Nat := fld (imReg im 0) 20 7
/-- WM (R329). -/
def imWM (im : Cells 64) : BitVec 4 := (imReg im 0).extractLsb' 16 4
/-- BE_d (R330). -/
def imBE (im : Cells 64) (d : Nat) : Nat := fld (imReg im (1 + d)) 8 8
/-- EG_d: grains of loop d (R328). -/
def imEG (im : Cells 64) (d : Nat) : Nat := ceilDiv (fld (imReg im (1 + d)) 32 32) (fld (imReg im (1 + d)) 16 16)
/-- NB_d (R333). -/
def imNB (im : Cells 64) (d : Nat) : Nat := ceilDiv (imEG im d) (imBE im d)
/-- IAB and CMB (R331), slice forms. -/
def imIAB (im : Cells 64) : Nat := fld (imReg im 7) 32 32
/-- CMB. -/
def imCMB (im : Cells 64) : Nat := fld (imReg im 7) 0 32
/-- Product over the loops. -/
def imProd (im : Cells 64) (f : Nat → Nat) : Nat := (List.range (imNL im)).foldl (fun a d => a * f d) 1
/-- NG (R328). -/
def imNG (im : Cells 64) : Nat := imProd im (imEG im)
/-- NB (R333). -/
def imBlocks (im : Cells 64) : Nat := imProd im (imNB im)
/-- The weight of loop d in the linear index (R328). -/
def imWeight (im : Cells 64) (d : Nat) : Nat := (List.range d).foldl (fun a e => a * imEG im e) 1

/-- Grain g's coordinate in loop d. -/
def imCoord (im : Cells 64) (g d : Nat) : Nat := g / imWeight im d % imEG im d

/-- The block that holds a grain (R333). -/
def imBlockOf (im : Cells 64) (g : Nat) : Nat :=
  (List.range (imNL im)).foldl (fun b m => let d := imPO im m; b * imNB im d + imCoord im g d / imBE im d) 0

/-- The position of block b in the loop at nesting position m (R333). -/
def imBeta (im : Cells 64) (b m : Nat) : Nat :=
  let inner := ((List.range (imNL im)).filter (fun k => m < k)).foldl (fun a k => a * imNB im (imPO im k)) 1
  b / inner % imNB im (imPO im m)

/-- The block order of block b: its grains, the innermost loop varying fastest (R333). -/
def imGrains (im : Cells 64) (b : Nat) : List Nat :=
  (List.range (imNL im)).foldl (fun acc m =>
    let d := imPO im m
    let lo := imBeta im b m * imBE im d
    let n := min (lo + imBE im d) (imEG im d) - lo
    acc.flatMap (fun g => (List.range n).map (fun i => g + (lo + i) * imWeight im d))) [0]

/-- The workers of an imposition (R334). -/
def State.workers (s : State) (g : Nat) (im : Cells 64) : List Nat := s.participants g (imWM im)

/-- R331: `n` bytes from a slice form lie within its slice, which the partition owns. -/
def State.inSlice (s : State) (part a n : Nat) : Bool :=
  (tget s.parts part).res.slices.contains (a / 2 ^ 26) && a % 2 ^ 26 + n ≤ 2 ^ 26

/-- Bytes of the imposition area (R337). -/
def areaBytes : Nat := 0x41000

/-- R339: does the imposition meet the limits of a commit? -/
def State.commitOk (s : State) (part g : Nat) (im : Cells 64) : Bool :=
  let x := tget s.gangs g
  let nl := imNL im
  let loops := List.range nl
  let r0 := imReg im 0
  1 ≤ nl && nl ≤ 6 && loops.all (fun d => loops.any (fun m => imPO im m = d)) &&
    loops.all (fun d => fld (imReg im (1 + d)) 32 32 ≠ 0 && fld (imReg im (1 + d)) 16 16 ≠ 0 && imBE im d ≠ 0 &&
      fld (imReg im (1 + d)) 1 7 = 0) &&
    imProd im (imBE im) ≤ 64 && imNG im ≤ 2 ^ 29 && fld r0 0 16 = 0 &&
    (List.range 96).all (fun r => let e := fld (imReg im (10 + r / 16)) (4 * (r % 16)) 4; e < 12 || e = 15) &&
    !(s.workers g im).isEmpty && imTR im < x.strands.length &&
    imIAB im % 4096 = 0 && imCMB im % 8 = 0 && s.inSlice part (imIAB im) areaBytes &&
    s.inSlice part (imCMB im) (ceilDiv (imNG im) 8) &&
    (!x.claimed || (nl = imNL x.imf && imReg im 7 = imReg x.imf 7 && loops.all (fun d =>
      fld (imReg im (1 + d)) 16 48 = fld (imReg x.imf (1 + d)) 16 48 &&
        bitAt (imReg im (1 + d)) 0 == bitAt (imReg x.imf (1 + d)) 0))) &&
    !x.endSeen

/-- IMPR (R338): the register as it was last written, its GEN the one written by nobody, as R378 shows (log 87). im8 and im9 read 0
(R331). -/
def execImpr (o : FmtEA) (s : State) : Out :=
  let n := o.imm.toNat
  .next (s.landS latEB o.sd (if n = 8 || n = 9 then 0 else imReg s.gang.im n))

/-- R338: the strand with tuner rights. -/
def State.mayTune (s : State) : Bool :=
  s.me.rank = (if s.gang.gen = 0 then 0 else imTR s.gang.imf)

/-- IMPW n, n = 1 to 15 (R331, R338). -/
def execImpw (o : FmtEA) (s : State) : Out := finish s (do
  let n := o.imm.toNat
  need (s.mayTune && n ≠ 8 && n ≠ 9) cImp (BitVec.ofNat 64 n)
  return s.onGang s.me.gang (fun g => { g with im := cset g.im n (s.reg o.sa) }))

/-- IMPW 0: write im0 and commit (R338, R339). -/
def execImpwCommit (o : FmtEA) (s : State) : Out := finish s (do
  need s.mayTune cImp 0
  let a := s.reg o.sa
  let g := s.gang
  let im := cset g.im 0 (im0Written a)
  if !s.commitOk s.me.part s.me.gang im then .error (.trap { cause := cImp, im0 := some a })
  else
    let gen : BitVec 16 := if g.gen + 1 = 0 then 1 else g.gen + 1
    return s.onGang s.me.gang (fun g => { g with
      im := im, imf := cset im 0 (gen ++ a.extractLsb' 0 48), gen := gen, cursors := [] }))

/-- A collation fault (R417). -/
def collFault {α : Type} (a reason : Nat) : Res α :=
  .error (.trap { cause := cColl, val := BitVec.ofNat 64 a, aux := BitVec.ofNat 64 reason })

/-- Bit of a grain in the collation map (R336). -/
def State.mapBit (s : State) (im : Cells 64) (g : Nat) : Bool := bitAt (cget s.mem (memKey 1 (imCMB im + g / 8))) (g % 8)

/-- R417: the access of a claim to the bytes of grains. -/
def State.needMap (s : State) (im : Cells 64) (l : List Nat) : Res Unit :=
  let away (a : Nat) : Bool := !s.inSlice s.me.part a 1
  match (l.map (fun g => imCMB im + g / 8)).find? (fun a => away a || s.hasError { spc := 1, lo := a, n := 1 }) with
  | none => .ok ()
  | some a => collFault a (if away a then 1 else 0)

/-- Claim every free grain of a list in one step (R336): the mask granted, bit i for the i-th, and the
machine after it. -/
def State.claim (s : State) (im : Cells 64) (l : List Nat) : Word × State :=
  let free := l.map (fun g => !s.mapBit im g)
  let mask := (l.length.fold (fun i _ a => if free.getD i false then a + 2 ^ i else a) 0)
  let mem := (l.zip free).foldl (fun m p =>
    if p.2 then
      let k := memKey 1 (imCMB im + p.1 / 8)
      cset m k (cget m k ||| BitVec.ofNat 8 (2 ^ (p.1 % 8)))
    else m) s.mem
  (BitVec.ofNat 64 mask, ({ s with mem := mem }).onGang s.me.gang (fun g => { g with claimed := true }))

/-- The loop of NEXTBLK over the worker's blocks (R341): the cursor, and the block with its mask, if one
grants a grain. -/
def State.nextBlock (s : State) (im : Cells 64) (w nw : Nat) : Nat → Nat → Res (Nat × Option (Nat × Word × State))
  | 0, cursor => .ok (cursor, none)
  | f + 1, cursor => do
    let b := w + nw * cursor
    if imBlocks im ≤ b then return (cursor + 1, none)
    else do
      let l := imGrains im b
      s.needMap im l
      let (m, s') := s.claim im l
      if m ≠ 0 then return (cursor + 1, some (b, m, s'))
      else s.nextBlock im w nw f (cursor + 1)

/-- The resource of R324 at which the home of a gang's collation map stands. -/
def imHome (im : Cells 64) : Nat := 32 + imCMB im / 2 ^ 26

/-- NEXTBLK (R341): each claim is an atomic at the map's home (R325, R326; log 29), the whole one with AQ 1 at gang scope;
the claim record counts its 16 bytes at its home. -/
def execNextblk (o : FmtEA) (s : State) : Out := finish s (do
  let g := s.gang
  let im := g.imf
  let r := s.me.rank
  let ws := s.workers s.me.gang im
  need (g.gen ≠ 0 && ws.contains r && g.blocks.countP (fun b => b.rank = r) < 4) cImp 0
  let w := (firstIdx (fun x => x = r) ws).getD 0
  let ten := s.tenantOf s.me
  needReady (s.placeFree s.me.part ten 1 (imIAB im + 16 * r))
  if !s.atomicFree s.me.part ten (imHome im) then return s.holdBack (imHome im)
  else
  let (cursor, found) ← s.nextBlock im w ws.length (imBlocks im + 1) (tget g.cursors r)
  let claims := cursor - tget g.cursors r - (if found.isNone then 1 else 0)
  match found with
  | none =>
    return (((s.chargeAtomics s.me.part ten (imHome im) claims).onGang s.me.gang (fun g => { g with
      cursors := tset g.cursors r cursor, endSeen := true })).landS latEB o.sd 0xFFFF_FFFF_FFFF_FFFF).fenceMe 1
  | some (b, m, s') =>
    let full : Word := BitVec.ofNat 64 (2 ^ (imGrains im b).length - 1)
    let bw : Word := g.gen ++ ofBool 1 (m ≠ full) ++ (0 : BitVec 15) ++ BitVec.ofNat 32 b
    let rec_ := imIAB im + 16 * r
    if !s.inSlice s.me.part rec_ 16 then collFault rec_ 1
    else
      let live : LiveBlock := { rank := r, word := bw, granted := m, im := im }
      let s' := (s'.writeMem 1 rec_ (dwBytes bw ++ dwBytes m)).onGang s.me.gang (fun g => { g with
        cursors := tset g.cursors r cursor, blocks := g.blocks ++ [live] })
      return (((s'.chargeAtomics s.me.part ten (imHome im) claims).charge s.me.part ten 1 rec_ 16).landS latEB o.sd bw).fenceMe 1)

/-- GCLAIM (R342): an atomic at the map's home (R325, R326; log 29). -/
def execGclaim (o : FmtEA) (s : State) : Out := finish s (do
  let im := s.gang.imf
  let a := (s.reg o.sa).toNat
  let n := o.imm.toNat
  need (s.gang.gen ≠ 0 && a + n ≤ imNG im) cImp (s.reg o.sa)
  let l := (List.range n).map (a + ·)
  s.needMap im l
  let ten := s.tenantOf s.me
  if !s.atomicFree s.me.part ten (imHome im) then return s.holdBack (imHome im)
  else
    let (m, s') := s.claim im l
    return (s'.chargeAtomics s.me.part ten (imHome im) 1).landS latEB o.sd m)

/-- A block word without SUB. -/
def noSub (w : Word) : Word := w &&& ~~~ (0x0000_00FF_0000_0000 : Word)

/-- The live block of the issuing strand that a block word names, SUB ignored (R343). -/
def State.liveBlock (s : State) (a : Word) : Res LiveBlock :=
  match s.gang.blocks.find? (fun b => b.rank = s.me.rank && b.word = noSub a) with
  | some b => .ok b
  | none => trapE cImp a

/-- Retire a live block. -/
def State.retireBlock (s : State) (b : LiveBlock) : State :=
  s.onGang s.me.gang (fun g => { g with blocks := g.blocks.filter (fun x => !(x.rank = b.rank && x.word = b.word)) })

/-- GDONE (R343). -/
def execGdone (o : FmtEA) (s : State) : Out := finish s (do
  let b ← s.liveBlock (s.reg o.sa)
  return s.retireBlock b)

/-- Address of hand-over record n (R337). -/
def recordAt (im : Cells 64) (n : Nat) : Nat := imIAB im + 0x600 + 32 * n

/-- R344 step 2: the block of the imposition in force that a live block is superseded by, for the grain SUB; none where it is not
superseded. -/
def State.supersededBy (s : State) (b : LiveBlock) (sub : Nat) : Option Nat :=
  let im := s.gang.imf
  let grains := imGrains b.im (fld b.word 0 32)
  let eb := imBlockOf im (grains.getD sub 0)
  let outer := imGrains im eb
  if b.word.extractLsb' 48 16 = s.gang.gen || (outer.length = grains.length && outer.all (fun g => grains.contains g)) then none
  else some eb

/-- R344 step 3: the lowest hand-over record whose HV is 0. -/
def State.freeRecord (s : State) (im : Cells 64) : Option Nat :=
  (List.range 64).find? (fun n => !bitAt (dwAt (s.readMem 1 (recordAt im n) 8) 0) 63)

/-- HANDOV (R344): kind and state of the tile come before what R344 adds (R170). The record write is an atomic with RE 1 at gang
scope (R143) at the home of the imposition area, to which the slot's drain is charged too (R325). Where the drain or the write
cannot be performed, which is an input, the fault has reason 2 (R417; log 88). -/
def execHandov (o : FmtEA) (s : State) : Out := finish s (do
  let a := s.reg o.sa
  let th : BitVec 5 := o.imm.extractLsb' 0 5
  needTile s.me th
  needKind s.me th (fun k => k = 2)
  needReady88 s.me th
  let e := s.me.tile th
  needReady (e.rc = 0)
  let b ← s.liveBlock a
  let grains := imGrains b.im (fld b.word 0 32)
  let sub := fld a 32 8
  need (sub < grains.length) cImp a
  let im := s.gang.imf
  match s.supersededBy b sub with
  | none => return s.landS latEB o.sd 0xFFFF_FFFF_FFFF_FFFF
  | some eb =>
    if !s.inSlice s.me.part (imIAB im) areaBytes then collFault (recordAt im 0) 1
    else match s.freeRecord im with
      | none => return s.landS latEB o.sd 0xFFFF_FFFF_FFFF_FFFE
      | some n =>
        needReady (!s.me.holding)
        let ten := s.tenantOf s.me
        let home := 32 + imIAB im / 2 ^ 26
        if !s.atomicFree s.me.part ten home then return s.holdBack home
        else if s.dev.slotFaults.contains (imIAB im / 2 ^ 26) then collFault (recordAt im n) 2
        else
          let ws := s.workers s.me.gang im
          let dr := ws.getD (eb % ws.length) 0
          let s := s.writeMem 1 (imIAB im + 0x1000 + 4096 * n) (s.me.tileBytes e 0 4096)
          let nbw : Word := s.gang.gen ++ (0 : BitVec 16) ++ BitVec.ofNat 32 eb
          let head : Word := (1 : BitVec 1) ++ BitVec.ofNat 7 s.me.rank ++ BitVec.ofNat 7 dr ++ (0 : BitVec 49)
          let s := s.writeMem 1 (recordAt im n) (dwBytes head ++ dwBytes a ++ dwBytes nbw ++ dwBytes b.granted)
          let s := s.onMe (fun t => t.onTile th (fun e => { e with ts := 0 }))
          let s := ((s.retireBlock b).chargeAt s.me.part ten home 4096).chargeAtomics s.me.part ten home 1
          return s.landS latEB o.sd (BitVec.ofNat 64 dr))

end Sys2Proof.Machine
end

