-- ==== Sys2Proof/Machine/Sched.lean ====
section
/-! DEFINITION. The hardware scheduler: candidates and their choice (R315 to R320), the placement of a gang
with the loading of its code and routines (R30, R35, R36, R73, R76, R89, R105, R298, R396), tokens (R314,
R316), requests and the ladder of pre-emption (R321, R409 to R411), the scheduling table (R309 to R313, R327). -/

namespace Sys2Proof.Machine

/-- Fills of instruction memory read a code page as the strand does (R89): its bytes, if it may be filled. -/
def State.codePage (s : State) (part a : Nat) : Option (List Byte) := s.devRead part a 4096

/-- The contents of a half for the code range of a strand's PC (R89); a page left unfilled keeps the bytes that stood
there. -/
def State.halfFor (s : State) (old : Half) (t : Strand) : Half :=
  let base := t.pc.toNat / 65536
  (List.range 16).foldl (fun h i => match s.codePage t.part (65536 * base + 4096 * i) with
    | some l => { h with mem := cwrite h.mem (4096 * i) l }
    | none => { h with absent := h.absent ++ [i] })
    { filled := true, ig := t.ig, base := BitVec.ofNat 40 base, mem := old.mem }

/-- Half `h` of a core. -/
def Core.half (c : Core) (h : Nat) : Half := if h = 0 then c.half0 else c.half1

/-- Replace half `h` of a core. -/
def Core.setHalf (c : Core) (h : Nat) (x : Half) : Core := if h = 0 then { c with half0 := x } else { c with half1 := x }

/-- Does a context of the core fetch from its half `h` (R89)? -/
def State.halfUsed (s : State) (core h : Nat) : Bool :=
  s.strands.any (fun e => e.2.resident && e.2.core = core && !e.2.ended &&
    ((tget s.cores core).half h).holds e.2.ig e.2.pc.toNat)

/-- INSTRUCTION_HALF_FILL (R89): a half that no context uses is filled for a strand whose fetch missed. -/
def execInstructionHalfFill (strand half : Nat) (s : State) : Out :=
  let t := tget s.strands strand
  let c := tget s.cores t.core
  if !t.resident || t.ended || 1 < half || (c.halfOf t.ig t.pc.toNat).isSome || s.halfUsed t.core half then .next s
  else
    let s' := (s.noteRead t.part (t.pc.toNat / 65536 * 65536) 65536).onCore t.core
      (fun c => c.setHalf half (s.halfFor (c.half half) t))
    .next { s' with strands := tmap s'.strands (fun _ x =>
      if x.core = t.core && x.ig = t.ig then { x with stale := x.stale.filter (fun e => e.1 / 8192 ≠ t.pc.toNat / 65536) }
      else x) }

/-- R89: pages of a restored strand's half that its next fetch touches and that are absent are filled again. -/
def State.refill (s : State) (k : Nat) : State :=
  let t := tget s.strands k
  let c := tget s.cores t.core
  let a := t.pc.toNat % 65536
  let want (x : Half) : List Nat :=
    if x.holds t.ig t.pc.toNat
    then x.absent.filter (fun i => i = (a - 8) / 4096 || i = a / 4096 || i = min 15 ((a + 63) / 4096)) else []
  let fix (x : Half) : Half := (want x).foldl (fun x i =>
    match s.codePage t.part (65536 * x.base.toNat + 4096 * i) with
    | some l => { x with absent := x.absent.filter (· ≠ i), mem := cwrite x.mem (4096 * i) l }
    | none => x) x
  let s := (want c.half0 ++ want c.half1).foldl
    (fun s i => s.noteRead t.part (t.pc.toNat / 65536 * 65536 + 4096 * i) 4096) s
  s.onCore t.core (fun c => { c with half0 := fix c.half0, half1 := fix c.half1 })

/-- The head placeable entry of a queue (R40, R319); a queue closed by a tenant stop has none. -/
def State.headOf (s : State) (p : Partition) (q : Nat) : Option QEntry :=
  let x := tget p.queues q
  if x.shut then none
  else match x.head with
    | g :: _ => some (.gang g)
    | [] => (x.batches.find? (fun b => (tget s.batches b).hc = 0 && (tget s.batches b).nextGang < (tget s.batches b).gc)).map .batch

/-- The core that a placement map names for a rank (R332). -/
def mapCore (im : Cells 64) (rank : Nat) : Option Nat :=
  let c := fld (cget im (10 + rank / 16)) (4 * (rank % 16)) 4
  if c = 15 then none else some c

/-- The load group records of a strand, in ascending index (R298). -/
def Strand.records (t : Strand) : List (Nat × LoadGroup) := t.groups.filter (fun e => e.2.gv)

/-- Pages and first image of a load group record. -/
def LoadGroup.image (g : LoadGroup) : Nat × Nat := (g.gn.toNat + 1, 4096 * g.gsrc.toNat)

/-- What a strand at rest needs (R73, R298, R320). -/
def State.needOf (s : State) (k : Nat) : Need :=
  let t := tget s.strands k
  let g := tget s.gangs t.gang
  let b := tget s.batches t.batch
  { strand := k, win := t.win,
    groups := if t.fs then t.records.map (fun e => e.2.image) else (b.groupsOf t.role).map b.group,
    core := if g.gen = 0 then none else mapCore g.imf t.rank }

/-- Strands of a gang that have not ended. -/
def State.liveRanks (s : State) (g : Nat) : List Nat := (tget s.gangs g).strands.filter (fun k => !(tget s.strands k).ended)

/-- What an entry's next gang needs. -/
def State.entryNeeds (s : State) : QEntry → List Need
  | .batch b => (tget s.batches b).needs
  | .gang g => (s.liveRanks g).map s.needOf

/-- The image generation of an entry. -/
def State.entryIg (s : State) : QEntry → BitVec 32
  | .batch b => (tget s.batches b).ig
  | .gang g => (tget s.batches (tget s.gangs g).batch).ig

/-- R320: the lowest cluster of the partition that an entry's next gang fits, with the cores of its strands. -/
def State.fitEntry (s : State) (part : Nat) (e : QEntry) : Option (Nat × List Nat) :=
  (sortBy (fun a b => decide (a ≤ b)) (tget s.parts part).res.clusters).findSome? (fun c =>
    (fitGang part (s.entryIg e) ((List.range 12).map (fun i => s.roomOf (12 * c + i))) (s.entryNeeds e)).map (fun l => (c, l)))

/-- The cost of a placement; a re-placement has none (R316). -/
def State.costOf (s : State) : QEntry → Nat
  | .batch b => (tget s.batches b).width
  | .gang _ => 0

/-- Does a queue hold a candidate that pays with its own tenant's tokens, or is re-placed (R315, R317)? -/
def State.basic (s : State) (part q : Nat) : Bool :=
  let p := tget s.parts part
  match s.headOf p q with
  | none => false
  | some e => (s.costOf e = 0 || 0 < (tget p.tenants (tget p.queues q).ten.toNat).bal) && (s.fitEntry part e).isSome

/-- R316: the lender: the idle tenant with the largest balance, the lowest number on equal ones. -/
def State.lender (s : State) (part : Nat) : Option Nat :=
  let p := tget s.parts part
  let idle (n : Nat) : Bool := !(List.range 16).any (fun q => (tget p.queues q).ten.toNat = n && s.basic part q)
  ((List.range p.res.tenants).filter idle).foldl (fun o n => match o with
    | none => some n
    | some m => if (tget p.tenants m).bal < (tget p.tenants n).bal then some n else some m) none

/-- R316: how a tenant pays a cost: nothing to pay or its own tokens (`some none`), a lender, or not at all. -/
def State.payer (s : State) (part ten cost : Nat) : Option (Option Nat) :=
  let p := tget s.parts part
  let t := tget p.tenants ten
  if cost = 0 || 0 < t.bal then some none
  else match s.lender part with
    | some l => if (cost : Int) ≤ (tget p.tenants l).bal && t.db + cost ≤ t.bl then some (some l) else none
    | none => none

/-- A candidate (R317). -/
structure Cand where
  queue : Nat := 0
  entry : QEntry := .batch 0
  cluster : Nat := 0
  cores : List Nat := []
  lender : Option Nat := .none
  since : Nat := 0
  overdue : Bool := false
  pri : Nat := 0
  bal : Int := 0
  deriving DecidableEq, Repr

/-- The candidate of a queue, if it holds one (R317). -/
def State.candidate (s : State) (part q : Nat) : Option Cand :=
  let p := tget s.parts part
  let x := tget p.queues q
  match s.headOf p q with
  | none => none
  | some e => match s.payer part x.ten.toNat (s.costOf e), s.fitEntry part e with
    | some l, some (c, cores) =>
      some { queue := q, entry := e, cluster := c, cores := cores, lender := l, since := x.candSince.getD s.now,
             overdue := x.overdue || x.candSince.any (fun t => t + 5000 ≤ s.now), pri := x.pri.toNat, bal := (tget p.tenants x.ten.toNat).bal }
    | _, _ => none

/-- R318: does `a` come before `b`? -/
def Cand.before (lw : Cells 4) (a b : Cand) : Bool :=
  if a.overdue || b.overdue then
    if a.overdue && b.overdue then (a.since < b.since || (a.since = b.since && a.queue < b.queue)) else a.overdue
  else if a.pri ≠ b.pri then b.pri < a.pri
  else if a.bal ≠ b.bal then b.bal < a.bal
  else
    let turn (c : Cand) : Nat := (c.queue + 31 - (cget lw c.pri).toNat) % 16
    turn a < turn b

/-- R318: the winner of a clock. -/
def State.winner (s : State) (part : Nat) : Option Cand :=
  ((List.range 16).filterMap (s.candidate part)).foldl (fun o c => match o with
    | none => some c
    | some b => if c.before (tget s.parts part).lw b then some c else some b) none

/-- R316: the charge of a first placement. -/
def Partition.charged (p : Partition) (ten cost : Nat) (lender : Option Nat) : Partition := match lender with
  | none => { p with tenants := tset p.tenants ten { tget p.tenants ten with bal := (tget p.tenants ten).bal - cost } }
  | some l =>
    let x := tget p.tenants l
    let ts := tset p.tenants l { x with bal := x.bal - cost, cr := x.cr + cost }
    { p with tenants := tset ts ten { tget ts ten with db := (tget ts ten).db + cost } }

/-- Strand `rank` of gang `g`, index `gi` of batch `n` (R34, R35, R73). -/
def Batch.strand (b : Batch) (n g gi rank : Nat) : Strand :=
  let role := roleOf b.n rank
  let i := gi * b.width + rank
  let ep := b.ep.getD role 0
  { gang := g, part := b.part, batch := n, rank := rank, role := role, win := b.win, pc := ep, entry := ep,
    cb := bitAt b.cbm role, sq := b.ticket.extractLsb' 32 4, bs := b.ticket.extractLsb' 0 32,
    gi := BitVec.ofNat 16 gi, fp := BitVec.ofNat 12 b.fz, fb := b.fr + BitVec.ofNat 56 (4096 * b.fz * i),
    fol := b.fa + BitVec.ofNat 56 (64 * i), pwb := b.pwt, ig := b.ig }

/-- The next gang of a batch comes into being at its first placement (R40). -/
def State.newGang (s : State) (n : Nat) : Nat × State :=
  let b := tget s.batches n
  let g := s.nextId
  let ks := (List.range b.width).map (fun r => g + 1 + r)
  let strands := (List.range b.width).foldl (fun t r => tset t (g + 1 + r) (b.strand n g b.nextGang r)) s.strands
  (g, { s with
    nextId := g + 1 + b.width, strands := strands,
    gangs := tset s.gangs g { batch := n, part := b.part, gi := b.nextGang, strands := ks },
    batches := tset s.batches n { b with nextGang := b.nextGang + 1, gangs := b.gangs ++ [g] } })

/-- The parameter window descriptors as placement reads them (R41). R41 does not say what a table gives that placement cannot
read any more: every window is then unbound, as for a descriptor spoilt after LAUNCH (DESIGN CHOICE, log 84). -/
def State.readPw (s : State) (part : Nat) (pwt : BitVec 56) : Cells 64 :=
  match s.devRead part (pwt.toNat / 64 * 64) 64 with
  | some l => cwrite [] 0 ((List.range 8).map (fun i => if descriptorOk (dwAt l (8 * i)) then dwAt l (8 * i) else 0))
  | none => []

/-- R36: groups and bindings of a strand's first placement. -/
def State.loadRole (s : State) (k : Nat) : State :=
  let t := tget s.strands k
  let b := tget s.batches t.batch
  let (s, at_) := (b.groupsOf t.role).foldl (fun (a : State × Table Nat) i =>
    match a.1.loadGroup k (b.group i).2 (b.group i).1 a.2.length with
    | some (m, s') => (s', tset a.2 i m)
    | none => a) (s, [])
  s.onStrand k (fun t => { t with bind := (b.bindsOf t.role).foldl (fun c e =>
    let ent := (if fld e 49 5 = 31 then 0 else tget at_ (fld e 49 5)) + fld e 23 14
    cset c (fld e 54 6) (slotWord (fld e 37 12 + 1) (BitVec.ofNat 14 ent))) t.bind })

/-- R298: a micro-address moved with the group that held it: old address, pages, new address. -/
def moveAddr (l : List (Nat × Nat × Nat)) (a : BitVec 14) : BitVec 14 :=
  match l.find? (fun g => g.1 ≤ a.toNat && a.toNat < g.1 + 256 * g.2.1) with
  | some g => BitVec.ofNat 14 (a.toNat - g.1 + g.2.2)
  | none => a

/-- R298: the groups of a strand placed again, with what moves with them. -/
def State.reloadGroups (s : State) (k : Nat) : State :=
  let t := tget s.strands k
  let (s, moved) := t.records.foldl (fun (a : State × List (Nat × Nat × Nat)) e =>
    match a.1.loadGroup k e.2.image.2 e.2.image.1 e.1 with
    | some (m, s') => (s', a.2 ++ [(e.2.gma.toNat, e.2.image.1, m)])
    | none => a) (s, [])
  let slot (w : Word) : Word := (w &&& ~~~ (0x3FFF : Word)) ||| (moveAddr moved (w.extractLsb' 0 14)).setWidth 64
  s.onStrand k (fun t => { t with
    bind := cwrite [] 0 ((cvals t.bind 0 64).map slot),
    micro := { t.micro with mpc := moveAddr moved t.micro.mpc, mra := moveAddr moved t.micro.mra } })

/-- What the walks of a restored strand's handles meet (R99, R105, R406). -/
def State.noteHandles (s : State) (t : Strand) : State :=
  let again (s : State) (h : Handle) : State := if h.hs = 0 then s else s.noteWalk t.part (h.vb ++ (0 : BitVec 12))
  (t.hd.map (·.2) ++ t.fly.filterMap (fun l => match l.dest with
    | .handle _ h => some h
    | _ => none)).foldl again s

/-- R105, R200: every handle whose HS is not 0, saved or in flight, is walked again with its VB and RQ. -/
def State.rewalk (s : State) (part : Nat) (t : Strand) : Strand :=
  let again (h : Handle) : Handle := if h.hs = 0 then h else s.translate part (h.vb ++ (0 : BitVec 12)) h.rq
  { t with
    hd := tmap t.hd (fun _ h => again h),
    fly := t.fly.map (fun l => match l.dest with
      | .handle n h => { l with dest := .handle n (again h) }
      | _ => l) }

/-- A strand takes a context of a core (R73, R76, R396): what is restored, or the state of a first placement, at which the context's window
receives a fresh generation (R365). -/
def State.seat (s : State) (k core : Nat) : State :=
  let again := (tget s.gangs (tget s.strands k).gang).firstPlaced
  let t := if again then s.restored (tget s.strands k) else tget s.strands k
  let pw := s.readPw t.part t.pwb
  let s := s.noteRead t.part (t.pwb.toNat / 64 * 64) 64
  let s := if t.fs then s.noteHandles t else s
  let t : Strand := if t.fs then s.rewalk t.part t else t
  let ctx := (s.roomOf core).ctxs.headD 0
  let s := if again then s else s.freshWindow core ctx
  let s := s.onStrand k (fun _ => { t with
    resident := true, core := core, ctx := ctx, st := 7, fs := false, pw := pw, gen := tget s.dev.windowGen (8 * core + ctx), mid := again,
    halted := false, written := false, finishing := false, blocked := false, yieldHold := none, asks := none })
  if t.fs then ((s.restartStream k).reloadGroups k).refill k else (s.loadRole k).refill k

/-- R36, R298: the first page image of a strand's groups that the loader cannot read. A page that translates to kind 0 or 1
and withholds the read right, of which R36 and R298 do not speak, counts as one that does not translate (DESIGN CHOICE,
log 84). -/
def State.imageFault (s : State) (k : Nat) : Option Nat :=
  let t := tget s.strands k
  (t.records.flatMap (fun e => (List.range e.2.image.1).map (fun j => e.2.image.2 + 4096 * j))).find? (fun a =>
    match s.walk t.part (BitVec.ofNat 56 a) with
    | .leaf l => !(l.kd < 2 && l.pr)
    | _ => true)

/-- R382: a strand answered by VECTOR enters its handler as it is restored, or its gang stops. -/
def State.vectorIn (s : State) (k : Nat) : State :=
  match (tget s.strands k).vectorTrap with
  | none => s
  | some tr =>
    let s := s.onStrand k (fun t => { t with vectorTrap := none })
    if (tget s.strands k).canEnter then s.onStrand k (fun t => t.enterHandler tr)
    else { ({ s with cur := k } : State).gangStop tr true with cur := s.cur }

/-- A gang takes its contexts on a cluster in one clock (R30, R320); a page image that cannot be read suspends
it before any strand issues (R36, R298). -/
def State.placeGang (s : State) (g cluster : Nat) (cores : List Nat) : State :=
  let ks := s.liveRanks g
  let s := (ks.zip cores).foldl (fun s p => s.seat p.1 (12 * cluster + p.2)) s
  let s := s.onGang g (fun x => { x with
    cluster := cluster, placed := true, gate := false, placedAt := s.now, firstPlaced := true, answer := false })
  match ks.findSome? (fun k => (s.imageFault k).map (fun a => (k, a))) with
  | some (k, a) =>
    ((s.noteWalk (tget s.strands k).part (BitVec.ofNat 56 a)).postReplay (s.recordOf k { cause := cPage, val := BitVec.ofNat 64 a, aux := faultAux 3 1 0, slot := 7 })).haltGang g 3
  | none => ks.foldl State.vectorIn s

/-- R26: the first strand of a gang whose folio, read for a re-placement, fails its checks. R26 does not say what becomes of a
folio that the device cannot read, its page being unmapped or without the read right: it counts as good, and the gang is
placed with the state that the device keeps (DESIGN CHOICE, logs 6 and 84). -/
def State.badFolio (s : State) (g : Nat) : Option Nat :=
  (s.liveRanks g).find? (fun k => match s.devRead (tget s.strands k).part (tget s.strands k).fol.toNat 64 with
    | some l => !folioOk l
    | none => false)

/-- Change a queue of a partition. -/
def State.onQueue (s : State) (part q : Nat) (f : PQueue → PQueue) : State :=
  s.onPart part (fun p => { p with queues := tset p.queues q (f (tget p.queues q)) })

/-- The entry that a winner names is placed, charged and taken from its queue (R40, R316, R319). -/
def State.placeEntry (s : State) (part : Nat) (c : Cand) : State :=
  let p := tget s.parts part
  let ten := (tget p.queues c.queue).ten.toNat
  match c.entry with
  | .gang g =>
    let s := s.onQueue part c.queue (fun q => { q with head := q.head.filter (· ≠ g) })
    let s := (s.liveRanks g).foldl (fun s k =>
      let t := tget s.strands k
      let s := s.noteRead t.part t.fol.toNat 64
      if t.fs then s.noteRead t.part t.fb.toNat (frameSize t.win) else s) s
    match s.badFolio g with
    | some k =>
      let fol := (tget s.strands k).fol
      (((s.postFatal (s.recordOf k { cause := 0x0030, val := fol.setWidth 64, slot := 7 })).batchError
        (tget s.gangs g).batch).onGang g (fun x => { x with stopped := true })).gangOver g
    | none => s.placeGang g c.cluster c.cores
  | .batch b =>
    let s := s.onPart part (fun p => p.charged ten (s.costOf c.entry) c.lender)
    let (g, s) := s.newGang b
    let s := if (tget s.batches b).gc ≤ (tget s.batches b).nextGang
      then s.onQueue part c.queue (fun q => { q with batches := q.batches.filter (· ≠ b) }) else s
    s.placeGang g c.cluster c.cores

/-- SCHEDULER_PLACEMENT (R318 to R320): the winner of the clock is placed and its queue becomes LW; the queue's next candidate
waits anew (R317, R321). No decision is made in a boundary's clock before its refill (R314). -/
def execSchedulerPlacement (part : Nat) (s : State) : Out :=
  if s.dev.stopped || (tget s.parts part).tokenAt ≤ s.now then .next s
  else match s.winner part with
    | none => .next s
    | some c =>
      let s := s.onPart part (fun p => { p with lw := cset p.lw c.pri (BitVec.ofNat 4 c.queue) })
      .next ((s.placeEntry part c).onQueue part c.queue (fun q => { q with candSince := none, overdue := false, headSince := none }))

/-- START_GATE_OPEN (R30, R298): every strand is resident and its groups are loaded. The first bundles are acquires at package
scope, so the cluster's cache is written back and invalidated (R130, R131, R76; log 81). -/
def execStartGateOpen (gang : Nat) (s : State) : Out :=
  if (tget s.gangs gang).placed && (s.liveRanks gang).all (fun k => (tget s.strands k).resident && !s.csLoading k)
  then .next ((s.flush (tget s.gangs gang).cluster (fun _ => true) true).onGang gang (fun x => { x with gate := true, started := true }))
  else .next s

/-- Bits of a bandwidth entry that a resource has (R324): AB only at channel groups and slices. -/
def bwMask (x : Nat) (w : Word) : BitVec 32 := if x < 96 then w.extractLsb' 0 32 else w.extractLsb' 0 32 &&& 0xFFFF0000

/-- The configuration that a word written to the scheduling table gives (R309, R310, R312, R324). QE is not
among it: it takes effect at once (R313). -/
def Partition.configured (p : Partition) (w : PendingWrite) : Partition :=
  if w.off < 0x80 then
    { p with queues := tset p.queues (w.off / 8) { tget p.queues (w.off / 8) with
        pri := w.word.extractLsb' 61 2, ten := w.word.extractLsb' 48 4 } }
  else if 0x100 ≤ w.off && w.off < 0x300 then
    let n := (w.off - 0x100) / 32
    let t := tget p.tenants n
    if w.off % 32 = 0 then { p with tenants := tset p.tenants n { t with rf := fld w.word 48 16, cap := fld w.word 32 16 } }
    else if w.off % 32 = 16 then { p with tenants := tset p.tenants n { t with bl := fld w.word 0 16 } }
    else p
  else if 0x400 ≤ w.off && w.off < 0x2A00 then
    let i := (w.off - 0x400) / 4
    let e := bwMask (i % 152) w.word
    { p with
      bw := cset p.bw i e, noBudget := p.noBudget.filter (· ≠ i),
      lateAb := if (cget p.bw i).extractLsb' 0 16 = 0 && e.extractLsb' 0 16 ≠ 0 then i :: p.lateAb else p.lateAb }
  else p

/-- The configuration with every pending write in force. -/
def Partition.ahead (p : Partition) : Partition := p.pending.foldl Partition.configured p

/-- R313: is a configuration refused? -/
def Partition.badConfig (p : Partition) : Bool :=
  p.tenants.any (fun t => t.2.cap < t.2.rf) || p.queues.any (fun q => q.2.qe && (tget p.tenants q.2.ten.toNat).rf = 0)

/-- R327: what a partition's entries take of a resource, in units. -/
def Partition.unitsAt (p : Partition) (x : Nat) : Nat :=
  if !p.live || !ownsRes p.res x then 0
  else (List.range 16).foldl (fun a n =>
    let e := cget p.bw (152 * n + x)
    a + (e.extractLsb' 24 8).toNat +
      (if x < 96 then ceilDiv (256 * (e.extractLsb' 0 16).toNat) (if x < 32 then 28125 else 31250) else 0)) 0

/-- R327: do the entries of every tenant of every partition, as they are or as pending writes make them, exceed a resource? -/
def State.overCommitted (s : State) (x : Nat) : Bool :=
  256 < 16 + s.parts.foldl (fun a e => a + e.2.unitsAt x) 0 || 256 < 16 + s.parts.foldl (fun a e => a + e.2.ahead.unitsAt x) 0

/-- SCHEDULING_TABLE_WRITE (R310, R313, R324, R327): 8 bytes at an offset, or the 4 bytes of a bandwidth entry.
QE takes effect at once, the rest at the next token-period boundary; what the device keeps is not written. An entry of a
resource that the partition does not own is ignored until it owns it, and its sum is checked then (log 29). -/
def execSchedulingTableWrite (part off : Nat) (w : BitVec 64) (s : State) : Out :=
  let p := tget s.parts part
  if !p.live || off % 4 ≠ 0 || (off < 0x400 && off % 8 ≠ 0) then .next s
  else
    let p' : Partition := { p with pending := p.pending ++ [{ off := off, word := w }] }
    let p' : Partition := if off < 0x80 then { p' with queues := tset p'.queues (off / 8) { tget p'.queues (off / 8) with
      qe := bitAt w 63, shut := (tget p'.queues (off / 8)).shut && !bitAt w 63 } } else p'
    let x := (off - 0x400) / 4 % 152
    let s' := s.onPart part (fun _ => p')
    .next (if p'.ahead.badConfig || (0x400 ≤ off && s'.overCommitted x) then s else s')

/-- R314: the refill of every tenant and the pool of repayments. -/
def refillTenants (ts : Table Tenant) : Table Tenant :=
  let (ts, pool) := (List.range 16).foldl (fun (a : Table Tenant × Nat) n =>
    let t := tget a.1 n
    let r := min t.db (t.rf / 2)
    (tset a.1 n { t with db := t.db - r, bal := min (t.bal + t.rf - r) t.cap }, a.2 + r)) (ts, 0)
  ((List.range 16).foldl (fun (a : Table Tenant × Nat) n =>
    let t := tget a.1 n
    let pay := min t.cr a.2
    (tset a.1 n { t with cr := t.cr - pay, bal := min (t.bal + pay) t.cap }, a.2 - pay)) (ts, pool)).1

/-- Move the reference time on to a moment that is due (log 14). -/
def State.clockTo (s : State) (t : Nat) : State := { s with now := max s.now t }

/-- R313, R314: at a token-period boundary pending writes take effect, then every tenant is refilled. -/
def Partition.refilled (p : Partition) : Partition :=
  let q := p.ahead
  { q with pending := [], tenants := refillTenants q.tenants, tokenAt := p.tokenAt + 10000 }

/-- TOKEN_REFILL (R313, R314). -/
def execTokenRefill (part : Nat) (s : State) : Out :=
  let p := tget s.parts part
  if !p.live then .next s
  else .next ((s.clockTo p.tokenAt).onPart part (fun _ => p.refilled))

/-- CANDIDATE_OVERDUE (R317). -/
def execCandidateOverdue (part queue : Nat) (s : State) : Out :=
  match (tget (tget s.parts part).queues queue).candSince with
  | none => .next s
  | some t => .next ((s.clockTo (t + 5000)).onQueue part queue (fun q => { q with overdue := true }))

/-- What the scheduler keeps of each queue from clock to clock: since when its head entry is the head (R321), and
since when it has been a candidate without a break (R317). A request of R321 is over when its gang's is. -/
def State.track (s : State) : State :=
  { s with parts := tmap s.parts (fun i p =>
      if !p.live then p
      else { p with
        prioReq := if p.prioReq.any (fun g => (tget s.gangs g).pre.isSome) then p.prioReq else none,
        queues := tmap p.queues (fun n q =>
          let e := s.headOf p n
          let same := e.isSome && q.headSince.map (·.1) = e
          let c := e.isSome && (s.candidate i n).isSome
          { q with
            candSince := if c then some (if same then q.candSince.getD s.now else s.now) else none,
            overdue := q.overdue && c && same,
            headSince := e.map (fun x => match q.headSince with
              | some (y, t) => if x = y then (x, t) else (x, s.now)
              | none => (x, s.now)) }) }) }

/-- R409: the forced rung of a gang's request: its halt begins and cause 0x0060 is posted. -/
def State.forceHalt (s : State) (g : Nat) : State :=
  let x := tget s.gangs g
  let k := x.strands.headD 0
  let r := { s.recordOf k { cause := 0x0060, val := (tget s.strands k).fol.setWidth 64, slot := 7 } with part := x.part }
  ((s.onGang g (fun x => { x with pre := x.pre.map (fun p => { p with halt := some (p.halt.getD s.now) }) })).haltGang g 4).postReplay r

/-- R409: a pre-emption request to a gang; one that has a request already is joined. -/
def State.preempt (s : State) (g : Nat) : State :=
  let x := tget s.gangs g
  let p := tget s.parts x.part
  if !x.placed || x.pre.isSome then s
  else
    let s := s.onGang g (fun x => { x with pre := some { since := s.now, grace := 1000 * p.graceUs, kill := 1000000 * p.killMs } })
    if p.graceUs = 0 then s.forceHalt g else s

/-- PREEMPTION_REQUEST (R74, R409). -/
def execPreemptionRequest (gang : Nat) (s : State) : Out := .next (s.preempt gang)

/-- PRI of the queue of a gang's batch. -/
def State.priOf (s : State) (g : Nat) : Nat :=
  let x := tget s.gangs g
  (tget (tget s.parts x.part).queues (tget s.batches x.batch).queue).pri.toNat

/-- R321: the gang whose departure lets an entry fit: of those, the lowest PRI, then the latest placement. -/
def State.victim (s : State) (part : Nat) (e : QEntry) : Option Nat :=
  let ok (g : Nat) : Bool := (((tget s.gangs g).strands.foldl State.freeContext s).fitEntry part e).isSome
  ((s.gangs.filter (fun g => g.2.part = part && g.2.placed && ok g.1)).map (·.1)).foldl (fun o g => match o with
    | none => some g
    | some b =>
      if s.priOf g < s.priOf b || (s.priOf g = s.priOf b && (tget s.gangs b).placedAt ≤ (tget s.gangs g).placedAt)
      then some g else some b) none

/-- R321: the heads of priority-3 queues that could pay, fit nowhere, and would fit once a gang has left: when each became the
head, and that gang. -/
def State.starvedHeads (s : State) (part : Nat) : List (Nat × Nat) :=
  let p := tget s.parts part
  (List.range 16).filterMap (fun q =>
    let x := tget p.queues q
    match s.headOf p q, x.headSince with
    | some e, some (y, t) =>
      if x.pri = 3 && e = y && (s.payer part x.ten.toNat (s.costOf e)).isSome && (s.fitEntry part e).isNone
      then (s.victim part e).map (fun g => (t, g)) else none
    | _, _ => none)

/-- R321: of those, the one that has been the head longest, the lowest queue on equal times. -/
def State.starved (s : State) (part : Nat) : Option (Nat × Nat) :=
  (s.starvedHeads part).foldl (fun o e => match o with
    | none => some e
    | some b => if e.1 < b.1 then some e else some b) none

/-- Is the partition's last scheduler request still outstanding (R321)? -/
def State.askedOut (s : State) (part : Nat) : Bool := match (tget s.parts part).prioReq with
  | some g => (tget s.gangs g).pre.isSome
  | none => false

/-- PRIORITY_PREEMPTION (R321). -/
def execPriorityPreemption (part : Nat) (s : State) : Out :=
  match s.starved part with
  | none => .next s
  | some (t, g) =>
    if s.askedOut part then .next s
    else .next (((s.clockTo (t + 5000)).preempt g).onPart part (fun p => { p with prioReq := some g }))

/-- GRACE_TIME_EXPIRY (R409): the grace time of a request that has not been honoured passes. -/
def execGraceTimeExpiry (gang : Nat) (s : State) : Out :=
  match (tget s.gangs gang).pre with
  | some p => .next (if p.halt.isSome then s else (s.clockTo (p.since + p.grace)).forceHalt gang)
  | none => .next s

/-- R411 step 3: a command of a killed gang by its state. -/
def State.killCmd (s : State) (n : Nat) : State :=
  match tfind s.cmds n with
  | none => s
  | some c =>
    if c.state = .stalled || c.state = .lost then s.answerCmd n true
    else if c.state ≠ .queued then s
    else if c.op.isQueued || c.op = .sfpool then (s.toWord n 1).closeCmd n
    else s.endCmd n

/-- R411 steps 1 to 5 for one strand: what is in flight, its routine and its held accesses are discarded, its
folio is written with ST 6, its context freed; a strand that has retired stays ended. -/
def State.killStrand (s : State) (k : Nat) : State :=
  let t := tget s.strands k
  if t.st = 5 then s
  else
    let s := (s.dropHolds t.part k).withdraw t.part k
    let s := s.onStrand k (fun t => { t with
      fly := [], ldq := [], stq := [], micro := { t.micro with mv := false, pend := [] }, restart := {}, vectorTrap := none,
      st := 6, fs := false, written := true, halted := true, finishing := false, fenced := false })
    let s' := (s.writeFolio (tget s.strands k)).freeContext k
    if t.resident then s'.freshWindow t.core t.ctx else s'

/-- R411: a gang is killed. -/
def State.killGang (s : State) (g : Nat) : State :=
  let x := tget s.gangs g
  let k0 := x.strands.headD 0
  let r := s.recordOf k0 { cause := 0x0061, val := (tget s.strands k0).fol.setWidth 64, slot := 7 }
  let ten := s.tenantOf (tget s.strands k0)
  let s := s.onGang g (fun x => { x with halt := none })
  let s := x.strands.foldl State.killStrand s
  let s := ((s.cmds.filter (fun e => x.strands.contains e.2.strand)).map (·.1)).foldl State.killCmd s
  let s := (s.onGang g (fun x => { x with killed := true, answer := false, im := [], imf := [], cursors := [] })).gangOver g
  let s := (s.batchError x.batch).postFatal r
  s.onPart x.part (fun p => { p with stops := p.stops.map (fun t =>
    if t.words.isEmpty && (t.tenant = none || t.tenant = some ten.toNat) then { t with killed := t.killed + 1 } else t) })

/-- KILL_TIME_EXPIRY (R409, R411): the halt of a request has not written every folio in time. -/
def execKillTimeExpiry (gang : Nat) (s : State) : Out :=
  match (tget s.gangs gang).pre with
  | some { halt := some h, kill := k, .. } => .next ((s.clockTo (h + k)).killGang gang)
  | _ => .next s

/-- R324, R416: the resource of an arbiter, and does it serve what a port receives? Arbiters 152 to 175 are those of the
receiving sides of ports 0 to 23 (log 70). -/
def arbiterOf (x : Nat) : Nat × Bool := if x < 152 then (x, false) else (x - 24, true)

/-- R416: the bytes by which a tenant was served less than its floor at an arbiter in this window; none when it was served its
floor bytes less 512 (log 70). -/
def State.shortfall (s : State) (part ten arb : Nat) : Option Nat :=
  let (res, inward) := arbiterOf arb
  let floor2 := (((s.bwEntry part (BitVec.ofNat 4 ten) res).getD 0).extractLsb' 24 8).toNat * unitBytes2 res
  let served := tget (tget s.parts part).served (servedKey (BitVec.ofNat 4 ten) res inward)
  if 2 * served + 1024 < floor2 then some (floor2 / 2 - served) else none

/-- R416: the records of the floor shortfalls of a partition's starved tenants. -/
def State.postShortfalls (s : State) (part : Nat) : State :=
  (tget s.parts part).starved.foldl (fun s x => match s.shortfall part x.1 x.2 with
    | some n => s.postFatal { mod := true, cause := 0x0067, val := BitVec.ofNat 64 (arbiterOf x.2).1, slt := 7, time := BitVec.ofNat 64 s.now,
                              aux := BitVec.ofNat 64 (2 ^ 32 * n + 2 ^ 8 * part + x.1) }
    | none => s) s

/-- R325, R326: the tallies of a new bandwidth window: requests that a cap has held back go first, as far as the cap has room. -/
def State.nextTallies (s : State) (i : Nat) (p : Partition) : Partition :=
  let now (k n : Nat) : Nat :=
    let x := if k < 2432 then k else k - 2432
    let c := s.cap2 i (BitVec.ofNat 4 (x / 152)) (x % 152)
    if c = 0 then n else min n ((c + 1) / 2)
  { p with
    served := p.later.map (fun e => (e.1, now e.1 e.2)),
    later := (p.later.map (fun e => (e.1, e.2 - now e.1 e.2))).filter (fun e => e.2 ≠ 0),
    atomics := [], starved := [], lateAb := [] }

/-- R325, R416: the shortfalls of the bandwidth window are reported, and the next window of 4 µs begins. -/
def State.bandwidthTurn (s : State) : State :=
  let s := s.parts.foldl (fun s p => s.postShortfalls p.1) (s.onDev (fun d => { d with bwAt := s.now / 4000 * 4000 }))
  { s with parts := tmap s.parts s.nextTallies }

/-- BANDWIDTH_WINDOW (R325, R416). -/
def execBandwidthWindow (s : State) : Out := .next (s.clockTo (s.dev.bwAt + 4000)).bandwidthTurn

end Sys2Proof.Machine
end

