-- ==== Sys2Proof/Machine/Capability.lean ====
section
/-! DEFINITION. The capability table (R18, R305, R360 to R362): deterministic CBOR, the document of a partition, the table in
reserved memory; and the binding table beside it (R134). -/

namespace Sys2Proof.Machine

/-- The bytes of a number, highest first. -/
def beBytes (n v : Nat) : List Byte := (leBytes n v).reverse

/-- The head of a CBOR item: major type and argument in the shortest form (RFC 8949, 4.2.1). -/
def cborHead (major v : Nat) : List Byte :=
  let h (x : Nat) : Byte := BitVec.ofNat 8 (32 * major + x)
  if v < 24 then [h v] else if v < 2 ^ 8 then h 24 :: beBytes 1 v else if v < 2 ^ 16 then h 25 :: beBytes 2 v
  else if v < 2 ^ 32 then h 26 :: beBytes 4 v else h 27 :: beBytes 8 v

/-- An unsigned integer. -/
def cborUint (v : Nat) : List Byte := cborHead 0 v

/-- A byte string. -/
def cborBytes (l : List Byte) : List Byte := cborHead 2 l.length ++ l

/-- A text string, from its characters' codes. -/
def cborText (l : List Byte) : List Byte := cborHead 3 l.length ++ l

/-- An array of items. -/
def cborArray (l : List (List Byte)) : List Byte := cborHead 4 l.length ++ l.flatten

/-- An array of unsigned integers. -/
def cborUints (l : List Nat) : List Byte := cborArray (l.map cborUint)

/-- A map with unsigned keys, in ascending order. -/
def cborMap (l : List (Nat × List Byte)) : List Byte := cborHead 5 l.length ++ l.flatMap (fun e => cborUint e.1 ++ e.2)

/-- A list of indices in ascending order. -/
def ascending (l : List Nat) : List Nat := sortBy (fun a b => decide (a ≤ b)) l

/-- The highest frequency in MHz that an island sustains at a voltage step (R18): the module's, from 500 to 1,250. A higher
voltage sustains what a lower one does, and 600 mV sustains the nominal 940 MHz (R18, R369; log 8). -/
def topFreq (i step : Nat) : Nat :=
  max (if 12 ≤ step then 940 else 500) (min 1250 ((List.range (step + 1)).foldl (fun a j => max a (Config.maxFreq i j)) 0))

/-- The islands that a partition owns or shares (R358). -/
def ownedIslands (r : Resources) : List Nat :=
  let groups := (List.range 16).filter (fun i => r.slices.any (fun x => x / 4 = i))
  ascending r.clusters ++ groups.map (· + 64) ++ (ascending r.engines).map (· + 80)

/-- "TX-AK4-M4T" (R1). -/
def partNumber : List Byte := [0x54, 0x58, 0x2D, 0x41, 0x4B, 0x34, 0x2D, 0x4D, 0x34, 0x54]

/-- "C0" or "B1" (R1). -/
def steppingText : List Byte := if Config.steppingC0 then [0x43, 0x30] else [0x42, 0x31]

/-- The base routines: those that R305 prints, VSEL of one step and MLATCH of 68, and the others. -/
def baseRoutines : List (List Byte) :=
  cborUints [0, 32, 0x0120, 1] :: cborUints [1, 4, 0x0400, 68] ::
    Config.baseRoutines.map (fun r => cborUints [r.1, r.2.1, r.2.2.1, r.2.2.2])

/-- The bytes of a route-table entry (R367). -/
def routeBytes (e : BitVec 128) : List Byte := leBytes 16 e.toNat

/-- The document of a partition (R361). -/
def State.capDoc (s : State) (part : Nat) : List Byte :=
  let r := (tget s.parts part).res
  cborMap [
    (1, cborText partNumber), (2, cborText steppingText), (3, cborUint featureVector.toNat), (4, cborUint part),
    (5, cborUint Config.deviceId.toNat), (6, cborUints (ascending r.clusters)), (7, cborUints (ascending r.slices)),
    (8, cborArray (r.hbm.map (fun h => cborUints [h.1, h.2]))),
    (9, cborArray (r.landings.map (fun h => cborUints [h.landing, h.dram, h.sram]))),
    (10, cborUints (ascending r.engines)), (11, cborUints (ascending r.ports)),
    (12, cborArray ((ascending r.routes).map (fun i => cborArray [cborUint i, cborBytes (routeBytes (cget s.dev.routes i))]))),
    (13, cborUints (ascending r.scaleOut)),
    (14, cborArray ((ownedIslands r).map (fun i => cborArray [cborUint i, cborUints ((List.range 25).map (topFreq i))]))),
    (15, cborUint (tableVa 15 part)), (16, cborUint (tableVa 16 part)), (17, cborArray baseRoutines),
    (18, cborUint r.tenants), (19, cborUint s.dev.windowUs), (20, cborUint (2 ^ 34)), (21, cborUint 24),
    (22, cborUint 12), (23, cborUint 8), (24, cborUint 32), (25, cborUint 128)]

/-- R362: the sequence number rises by 1. -/
def State.bumpCap (s : State) (part : Nat) : State :=
  let n := (tget s.parts part).capSeq + 1
  (s.onPart part (fun p => { p with capSeq := n })).writeMem 1 (tablePa 0 part + 8) (leBytes 8 n)

/-- The length and the document are written at their place in reserved memory (R360; log 52). -/
def State.putCap (s : State) (part : Nat) (doc : List Byte) : State :=
  ((s.onPart part (fun p => { p with cap := doc })).writeMem 1 (tablePa 0 part) (leBytes 8 doc.length)).writeMem 1
    (tablePa 0 part + 16) (doc.take (2 ^ 19 - 16))

/-- A whole rewrite with the document of what the partition owns now, or the end of one that is in progress, which the number
shows by being odd (R362, R363). -/
def State.rewriteCap (s : State) (part : Nat) : State :=
  let s := if (tget s.parts part).capSeq % 2 = 0 then s.bumpCap part else s
  (s.putCap part (s.capDoc part)).bumpCap part

/-- R362: the rewrite of every partition's table. -/
def State.rewriteCaps (s : State) : State :=
  ((s.parts.filter (fun p => p.2.live)).map (·.1)).foldl State.rewriteCap s

/-- CAPABILITY_TABLE_REWRITE (R361, R362): the first of its two moves makes the sequence number odd, the second puts the
document in place and makes it even. A document that is not the partition's, as R361 gives it, is refused. -/
def execCapabilityTableRewrite (part : Nat) (doc : List (BitVec 8)) (s : State) : Out :=
  let p := tget s.parts part
  if !p.live || doc ≠ s.capDoc part then .next s
  else if p.capSeq % 2 = 0 then .next (s.bumpCap part)
  else .next ((s.putCap part doc).bumpCap part)

/-- The 32 bytes of a binding-table entry (R134). -/
def Binding.bytes (b : Binding) : List Byte :=
  leBytes 8 (((ofBool 1 b.bv ++ b.hsc ++ (0 : BitVec 4)) : BitVec 8) ++ b.rb).toNat ++ leBytes 8 b.np.toNat ++
    leBytes 8 ((b.md ++ ofBool 1 b.bk ++ BitVec.ofNat 13 b.sh ++ (0 : BitVec 16) ++ b.seq : BitVec 64)).toNat ++
    leBytes 8 (if b.md = 1 then b.own.toNat / 64 * 64 else 0)

/-- The binding table as partitions read it: the entries that differ from those of `s` are written at their place in
reserved memory (R134, R358; log 52). -/
def State.mirror (s t : State) : State :=
  t.parts.foldl (fun t p =>
    let old := (tget s.parts p.1).bindings
    (if p.2.live then old.map (·.1) ++ p.2.bindings.map (·.1) else []).foldl (fun t n =>
      let b := tget p.2.bindings n
      if b = tget old n then t
      else t.writeMem 1 (tablePa 16 p.1 + 32 * n) b.bytes) t) t

end Sys2Proof.Machine
end

