-- ==== Sys2Proof/Machine/Control.lean ====
section
/-! DEFINITION. What the control complex does: records and their answers (R380 to R382, R398), image generations (R50),
mappings (R96, R100, R104, R144, R145), sync bindings (R135), partitions and their resources (R358, R363 to R367),
timers (R409), tenant stops and the dirty-page log (R412 to R414), writes to registers and memory (R7, R381). -/

namespace Sys2Proof.Machine

/-- Does a record take an answer (R382)? -/
def Record.asks (r : Record) : Bool := r.cause ≠ cSquash && r.cause ≠ 0x0060

/-- REPLAYABLE_RECORD_POST (R381): the oldest record that waits is posted if a slot of the ring is free. -/
def execReplayableRecordPost (s : State) : Out :=
  match s.dev.waiting with
  | [] => .next s
  | r :: rest =>
    if s.dev.ring ≤ s.dev.replay.length then .next s
    else .next (s.onDev (fun d => ({ d with
      waiting := rest, answers := if r.asks then d.answers ++ [r] else d.answers }).postReplay r))

/-- Does a record stand under a partition number and a sequence number? 64 stands for the module's records. -/
def Record.named (r : Record) (part seq : Nat) : Bool := (if r.mod then part = 64 else r.part = part) && r.seq.toNat = seq

/-- RECORD_CONSUMED (R380, R381): VLD is written 0, which frees the slot. -/
def execRecordConsumed (fatal : Bool) (part seq : Nat) (s : State) : Out :=
  .next (s.onDev (fun d => ((if fatal then d.fatal else d.replay).filter (fun r => r.named part seq)).foldl (Device.consume fatal) d))

/-- The posted record that a PART and a SEQ name, once it can be answered: its command stalls or is lost, or its gang
is suspended (R382, R398). -/
def State.asked (s : State) (part seq : Nat) : Option Record :=
  s.dev.answers.find? (fun r => r.named part seq && match r.cmd with
    | some n => match tfind s.cmds n with
      | some c => c.state = .stalled || c.state = .lost
      | none => false
    | none => (tget s.gangs r.gang).answer)

/-- The record has its answer. -/
def State.answered (s : State) (r : Record) : State :=
  s.onDev (fun d => { d with answers := d.answers.filter (fun q => !q.named r.part r.seq.toNat) })

/-- The trap that a record describes. -/
def Record.trap (r : Record) : Trap := { cause := r.cause, val := r.val, aux := r.aux, mpc := r.mpc, slot := r.slt }

/-- RESUME and VECTOR of a gang's record (R382): the gang is placeable; its trapping strand may be vectored. -/
def State.goOn (s : State) (r : Record) (vec : Bool) : State :=
  let s := if vec then s.onStrand r.strand (fun t => { t with vectorTrap := some r.trap }) else s
  (s.onGang r.gang (fun g => { g with answer := false })).requeue r.gang

/-- RESUME (R382, R398, R420). For an unbound opcode it acts as VECTOR. -/
def execResume (part seq : Nat) (s : State) : Out :=
  match s.asked part seq with
  | none => .next s
  | some r => match r.cmd with
    | some n => .next ((s.answered r).answerCmd n false)
    | none => .next ((s.answered r).goOn r (r.cause = cUnbound))

/-- VECTOR (R382); refused for a command's record. -/
def execVector (part seq : Nat) (s : State) : Out :=
  match s.asked part seq with
  | none => .next s
  | some r => if r.cmd.isSome then .next s else .next ((s.answered r).goOn r true)

/-- R384 of a gang that is suspended already: its folios take ST 8, and the frame of the trapping strand holds TCAUSE and TVAL
as a handler would have seen them. -/
def State.stopSuspended (s : State) (r : Record) : State :=
  let g := r.gang
  let x := tget s.gangs g
  let s := s.onStrand r.strand (fun t => (t.setSys 2 (r.cause.setWidth 64)).setSys 3 r.val)
  let s := s.writeFrame (tget s.strands r.strand)
  let s := (s.liveRanks g).foldl (fun s k =>
    let s := (s.dropHolds x.part k).onStrand k (fun t => { t with st := 8 })
    s.writeFolio (tget s.strands k)) s
  (s.batchError x.batch
    |>.onGang g (fun x => { x with stopped := true, answer := false })).gangOver g

/-- KILL (R382, R384, R398). -/
def execKill (part seq : Nat) (s : State) : Out :=
  match s.asked part seq with
  | none => .next s
  | some r => match r.cmd with
    | some n => .next ((s.answered r).answerCmd n true)
    | none => .next ((s.answered r).stopSuspended r)

/-- R50: does a strand in a context, a strand whose folio waits, or a queued batch of a partition carry an image generation? -/
def State.igUsed (s : State) (part : Nat) (ig : BitVec 32) : Bool :=
  s.strands.any (fun e => e.2.part = part && e.2.ig = ig && (e.2.resident || (e.2.st ≠ 5 && e.2.st ≠ 6 && e.2.st ≠ 8))) ||
    (tget s.parts part).queues.any (fun q => q.2.batches.any (fun b => (tget s.batches b).ig = ig))

/-- R50: the code pages and control-store pages of unloaded generations that nothing carries any more are freed. -/
def State.sweep (s : State) (part : Nat) : State :=
  let p := tget s.parts part
  let gone := p.unloaded.filter (fun ig => !s.igUsed part ig)
  if gone.isEmpty then s
  else
    let half (h : Half) : Half := if gone.contains h.ig then {} else h
    { s with cores := tmap s.cores (fun k c =>
        if p.res.clusters.contains (clusterOf k) then
          { c with
            half0 := half c.half0, half1 := half c.half1,
            pages := tmap c.pages (fun _ x =>
              if x.part = part && gone.contains x.ig && x.owner.isNone then { x with valid := false } else x) }
        else c) }

/-- UNLOAD (R50). -/
def execUnload (part : Nat) (ig : BitVec 32) (s : State) : Out :=
  .next ((s.onPart part (fun p => { p with unloaded := ig :: p.unloaded.filter (· ≠ ig) })).sweep part)

/-- Do two runs of addresses overlap? -/
def overlaps (a n b m : Nat) : Bool := a < b + m && b < a + n

/-- R104: does a handle's page overlap a range of virtual addresses? -/
def Handle.overlaps (h : Handle) (va len : Nat) : Bool :=
  Machine.overlaps h.page.1 h.page.2 va len

/-- A handle after the invalidation of a range (R104). R104 speaks of every handle whose page overlaps the range; one whose walk
has failed (HS 3) has no page, and stays as it is (DEDUCED, log 85). -/
def Handle.invalidated (h : Handle) (va len : Nat) : Handle := if h.hs = 1 && h.overlaps va len then { h with hs := 2 } else h

/-- A strand's handles, and those in flight, after an invalidation (R104, R200). -/
def Strand.invalidated (t : Strand) (va len : Nat) : Strand :=
  { t with
    hd := tmap t.hd (fun _ h => h.invalidated va len),
    fly := t.fly.map (fun l => match l.dest with
      | .handle n h => { l with dest := .handle n (h.invalidated va len) }
      | _ => l) }

/-- Has a strand an access held through a handle whose page overlaps a range, or at an address of it (R104)? -/
def Strand.holdsIn (t : Strand) (va len : Nat) : Bool :=
  t.held.any (fun h => Machine.overlaps h.page.1 h.page.2 va len || h.places.any (fun p => Machine.overlaps p.va p.n va len))

/-- R104, R144: the invalidation of a range: handles, the markers with the mapping in force before them, and what its retirement
waits for. -/
def State.invalidate (s : State) (part va len : Nat) : State :=
  let n := s.nextId
  let cmds := (s.cmds.filter (fun e => e.2.part = part && e.2.op.translates)).map (·.1)
  let holders := (s.strands.filter (fun e => e.2.part = part && e.2.holdsIn va len)).map (·.1)
  let p := tget s.parts part
  let old : List OldMap := p.before ++ [{ va := va, len := len, tables := s.mem, regs := p.regions }]
  let clip (m : OldMap) : OldMap := { m with va := max m.va va, len := min (m.va + m.len) (va + len) - max m.va va }
  let s : State := { s with
    nextId := n + 1,
    strands := tmap s.strands (fun _ t => if t.part = part && t.resident then t.invalidated va len else t),
    cmds := tmap s.cmds (fun _ c => if c.part = part && c.op.translates then { c with old := c.old ++ (old.map clip).filter (fun m => m.len ≠ 0) } else c) }
  (s.onPart part (fun p => { p with
    plans := tmap p.plans (fun _ x => { x with stale := x.stale ++ [(va, len)] }),
    before := p.before.flatMap (fun m => m.outside va len) })).onDev
    (fun d => { d with invals := tset d.invals n { part := part, va := va, len := len, cmds := cmds, strands := holders } })

/-- INVALIDATE_MAPPING (R104). -/
def execInvalidateMapping (part : Nat) (va : BitVec 56) (len : Nat) (s : State) : Out := .next (s.invalidate part va.toNat len)

/-- INVALIDATION_RETIRED (R104, R145): every command ahead of the markers and every access that the change waits for is
over, and the retirement is reported. -/
def execInvalidationRetired (n : Nat) (s : State) : Out :=
  match tfind s.dev.invals n with
  | none => .next s
  | some i =>
    if i.cmds.isEmpty && i.strands.all (fun k => !(tget s.strands k).holdsIn i.va i.len)
    then .next (s.onDev (fun d => { d with invals := tdel d.invals n })) else .next s

/-- The leaves of the tables below one, with the levels of `walkFrom`. -/
def leavesFrom (m : List Host.Cell) (ps : Nat) : List (Nat × Nat) → Nat → List Leaf
  | [], _ => []
  | (_, len) :: rest, table => (List.range (2 ^ len)).flatMap (fun i =>
    let e := tableEntry m (table + 8 * i)
    if !bitAt e 63 || entryReserved e then []
    else match rest with
      | _ :: _ => leavesFrom m ps rest (fld e 12 40 * 4096)
      | [] =>
        if !bitAt e 62 then [leafOf e ps 0]
        else if ps = 0 then []
        else (List.range (2 ^ (splinterOf ps).2)).flatMap (fun j =>
          let x := tableEntry m (fld e 12 40 * 4096 + 8 * j)
          if bitAt x 63 && !entryReserved x && !bitAt x 62 then [leafOf x (splinterOf ps).1 0] else []))

/-- Every leaf that a partition's tables map. -/
def State.leaves (s : State) (part : Nat) : List Leaf :=
  (tget s.parts part).regions.flatMap (fun e =>
    if bitAt e.2 63 then leavesFrom s.mem (fld e.2 60 3) (walkGroups (fld e.2 60 3)) (fld e.2 12 40 * 4096) else [])

/-- The pages of HBM and of landings that a partition's tables map: kind, first byte, length. -/
def State.mapped (s : State) (part : Nat) : List (Nat × Nat × Nat) :=
  ((s.leaves part).filter (fun l => l.kd = 0 || l.kd = 2)).map (fun l => (l.kd, l.base, 2 ^ pageBits l.ps))

/-- R366: the pages that a partition's tables have mapped, kept as the control complex is about to change them. -/
def State.hadMapped (s : State) (part : Nat) : List (Nat × Nat × Nat) :=
  let had := (tget s.parts part).had
  had ++ (s.mapped part).filter (fun x => !had.contains x)

/-- The writable bits of a region attribute entry (R7, R96). -/
def regionMask : Word := 0xF00F_FFFF_FFFF_F000

/-- REGION_ATTRIBUTE_WRITE (R96): a reserved PS is refused; a change of a mapped region is an invalidation of it. The
file of a partition may be written before the partition is created (R369). -/
def execRegionAttributeWrite (part n : Nat) (w : BitVec 64) (s : State) : Out :=
  if 15 < n || 64 ≤ part || 4 < fld w 60 3 || s.dev.stopped then .next s
  else
    let v := w &&& regionMask
    let old := cget (tget s.parts part).regions n
    let s := if v ≠ old && (bitAt v 63 || bitAt old 63) then s.invalidate part (n * 2 ^ 52) (2 ^ 52) else s
    let had := if v ≠ old then s.hadMapped part else (tget s.parts part).had
    let p := tget s.parts part
    .next { s with parts := tset s.parts part { p with regions := cset p.regions n v, had := had } }

/-- The physical address of the leaf entry of a virtual address (R97). -/
def leafEntryAt (m : List Host.Cell) (va : Nat) : List (Nat × Nat) → Nat → Option Nat
  | [], _ => none
  | (lo, len) :: rest, table =>
    let a := table + 8 * (va / 2 ^ lo % 2 ^ len)
    match rest with
    | [] => some a
    | _ => if bitAt (tableEntry m a) 63 && !entryReserved (tableEntry m a)
        then leafEntryAt m va rest (fld (tableEntry m a) 12 40 * 4096) else none

/-- BASE of an entry raised by a number of bytes. -/
def entryPlus (e : Word) (n : Nat) : Word :=
  (e &&& ~~~ (0x000F_FFFF_FFFF_F000 : Word)) ||| BitVec.ofNat 64 ((fld e 12 40 * 4096 + n) % 2 ^ 52)

/-- The entries of a splinter table (R100): the parent's rights, kind and page bases, but for the changed ones. -/
def splinterEntries (e : Word) (ps : Nat) (c : SplinterChange) : List Word :=
  let (sp, len) := splinterOf ps
  (List.range (2 ^ len)).map (fun i =>
    if c.first ≤ i && i < c.first + c.count then entryPlus c.entry ((i - c.first) * 2 ^ pageBits sp)
    else entryPlus e (i * 2 ^ pageBits sp))

/-- SPLINTER (R100): the table is built, the parent entry replaced, and the parent page's mapping invalidated. -/
def execSplinter (c : SplinterChange) (s : State) : Out :=
  let r := cget (tget s.parts c.part).regions (c.va.toNat / 2 ^ 52)
  let ps := fld r 60 3
  if !bitAt r 63 || ps = 0 || c.table % 4096 ≠ 0 || !paExists 0 c.table 4096 then .next s
  else match leafEntryAt s.mem c.va.toNat (walkGroups ps) (fld r 12 40 * 4096) with
    | none => .next s
    | some a =>
      let e := tableEntry s.mem a
      if !bitAt e 63 || entryReserved e || 2 < fld e 56 3 || bitAt e 62 then .next s
      else
        let e' : Word := (e &&& ~~~ (0x000F_FFFF_FFFF_F000 : Word)) ||| 0x4000_0000_0000_0000 ||| BitVec.ofNat 64 c.table
        let s := s.onPart c.part (fun p => { p with had := s.hadMapped c.part })
        let s := s.invalidate c.part (c.va.toNat / 2 ^ pageBits ps * 2 ^ pageBits ps) (2 ^ pageBits ps)
        .next ((s.writeMem 0 c.table ((splinterEntries e ps c).flatMap dwBytes)).writeMem 0 a (dwBytes e'))

/-- BINDING_WRITE (R135): a binding whose scope is not 1 to 3 or whose region overlaps another valid one is refused; a
reset leaves SEQ, drops requests that were granted, keeps those that wait and grants the first of them (DESIGN CHOICE, log 66). -/
def execBindingWrite (part n : Nat) (act : BindAct) (s : State) : Out :=
  let p := tget s.parts part
  let b := tget p.bindings n
  if !p.live || 4096 ≤ n then .next s
  else match act with
    | .bind w0 w1 =>
      let b' : Binding := { b with
        bv := bitAt w0 63, hsc := w0.extractLsb' 60 3, rb := w0.extractLsb' 12 44 ++ (0 : BitVec 12), np := w1.extractLsb' 0 28 }
      let size (x : Binding) : Nat := 4096 * (x.np.toNat + 1)
      let clash := p.bindings.any (fun e => e.1 ≠ n && e.2.bv && overlaps e.2.rb.toNat (size e.2) b'.rb.toNat (size b'))
      if b'.bv && (b'.hsc = 0 || 3 < b'.hsc.toNat || clash) then .next s
      else .next (s.onPart part (fun p => { p with bindings := tset p.bindings n b' }))
    | .reset =>
      let b' : Binding := { b with md := 0, sh := 0, own := 0, bk := true, waiters := b.waiters.filter (fun r => !r.granted) }
      .next ((s.onPart part (fun p => { p with bindings := tset p.bindings n b' })).grant part n)

/-- Are indices below a bound, named once, and owned by no partition (R358)? -/
def State.unowned (s : State) (f : Resources → List Nat) (bound : Nat) (r : Resources) : Bool :=
  (f r).all (fun i => i < bound && !s.parts.any (fun p => p.2.live && (p.2.owns f).contains i)) && noRepeat (f r)

/-- Bytes of a share that partitions hold of a unit. -/
def State.shared (s : State) (f : Resources → List (Nat × Nat)) (i : Nat) : Nat :=
  s.parts.foldl (fun a p => if !p.2.live then a else
    let r := p.2.shrinking.getD { tenants := 0 }
    a + ((f p.2.res ++ f r).foldl (fun b h => if h.1 = i then b + h.2 else b) 0)) 0

/-- Are byte shares whole multiples within what a unit has left (R358)? -/
def State.shareOk (s : State) (f : Resources → List (Nat × Nat)) (bound unit cap : Nat) (r : Resources) : Bool :=
  (f r).all (fun h => h.1 < bound && h.2 % unit = 0 && s.shared f h.1 + h.2 ≤ cap) && noRepeat ((f r).map (·.1))

/-- DRAM shares of landings. -/
def dramOf (r : Resources) : List (Nat × Nat) := r.landings.map (fun l => (l.landing, l.dram))

/-- Hot-row SRAM shares of landings. -/
def sramOf (r : Resources) : List (Nat × Nat) := r.landings.map (fun l => (l.landing, l.sram))

/-- May resources be given to a partition (R358, R366)? A slice being zeroed is not in the free pool, and the slice of the
reserved tables is never assigned (log 52). -/
def State.available (s : State) (r : Resources) : Bool :=
  s.unowned (·.clusters) 64 r && s.unowned (·.slices) reservedSlice r && s.unowned (·.engines) 32 r && s.unowned (·.ports) 24 r &&
    s.unowned (·.routes) 1024 r && s.unowned (·.scaleOut) 3 r && r.slices.all (fun i => !s.dev.zeroing.contains i) &&
    s.shareOk (·.hbm) 32 (2 ^ 21) (2 ^ 34) r && s.shareOk dramOf 16 (2 ^ 30) (2 ^ 38) r && s.shareOk sramOf 16 (2 ^ 20) (2 ^ 26) r

/-- R365: clusters that change owner hold nothing of the one before. -/
def State.cleanClusters (s : State) (l : List Nat) : State :=
  { s with
    clusters := l.foldl (fun t c => tset t c { gen := nextGen s.dev.generation }) s.clusters,
    cores := s.cores.filter (fun e => !l.contains (clusterOf e.1)),
    dev := { s.dev with generation := nextGen s.dev.generation } }

/-- R323: the offsets of a partition's islands return to zero. -/
def State.offsetsZero (s : State) (l : List Nat) : State :=
  s.onDev (fun d => { d with islands := tmap d.islands (fun i x => if l.contains i then { x with offset := 0 } else x) })

/-- The next token-period boundary (R314). -/
def State.nextToken (s : State) : Nat := (s.now / 10000 + 1) * 10000

/-- R363: the reserved tables of a partition are written as zero. -/
def State.zeroTables (s : State) (part : Nat) : State :=
  { s with mem := cclear s.mem (memKey 1 (tablePa 0 part)) tableBytes }

/-- PARTITION_CREATE (R16, R358, R363, R369): refused unless the partition is new and the resources are free. -/
def execPartitionCreate (part : Nat) (r : Resources) (s : State) : Out :=
  let p := tget s.parts part
  if 64 ≤ part || p.live || s.dev.stopped || !s.dev.powered || s.dev.boot ≠ 4 || r.clusters.isEmpty || r.tenants = 0 || 16 < r.tenants ||
      !s.available r then .next s
  else
    let p : Partition := {
      live := true, res := r, regions := p.regions,
      tenants := (List.range r.tenants).map (fun n => (n, {})), queues := (List.range 16).map (fun q => (q, {})),
      lw := (List.range 4).map (fun l => (l, 15)), tokenAt := s.nextToken,
      fatalSeq := p.fatalSeq, replaySeq := p.replaySeq, ovf := p.ovf }
    let s : State := { s with parts := tset s.parts part p }
    .next ((((s.zeroTables part).cleanClusters r.clusters).offsetsZero r.clusters).rewriteCap part)

/-- Shares with others added. -/
def addShares (a b : List (Nat × Nat)) : List (Nat × Nat) :=
  b.foldl (fun t h => tset t h.1 (tget t h.1 + h.2)) a

/-- Shares with others taken off; those left with nothing go. -/
def subShares (a b : List (Nat × Nat)) : List (Nat × Nat) :=
  (b.foldl (fun t h => tmod t h.1 (fun x => x - h.2)) a).filter (fun h => h.2 ≠ 0)

/-- Resources with others added (R363, grow). -/
def addResources (a b : Resources) : Resources :=
  { clusters := ascending (a.clusters ++ b.clusters), slices := ascending (a.slices ++ b.slices), hbm := addShares a.hbm b.hbm,
    landings := b.landings.foldl (fun l x => match l.find? (fun y => y.landing = x.landing) with
      | some _ => l.map (fun y => if y.landing = x.landing then { y with dram := y.dram + x.dram, sram := y.sram + x.sram } else y)
      | none => l ++ [x]) a.landings,
    engines := ascending (a.engines ++ b.engines), ports := ascending (a.ports ++ b.ports),
    routes := ascending (a.routes ++ b.routes), scaleOut := ascending (a.scaleOut ++ b.scaleOut),
    tenants := max a.tenants b.tenants }

/-- Resources without others (R363, shrink). -/
def subResources (a b : Resources) : Resources :=
  let f (x y : List Nat) : List Nat := x.filter (fun i => !y.contains i)
  { clusters := f a.clusters b.clusters, slices := f a.slices b.slices, hbm := subShares a.hbm b.hbm,
    landings := (b.landings.foldl (fun l x => l.map (fun y =>
      if y.landing = x.landing then { y with dram := y.dram - x.dram, sram := y.sram - x.sram } else y)) a.landings).filter
        (fun y => y.dram ≠ 0 || y.sram ≠ 0),
    engines := f a.engines b.engines, ports := f a.ports b.ports, routes := f a.routes b.routes,
    scaleOut := f a.scaleOut b.scaleOut, tenants := a.tenants }

/-- PARTITION_GROW (R323, R327, R363, R365): refused while a command for the partition is in progress, or if entries that come
into force would exceed an added resource. -/
def execPartitionGrow (part : Nat) (r : Resources) (s : State) : Out :=
  let p := tget s.parts part
  let res := addResources p.res r
  let grown := s.onPart part (fun p => { p with
    res := res, tenants := (List.range res.tenants).map (fun n => (n, tget p.tenants n)) })
  if !p.live || p.destroying || p.shrinking.isSome || 16 < r.tenants || !s.available r ||
      (List.range 152).any (fun x => ownsRes r x && grown.overCommitted x) then .next s
  else .next (((grown.cleanClusters r.clusters).offsetsZero res.clusters).rewriteCap part)

/-- Does a partition keep nothing of a landing once resources are removed (R363)? -/
def State.landingGoes (s : State) (part : Nat) (r : Resources) (ld : Nat) : Bool :=
  r.landings.any (fun l => l.landing = ld) && !(tget s.parts part).res.landings.any (fun l => l.landing = ld)

/-- Does a physical address lie in a slice, a channel group or a landing of which a partition keeps nothing once resources
are removed (R363)? -/
def State.goesWith (s : State) (part : Nat) (r : Resources) (kind pa : Nat) : Bool :=
  let left := (tget s.parts part).res
  match kind with
  | 0 => r.hbm.any (fun h => h.1 = pa / 2 ^ 34) && !left.hbm.any (fun h => h.1 = pa / 2 ^ 34)
  | 1 => r.slices.contains (pa / 2 ^ 26)
  | _ => s.landingGoes part r (pa / 2 ^ 38)

/-- Has a plan of a partition's SFPOOL queue yet to load rows of a landing that goes, or from bytes that do (R350, R363)? -/
def State.planTouches (s : State) (part : Nat) (r : Resources) (p : Plan) : Bool :=
  !p.loaded && p.segs.any (fun g => g.tr = 0 && (s.landingGoes part r g.ld ||
    (segmentPages (rowStride p.fmt p.dim) g).any (fun a => match s.planWalk part p a with
      | .leaf l => s.goesWith part r l.kd (l.at a)
      | _ => false)))

/-- Has a command yet to read or write such bytes? -/
def State.cmdTouches (s : State) (c : Cmd) (r : Resources) : Bool :=
  let runs : List ArrayRun :=
    if c.wordLeft then []
    else if c.op.isQueued then
      ((s.unitsOf c).1.filter (fun u => c.prog ≤ u.ext)).flatMap (fun u => (u.src ++ u.dst).flatMap (fun p =>
        match s.locate c p.1 p.2 0 [0, 1, 2] with
        | .ok l => s.sideRuns c p.1 l p.2
        | .error _ => []))
    else if c.op = .mmas then (List.range (descNR c.cap)).flatMap (fun i => if c.prog ≤ i then s.slabRuns c i else [])
    else if c.op = .sfpool then s.poolRuns c else []
  runs.any (fun x => if x.spc = 3 then s.landingGoes c.part r x.owner else x.spc < 3 && s.goesWith c.part r x.spc x.lo)

/-- Do a strand's parameter windows or valid handles reach removed resources (R363; log 71)? -/
def State.windowsNeed (s : State) (t : Strand) (r : Resources) : Bool :=
  t.hd.any (fun h => h.2.hs = 1 && s.goesWith t.part r h.2.kd.toNat (4096 * h.2.pb.toNat)) ||
    t.pw.any (fun w => bitAt w.2 63 && (pagesOf 0 (64 * fld w.2 0 50) (64 * (fld w.2 50 11 + 1))).any (fun p =>
      match s.walk t.part (BitVec.ofNat 56 p.2) with
      | .leaf l => s.goesWith t.part r l.kd (l.at p.2)
      | _ => false))

/-- Is a gang placed on a removed cluster, or do its windows need a removed resource (R363)? -/
def State.gangNeeds (s : State) (part : Nat) (r : Resources) (e : Nat × Gang) : Bool :=
  e.2.part = part && e.2.placed && (r.clusters.contains e.2.cluster ||
    e.2.strands.any (fun k => (tget s.strands k).resident && s.windowsNeed (tget s.strands k) r))

/-- R307, R363: does a collective program of a partition run on a die whose ports are among resources, or while slices are? It may reach
any slice (log 71). -/
def State.programsAt (s : State) (part : Nat) (r : Resources) : Bool :=
  s.colls.any (fun e => e.2.progs.any (fun p => p.2.live && p.2.part = part) &&
    (!r.slices.isEmpty || r.ports.any (fun i => i / 6 = e.1)))

/-- Ports that change hands have empty queues (R307, R363). -/
def State.emptyQueues (s : State) (ports : List Nat) : State :=
  { s with colls := tmap s.colls (fun d e =>
      let keep (q : Table (List (List (BitVec 32)))) : Table (List (List (BitVec 32))) := q.filter (fun x => !ports.contains (6 * d + x.1))
      { e with rx := keep e.rx, tx := keep e.tx }) }

/-- A partition that is no more has no programs and no words in the stores of the collective engines (R306, R367; log 71). -/
def State.dropPrograms (s : State) (part : Nat) : State :=
  { s with colls := tmap s.colls (fun _ e => { e with
      progs := e.progs.filter (fun p => p.2.part ≠ part), store := e.store.filter (fun x => tfind e.owner (x.1 / 256) ≠ some part),
      owner := e.owner.filter (fun x => x.2 ≠ part) }) }

/-- Does anything of a partition run on or queue at resources (R363)? -/
def State.busyAt (s : State) (part : Nat) (r : Resources) : Bool :=
  s.programsAt part r ||
  s.strands.any (fun e => e.2.part = part && ((e.2.resident && r.clusters.contains (clusterOf e.2.core)) ||
      e.2.held.any (fun h => h.places.any (fun p => s.goesWith part r p.kind p.pa)))) ||
    s.gangs.any (s.gangNeeds part r) || (tget s.parts part).plans.any (fun e => s.planTouches part r e.2) ||
    s.cmds.any (fun e => e.2.part = part && (r.clusters.contains (clusterOf e.2.core) ||
      (e.2.op.isQueued && r.engines.contains e.2.engine) || s.cmdTouches e.2 r)) ||
    s.dev.outs.any (fun e => !e.2.acked && r.ports.contains e.2.port)

/-- Is a share of the channel group or the landing of a byte removed (R358)? -/
def shareRemoved (r : Resources) (kind pa : Nat) : Bool :=
  if kind = 0 then r.hbm.any (fun h => h.1 = pa / 2 ^ 34 && h.2 ≠ 0) else r.landings.any (fun l => l.landing = pa / 2 ^ 38 && l.dram ≠ 0)

/-- R366: the bytes of channel groups and landings that go with removed resources are zeroed by the control complex before another owner
can have them. R358 gives shares and no addresses: the bytes that go are those that the partition's tables have mapped there, but, where it
keeps a share of the group or landing, those that they map still (DEDUCED, log 73). -/
def State.zeroBytes (s : State) (part : Nat) (r : Resources) : State :=
  let now := s.mapped part
  let pages := (s.hadMapped part).filter (fun x => shareRemoved r x.1 x.2.1)
  let holds (k : Nat) (x : Nat × Nat × Nat) : Bool := memKey x.1 x.2.1 ≤ k && k < memKey x.1 x.2.1 + x.2.2
  let goes (k : Nat) : Bool := pages.any (fun x => holds k x && (s.goesWith part r x.1 x.2.1 || !now.any (holds k)))
  ({ s with mem := s.mem.filter (fun c => !goes c.1) } : State).onPart part (fun p => { p with
    had := p.had.filter (fun x => !shareRemoved r x.1 x.2.1) })

/-- R363, R366: removed resources return to the free pool once nothing of the partition is at them: its last stores in their
caches reach memory (R48), and what they hold is zeroed first; route entries are no more (R367). -/
def State.freePool (s : State) (part : Nat) : State :=
  match (tget s.parts part).shrinking with
  | none => s
  | some r =>
    if s.busyAt part r then s
    else
      let s := (r.clusters.foldl (fun s c => s.flush c (fun _ => true) true) s).zeroBytes part r
      (((s.cleanClusters r.clusters).emptyQueues r.ports).onPart part (fun p => { p with shrinking := none })).onDev
        (fun d => { d with zeroing := d.zeroing ++ r.slices, routes := d.routes.filter (fun e => !r.routes.contains e.1) })

/-- Resources are withdrawn from a partition and go back as soon as they are idle (R363). -/
def State.withdrawRes (s : State) (part : Nat) (r : Resources) : State :=
  let p := tget s.parts part
  let s := s.onPart part (fun p => { p with
    res := subResources p.res r,
    shrinking := some (addResources (p.shrinking.getD { tenants := 0 }) r) })
  let s := ((s.cmds.filter (fun e => e.2.part = part && e.2.op.isQueued && e.2.state = .queued &&
    r.engines.contains e.2.engine)).map (·.1)).foldl State.killCmd s
  (s.byTicket ((s.gangs.filter (s.gangNeeds part r)).map (·.1))).foldl State.preempt (s.offsetsZero p.res.clusters)

/-- Does a partition own all of these resources, shares in the units in which they are owned (R358)? -/
def hasResources (a b : Resources) : Bool :=
  let f (x y : List Nat) : Bool := y.all (fun i => x.contains i)
  let g (unit : Nat) (x y : List (Nat × Nat)) : Bool := y.all (fun h => h.2 % unit = 0 && h.2 ≤ tget x h.1)
  f a.clusters b.clusters && f a.slices b.slices && f a.engines b.engines && f a.ports b.ports && f a.routes b.routes &&
    f a.scaleOut b.scaleOut && g (2 ^ 21) a.hbm b.hbm && g (2 ^ 30) (dramOf a) (dramOf b) &&
    g (2 ^ 20) (sramOf a) (sramOf b)

/-- R367: does a valid route entry that a partition keeps name a port that it gives up? -/
def State.routesNeed (s : State) (left r : Resources) : Bool :=
  left.routes.any (fun n => bitAt (cget s.dev.routes n) 63 &&
    r.ports.any (fun i => bitAt (cget s.dev.routes n) (64 + 6 + i)))

/-- PARTITION_SHRINK (R363): refused if it would leave no cluster, or a route entry whose mask names a port that goes (R367;
log 71), or while a command for the partition is in progress. -/
def execPartitionShrink (part : Nat) (r : Resources) (s : State) : Out :=
  let p := tget s.parts part
  if !p.live || p.destroying || p.shrinking.isSome || !hasResources p.res r || (subResources p.res r).clusters.isEmpty ||
      s.routesNeed (subResources p.res r) r then .next s
  else .next (((s.withdrawRes part r).rewriteCap part).freePool part)

/-- Tenants that a stop names. -/
def TenantStop.covers (t : TenantStop) (n : Nat) : Bool := match t.tenant with
  | some m => m = n
  | none => true

/-- The tenant of a gang. -/
def State.gangTenant (s : State) (g : Nat) : Nat :=
  let x := tget s.gangs g
  (tget (tget s.parts x.part).queues (tget s.batches x.batch).queue).ten.toNat

/-- R412 steps 1 and 2: the queues close and every placed gang of the tenant is asked to leave. -/
def State.stopTenant (s : State) (part : Nat) (t : TenantStop) : State :=
  let s := s.onPart part (fun p => { p with
    stops := p.stops ++ [t], queues := tmap p.queues (fun _ q => if t.covers q.ten.toNat then { q with shut := true } else q) })
  (s.byTicket ((s.gangs.filter (fun e => e.2.part = part && e.2.placed && t.covers (s.gangTenant e.1))).map (·.1))).foldl State.preempt s

/-- TENANT_STOP (R412); a status that would not lie in the DRAM is refused (R14, log 34). -/
def execTenantStop (part : Nat) (tenant : Option Nat) (status : Nat) (s : State) : Out :=
  if !(tget s.parts part).live || dramBytes < status + 32 then .next s else .next (s.stopTenant part { tenant := tenant, status := some status })

/-- PARTITION_DESTROY (R363): a stop of every tenant, whose status has no address (log 71); at its final point the resources
are withdrawn. Refused while a shrink of the partition is in progress. -/
def execPartitionDestroy (part : Nat) (s : State) : Out :=
  let p := tget s.parts part
  if !p.live || p.destroying || p.shrinking.isSome then .next s
  else .next ((s.onPart part (fun p => { p with destroying := true })).stopTenant part {})

/-- Is a gang of a stopped tenant suspended with its folios kept (R413)? -/
def State.keptFolios (s : State) (g : Nat) : Bool :=
  let x := tget s.gangs g
  !x.killed && !x.stopped && x.strands.any (fun k => (tget s.strands k).st.toNat < 5)

/-- Has a stop reached its final point (R412 step 3)? A command with units at other devices, its word's among them, has not
completed (R419). -/
def State.atFinal (s : State) (part : Nat) (t : TenantStop) : Bool :=
  !s.gangs.any (fun e => e.2.part = part && e.2.placed && t.covers (s.gangTenant e.1)) &&
    !s.cmds.any (fun e => e.2.part = part && t.covers e.2.tenant.toNat)

/-- The stop status (R413). -/
def State.stopWords (s : State) (part : Nat) (t : TenantStop) (seq : BitVec 32) : List Word :=
  let ns := s.gangs.countP (fun e => e.2.part = part && t.covers (s.gangTenant e.1) && s.keptFolios e.1)
  let ten : BitVec 4 := match t.tenant with
    | some n => BitVec.ofNat 4 n
    | none => 15
  [ (1 : BitVec 1) ++ ofBool 1 (t.killed ≠ 0) ++ (0 : BitVec 26) ++ ten ++ seq,
    BitVec.ofNat 32 ns ++ BitVec.ofNat 32 t.killed, BitVec.ofNat 64 s.now, ofBool 64 t.tenant.isNone ]

/-- The final entry of a dirty-page report (R414). -/
def finalEntry (seq : BitVec 32) : Word := (1 : BitVec 1) ++ (0 : BitVec 31) ++ seq

/-- R414: the next final entry that waits is appended once the ring has a free slot, and the log is disarmed. -/
def State.putFinal (s : State) (part tenant : Nat) : State :=
  let d := tget (tget s.parts part).dirty tenant
  match d.finals with
  | [] => s
  | q :: r =>
    if d.size ≤ d.ring.length then s
    else
      let d' : DirtyLog := { d.append (finalEntry q) with finals := r, pages := [], armed := false }
      (s.onPart part (fun p => { p with dirty := tset p.dirty tenant d' })).onDev
        (fun x => x.dramWrite d.slot (dwBytes (finalEntry q)))

/-- R363: a partition that is no more. -/
def Partition.gone (p : Partition) : Partition := { p with live := false, regions := [], res := { tenants := 0 } }

/-- R363: a destroyed partition: its queues and tables are gone and its resources on their way to the free pool. -/
def State.endPartition (s : State) (part : Nat) : State :=
  let s := (s.withdrawRes part (tget s.parts part).res).dropPrograms part
  let s : State := { s with
    batches := s.batches.filter (fun e => e.2.part ≠ part), gangs := s.gangs.filter (fun e => e.2.part ≠ part),
    strands := s.strands.filter (fun e => e.2.part ≠ part) }
  let p := tget s.parts part
  let q : Partition := { live := true, destroying := true, regions := p.regions, shrinking := p.shrinking, had := p.had, stops := p.stops, fatalSeq := p.fatalSeq,
                         replaySeq := p.replaySeq, dirty := p.dirty, res := { tenants := 0 } }
  let s := ({ s with parts := tset s.parts part q } : State).freePool part
  if (tget s.parts part).shrinking.isNone then s.onPart part Partition.gone else s

/-- R413: the status words of the oldest stop that has none. -/
def endStop (w : List Word) : List TenantStop → List TenantStop
  | [] => []
  | t :: r => if t.words.isEmpty then { t with words := w } :: r else t :: endStop w r

/-- STOP_FINAL_POINT (R412 to R414): the oldest stop of the partition that has not reached its final point does so: its
writes are performed at package scope, those left in the cache of a cluster that a shrink withdraws among them, its status is written, and then the final entries of its logs, each when its ring has
room. -/
def execStopFinalPoint (part : Nat) (s : State) : Out :=
  let p := tget s.parts part
  match p.stops.find? (fun t => t.words.isEmpty) with
  | none => .next s
  | some t =>
    if !s.atFinal part t then .next s
    else
      let s := (p.owns (·.clusters)).foldl (fun s c => s.flush c (fun _ => true) false) s
      let seq := nextSeq p.sseq
      let w := s.stopWords part t seq
      let s := s.onPart part (fun p => { p with
        sseq := seq, stops := endStop w p.stops,
        dirty := tmap p.dirty (fun n d => if t.covers n then { d with finals := d.finals ++ [seq] } else d) })
      let s := match t.status with
        | some a => s.onDev (fun d => d.dramWrite a (wordsBytes w))
        | none => s
      let s := (p.dirty.map (·.1)).foldl (fun s n => s.putFinal part n) s
      .next (if p.destroying && t.tenant.isNone then s.endPartition part else s)

/-- SLICE_ZEROED (R366). -/
def execSliceZeroed (slice : Nat) (s : State) : Out :=
  if s.dev.zeroing.contains slice then
    .next (({ s with mem := cclear s.mem (memKey 1 (2 ^ 26 * slice)) (2 ^ 26) } : State).onDev
      (fun d => { d with zeroing := d.zeroing.filter (· ≠ slice) }))
  else .next s

/-- The partition that owns a route-table entry. -/
def State.routeOwner (s : State) (n : Nat) : Option Partition :=
  (s.parts.find? (fun p => p.2.live && p.2.res.routes.contains n)).map (·.2)

/-- Base and bytes of a route entry's window (R367). -/
def routeWindow (w0 : Word) : Nat × Nat := (fld w0 30 26 * 2 ^ 30, (fld w0 16 14 + 1) * 2 ^ 30)

/-- ROUTE_ENTRY_WRITE (R367): an entry with PM 0 or a port its partition does not own is refused, and a valid one whose window overlaps
another's, whichever partition owns it; one with RV 0 has no window (log 71). The table of its owner is rewritten
(R361, R362). -/
def execRouteEntryWrite (n : Nat) (w0 w1 : BitVec 64) (s : State) : Out :=
  let w0 := w0 &&& 0x80FF_FFFF_FFFF_0000
  let w1 := w1 &&& 0xFFFF_FFFF_FFFF_FFC0
  let pm := w1.extractLsb' 6 24
  let own := (s.routeOwner n).getD {}
  let clash := s.dev.routes.any (fun e =>
    let x : Word := e.2.extractLsb' 0 64
    e.1 ≠ n && bitAt x 63 && overlaps (routeWindow x).1 (routeWindow x).2 (routeWindow w0).1 (routeWindow w0).2)
  if 1024 ≤ n then .next s
  else if pm = 0 || (List.range 24).any (fun i => bitAt pm i && !own.res.ports.contains i) || (bitAt w0 63 && clash) then .next s
  else
    let s' := s.onDev (fun d => { d with routes := cset d.routes n (w1 ++ w0) })
    .next (if cget s.dev.routes n = w1 ++ w0 then s else
      ((s.parts.filter (fun p => p.2.live && p.2.res.routes.contains n)).map (·.1)).foldl State.rewriteCap s')

/-- TIMER_SET (R409): a value outside its range is refused. -/
def execTimerSet (part graceUs killMs : Nat) (s : State) : Out :=
  if 10000 < graceUs || killMs = 0 || 1000 < killMs then .next s
  else .next (s.onPart part (fun p => { p with graceUs := graceUs, killMs := killMs }))

/-- DIRTY_LOG_ARM (R414); a ring that would not lie in the DRAM is refused (R14, log 34). -/
def execDirtyLogArm (part tenant base size : Nat) (s : State) : Out :=
  .next (if dramBytes < base + 8 * size then s else s.onPart part (fun p => { p with dirty := tset p.dirty tenant { base := base, size := size, armed := true } }))

/-- DIRTY_LOG_SLOT_FREE (R414): the control complex has taken the oldest entry. -/
def execDirtyLogSlotFree (part tenant : Nat) (s : State) : Out :=
  .next ((s.onPart part (fun p => { p with dirty := tmod p.dirty tenant (fun d => { d with ring := d.ring.drop 1 }) })).putFinal part tenant)

/-- What the control complex reads of a partition's memory for its LAUNCH. -/
def State.ctlRead (s : State) (part a n : Nat) : Res (List Byte) := match s.devRead part a n with
  | some l => .ok l
  | none => pageFault (BitVec.ofNat 64 a) 2 1

/-- Report what the reads of a LAUNCH by the control complex in state `b` meet (R99, R406). -/
def State.noteLaunch (s : State) (part queue : Nat) (v : Word) (b : State) : State :=
  (b.launchRuns part queue v (b.ctlRead part)).foldl (fun s x => s.noteRead part x.1 x.2) s

/-- The ranges of virtual addresses that a valid entry at a physical address maps in the tables below one (R97, R99). -/
def entrySpans (m : List Host.Cell) (ps a : Nat) : List (Nat × Nat) → Nat → Nat → List (Nat × Nat)
  | [], _, _ => []
  | (lo, len) :: rest, table, base =>
    (if table ≤ a && a < table + 8 * 2 ^ len && bitAt (tableEntry m a) 63
      then [(base + (a - table) / 8 * 2 ^ lo, 2 ^ lo)] else []) ++
    (List.range (2 ^ len)).flatMap (fun i =>
      let e := tableEntry m (table + 8 * i)
      if !bitAt e 63 || entryReserved e then []
      else match rest with
        | _ :: _ => entrySpans m ps a rest (fld e 12 40 * 4096) (base + i * 2 ^ lo)
        | [] =>
          let t := fld e 12 40 * 4096
          let sp := splinterOf ps
          if bitAt e 62 && ps ≠ 0 && t ≤ a && a < t + 8 * 2 ^ sp.2 && bitAt (tableEntry m a) 63
          then [(base + i * 2 ^ lo + (a - t) / 8 * 2 ^ pageBits sp.1, 2 ^ pageBits sp.1)] else [])

/-- R144: the control complex is about to write bytes of HBM: what the table entries among them map stays as it is, for
commands that translate for themselves, until its invalidation; and what the tables map now is remembered (R366). -/
def State.keepMaps (s : State) (addr : Nat) (l : List Byte) : State :=
  let after := s.writeMem 0 addr l
  let words := if l.isEmpty then [] else (List.range ((addr + l.length - 1) / 8 - addr / 8 + 1)).map (fun i => 8 * (addr / 8 + i))
  let changed := words.filter (fun a => tableEntry s.mem a ≠ tableEntry after.mem a)
  { s with parts := tmap s.parts (fun k p => { p with
      had := if changed.isEmpty then p.had else s.hadMapped k,
      before := p.before ++ p.regions.flatMap (fun r => if !bitAt r.2 63 then [] else changed.flatMap (fun a =>
        (entrySpans s.mem (fld r.2 60 3) a (walkGroups (fld r.2 60 3)) (fld r.2 12 40 * 4096) (2 ^ 52 * r.1)).map
          (fun x => { va := x.1, len := x.2, tables := s.mem, regs := p.regions }))) }) }

/-- REGISTER_WRITE (R7, R14, R20, R32, R33, R37, R369, R381, R406): memory and the control complex's own, the launch interface,
where the lanes stand and the ring's size, the sensors, the time base, the errors of arrays (log 31) and of arbiters (log 70), the step of R369 that fails (with or without
power), a command to power off. A
value out of a register's range is refused. R37 gives a LAUNCH by the control complex no trap: one whose record address is
not aligned, or whose record, list or table it cannot read, changes nothing and returns no value (DESIGN CHOICE, log 84). -/
def execRegisterWrite (t : RegTarget) (v : BitVec 64) (s : State) : Out :=
  if t = .bootFault then if 4 < v.toNat then .next s else .next (s.onDev (fun d => { d with bootFault := v.toNat }))
  else if !s.dev.powered then .next s
  else match t with
    | .bootFault => .next s
    | .offAsked => .next (s.onDev (fun d => { d with offAsked := v ≠ 0 }))
    | .mem kind addr bytes =>
      let l := leBytes bytes v.toNat
      if bytes = 0 || 8 < bytes then .next s
      else if kind = 3 && addr + bytes ≤ dramBytes then .next (s.onDev (fun d => d.dramWrite addr l))
      else if s.dev.stopped then .next s
      else if paExists kind addr bytes then .next ((if kind = 0 then s.keepMaps addr l else s).writeMem kind addr l)
      else .fault (.addressHole (memKey kind addr))
    | .launch part queue =>
      if !(tget s.parts part).live || 16 ≤ queue then .next s
      else match s.launch part queue v (s.ctlRead part) with
        | .ok (w, s') => .next ((s'.noteLaunch part queue v s).onDev (fun d => { d with ticket := w }))
        | .error _ => .next (s.noteLaunch part queue v s)
    | .ringSize => if (List.range 7).any (fun i => v.toNat = 2 ^ (10 + i)) && s.dev.replayBase + 64 * v.toNat ≤ dramBytes
        then .next (s.onDev (fun d => { d with ring := v.toNat })) else .next s
    | .fatalBase => .next (if v.toNat + 64 * (64 * 65) ≤ dramBytes then s.onDev (fun d => { d with fatalBase := v.toNat }) else s)
    | .replayBase => .next (if v.toNat + 64 * s.dev.ring ≤ dramBytes then s.onDev (fun d => { d with replayBase := v.toNat }) else s)
    | .packagePower => .next (s.onDev (fun d => { d with pkgLog := addDraw s.now v.toNat d.pkgLog }))
    | .tierPower => .next (s.onDev (fun d => { d with tierLog := addDraw s.now v.toNat d.tierLog }))
    | .restPower => .next (s.onDev (fun d => { d with restLog := addDraw s.now v.toNat d.restLog }))
    | .junction die => .next (s.onDev (fun d => { d with junction := tset d.junction die v.toNat }))
    | .timeBase => .next (s.clockTo v.toNat)
    | .unitError spc owner bad =>
      let u := (spc, owner, v.toNat / unitLen spc * unitLen spc)
      if 12 < spc then .next s
      else .next (s.onDev (fun d => { d with
        uncorrectable := d.uncorrectable.filter (fun x => x ≠ u) ++ (if bad then [u] else []) }))
    | .starved part ten res =>
      if 16 ≤ ten || 176 ≤ res then .next s
      else .next (s.onPart part (fun p => { p with starved := if v = 0 then p.starved.filter (· ≠ (ten, res)) else (ten, res) :: p.starved.filter (· ≠ (ten, res)) }))
    | .slotFault x => .next (s.onDev (fun d => { d with
        slotFaults := d.slotFaults.filter (· ≠ x) ++ (if v = 0 then [] else [x]) }))
    | .correction die => .next (s.onDev (fun d => { d with corrected := tset d.corrected die (tget d.corrected die + v.toNat) }))

end Sys2Proof.Machine
end

