-- ==== Sys2Proof/Machine/Fabric.lean ====
section
/-! DEFINITION. The fabric's windows, acknowledgements and lost units (R146 to R148, R419, R420), units that arrive from
other devices, and landings that fail and return (R418). -/

namespace Sys2Proof.Machine

/-- WINDOW_LENGTH_SET (R146): W from 1 to 16 µs, from the start of a named window on; another value is refused. A boundary
that has begun is refused too, and a second setting takes the place of one not yet in force (DESIGN CHOICE, log 100). -/
def execWindowLengthSet (us boundary : Nat) (s : State) : Out :=
  if us = 0 || 16 < us || boundary ≤ s.windowNow then .next s
  else .next (s.onDev (fun d => { d with windowNext := some (us, boundary) }))

/-- The commands of which only the release or the word is left close if they can (R148, R419). -/
def State.closeWaiting (s : State) : State :=
  ((s.cmds.filter (fun e => e.2.wordLeft && e.2.state = .started && e.2.op ≠ .sqkill)).map (·.1)).foldl State.closeCmd s

/-- The number under a window length `w`, both in µs, of the last moment of window `n` under length `v` (R146; log 86). -/
def renumber (v w n : Nat) : Nat := (1000 * v * (n + 1) - 1) / (1000 * w)

/-- A new window length is in force (R146): windows already noted are numbered by it, and capability tables show it (R362). -/
def State.setWindow (s : State) (w : Nat) : State :=
  let f := renumber s.dev.windowUs w
  State.rewriteCaps { s with
    cmds := tmap s.cmds (fun _ c => { c with window := c.window.map f }),
    dev := { s.dev with
      windowUs := w, windowNext := none, misses := [],
      outs := tmap s.dev.outs (fun _ o => { o with window := f o.window }), lastSent := s.dev.lastSent.map (fun e => (e.1, f e.2)) } }

/-- R420: a unit not acknowledged by the start of window N + 64 is lost, and its command stalls. -/
def State.loseUnit (s : State) (unit : Nat) : State :=
  match tfind s.dev.outs unit with
  | none => s
  | some o =>
    let c := tget s.cmds o.cmd
    if o.acked || s.windowNow < o.window + 64 || c.state = .lost || c.state = .stalled then s
    else (s.postReplay { s.recordOf c.strand { cause := 0x0066, val := BitVec.ofNat 64 o.addr, slot := 7 } with
      cmd := some o.cmd }).onCmd o.cmd (fun c => { c with state := .lost, lostUnit := some unit })

/-- The start of a window (R146, R148, R419, R420): a new W that is due takes effect, units that are overdue are lost, and
releases at fabric scope that waited for it are performed. -/
def State.windowTurn (s : State) : State :=
  let s := match s.dev.windowNext with
    | some (w, b) => if b ≤ s.windowNow then s.setWindow w else s
    | none => s
  let s := (s.dev.outs.map (·.1)).foldl State.loseUnit s
  (s.onDev (fun d => { d with windowSeen := s.windowNow, misses := d.misses.filter (fun m => m.2 = s.windowNow) })).closeWaiting

/-- FABRIC_WINDOW_BOUNDARY (R146, R148): the next window begins. -/
def execFabricWindowBoundary (s : State) : Out :=
  .next (s.clockTo ((s.windowNow + 1) * (1000 * s.dev.windowUs))).windowTurn

/-- The record of a port's window miss, or of the loss of the time base (R419). -/
def State.missRecord (s : State) (port : Nat) : State :=
  s.postFatal { mod := true, cause := 0x0065, val := BitVec.ofNat 64 port, slt := 7, time := BitVec.ofNat 64 s.now,
                aux := ofBool 1 s.dev.timeLost ++ BitVec.ofNat 63 (tget s.dev.lastSent port) }

/-- Is an acknowledged unit of a command done with: every unit of the command before it has been acknowledged, so that it can
not be sent again (R420)? -/
def RemoteOut.over (outs : Table RemoteOut) (u : Nat) : Bool :=
  let o := tget outs u
  o.acked && outs.all (fun e => u ≤ e.1 || (tget outs e.1).cmd ≠ o.cmd || (tget outs e.1).acked)

/-- A unit is acknowledged; those that can not be sent again are forgotten (R419, R420). -/
def acknowledge (outs : Table RemoteOut) (u : Nat) : Table RemoteOut :=
  let l := tset outs u { tget outs u with acked := true }
  l.filter (fun e => !((tget l e.1).cmd = (tget l u).cmd && RemoteOut.over l e.1))

/-- FABRIC_ACKNOWLEDGEMENT (R419): the unit is no longer awaited; a window after the next is a miss, reported once per
port and window. One of a unit that is lost comes too late (R420). -/
def execFabricAcknowledgement (port unit window : Nat) (s : State) : Out :=
  match tfind s.dev.outs unit with
  | none => .next s
  | some o =>
    if o.port ≠ port || o.acked || (tget s.cmds o.cmd).lostUnit = some unit then .next s
    else
      let s := s.onDev (fun d => { d with outs := acknowledge d.outs unit })
      let s := if o.window + 1 < window && !s.dev.misses.contains (port, s.windowNow)
        then (s.missRecord port).onDev (fun d => { d with misses := (port, s.windowNow) :: d.misses }) else s
      .next s.closeWaiting

/-- FABRIC_UNIT_LOST (R420). -/
def execFabricUnitLost (unit : Nat) (s : State) : Out := .next (s.loseUnit unit)

/-- TIME_BASE_LOSS (R419): windows are counted from the device's own clock, and the loss is reported. -/
def execTimeBaseLoss (s : State) : Out :=
  if s.dev.timeLost then .next s
  else .next ((({ s with free := s.free + 1 } : State).onDev (fun d => { d with timeLost := true })).missRecord (Config.lossPort s.free % 24))

/-- TIME_BASE_REGAINED (R419). -/
def execTimeBaseRegained (s : State) : Out := .next (s.onDev (fun d => { d with timeLost := false }))

/-- REMOTE_WRITE_ARRIVAL (R148, R420): a unit is performed at its home at most once; it reaches memory and no cache. One that adds reads
its home first, where an error is a record of the module (R406, log 31). -/
def execRemoteWriteArrival (u : RemoteUnit) (s : State) : Out :=
  if s.dev.performed.contains (u.dev, u.unit) || s.dev.stopped || !s.dev.powered then .next s
  else if !paExists u.kind u.addr u.data.length then .fault (.addressHole (memKey u.kind u.addr))
  else
    let new := if u.add = 0 then u.data else addLanes u.add (s.readMem u.kind u.addr u.data.length) u.data
    let s := if u.add = 0 then s
      else s.noteAs { mod := true } [{ spc := u.kind, lo := u.addr, n := u.data.length }]
    .next ((s.writeMem u.kind u.addr new).onDev (fun d => { d with performed := (u.dev, u.unit) :: d.performed }))

/-- LANDING_FAILED (R418): the landing is failed, and every plan that names it keeps failing its bags there. -/
def execLandingFailed (n : Nat) (s : State) : Out :=
  if 16 ≤ n || s.dev.failed.contains n then .next s
  else
    let s := s.onDev (fun d => { d with failed := n :: d.failed })
    let s : State := { s with parts := tmap s.parts (fun _ p => { p with
      plans := tmap p.plans (fun _ x => if x.segs.any (fun g => g.ld = n) then { x with broken := n :: x.broken } else x) }) }
    .next (s.postFatal { mod := true, cause := 0x0064, val := BitVec.ofNat 64 n, slt := 7, time := BitVec.ofNat 64 s.now })

/-- LANDING_RETRAIN (R418). -/
def execLandingRetrain (n : Nat) (s : State) : Out :=
  .next (s.onDev (fun d => { d with failed := d.failed.filter (· ≠ n) }))

end Sys2Proof.Machine
end

