-- ==== Sys2Proof/Machine/Micro.lean ====
section
/-! DEFINITION. The micro-sequencer (R273 to R294, R305, R390, R405): ports, transforms, lane units, the
checks of a step, its phases, its traps; the bound opcodes that start a routine (R166, R291); and the steps
of collective programs (R306 to R308). -/

namespace Sys2Proof.Machine

/-- A transport field (R276). -/
structure Transport where
  src : Nat := 0
  dst : Nat := 0
  xf : Nat := 0
  deriving DecidableEq, Repr, Inhabited

/-- The transport of 26 bits. -/
def transportOf (f : BitVec 26) : Transport :=
  { src := (f.extractLsb' 16 10).toNat, dst := (f.extractLsb' 6 10).toNat, xf := (f.extractLsb' 0 6).toNat }

/-- The four transports of a word, TF0 first; a field of zeros moves nothing (R276). -/
def transports (m : MicroFields) : List Transport :=
  ([m.tf0, m.tf1, m.tf2, m.tf3].filter (fun f => f ≠ 0)).map transportOf

/-- A transport field's bits. -/
def tfBits (src dst xf : Nat) : BitVec 26 := BitVec.ofNat 26 (src * 2 ^ 16 + dst * 2 ^ 6 + xf)

/-- A micro-word (R275). -/
def microBits (seq tgt : Nat) (l : List (BitVec 26)) : BitVec 128 :=
  BitVec.ofNat 4 seq ++ BitVec.ofNat 14 tgt ++ (0 : BitVec 6) ++ l.getD 3 0 ++ l.getD 2 0 ++ l.getD 1 0 ++ l.getD 0 0

/-- The words of the base region that R305 spells out: VSEL and MLATCH with its pool; the others are the
device's own (log 8). -/
def baseWordAt (a : Nat) : BitVec 128 :=
  if a = 0x0120 then 0x8000_0002_8A62_0190_6000_20A1_0009_2800
  else if a = 0x0400 then microBits 0 0 [tfBits 0x3F0 0x2C 0, tfBits 0x3F0 0x2D 0, tfBits 0x3F1 0x2E 0, tfBits 0x3F1 0x2F 0]
  else if a = 0x0401 then microBits 0 0 [tfBits 0x3F2 0x29 0, tfBits 0x3F2 0x2B 0, tfBits 0x034 0x30 0x39, tfBits 0x034 0x31 0x39]
  else if a = 0x0402 then microBits 0 0 [tfBits 0x034 0x32 0, tfBits 0x034 0x33 0, tfBits 0x240 0x35 0]
  else if a = 0x0403 then microBits 4 0x0403 [tfBits 0x024 0x26 0, tfBits 0x025 0x27 0]
  else if a = 0x0404 then microBits 8 0 []
  else if a = 0x04FC then (128 : BitVec 64) ++ (0x6001_0000 : BitVec 32) ++ (0x2001_0000 : BitVec 32)
  else if 0x04FD ≤ a && a ≤ 0x04FF then 0
  else Config.baseWord a

/-- The micro state of the agent that steps. -/
def State.micro (s : State) : Micro := match s.agent with
  | .strand => s.me.micro
  | .coll d p => (tget (tget s.colls d).progs p).micro

/-- Change a collective program. -/
def State.onProg (s : State) (d p : Nat) (f : CollProg → CollProg) : State :=
  let e := tget s.colls d
  { s with colls := tset s.colls d { e with progs := tset e.progs p (f (tget e.progs p)) } }

/-- Replace the micro state of the agent that steps. -/
def State.setMicro (s : State) (m : Micro) : State := match s.agent with
  | .strand => s.onMe (fun t => { t with micro := m })
  | .coll d p => s.onProg d p (fun x => { x with micro := m })

/-- The partition of the collective program that steps. -/
def State.enginePart (s : State) : Nat := match s.agent with
  | .strand => s.me.part
  | .coll d p => (tget (tget s.colls d).progs p).part

/-- Does a strand step? -/
def State.inCore (s : State) : Bool := s.agent = .strand

/-- The step bound (R280, R306). -/
def State.microBound (s : State) : Nat := match s.agent with
  | .strand => s.me.micro.msb.toNat + 1
  | .coll d p => (tget (tget s.colls d).progs p).bound

/-- The word at a micro-address as the agent fetches it. -/
def State.microWord (s : State) (a : Nat) : BitVec 128 := match s.agent with
  | .strand => if a < 0x0800 then baseWordAt a else cget (tget (tget s.cores s.me.core).pages (a / 256)).words (a % 256)
  | .coll d _ => cget (tget s.colls d).store a

/-- R289: pool value n of the page of the executing word. -/
def State.poolValue (s : State) (n : Nat) : Elem :=
  (s.microWord (s.micro.mpc.toNat / 256 * 256 + 252 + n / 4)).extractLsb' (32 * (n % 4)) 32

/-- Fields of an address generator (R284, R307). -/
def agSPC (w : Word) : Nat := fld w 61 3
/-- TH. -/
def agTH (w : Word) : Nat := fld w 56 5
/-- STR. -/
def agSTR (w : Word) : Int := intVal true 16 (fld w 40 16)
/-- Bits of ADR: 24 in a core, a slice form of 32 in a collective engine (R307). -/
def State.adrBits (s : State) : Nat := if s.inCore then 24 else 32
/-- ADR. -/
def State.agADR (s : State) (w : Word) : Nat := fld w 0 s.adrBits

/-- The address generator of a data port (R281). -/
def dataPort (p : Nat) : Option Nat := if 0x20 ≤ p && p < 0x28 then some (p % 4) else none

/-- The word of an address generator. -/
def Micro.agen (m : Micro) (n : Nat) : Word := cget m.ag n

/-- The line and tag of a line pointer (R283). -/
def Micro.line (m : Micro) (n : Nat) : LineRef :=
  let w := cget m.lp n
  lineOf (w.extractLsb' 0 11) (w.extractLsb' 11 1)
/-- TG. -/
def Micro.lineTag (m : Micro) (n : Nat) : BitVec 4 := (cget m.lp n).extractLsb' 15 4

/-- The unit of a trigger port (R285). -/
def unitOf (p : Nat) : Option Nat :=
  if p = 0x081 || p = 0x082 then some 0
  else if p = 0x085 then some 1
  else if p = 0x08A then some 2
  else if p = 0x08D || p = 0x08E then some 3
  else if p = 0x08F || p = 0x090 then some 4
  else if p = 0x094 || p = 0x095 then some 5
  else if 0x099 ≤ p && p ≤ 0x09C then some 6
  else if 0x0A2 ≤ p && p ≤ 0x0A7 then some 7
  else none

/-- Operand latch ports (R285). -/
def isLatch (p : Nat) : Bool := [0x080, 0x084, 0x088, 0x089, 0x08C, 0x098, 0x0A0, 0x0A1].contains p

/-- R281, R307: may the port be a source? -/
def State.srcOk (s : State) (p : Nat) : Bool :=
  p < 8 || (0x20 ≤ p && p < 0x34) || (0x35 ≤ p && p ≤ 0x38) || (0x200 ≤ p && p < 0x300) || (0x3F0 ≤ p && p < 0x400) ||
    (s.inCore && (p < 0x20 || p = 0x34 || (0x40 ≤ p && p < 0x80)))

/-- R281, R285, R307: may the port be a destination? -/
def State.dstOk (s : State) (p : Nat) : Bool :=
  p < 8 || (0x20 ≤ p && p < 0x34) || (0x35 ≤ p && p ≤ 0x38) || (0x80 ≤ p && p ≤ 0x82) || (0x98 ≤ p && p ≤ 0x9C) ||
    (s.inCore && (p < 0x20 || (0x40 ≤ p && p < 0x80) || isLatch p || (unitOf p).isSome))

/-- R279: is CND one of the conditions? A collective program has no line pointers and no planes, so that the tag conditions fail the
encoding checks there (R306, R307; DESIGN CHOICE, log 104). -/
def State.cndOk (s : State) (c : Nat) : Bool :=
  c = 0 || c = 2 || c = 3 || (16 ≤ c && c < 33) || (s.inCore && 8 ≤ c && c < 16)

/-- R278: do TGT and CND of a word suit its sequencing op? -/
def State.seqOk (s : State) (seq : Nat) (m : MicroFields) : Bool :=
  let usesTgt := (1 ≤ seq && seq ≤ 6) || seq = 9
  let usesCnd := seq = 2 || seq = 3 || seq = 9
  seq < 11 && !(seq = 10 && s.inCore) && (usesTgt || m.tgt = 0) && (if usesCnd then s.cndOk m.cnd.toNat else m.cnd = 0)

/-- R284: the rules of the data ports of a step. -/
def State.agOk (s : State) (l : List Transport) : Bool :=
  let m := s.micro
  let uses := l.flatMap (fun t => (dataPort t.src).toList ++ (dataPort t.dst).toList)
  let word (p : Nat) : Word := m.agen (p % 4)
  noRepeat uses &&
    uses.all (fun n => (agSTR (m.agen n)) % 4 = 0 && s.agADR (m.agen n) % 4 = 0) &&
    l.all (fun t =>
      ((dataPort t.src).isNone ||
        (if s.inCore then agSPC (word t.src) < 3 &&
            (agSPC (word t.src) ≠ 1 || (t.xf = 0 && (dataPort t.dst).isSome && agSPC (word t.dst) = 3))
         else agSPC (word t.src) = 0 || agSPC (word t.src) = 2)) &&
      ((dataPort t.dst).isNone ||
        (if s.inCore then agSPC (word t.dst) = 0 || (agSPC (word t.dst) = 3 && agTH (word t.dst) < 4)
         else agSPC (word t.dst) < 2)))

/-- R281 to R288, check 3 of R390: the encodings of a step. A TG of 15 is used where it is set, by a write through LN or a landing; a TGM
condition compares it like any other (R283; DEDUCED, log 92). Result destinations are compared by their XF: two LN of one step that
resolve to one line do not trap and land in the order of their fields (R286; DEDUCED, log 92). -/
def State.encOk (s : State) (seq : Nat) (m : MicroFields) : Bool :=
  let l := transports m
  let trig := l.filter (fun t => (unitOf t.dst).isSome)
  s.seqOk seq m && l.all (fun t => s.srcOk t.src && s.dstOk t.dst &&
      (if (unitOf t.dst).isSome then t.xf < (if s.inCore then 16 else 8) else t.xf < 8 || 0x20 ≤ t.xf) &&
      !(0x08 ≤ t.dst && t.dst < 0x10 && s.micro.lineTag (t.dst - 8) = 15)) &&
    noRepeat (trig.map (fun t => (unitOf t.dst).getD 0)) && noRepeat (trig.map (fun t => t.xf)) && s.agOk l

/-- Is the plane of a line pointer within the window (R64)? -/
def State.lpOk (s : State) (n : Nat) : Bool := (s.micro.line n).pn.toNat < s.me.win.pl

/-- R290, R307, R308: are the `n` bytes that an address generator reaches the agent's own? -/
def State.reaches (s : State) (w : Word) (n : Nat) : Bool :=
  let a := s.agADR w
  match s.agent with
  | .coll d p =>
    let part := (tget (tget s.colls d).progs p).part
    let res := (tget s.parts part).res
    if agSPC w = 0 then (List.range n).all (fun i => res.slices.contains ((a + i) / 2 ^ 26))
    else agTH w < 6 && res.ports.contains (6 * d + agTH w)
  | .strand =>
    let e := s.me.tile (BitVec.ofNat 5 (agTH w))
    if agSPC w = 0 then a / 2 ^ 17 = 127 && a % 2 ^ 17 + n ≤ 4096 * s.me.win.sb
    else if agSPC w = 1 then agTH w < s.me.win.th && e.tk = 0 && a + n ≤ wTileBytes && !(e.ts = 0 && e.dc = 0 && e.qc = 0)
    else if agSPC w = 2 then agTH w < s.me.win.th && e.tk = 2 && a + n ≤ cBytes
    else true

/-- R290, R307: is what a data port reaches, 128 bytes, the agent's own? -/
def State.reachOk (s : State) (w : Word) : Bool := s.reaches w 128

/-- R290, check 4 of R390: the ports of a step and the condition it evaluates. -/
def State.portsOk (s : State) (seq : Nat) (m : MicroFields) : Bool :=
  (transports m).all (fun t =>
    (!(0x08 ≤ t.src && t.src < 0x10) || s.lpOk (t.src - 8)) && (!(0x18 ≤ t.src && t.src < 0x20) || s.lpOk (t.src - 0x18)) &&
    (!(0x08 ≤ t.dst && t.dst < 0x10) || s.lpOk (t.dst - 8)) &&
    ((dataPort t.src).isNone || s.reachOk (s.micro.agen (t.src % 4))) &&
    ((dataPort t.dst).isNone || s.reachOk (s.micro.agen (t.dst % 4)))) &&
  (!((seq = 2 || seq = 3 || seq = 9) && 8 ≤ m.cnd.toNat && m.cnd.toNat < 16) || s.lpOk (m.cnd.toNat - 8)) &&
  (seq ≠ 10 || s.reaches (s.micro.agen 0 &&& 0x1FFF_FFFF_FFFF_FFFF) 8)

/-- R308: the word that POLL reads has reached the value it awaits. The word is the 8 staging bytes at ADR, whatever SPC and the
alignment of ADR (DESIGN CHOICE, log 92). -/
def State.pollMet (s : State) : Bool :=
  let m := s.micro
  let v := cvals m.mt 0 2
  (v.getD 1 0 ++ v.getD 0 0 : Word).toNat ≤ leNat (s.readMem 1 (s.agADR (m.agen 0)) 8)

/-- R279: does a condition hold? -/
def State.cndHolds (s : State) (c : Nat) : Bool :=
  let m := s.micro
  if c = 0 then true
  else if c = 2 then m.lc0 = 0
  else if c = 3 then m.lc1 = 0
  else if c < 16 then
    let tag := s.me.tagOf (m.line (c - 8)).pn
    tag = 0 || tag = m.lineTag (c - 8)
  else if c < 24 then bitAt m.cf (c - 16)
  else if c < 32 then !bitAt m.cf (c - 24)
  else m.mf = 0

/-- R278: the cause of a TRAP op. -/
def trapCause (tgt : BitVec 14) : BitVec 16 := match (tgt.extractLsb' 0 2).toNat with
  | 0 => cTag
  | 1 => cIllegal
  | 2 => cWindow
  | _ => 0x4000 + (tgt.extractLsb' 2 12).setWidth 16

/-- Checks 1 and 2 of R390: the step bound and the micro program counter. -/
def State.mpcFault (s : State) : Option (BitVec 16) :=
  let a := s.micro.mpc.toNat
  if s.microBound ≤ s.micro.msn then some cBound
  else if s.inCore then
    (if 252 ≤ a % 256 || 0x2000 ≤ a then some cMicro else if s.csReach s.cur a then none else some cIso)
  else if 0x0800 ≤ a then some cMicro else none

/-- Checks 1 to 4 of R390 as far as they can be made before the step's waits; the cause of the first that fails. -/
def State.stepFault (s : State) (seq : Nat) (m : MicroFields) : Option (BitVec 16) :=
  match s.mpcFault with
  | some c => some c
  | none =>
    if !s.encOk seq m then some cMicro
    else if !s.portsOk seq m then some cIso
    else none

/-- The strand gives up the micro-sequencer if it has it (R291). -/
def State.freeSequencer (s : State) : State :=
  s.onCore s.me.core (fun c => { c with sequencer := if c.sequencer = some s.cur then none else c.sequencer })

/-- The flags of a routine ORed into FF, and into TSTS where it was bound before the handler's entry (R287, R385). -/
def Strand.flagsOfRoutine (t : Strand) : Strand := { t.orFlags t.micro.mf false t.micro.pre with late := t.late }

/-- R294, R390: a failing step: earlier landings land, the routine is abandoned with MV 0, the trap is taken. MSN rises,
but for the step that the bound holds back (R280). A collective program just stops (log 28). -/
def State.microTrap (s : State) (cause : BitVec 16) : State := match s.agent with
  | .coll d p => s.onProg d p (fun x => { x with live := false })
  | .strand =>
    let a := s.me.micro.mpc
    let s := s.onMe (fun t =>
      let t := t.landLanes.flagsOfRoutine
      { t with micro := { t.micro with mv := false, msn := if cause = cBound then t.micro.msn else t.micro.msn + 1 } })
    let s := s.freeSequencer
    let t : Trap := { cause := cause, val := a.setWidth 64, mpc := a, slot := 7, routine := true }
    let s := s.deliver t
    { s with issue := { s.issue with status := .trapped t } }

/-- Do two lines share an element (R63)? -/
def linesMeet (a b : LineRef) : Bool :=
  a.pn = b.pn && (List.range 32).any (fun i => (List.range 32).any (fun j => elemKey a i = elemKey b j))

/-- R277, R286: is a landing pending on a source port: a temporary, a line, or a plane's tag? -/
def Micro.pendingOn (m : Micro) (p : Nat) : Bool :=
  m.pend.any (fun l =>
    if p < 8 then l.temp && l.mt.toNat = p
    else if p < 0x10 then !l.temp && linesMeet l.line (m.line (p - 8))
    else if 0x18 ≤ p && p < 0x20 then !l.temp && l.line.pn = (m.line (p - 0x18)).pn
    else false)

/-- R277, R286: is a landing pending on what a write to a temporary or through LN changes: for LN its plane, whose tag every
such write sets? -/
def Micro.pendingAt (m : Micro) (p : Nat) : Bool :=
  m.pend.any (fun l => if p < 8 then l.temp && l.mt.toNat = p else !l.temp && l.line.pn = (m.line (p - 8)).pn)

/-- R307: of the reads of a step, those before `t` that take a chunk from the queue which `t` reads, in ascending order of
fields. -/
def State.chunksBefore (s : State) (l : List Transport) (t : Transport) : Nat :=
  let queue (x : Transport) : Option Nat := match dataPort x.src with
    | some n => if s.inCore || agSPC (s.micro.agen n) ≠ 2 then none else some (agTH (s.micro.agen n))
    | none => none
  (l.takeWhile (· ≠ t)).countP (fun x => (queue x).isSome && queue x = queue t)

/-- Do the pages of the strand's routine still load: a bound opcode that reaches one waits (R272, R301)? -/
def State.pageLoads (s : State) : Bool :=
  let a := s.micro.mpc.toNat
  s.inCore && 0x0800 ≤ a && (tget (tget s.cores s.me.core).pages (a / 256)).loading

/-- R277, R307: must the step wait? -/
def State.stepWaits (s : State) (seq : Nat) (m : MicroFields) : Bool :=
  let x := s.micro
  let src (t : Transport) : Bool := match dataPort t.src with
    | some n =>
      let w := x.agen n
      match s.agent with
      | .strand =>
        let e := s.me.tile (BitVec.ofNat 5 (agTH w))
        agSPC w = 1 && !(e.ts = 2 && e.qc = 0)
      | .coll d _ => agSPC w = 2 && (tget (tget s.colls d).rx (agTH w)).length ≤ s.chunksBefore (transports m) t
    | none => x.pendingOn t.src
  let dst (t : Transport) : Bool :=
    if (unitOf t.dst).isSome then x.pendingAt t.xf else (t.dst < 0x10 && x.pendingAt t.dst)
  (transports m).any (fun t => src t || dst t) ||
    ((seq = 2 || seq = 3 || seq = 9) && 8 ≤ m.cnd.toNat && m.cnd.toNat < 16 && x.pendingOn (m.cnd.toNat + 0x10)) ||
    ((seq = 2 || seq = 3 || seq = 9) && m.cnd = 32 && !x.pend.isEmpty) || (seq = 10 && !s.pollMet)

/-- A value of a register port (R282). -/
def scalarPort (lo hi : Elem) : List Elem := lo :: hi :: List.replicate 30 0
/-- An immediate in every lane (R282). -/
def bcast (v : Elem) : List Elem := List.replicate 32 v

/-- The words of 128 bytes. -/
def chunkWords (l : List Byte) : List Elem := (List.range 32).map (fun i => wAt l (4 * i))

/-- The command at whose hands a C-tile is filling, and the key of its present slab (R405). -/
def State.filler (s : State) (th : BitVec 5) : Option (Nat × Cmd × Nat) :=
  (s.cmds.find? (fun e => e.2.strand = s.cur && e.2.td = some th && e.2.active && !e.2.op.isDrain)).map
    (fun e => (e.1, e.2, e.1 * 2 ^ 64 + e.2.prog))

/-- R405: how far the sum of element `i` of tile `th` is seen: at least as far as this routine saw it
before, else a free prefix. -/
def State.rawSteps (s : State) (th : BitVec 5) (i key n : Nat) : Nat :=
  let seen := match tfind s.micro.raw (1024 * th.toNat + i) with
    | some v => if v / 2 ^ 32 = key then v % 2 ^ 32 else 0
    | none => 0
  max seen (Config.rawPrefix (s.free + i) % (n + 1))

/-- R405: element `i` of a C-tile, its sum seen so far; and the prefix seen. -/
def State.rawElem (s : State) (th : BitVec 5) (i : Nat) : Elem × Option Nat :=
  let e := s.me.tile th
  let old := leNat (s.me.tileBytes e (4 * i) 4)
  match if e.ts = 1 then s.filler th else none with
  | none => (BitVec.ofNat 32 old, none)
  | some (_, c, key) =>
    let ops : Option MatIn :=
      if c.op = .mma && c.state = .started then some (s.tileOperands c)
      else if c.op = .mmas && c.state = .started then (match s.slabOperands c c.prog with
        | .ok x => some x
        | .error _ => none)
      else none
    match ops with
    | some x =>
      let a := x.a.getD (i / 32) []
      let n := s.rawSteps th i key a.length
      (BitVec.ofNat 32 (accFirst x.i8 n a (x.b.getD (i % 32) []) old), some (key * 2 ^ 32 + n))
    | none =>
      if c.op.isMatrix then (BitVec.ofNat 32 old, none)
      else
        let n := s.rawSteps th i key 1
        let t := tget (s.doTileOp c).strands s.cur
        (if n = 0 then BitVec.ofNat 32 old else BitVec.ofNat 32 (leNat (t.tileBytes (t.tile th) (4 * i) 4)),
          some (key * 2 ^ 32 + n))

/-- The 32 words a data port reads (R284, R307); `n` chunks of the same receive queue go to earlier fields of the step. -/
def State.agRead (s : State) (w : Word) (n : Nat) : List Elem :=
  let a := s.agADR w
  match s.agent with
  | .coll d _ =>
    if agSPC w = 0 then chunkWords (s.readMem 1 a 128) else (tget (tget s.colls d).rx (agTH w)).getD n []
  | .strand =>
    let th := BitVec.ofNat 5 (agTH w)
    if agSPC w = 0 then chunkWords (cread s.me.smem (a % 2 ^ 17) 128)
    else if agSPC w = 1 then chunkWords (s.me.tileBytes (s.me.tile th) a 128)
    else (List.range 32).map (fun k => (s.rawElem th (a / 4 + k)).1)

/-- The port value of a source (R281, R282); for `n` see `agRead`. -/
def State.portRead (s : State) (p : Nat) (n : Nat := 0) : List Elem :=
  let m := s.micro
  if p < 8 then cvals m.mt (32 * p) 32
  else if p < 0x10 then s.me.line (m.line (p - 8))
  else if p < 0x18 then scalarPort ((cget m.lp (p - 0x10)).extractLsb' 0 19 |>.setWidth 32) 0
  else if p < 0x20 then scalarPort ((s.me.tagOf (m.line (p - 0x18)).pn).setWidth 32) 0
  else if p < 0x28 then s.agRead (m.agen (p % 4)) n
  else if p < 0x2C then scalarPort (BitVec.ofNat 32 (s.agADR (m.agen (p % 4)))) 0
  else if p < 0x30 then scalarPort ((m.agen (p % 4)).extractLsb' 32 32) 0
  else if p < 0x34 then scalarPort (BitVec.ofNat 32 (agTH (m.agen (p % 4)))) 0
  else if p = 0x34 then scalarPort (m.opb.extractLsb' 0 32) ((m.opb.extractLsb' 32 8).setWidth 32)
  else if p = 0x35 then scalarPort (m.lc0.setWidth 32) 0
  else if p = 0x36 then scalarPort (m.lc1.setWidth 32) 0
  else if p = 0x37 then scalarPort (m.cf.setWidth 32) 0
  else if p = 0x38 then scalarPort (m.rmu.setWidth 32) 0
  else if p < 0x80 then
    let v := s.me.reg (BitVec.ofNat 6 (p - 0x40))
    scalarPort (v.extractLsb' 0 32) (v.extractLsb' 32 32)
  else if p < 0x300 then bcast ((BitVec.ofNat 8 p).signExtend 32)
  else bcast (s.poolValue (p % 16))

/-- A transform on one element, element 0 at hand (R288). -/
def transform (xf : Nat) (e0 e : Elem) : Elem := match xf with
  | 0 => e
  | 1 => e <<< 16
  | 2 => e &&& 0xFFFF0000
  | 3 => e &&& 0xFFFF
  | 4 => e >>> 16
  | 5 => e0
  | 6 => e ^^^ 0x80000000
  | 7 => e &&& 0x7FFFFFFF
  | _ => e >>> (xf - 0x20)

/-- The value that a transport of a step moves. -/
def State.moved (s : State) (l : List Transport) (t : Transport) : List Elem :=
  let v := s.portRead t.src (s.chunksBefore l t)
  if (unitOf t.dst).isSome then v else v.map (transform t.xf (elemAt v 0))

/-- Put bits of a number into a word. -/
def putBits (w : Word) (lo len : Nat) (v : Nat) : Word :=
  BitVec.ofNat 64 (w.toNat / 2 ^ (lo + len) * 2 ^ (lo + len) + v % 2 ^ len * 2 ^ lo + w.toNat % 2 ^ lo)

/-- Write 128 bytes through a data port whose generator stood as `w` at the start of the step (R284, R307). A
latch written so holds no tile; bytes beyond a latch's 16 KiB are not written. -/
def State.agWrite (s : State) (w : Word) (v : List Elem) : State :=
  let a := s.agADR w
  let l := v.flatMap wBytes
  match s.agent with
  | .coll d _ =>
    if agSPC w = 0 then s.writeMem 1 a l
    else
      let e := tget s.colls d
      let e' : Coll := { e with tx := tset e.tx (agTH w) (tget e.tx (agTH w) ++ [v]) }
      { s with colls := tset s.colls d e' }
  | .strand =>
    if agSPC w = 0 then s.onMe (fun t => { t with smem := cwrite t.smem (a % 2 ^ 17) l })
    else s.onCore s.me.core (fun c =>
      let x := tget c.latches (agTH w)
      { c with latches := tset c.latches (agTH w) { x with ctx := none, bytes := cwrite x.bytes a (l.take (wTileBytes - a)) } })

/-- Phase 3 for one transport that is no trigger (R277, R281); `m0` is the micro state at the start, by which LN and AGD resolve though
the step writes lpN, its TG or agN as well (DEDUCED, log 92). -/
def State.portWrite (s : State) (m0 : Micro) (p : Nat) (v : List Elem) : State :=
  let m := s.micro
  let e := elemAt v 0
  if p < 8 then s.setMicro { m with mt := cwrite m.mt (32 * p) v }
  else if p < 0x10 then s.onMe (fun t => t.setLine (m0.line (p - 8)) v (List.replicate 32 0xFFFFFFFF) (m0.lineTag (p - 8)))
  else if p < 0x18 then s.setMicro { m with lp := cset m.lp (p - 0x10) ((e &&& 0x78FFF).setWidth 64) }
  else if p < 0x20 then s.setMicro { m with lp := cset m.lp (p - 0x18) (putBits (cget m.lp (p - 0x18)) 15 4 e.toNat) }
  else if p < 0x28 then s.agWrite (m0.agen (p % 4)) v
  else if p < 0x2C then s.setMicro { m with ag := cset m.ag (p % 4) (putBits (m.agen (p % 4)) 0 s.adrBits e.toNat) }
  else if p < 0x30 then s.setMicro { m with ag := cset m.ag (p % 4) (putBits (m.agen (p % 4)) 32 32 (e &&& 0xFFFFFF00).toNat) }
  else if p < 0x34 then s.setMicro { m with ag := cset m.ag (p % 4) (putBits (m.agen (p % 4)) 56 5 e.toNat) }
  else if p = 0x35 then s.setMicro { m with lc0 := e.extractLsb' 0 16 }
  else if p = 0x36 then s.setMicro { m with lc1 := e.extractLsb' 0 16 }
  else if p = 0x37 then s.setMicro { m with cf := e.extractLsb' 0 8 }
  else if p = 0x38 then s.setMicro { m with rmu := e.extractLsb' 0 2 }
  else if 0x40 ≤ p && p < 0x80 then s.onMe (fun t => t.setReg (BitVec.ofNat 6 (p - 0x40)) (elemAt v 1 ++ e))
  else s

/-- A float result on elements. -/
def fElem (x : Elem) : FVal := decodeF fF32 x.toNat

/-- The element results of a trigger, with the flags it raises (R285, R287). -/
def unitElem (p : Nat) (mode : BitVec 3) (o m v : Elem) : FRes :=
  let int (x : Elem) : FRes := { bits := x.toNat, ff := 0 }
  let item (hi : Bool) (tag : BitVec 4) : FRes :=
    let r := convertTo tag mode 0 (fElem v)
    { r with bits := if hi then r.bits * 2 ^ 16 + o.toNat % 2 ^ 16 else o.toNat / 2 ^ 16 * 2 ^ 16 + r.bits }
  match p with
  | 0x081 => fadd fF32 mode 0 (fElem o) (fElem v)
  | 0x082 => fsub fF32 mode 0 (fElem o) (fElem v)
  | 0x085 => fmul fF32 mode 0 (fElem o) (fElem v)
  | 0x08A => ffma fF32 mode 0 (fElem o) (fElem m) (fElem v)
  | 0x08D => fminmax true fF32 (fElem o) (fElem v)
  | 0x08E => fminmax false fF32 (fElem o) (fElem v)
  | 0x08F => fexp2 mode (fElem v)
  | 0x090 => frcp mode (fElem v)
  | 0x099 => item false 2
  | 0x09A => item true 2
  | 0x09B => item false 3
  | 0x09C => item true 3
  | 0x0A2 => int (o + v)
  | 0x0A3 => int (o &&& v)
  | 0x0A4 => int (o ||| v)
  | 0x0A5 => int (o ^^^ v)
  | 0x0A6 => int ((o &&& m) ||| (v &&& ~~~ m))
  | _ => int (if o.slt v then v else o)

/-- The operand latches that a trigger reads: O or A, and M or B (R285). -/
def latchesOf (p : Nat) : Nat × Nat := match unitOf p with
  | some 0 => (0x080, 0)
  | some 1 => (0x084, 0)
  | some 2 => (0x088, 0x089)
  | some 3 => (0x08C, 0)
  | some 6 => (0x098, 0)
  | some 7 => (0x0A0, 0x0A1)
  | _ => (0, 0)

/-- The result of a trigger (R285, R287): `latch` gives the operand latches of the step. -/
def unitResult (p : Nat) (mode : BitVec 3) (latch : Nat → List Elem) (v : List Elem) : List Elem × BitVec 5 :=
  if p = 0x094 then
    let r := treeSum mode 5 (v.map (·.toNat)) 0
    (bcast (BitVec.ofNat 32 r.1), r.2)
  else if p = 0x095 then
    let vs := v.map fElem
    let ff := ffIf (vs.any FVal.snan) ffV
    if vs.any FVal.isNan then (bcast (BitVec.ofNat 32 (nanOf fF32)), ff)
    else (bcast (BitVec.ofNat 32 (roundF fF32 0 0 (extreme true vs (vs.headD (.inf false)))).bits), ff)
  else
    let o := latch (latchesOf p).1
    let m := latch (latchesOf p).2
    let rs := (List.range 32).map (fun k => unitElem p mode (elemAt o k) (elemAt m k) (elemAt v k))
    (rs.map (fun r => BitVec.ofNat 32 r.bits), rs.foldl (fun f r => f ||| r.ff) 0)

/-- Start a trigger (R286): in a core its result is pending until it lands; in a collective engine, where
nothing else can observe it, it lands at once. -/
def State.trigger (s : State) (xf : Nat) (r : List Elem × BitVec 5) : State :=
  let m := s.micro
  if s.inCore then
    let l : LaneLanding :=
      if xf < 8 then { temp := true, mt := BitVec.ofNat 3 xf, vals := r.1, ff := r.2 }
      else { temp := false, line := m.line (xf - 8), tag := m.lineTag (xf - 8), vals := r.1, ff := r.2 }
    s.setMicro { m with pend := m.pend ++ [l] }
  else s.setMicro { m with mt := cwrite m.mt (32 * xf) r.1, mf := m.mf ||| r.2 }

/-- The advance of AGDI ports (R284). -/
def State.agAdvance (s : State) (m0 : Micro) (l : List Transport) : State :=
  (l.flatMap (fun t => [t.src, t.dst])).foldl (fun s p =>
    if 0x24 ≤ p && p < 0x28 then
      let m := s.micro
      let n := p % 4
      let a := ((fld (m.agen n) 0 s.adrBits : Int) + agSTR (m0.agen n)) % (2 ^ s.adrBits : Nat)
      s.setMicro { m with ag := cset m.ag n (putBits (m.agen n) 0 s.adrBits a.toNat) }
    else s) s

/-- What raw C-tile reads of a step have shown (R405). -/
def State.noteRaw (s : State) (l : List Transport) : State :=
  l.foldl (fun s t => match dataPort t.src with
    | some n =>
      let w := s.micro.agen n
      if s.inCore && agSPC w = 2 then
        let th := BitVec.ofNat 5 (agTH w)
        let seen := (List.range 32).filterMap (fun k =>
          (s.rawElem th (s.agADR w / 4 + k)).2.map (fun v => (1024 * th.toNat + s.agADR w / 4 + k, v)))
        s.setMicro { s.micro with raw := seen.foldl (fun r e => tset r e.1 e.2) s.micro.raw }
      else s
    | none => s) s

/-- The next micro-address and the registers that sequencing changes (R278); `held` is the condition. -/
def Micro.sequence (m : Micro) (seq : Nat) (tgt : BitVec 14) (held : Bool) : Micro :=
  let next := m.mpc + 1
  match seq with
  | 1 => { m with mpc := tgt }
  | 2 => { m with mpc := if held then tgt else next }
  | 3 => { m with mpc := if held then next else tgt }
  | 4 => { m with lc0 := if m.lc0 = 0 then 0 else m.lc0 - 1, mpc := if 1 < m.lc0.toNat then tgt else next }
  | 5 => { m with lc1 := if m.lc1 = 0 then 0 else m.lc1 - 1, mpc := if 1 < m.lc1.toNat then tgt else next }
  | 6 => { m with mra := next, mpc := tgt }
  | 7 => { m with mpc := m.mra }
  | _ => { m with mpc := next }

/-- R242, R284: the base routine of MLATCH records its tile at its end. -/
def State.recordLatch (s : State) : State :=
  let m := s.me.micro
  let entry := fld (cget s.me.bind (bindSlot m.mc m.mop)) 0 14
  if entry = 0x0400 && m.mpc = 0x0404 then
    let th : BitVec 5 := m.opb.extractLsb' 25 5
    let e := s.me.tile th
    s.onCore s.me.core (fun c =>
      let n := (m.opb.extractLsb' 0 2).toNat
      { c with latches := tset c.latches n { tget c.latches n with
          ctx := some s.cur, th := th, bi := e.bi, wc := tget c.wcount (32 * s.me.ctx + e.bi.toNat) } })
  else s

/-- R293: the routine ends once every landing has landed. A collective program stops. -/
def State.routineEnd (s : State) : State := match s.agent with
  | .coll d p => s.onProg d p (fun x => { x with live := false })
  | .strand =>
    let s := s.recordLatch
    let s := s.onMe (fun t =>
      let t := t.landLanes.flagsOfRoutine
      { t with micro := { mt := t.micro.mt } })
    s.freeSequencer

/-- Phase 3 in ascending order of fields (R277). -/
def State.portWrites (s : State) (m0 : Micro) (l : List (Transport × List Elem)) : State :=
  l.foldl (fun s p => s.portWrite m0 p.1.dst p.2) s

/-- R307: 128 bytes leave a receive queue that has been read. -/
def State.takeReceived (s : State) (m0 : Micro) (l : List Transport) : State := match s.agent with
  | .strand => s
  | .coll d _ => l.foldl (fun s t => match dataPort t.src with
    | some n =>
      let w := m0.agen n
      let e := tget s.colls d
      let e' : Coll := { e with rx := tset e.rx (agTH w) ((tget e.rx (agTH w)).drop 1) }
      if agSPC w = 2 then { s with colls := tset s.colls d e' } else s
    | none => s) s

/-- The phases of a step that passes its first checks and need not wait (R277); none where a trigger's line pointer
fails when it is resolved in phase 4, or where the condition of a TRAP, evaluated in phase 2, holds (R278, R390). -/
def State.doStep (s : State) (seq : Nat) (f : MicroFields) : Except (BitVec 16) State :=
  let l := transports f
  let m0 := s.micro
  let held := s.cndHolds f.cnd.toNat
  let vals := l.map (fun t => (t, s.moved l t))
  let s1 := (s.noteRaw l).portWrites m0 (vals.filter (fun p => (unitOf p.1.dst).isNone && !isLatch p.1.dst))
  let s1 := s1.takeReceived m0 l
  let trig := vals.filter (fun p => (unitOf p.1.dst).isSome)
  if trig.any (fun p => 8 ≤ p.1.xf && s1.micro.lineTag (p.1.xf - 8) = 15) then .error cMicro
  else if trig.any (fun p => 8 ≤ p.1.xf && !s1.lpOk (p.1.xf - 8)) then .error cIso
  else if seq = 9 && held then .error (trapCause f.tgt)
  else
    let latch (q : Nat) : List Elem := match (vals.filter (fun p => p.1.dst = q && isLatch q)).getLast? with
      | some p => p.2
      | none => bcast 0
    let s2 := trig.foldl (fun s p => s.trigger p.1.xf (unitResult p.1.dst (s1.micro.rmu.setWidth 3) latch p.2)) s1
    let s3 := s2.agAdvance m0 l
    let s3 : State := { s3 with free := s3.free + 1024 }
    let s3 := s3.setMicro { s3.micro with msn := s3.micro.msn + 1 }
    if seq = 8 then .ok s3.routineEnd
    else .ok (s3.setMicro (s3.micro.sequence seq f.tgt held))

/-- A step of the micro-sequencer (R277, R294, R390). -/
def microStep (seq : Nat) (m : MicroFields) (s : State) : Out :=
  match s.stepFault seq m with
  | some c => .next (s.microTrap c)
  | none =>
    if s.stepWaits seq m then .next { s with issue := { s.issue with status := .wait } }
    else match s.doStep seq m with
      | .ok s' => .next s'
      | .error c => .next (s.microTrap c)

/-- NEXT (R278). -/
def execMicroNext (m : MicroFields) (s : State) : Out := microStep 0 m s
/-- JUMP (R278). -/
def execJump (m : MicroFields) (s : State) : Out := microStep 1 m s
/-- BRT (R278). -/
def execBrt (m : MicroFields) (s : State) : Out := microStep 2 m s
/-- BRF (R278). -/
def execBrf (m : MicroFields) (s : State) : Out := microStep 3 m s
/-- LOOP0 (R278). -/
def execLoop0 (m : MicroFields) (s : State) : Out := microStep 4 m s
/-- LOOP1 (R278). -/
def execLoop1 (m : MicroFields) (s : State) : Out := microStep 5 m s
/-- CALL (R278). -/
def execMicroCall (m : MicroFields) (s : State) : Out := microStep 6 m s
/-- RET (R278). -/
def execMicroRet (m : MicroFields) (s : State) : Out := microStep 7 m s
/-- END (R278, R293). -/
def execMicroEnd (m : MicroFields) (s : State) : Out := microStep 8 m s
/-- TRAP (R278, R294). -/
def execMicroTrap (m : MicroFields) (s : State) : Out := microStep 9 m s
/-- POLL (R308). -/
def execPoll (m : MicroFields) (s : State) : Out := microStep 10 m s

/-- LANE_UNIT_LANDING (R286): the oldest result of the strand's lane units lands. -/
def execLaneUnitLanding (strand : Nat) (s : State) : Out :=
  .next (s.onStrand strand (fun t => match t.micro.pend with
    | [] => t
    | l :: r => { t with micro := { t.micro with pend := r } }.landLane l))

/-- The fields of a micro-word (R275). -/
def fieldsOf (w : BitVec 128) : MicroFields :=
  { tgt := w.extractLsb' 110 14, cnd := w.extractLsb' 104 6, tf3 := w.extractLsb' 78 26, tf2 := w.extractLsb' 52 26,
    tf1 := w.extractLsb' 26 26, tf0 := w.extractLsb' 0 26 }

/-- A bound opcode at issue (R166, R272, R291, R294): the checks of the routine's first step, and the
sequencer in the order in which bundles became ready. It waits until every page of its entry's load group is loaded: R301 has it wait for a
page that it reaches, and which those are is not known before it runs (DEDUCED, log 103). -/
def boundIssue (cls : BitVec 1) (o : FmtOB) (s : State) : Res State := do
  let w := cget s.me.bind (bindSlot cls o.opx)
  need (bitAt w 63) cUnbound s.issue.word
  let c := tget s.cores s.me.core
  let p := tget c.pages (fld w 0 14 / 256)
  needReady (!(2048 ≤ fld w 0 14 && c.pages.any (fun e => e.2.owner = some s.cur && e.2.base = p.base && e.2.loading)))
  let m := s.me.boundMicro cls o
  let at0 : State := s.onMe (fun t => { t with micro := m })
  let word := at0.microWord m.mpc.toNat
  let seq := (word.extractLsb' 124 4).toNat
  let f := fieldsOf word
  match at0.stepFault seq f with
  | some cause => .error (.trap { cause := cause, val := m.mpc.setWidth 64, mpc := m.mpc, slot := 7, routine := true })
  | none =>
    match if at0.stepWaits seq f then Except.ok at0 else at0.doStep seq f with
    | .error cause => .error (.trap { cause := cause, val := m.mpc.setWidth 64, mpc := m.mpc, slot := 7, routine := true })
    | .ok _ =>
      if c.sequencer = none && (c.seqWait.headD s.cur) = s.cur then
        let s := s.onCore s.me.core (fun c => { c with sequencer := some s.cur, seqWait := c.seqWait.filter (· ≠ s.cur) })
        return { s with issue := { s.issue with bound := some m } }
      else
        let s := s.onCore s.me.core (fun c => { c with
          seqWait := if c.seqWait.contains s.cur then c.seqWait else c.seqWait ++ [s.cur] })
        return { s with issue := { s.issue with status := .wait } }

/-- VBOP (R166). -/
def execVbop (o : FmtOB) (s : State) : Out := finish s (boundIssue 0 o s)
/-- EBOP (R166). -/
def execEbop (o : FmtOB) (s : State) : Out := finish s (boundIssue 1 o s)

/-- COLLECTIVE_RECEIVE (R307): 128 bytes arrive at a receive queue of a die's engine. -/
def execCollectiveReceive (die port : Nat) (data : List (BitVec 32)) (s : State) : Out :=
  let e := tget s.colls die
  let v := (List.range 32).map (fun i => elemAt data i)
  let e' : Coll := { e with rx := tset e.rx port (tget e.rx port ++ [v]) }
  .next (if die < 4 && port < 6 then { s with colls := tset s.colls die e' } else s)

/-- R307, R367: the fabric ports that a micro-word names by a value it moves to an AGH or AGC port; `pool` gives the pool of
its page. -/
def portsNamed (pool : Nat → Elem) (w : BitVec 128) : List Nat :=
  (transports (fieldsOf w)).flatMap (fun t =>
    let v : Option Elem :=
      if 0x200 ≤ t.src && t.src < 0x300 then some ((BitVec.ofNat 8 t.src).signExtend 32)
      else if 0x3F0 ≤ t.src then some (pool (t.src % 16)) else none
    match v.map (fun v => transform t.xf v v) with
    | none => []
    | some v =>
      if 0x30 ≤ t.dst && t.dst < 0x34 then [v.toNat % 32]
      else if 0x2C ≤ t.dst && t.dst < 0x30 && (v.toNat / 2 ^ 29 = 1 || v.toNat / 2 ^ 29 = 2) then [v.toNat / 2 ^ 24 % 32]
      else [])

/-- The pages that a program in a die's store can come to from a page, in `fuel` branches (R278): those that the targets of their words
lie in, whose SEQ takes TGT as an address. A page never runs on into the next, since its last words are data (R287). -/
def progPages (e : Coll) : Nat → List Nat → List Nat
  | 0, l => l
  | fuel + 1, l =>
    let seq (w : BitVec 128) : Nat := (w.extractLsb' 124 4).toNat
    let jumps := e.store.filter (fun (x : Nat × BitVec 128) =>
      l.contains (x.1 / 256) && x.1 % 256 < 252 && 1 ≤ seq x.2 && seq x.2 ≤ 6)
    progPages e fuel (l ++ jumps.map (fun (x : Nat × BitVec 128) => (x.2.extractLsb' 110 14).toNat / 256))

/-- Where a running program of a die's engine goes on from: its micro-address and its return address (R278, R295). -/
def CollProg.starts (p : CollProg) : List Nat := [p.micro.mpc.toNat / 256, p.micro.mra.toNat / 256]

/-- R367: does a program of a partition that starts in one of these pages of a die's store name a port that the partition does not own, in
any word of the pages it can come to? -/
def State.namesForeign (s : State) (part die : Nat) (starts : List Nat) : Bool :=
  let e := tget s.colls die
  let pages := progPages e 8 starts
  e.store.any (fun x =>
    let pool (n : Nat) : Elem := (cget e.store (x.1 / 256 * 256 + 252 + n / 4)).extractLsb' (32 * (n % 4)) 32
    pages.contains (x.1 / 256) && x.1 % 256 < 252 &&
      (portsNamed pool x.2).any (fun p => !((tget s.parts part).res.ports.contains (6 * die + p) && p < 6)))

/-- COLLECTIVE_STORE_WRITE (R306, R367): a word of a die's collective store, for a partition; addresses 2,048 to
2,051 set up programs 0 to 3 (log 28): bit 127 runs it from micro-address 10..0 with the step bound 52..32. A program is
refused when a word of the pages it can come to names a port that its partition does not own, and so is a word by which a program that
runs would. -/
def execCollectiveStoreWrite (part die addr : Nat) (w : BitVec 128) (s : State) : Out :=
  let e := tget s.colls die
  if !(tget s.parts part).live || 4 ≤ die || 2052 ≤ addr || (2048 ≤ addr && bitAt w 127 && s.namesForeign part die [(w.extractLsb' 0 11).toNat / 256]) then .next s
  else if addr < 2048 then
    let e' : Coll := { e with store := cset e.store addr w, owner := tset e.owner (addr / 256) part }
    let s' : State := { s with colls := tset s.colls die e' }
    .next (if e.progs.any (fun p => p.2.live && s'.namesForeign p.2.part die p.2.starts) then s else s')
  else
    let p : CollProg := { live := bitAt w 127, part := part, bound := min (w.extractLsb' 32 21).toNat (2 ^ 20),
                          micro := { mpc := (w.extractLsb' 0 11).setWidth 14 } }
    let e' : Coll := { e with progs := tset e.progs (addr - 2048) p }
    .next { s with colls := tset s.colls die e' }

end Sys2Proof.Machine
end

