-- ==== Sys2Proof/Machine/Power.lean ====
section
/-! DEFINITION. Power, voltage and heat: ceilings (R20 to R22), operating points (R18, R19, R323), the thermal stop
(R22), power-on and power-off (R369, R370). Voltages are in tenths of a millivolt. -/

namespace Sys2Proof.Machine

/-- A step of 12.5 mV. -/
def vStep : Nat := 125

/-- The islands of the clusters (R17). -/
def clusterIslands : List Nat := List.range 64

/-- Lower the ceilings of some islands by one step, not below 450 mV (R21). -/
def State.ceilingsDown (s : State) (l : List Nat) : State :=
  l.foldl (fun s i => s.onDev (fun d =>
    { d with islands := tset d.islands i { tget d.islands i with ceiling10 := max 4500 ((tget d.islands i).ceiling10 - vStep) } })) s

/-- Raise the ceilings of some islands by one step, not above 750 mV (R18, R21). -/
def State.ceilingsUp (s : State) (l : List Nat) : State :=
  l.foldl (fun s i => s.onDev (fun d =>
    { d with islands := tset d.islands i { tget d.islands i with ceiling10 := min 7500 ((tget d.islands i).ceiling10 + vStep) } })) s

/-- Is a die at 105 °C or above (R22)? -/
def State.hot (s : State) (die : Nat) : Bool := 105 ≤ tget s.dev.junction die

/-- Does a step of R21 leave a die out? A die at 105 °C that was stepped less than 100 µs ago by R22: its islands take one step
every 100 µs under both rules (log 86). -/
def State.steppedHot (s : State) (die : Nat) : Bool := s.hot die && s.now < tget s.dev.lastHot die + 100000

/-- The state at the moment at which a step of the ceilings is due, if it is due and `ok` then (R21, R22). -/
def State.atDue (s : State) (due : Nat) (ok : State → Bool) : Option State :=
  if ok (s.clockTo due) then some (s.clockTo due) else none

/-- When the ceilings may fall next (R21). -/
def State.downDue (s : State) : Nat := s.dev.lastDown + 100000

/-- CEILING_STEP_DOWN (R21): every 100 µs while the package share exceeds 2,400 W. -/
def execCeilingStepDown (s : State) : Out :=
  match s.atDue s.downDue (fun t => t.over Device.pkgLog 2400) with
  | none => .next s
  | some t =>
    let dies := (List.range 4).filter (fun d => !t.steppedHot d)
    .next ((t.ceilingsDown (clusterIslands.filter (fun i => dies.contains (i / 16)))).onDev (fun d =>
      { d with lastDown := t.now, lastHot := dies.foldl (fun l x => tset l x t.now) d.lastHot }))

/-- When the ceilings may rise next (R21). R21 does not say from when the first 1 ms runs: it is counted from the last raise or
the last lowering, whichever came later (DESIGN CHOICE, log 86). -/
def State.upDue (s : State) : Nat := max s.dev.lastUp s.dev.lastDown + 1000000

/-- CEILING_STEP_UP (R21, R22): every 1 ms while the share stays below 2,300 W. R22 does not say how the ceilings of a die that
was at 105 °C rise again: they rise by these steps, once the die is cooler; while it is not it is left out (DESIGN CHOICE,
log 86). -/
def execCeilingStepUp (s : State) : Out :=
  match s.atDue s.upDue (fun t => t.under Device.pkgLog 2300) with
  | none => .next s
  | some t => .next ((t.ceilingsUp (clusterIslands.filter (fun i => !t.hot (i / 16)))).onDev (fun d => { d with lastUp := t.now }))

/-- THERMAL_THROTTLE (R22): the stepping of R21 for the cluster islands of a die at 105 °C. -/
def execThermalThrottle (die : Nat) (s : State) : Out :=
  if 4 ≤ die || !s.hot die then .next s
  else
    let s := s.clockTo (tget s.dev.lastHot die + 100000)
    .next ((s.ceilingsDown (clusterIslands.filter (fun i => i / 16 = die))).onDev
      (fun d => { d with lastHot := tset d.lastHot die s.now }))

/-- The voltage of a cluster island (R323): 600 mV and its offset, under its ceiling. -/
def Island.aim (x : Island) : Nat := min (6000 + (vStep : Int) * x.offset).toNat x.ceiling10

/-- May an island run at a voltage and a frequency (R18, R323)? A cluster's voltage and frequency follow its offset, its ceiling
and the capability table; an island that has no power has no operating point. -/
def State.pointOk (s : State) (i mv10 mhz : Nat) : Bool :=
  let top := topFreq i ((mv10 - 4500) / vStep)
  s.dev.powered && (124 ≤ i || !s.dev.stopped) && 4500 ≤ mv10 && mv10 ≤ 7500 && (mv10 - 4500) % vStep = 0 && 500 ≤ mhz &&
    mhz ≤ top && (64 ≤ i || (mv10 = (tget s.dev.islands i).aim && mhz = top))

/-- OPERATING_POINT_CHANGE (R19): lowering, the frequency falls and then the voltage; raising, the voltage rises and the
frequency waits until it has settled. -/
def execOperatingPointChange (island mV10 mhz : Nat) (s : State) : Out :=
  let x := tget s.dev.islands island
  if 128 ≤ island || x.settling || !s.pointOk island mV10 mhz then .next s
  else
    let y : Island := if x.mv10 < mV10 then { x with mv10 := mV10, target := some (mV10, mhz), settling := true }
      else { x with mhz := mhz, mv10 := mV10 }
    .next (s.onDev (fun d => { d with islands := tset d.islands island y }))

/-- VOLTAGE_SETTLED (R19). -/
def execVoltageSettled (island : Nat) (s : State) : Out :=
  let x := tget s.dev.islands island
  match x.target with
  | none => .next s
  | some (_, f) => .next (s.onDev (fun d => { d with
      islands := tset d.islands island { x with mhz := f, target := none, settling := false } }))

/-- What the control complex keeps of a partition when the package loses power: the numbers of its records and stops (log 34). -/
def Partition.numbers (p : Partition) : Partition :=
  { fatalSeq := p.fatalSeq, replaySeq := p.replaySeq, ovf := p.ovf, sseq := p.sseq, stops := p.stops.filter (fun t => !t.words.isEmpty),
    dirty := tmap p.dirty (fun _ d => { d with armed := false }) }

/-- What is left when the package and the capacity tier lose power (R22, R370): the control complex stays powered, with its
islands, its DRAM, the records in and before its lanes, the readings it takes, the windows it counts and the moves that are to
come; everything else is as at reset. -/
def State.packageLost (s : State) : State :=
  { State.reset with
    now := s.now, free := s.free, nextId := s.nextId, agenda := s.agenda, parts := tmap s.parts (fun _ p => p.numbers),
    dev := { s.dev with
      stopped := true, boot := 1, islands := s.dev.islands.filter (fun i => 124 ≤ i.1), lastClass3 := [], outs := [], performed := [],
      misses := [], lastSent := [], routes := [], failed := [], zeroing := [], invals := [], uncorrectable := [], slotFaults := [] } }

/-- THERMAL_STOP (R22, R370): the thermal record is posted and the package and the tier lose power. SLT: log 78. -/
def execThermalStop (die : Nat) (s : State) : Out :=
  if 4 ≤ die || tget s.dev.junction die < 115 || s.dev.stopped then .next s
  else .next (s.postFatal { mod := true, cause := 0x0032, val := BitVec.ofNat 64 die, slt := 7,
                            time := BitVec.ofNat 64 s.now }).packageLost

/-- PACKAGE_POWER_RESTORE (R369 from step 2, R370): memories tested, staging zeroed, every island at 600 mV and 940 MHz; or a step
that fails stops the sequence and is reported. -/
def execPackagePowerRestore (s : State) : Out :=
  let k := s.dev.bootFault
  if !s.dev.powered || !s.dev.stopped then .next s
  else if 2 ≤ k && k ≤ 4 then .next (s.onDev (fun d => { d with boot := k - 1, bootFailed := some k }))
  else .next (s.onDev (fun d => { d with stopped := false, boot := 4, bootFailed := none, islands := [] }))

/-- Nothing of the device's state survives without the main rails (R370); the counter of free values goes on (log 8), and a
part that fails still fails. -/
def State.unpowered (s : State) : State :=
  { State.reset with free := s.free, dev := { State.reset.dev with powered := false, boot := 0, bootFault := s.dev.bootFault } }

/-- POWER_OFF (R370): the main rails are removed; one that was commanded waits until every partition is destroyed. -/
def execPowerOff (s : State) : Out :=
  if s.dev.offAsked && s.parts.any (fun p => p.2.live) then .next s else .next s.unpowered

/-- POWER_ON (R369): the machine after the sequence, or after the steps before one that fails, which is reported. -/
def execPowerOn (s : State) : Out :=
  let k := s.dev.bootFault
  if s.dev.powered then .next s
  else if 1 ≤ k && k ≤ 4 then .next { State.reset with
    free := s.free,
    dev := { State.reset.dev with powered := k ≠ 1, stopped := true, boot := k - 1, bootFailed := some k, bootFault := k } }
  else .next { State.reset with free := s.free }

end Sys2Proof.Machine
end

