-- ==== Sys2Proof/Machine/Dispatch.lean ====
section
/-! DEFINITION. The dispatch: one arm for every constructor of `Instr`, a direct call of its meaning. -/

namespace Sys2Proof.Machine

/-- The effect of an instruction, a micro-op or an event. -/
def exec (i : Instr) (s : State) : Host.Outcome State Fault Refusal :=
  match i with
  | .add o => Sys2Proof.Machine.execAdd o s
  | .sub o => Sys2Proof.Machine.execSub o s
  | .andR o => Sys2Proof.Machine.execAndR o s
  | .orR o => Sys2Proof.Machine.execOrR o s
  | .xorR o => Sys2Proof.Machine.execXorR o s
  | .andn o => Sys2Proof.Machine.execAndn o s
  | .orn o => Sys2Proof.Machine.execOrn o s
  | .xnor o => Sys2Proof.Machine.execXnor o s
  | .sll o => Sys2Proof.Machine.execSll o s
  | .srl o => Sys2Proof.Machine.execSrl o s
  | .sra o => Sys2Proof.Machine.execSra o s
  | .rol o => Sys2Proof.Machine.execRol o s
  | .ror o => Sys2Proof.Machine.execRor o s
  | .slt o => Sys2Proof.Machine.execSlt o s
  | .sltu o => Sys2Proof.Machine.execSltu o s
  | .seq o => Sys2Proof.Machine.execSeq o s
  | .sne o => Sys2Proof.Machine.execSne o s
  | .min o => Sys2Proof.Machine.execMin o s
  | .max o => Sys2Proof.Machine.execMax o s
  | .minu o => Sys2Proof.Machine.execMinu o s
  | .maxu o => Sys2Proof.Machine.execMaxu o s
  | .sel o => Sys2Proof.Machine.execSel o s
  | .mul o => Sys2Proof.Machine.execMul o s
  | .mulh o => Sys2Proof.Machine.execMulh o s
  | .mulhu o => Sys2Proof.Machine.execMulhu o s
  | .divS o => Sys2Proof.Machine.execDivS o s
  | .divu o => Sys2Proof.Machine.execDivu o s
  | .remS o => Sys2Proof.Machine.execRemS o s
  | .remu o => Sys2Proof.Machine.execRemu o s
  | .addw o => Sys2Proof.Machine.execAddw o s
  | .subw o => Sys2Proof.Machine.execSubw o s
  | .mulw o => Sys2Proof.Machine.execMulw o s
  | .clz o => Sys2Proof.Machine.execClz o s
  | .ctz o => Sys2Proof.Machine.execCtz o s
  | .popc o => Sys2Proof.Machine.execPopc o s
  | .brev o => Sys2Proof.Machine.execBrev o s
  | .bswap o => Sys2Proof.Machine.execBswap o s
  | .absR o => Sys2Proof.Machine.execAbsR o s
  | .ext o => Sys2Proof.Machine.execExt o s
  | .extu o => Sys2Proof.Machine.execExtu o s
  | .ins o => Sys2Proof.Machine.execIns o s
  | .addi o => Sys2Proof.Machine.execAddi o s
  | .andi o => Sys2Proof.Machine.execAndi o s
  | .ori o => Sys2Proof.Machine.execOri o s
  | .xori o => Sys2Proof.Machine.execXori o s
  | .slli o => Sys2Proof.Machine.execSlli o s
  | .srli o => Sys2Proof.Machine.execSrli o s
  | .srai o => Sys2Proof.Machine.execSrai o s
  | .slti o => Sys2Proof.Machine.execSlti o s
  | .sltui o => Sys2Proof.Machine.execSltui o s
  | .addpc o => Sys2Proof.Machine.execAddpc o s
  | .li o => Sys2Proof.Machine.execLi o s
  | .lih o => Sys2Proof.Machine.execLih o s
  | .beq o => Sys2Proof.Machine.execBeq o s
  | .bne o => Sys2Proof.Machine.execBne o s
  | .blt o => Sys2Proof.Machine.execBlt o s
  | .bge o => Sys2Proof.Machine.execBge o s
  | .bltu o => Sys2Proof.Machine.execBltu o s
  | .bgeu o => Sys2Proof.Machine.execBgeu o s
  | .beqi o => Sys2Proof.Machine.execBeqi o s
  | .bnei o => Sys2Proof.Machine.execBnei o s
  | .blti o => Sys2Proof.Machine.execBlti o s
  | .bgei o => Sys2Proof.Machine.execBgei o s
  | .btR o => Sys2Proof.Machine.execBtR o s
  | .bsw o => Sys2Proof.Machine.execBsw o s
  | .bdnz o => Sys2Proof.Machine.execBdnz o s
  | .jl o => Sys2Proof.Machine.execJl o s
  | .jlx o => Sys2Proof.Machine.execJlx o s
  | .ldB o => Sys2Proof.Machine.execLdB o s
  | .ldBu o => Sys2Proof.Machine.execLdBu o s
  | .ldH o => Sys2Proof.Machine.execLdH o s
  | .ldHu o => Sys2Proof.Machine.execLdHu o s
  | .ldW o => Sys2Proof.Machine.execLdW o s
  | .ldWu o => Sys2Proof.Machine.execLdWu o s
  | .ldD o => Sys2Proof.Machine.execLdD o s
  | .stB o => Sys2Proof.Machine.execStB o s
  | .stH o => Sys2Proof.Machine.execStH o s
  | .stW o => Sys2Proof.Machine.execStW o s
  | .stD o => Sys2Proof.Machine.execStD o s
  | .ldsB o => Sys2Proof.Machine.execLdsB o s
  | .ldsBu o => Sys2Proof.Machine.execLdsBu o s
  | .ldsH o => Sys2Proof.Machine.execLdsH o s
  | .ldsHu o => Sys2Proof.Machine.execLdsHu o s
  | .ldsW o => Sys2Proof.Machine.execLdsW o s
  | .ldsWu o => Sys2Proof.Machine.execLdsWu o s
  | .ldsD o => Sys2Proof.Machine.execLdsD o s
  | .stsB o => Sys2Proof.Machine.execStsB o s
  | .stsH o => Sys2Proof.Machine.execStsH o s
  | .stsW o => Sys2Proof.Machine.execStsW o s
  | .stsD o => Sys2Proof.Machine.execStsD o s
  | .aadd o => Sys2Proof.Machine.execAadd o s
  | .amin o => Sys2Proof.Machine.execAmin o s
  | .amax o => Sys2Proof.Machine.execAmax o s
  | .aminu o => Sys2Proof.Machine.execAminu o s
  | .amaxu o => Sys2Proof.Machine.execAmaxu o s
  | .aand o => Sys2Proof.Machine.execAand o s
  | .aor o => Sys2Proof.Machine.execAor o s
  | .axor o => Sys2Proof.Machine.execAxor o s
  | .aswp o => Sys2Proof.Machine.execAswp o s
  | .acas o => Sys2Proof.Machine.execAcas o s
  | .afadd o => Sys2Proof.Machine.execAfadd o s
  | .abadd o => Sys2Proof.Machine.execAbadd o s
  | .xlate o => Sys2Proof.Machine.execXlate o s
  | .handleWalkComplete strand => Sys2Proof.Machine.execHandleWalkComplete strand s
  | .hrel o => Sys2Proof.Machine.execHrel o s
  | .ldpW o => Sys2Proof.Machine.execLdpW o s
  | .ldpD o => Sys2Proof.Machine.execLdpD o s
  | .xget o => Sys2Proof.Machine.execXget o s
  | .xgetd o => Sys2Proof.Machine.execXgetd o s
  | .xput o => Sys2Proof.Machine.execXput o s
  | .xputd o => Sys2Proof.Machine.execXputd o s
  | .xbcst o => Sys2Proof.Machine.execXbcst o s
  | .xxch o => Sys2Proof.Machine.execXxch o s
  | .vadd o => Sys2Proof.Machine.execVadd o s
  | .vsub o => Sys2Proof.Machine.execVsub o s
  | .vmul o => Sys2Proof.Machine.execVmul o s
  | .vfma o => Sys2Proof.Machine.execVfma o s
  | .vfms o => Sys2Proof.Machine.execVfms o s
  | .vfnma o => Sys2Proof.Machine.execVfnma o s
  | .vdiv o => Sys2Proof.Machine.execVdiv o s
  | .vsqrt o => Sys2Proof.Machine.execVsqrt o s
  | .vmin o => Sys2Proof.Machine.execVmin o s
  | .vmax o => Sys2Proof.Machine.execVmax o s
  | .vabs o => Sys2Proof.Machine.execVabs o s
  | .vneg o => Sys2Proof.Machine.execVneg o s
  | .vceq o => Sys2Proof.Machine.execVceq o s
  | .vclt o => Sys2Proof.Machine.execVclt o s
  | .vcle o => Sys2Proof.Machine.execVcle o s
  | .vcun o => Sys2Proof.Machine.execVcun o s
  | .viadd o => Sys2Proof.Machine.execViadd o s
  | .visub o => Sys2Proof.Machine.execVisub o s
  | .vimul o => Sys2Proof.Machine.execVimul o s
  | .vimulh o => Sys2Proof.Machine.execVimulh o s
  | .vimin o => Sys2Proof.Machine.execVimin o s
  | .vimax o => Sys2Proof.Machine.execVimax o s
  | .viabs o => Sys2Proof.Machine.execViabs o s
  | .vshl o => Sys2Proof.Machine.execVshl o s
  | .vshr o => Sys2Proof.Machine.execVshr o s
  | .viceq o => Sys2Proof.Machine.execViceq o s
  | .viclt o => Sys2Proof.Machine.execViclt o s
  | .vicle o => Sys2Proof.Machine.execVicle o s
  | .vand o => Sys2Proof.Machine.execVand o s
  | .vor o => Sys2Proof.Machine.execVor o s
  | .vxor o => Sys2Proof.Machine.execVxor o s
  | .vandn o => Sys2Proof.Machine.execVandn o s
  | .vsel o => Sys2Proof.Machine.execVsel o s
  | .vmov o => Sys2Proof.Machine.execVmov o s
  | .vperm o => Sys2Proof.Machine.execVperm o s
  | .vrot o => Sys2Proof.Machine.execVrot o s
  | .vbcst o => Sys2Proof.Machine.execVbcst o s
  | .vcvtF32 o => Sys2Proof.Machine.execVcvtF32 o s
  | .vcvtBf16 o => Sys2Proof.Machine.execVcvtBf16 o s
  | .vcvtFp16 o => Sys2Proof.Machine.execVcvtFp16 o s
  | .vcvtE4m3 o => Sys2Proof.Machine.execVcvtE4m3 o s
  | .vcvtE5m2 o => Sys2Proof.Machine.execVcvtE5m2 o s
  | .vcvtE2m1 o => Sys2Proof.Machine.execVcvtE2m1 o s
  | .vcvtVq2 o => Sys2Proof.Machine.execVcvtVq2 o s
  | .vcvtI32 o => Sys2Proof.Machine.execVcvtI32 o s
  | .vcvtI16 o => Sys2Proof.Machine.execVcvtI16 o s
  | .vcvtI8 o => Sys2Proof.Machine.execVcvtI8 o s
  | .vcvtI4 o => Sys2Proof.Machine.execVcvtI4 o s
  | .vcvtN32 o => Sys2Proof.Machine.execVcvtN32 o s
  | .vcvtN16 o => Sys2Proof.Machine.execVcvtN16 o s
  | .vcvtN8 o => Sys2Proof.Machine.execVcvtN8 o s
  | .vrsum o => Sys2Proof.Machine.execVrsum o s
  | .vrmin o => Sys2Proof.Machine.execVrmin o s
  | .vrmax o => Sys2Proof.Machine.execVrmax o s
  | .vrisum o => Sys2Proof.Machine.execVrisum o s
  | .vscan o => Sys2Proof.Machine.execVscan o s
  | .viscan o => Sys2Proof.Machine.execViscan o s
  | .vnzs o => Sys2Proof.Machine.execVnzs o s
  | .vnzc o => Sys2Proof.Machine.execVnzc o s
  | .vbop o => Sys2Proof.Machine.execVbop o s
  | .vld o => Sys2Proof.Machine.execVld o s
  | .vst o => Sys2Proof.Machine.execVst o s
  | .vgath o => Sys2Proof.Machine.execVgath o s
  | .vscat o => Sys2Proof.Machine.execVscat o s
  | .vlda o => Sys2Proof.Machine.execVlda o s
  | .vsta o => Sys2Proof.Machine.execVsta o s
  | .vldc o => Sys2Proof.Machine.execVldc o s
  | .vldh o => Sys2Proof.Machine.execVldh o s
  | .vsth o => Sys2Proof.Machine.execVsth o s
  | .vgathh o => Sys2Proof.Machine.execVgathh o s
  | .vscath o => Sys2Proof.Machine.execVscath o s
  | .vldhPm4 o => Sys2Proof.Machine.execVldhPm4 o s
  | .vsthPm4 o => Sys2Proof.Machine.execVsthPm4 o s
  | .vgathhPm4 o => Sys2Proof.Machine.execVgathhPm4 o s
  | .vscathPm4 o => Sys2Proof.Machine.execVscathPm4 o s
  | .resultLanding strand => Sys2Proof.Machine.execResultLanding strand s
  | .ldCompletion strand n lanes => Sys2Proof.Machine.execLdCompletion strand n lanes s
  | .stCompletion strand n => Sys2Proof.Machine.execStCompletion strand n s
  | .talloc o => Sys2Proof.Machine.execTalloc o s
  | .tfree o => Sys2Proof.Machine.execTfree o s
  | .tzero o => Sys2Proof.Machine.execTzero o s
  | .tstat o => Sys2Proof.Machine.execTstat o s
  | .twait o => Sys2Proof.Machine.execTwait o s
  | .mlatch o => Sys2Proof.Machine.execMlatch o s
  | .mma o => Sys2Proof.Machine.execMma o s
  | .mmas o => Sys2Proof.Machine.execMmas o s
  | .mmaX o => Sys2Proof.Machine.execMmaX o s
  | .mmasX o => Sys2Proof.Machine.execMmasX o s
  | .matrixOperationStart cmd => Sys2Proof.Machine.execMatrixOperationStart cmd s
  | .streamFault cmd => Sys2Proof.Machine.execStreamFault cmd s
  | .trowp o => Sys2Proof.Machine.execTrowp o s
  | .tcvt o => Sys2Proof.Machine.execTcvt o s
  | .tmov o => Sys2Proof.Machine.execTmov o s
  | .txpose o => Sys2Proof.Machine.execTxpose o s
  | .tdrain o => Sys2Proof.Machine.execTdrain o s
  | .tdraink o => Sys2Proof.Machine.execTdraink o s
  | .tileCommandCompletion cmd => Sys2Proof.Machine.execTileCommandCompletion cmd s
  | .cpy o => Sys2Proof.Machine.execCpy o s
  | .cpym o => Sys2Proof.Machine.execCpym o s
  | .cpyi o => Sys2Proof.Machine.execCpyi o s
  | .cpysTo o => Sys2Proof.Machine.execCpysTo o s
  | .cpysFrom o => Sys2Proof.Machine.execCpysFrom o s
  | .cpyf o => Sys2Proof.Machine.execCpyf o s
  | .cpyg o => Sys2Proof.Machine.execCpyg o s
  | .cpysc o => Sys2Proof.Machine.execCpysc o s
  | .cpyq o => Sys2Proof.Machine.execCpyq o s
  | .sqgo o => Sys2Proof.Machine.execSqgo o s
  | .sqwait o => Sys2Proof.Machine.execSqwait o s
  | .sqwaitPoll cmd => Sys2Proof.Machine.execSqwaitPoll cmd s
  | .sqkill o => Sys2Proof.Machine.execSqkill o s
  | .sqstat o => Sys2Proof.Machine.execSqstat o s
  | .commandStart engine queue => Sys2Proof.Machine.execCommandStart engine queue s
  | .copyCommandCompletion cmd => Sys2Proof.Machine.execCopyCommandCompletion cmd s
  | .engineTranslationFault cmd => Sys2Proof.Machine.execEngineTranslationFault cmd s
  | .sfpool o => Sys2Proof.Machine.execSfpool o s
  | .poolingCompletion cmd => Sys2Proof.Machine.execPoolingCompletion cmd s
  | .sfplan o => Sys2Proof.Machine.execSfplan o s
  | .hotSegmentLoad part table => Sys2Proof.Machine.execHotSegmentLoad part table s
  | .sfstat o => Sys2Proof.Machine.execSfstat o s
  | .acq o => Sys2Proof.Machine.execAcq o s
  | .rel o => Sys2Proof.Machine.execRel o s
  | .fence o => Sys2Proof.Machine.execFence o s
  | .bar o => Sys2Proof.Machine.execBar o s
  | .bara o => Sys2Proof.Machine.execBara o s
  | .barw o => Sys2Proof.Machine.execBarw o s
  | .frd o => Sys2Proof.Machine.execFrd o s
  | .ffill o => Sys2Proof.Machine.execFfill o s
  | .pwr o => Sys2Proof.Machine.execPwr o s
  | .prd o => Sys2Proof.Machine.execPrd o s
  | .wait o => Sys2Proof.Machine.execWait o s
  | .yield o => Sys2Proof.Machine.execYield o s
  | .endR o => Sys2Proof.Machine.execEndR o s
  | .strandRetirement strand => Sys2Proof.Machine.execStrandRetirement strand s
  | .batchCompletion batch => Sys2Proof.Machine.execBatchCompletion batch s
  | .launch o => Sys2Proof.Machine.execLaunch o s
  | .trap o => Sys2Proof.Machine.execTrap o s
  | .rett o => Sys2Proof.Machine.execRett o s
  | .mfsr o => Sys2Proof.Machine.execMfsr o s
  | .mtsr o => Sys2Proof.Machine.execMtsr o s
  | .ifence o => Sys2Proof.Machine.execIfence o s
  | .rdclk o => Sys2Proof.Machine.execRdclk o s
  | .rdid o => Sys2Proof.Machine.execRdid o s
  | .setrm o => Sys2Proof.Machine.execSetrm o s
  | .rdff o => Sys2Proof.Machine.execRdff o s
  | .clrff o => Sys2Proof.Machine.execClrff o s
  | .brk o => Sys2Proof.Machine.execBrk o s
  | .pwsz o => Sys2Proof.Machine.execPwsz o s
  | .bind o => Sys2Proof.Machine.execBind o s
  | .unbind o => Sys2Proof.Machine.execUnbind o s
  | .bindq o => Sys2Proof.Machine.execBindq o s
  | .csload o => Sys2Proof.Machine.execCsload o s
  | .controlStorePageLoaded core page => Sys2Proof.Machine.execControlStorePageLoaded core page s
  | .csinv o => Sys2Proof.Machine.execCsinv o s
  | .csfence o => Sys2Proof.Machine.execCsfence o s
  | .nextblk o => Sys2Proof.Machine.execNextblk o s
  | .impr o => Sys2Proof.Machine.execImpr o s
  | .impw o => Sys2Proof.Machine.execImpw o s
  | .impwCommit o => Sys2Proof.Machine.execImpwCommit o s
  | .gclaim o => Sys2Proof.Machine.execGclaim o s
  | .gdone o => Sys2Proof.Machine.execGdone o s
  | .handov o => Sys2Proof.Machine.execHandov o s
  | .ebop o => Sys2Proof.Machine.execEbop o s
  | .microNext m => Sys2Proof.Machine.execMicroNext m s
  | .jump m => Sys2Proof.Machine.execJump m s
  | .brt m => Sys2Proof.Machine.execBrt m s
  | .brf m => Sys2Proof.Machine.execBrf m s
  | .loop0 m => Sys2Proof.Machine.execLoop0 m s
  | .loop1 m => Sys2Proof.Machine.execLoop1 m s
  | .microCall m => Sys2Proof.Machine.execMicroCall m s
  | .microRet m => Sys2Proof.Machine.execMicroRet m s
  | .microEnd m => Sys2Proof.Machine.execMicroEnd m s
  | .microTrap m => Sys2Proof.Machine.execMicroTrap m s
  | .poll m => Sys2Proof.Machine.execPoll m s
  | .laneUnitLanding strand => Sys2Proof.Machine.execLaneUnitLanding strand s
  | .collectiveReceive die port data => Sys2Proof.Machine.execCollectiveReceive die port data s
  | .instructionHalfFill strand half => Sys2Proof.Machine.execInstructionHalfFill strand half s
  | .schedulerPlacement part => Sys2Proof.Machine.execSchedulerPlacement part s
  | .startGateOpen gang => Sys2Proof.Machine.execStartGateOpen gang s
  | .tokenRefill part => Sys2Proof.Machine.execTokenRefill part s
  | .candidateOverdue part queue => Sys2Proof.Machine.execCandidateOverdue part queue s
  | .priorityPreemption part => Sys2Proof.Machine.execPriorityPreemption part s
  | .preemptionRequest gang => Sys2Proof.Machine.execPreemptionRequest gang s
  | .graceTimeExpiry gang => Sys2Proof.Machine.execGraceTimeExpiry gang s
  | .killTimeExpiry gang => Sys2Proof.Machine.execKillTimeExpiry gang s
  | .replayableRecordPost => Sys2Proof.Machine.execReplayableRecordPost s
  | .recordConsumed fatal part seq => Sys2Proof.Machine.execRecordConsumed fatal part seq s
  | .resume part seq => Sys2Proof.Machine.execResume part seq s
  | .vector part seq => Sys2Proof.Machine.execVector part seq s
  | .kill part seq => Sys2Proof.Machine.execKill part seq s
  | .unload part ig => Sys2Proof.Machine.execUnload part ig s
  | .regionAttributeWrite part n w => Sys2Proof.Machine.execRegionAttributeWrite part n w s
  | .splinter c => Sys2Proof.Machine.execSplinter c s
  | .invalidateMapping part va len => Sys2Proof.Machine.execInvalidateMapping part va len s
  | .invalidationRetired n => Sys2Proof.Machine.execInvalidationRetired n s
  | .bindingWrite part n act => Sys2Proof.Machine.execBindingWrite part n act s
  | .schedulingTableWrite part off w => Sys2Proof.Machine.execSchedulingTableWrite part off w s
  | .bandwidthWindow => Sys2Proof.Machine.execBandwidthWindow s
  | .arbiterServe resource => Sys2Proof.Machine.execArbiterServe resource s
  | .partitionCreate part r => Sys2Proof.Machine.execPartitionCreate part r s
  | .partitionGrow part r => Sys2Proof.Machine.execPartitionGrow part r s
  | .partitionShrink part r => Sys2Proof.Machine.execPartitionShrink part r s
  | .partitionDestroy part => Sys2Proof.Machine.execPartitionDestroy part s
  | .sliceZeroed slice => Sys2Proof.Machine.execSliceZeroed slice s
  | .capabilityTableRewrite part doc => Sys2Proof.Machine.execCapabilityTableRewrite part doc s
  | .routeEntryWrite n w0 w1 => Sys2Proof.Machine.execRouteEntryWrite n w0 w1 s
  | .collectiveStoreWrite part die addr w => Sys2Proof.Machine.execCollectiveStoreWrite part die addr w s
  | .windowLengthSet us boundary => Sys2Proof.Machine.execWindowLengthSet us boundary s
  | .timerSet part graceUs killMs => Sys2Proof.Machine.execTimerSet part graceUs killMs s
  | .tenantStop part tenant status => Sys2Proof.Machine.execTenantStop part tenant status s
  | .stopFinalPoint part => Sys2Proof.Machine.execStopFinalPoint part s
  | .dirtyLogArm part tenant base size => Sys2Proof.Machine.execDirtyLogArm part tenant base size s
  | .fabricWindowBoundary => Sys2Proof.Machine.execFabricWindowBoundary s
  | .fabricAcknowledgement port unit window => Sys2Proof.Machine.execFabricAcknowledgement port unit window s
  | .fabricUnitLost unit => Sys2Proof.Machine.execFabricUnitLost unit s
  | .timeBaseLoss => Sys2Proof.Machine.execTimeBaseLoss s
  | .landingFailed n => Sys2Proof.Machine.execLandingFailed n s
  | .landingRetrain n => Sys2Proof.Machine.execLandingRetrain n s
  | .ceilingStepDown => Sys2Proof.Machine.execCeilingStepDown s
  | .ceilingStepUp => Sys2Proof.Machine.execCeilingStepUp s
  | .thermalThrottle die => Sys2Proof.Machine.execThermalThrottle die s
  | .thermalStop die => Sys2Proof.Machine.execThermalStop die s
  | .operatingPointChange island mV10 mhz => Sys2Proof.Machine.execOperatingPointChange island mV10 mhz s
  | .voltageSettled island => Sys2Proof.Machine.execVoltageSettled island s
  | .powerOn => Sys2Proof.Machine.execPowerOn s
  | .powerOff => Sys2Proof.Machine.execPowerOff s
  | .registerWrite t v => Sys2Proof.Machine.execRegisterWrite t v s
  | .remoteWriteArrival u => Sys2Proof.Machine.execRemoteWriteArrival u s
  | .timeBaseRegained => Sys2Proof.Machine.execTimeBaseRegained s
  | .packagePowerRestore => Sys2Proof.Machine.execPackagePowerRestore s
  | .dirtyLogSlotFree part tenant => Sys2Proof.Machine.execDirtyLogSlotFree part tenant s

end Sys2Proof.Machine
end

