-- ==== Sys2Proof/Machine/Reads.lean ====
section
/-! DEFINITION. What a syllable and a micro-step read of the arrays that carry an error-correcting code (R406): for each the
runs of bytes, so that the issue of a bundle posts the record of every unit in error that it read (log 31). -/

namespace Sys2Proof.Machine

/-- The unit of an element of a line. -/
def lineRuns (t : Strand) (l : LineRef) : List ArrayRun :=
  (List.range 32).map (fun k => { spc := 5, owner := arrayOf t, lo := 4 * elemKey l k, n := 4 })

/-- Scalar registers; s0 is no storage (R62). -/
def regRuns (t : Strand) (l : List (BitVec 6)) : List ArrayRun :=
  (l.filter (fun r => r ≠ 0)).map (fun r => { spc := 12, owner := arrayOf t, lo := 8 * r.toNat, n := 8 })

/-- An entry of the tile table, which follows the scalar registers (log 31). -/
def tableRun (t : Strand) (th : BitVec 5) : ArrayRun := { spc := 12, owner := arrayOf t, lo := 512 + 8 * th.toNat, n := 8 }

/-- Bytes of memory as a handle access of the strand's cluster reads them (R93). -/
def State.viewRun (s : State) (kind pa n : Nat) : ArrayRun :=
  if kind = 0 && (tfind (tget s.clusters s.cl).lines (pa / 64)).isSome then { spc := 4, owner := s.cl, lo := pa, n := n }
  else { spc := kind, lo := pa, n := n }

/-- What a place that was reached holds. -/
def reached {α : Type} (r : Res α) (f : α → List ArrayRun) : List ArrayRun := match r with
  | .ok a => f a
  | .error _ => []

/-- A load or store through a handle (R191). -/
def lhReads (load : Bool) (n : Nat) (o : FmtLH) (s : State) : List ArrayRun :=
  if load then regRuns s.me [o.sa] ++
    reached (s.hPlace o.hd ((s.reg o.sa).toNat + o.imm.toNat) n n 1) (fun p => [s.viewRun p.kind p.pa n])
  else regRuns s.me [o.sa, o.sd]

/-- A load or store of a scratchpad (R192). -/
def lsReads (load : Bool) (n : Nat) (o : FmtLS) (s : State) : List ArrayRun :=
  if load then regRuns s.me [o.sa] ++
    reached (s.sPlace ((s.reg o.sa).toNat + o.imm.toNat) n) (fun p => [s.padRun p.strand p.sof n])
  else regRuns s.me [o.sa, o.sd]

/-- Bytes that the E unit or a parameter window reads at a virtual address. -/
def State.vReads (s : State) (va n src : Nat) : List ArrayRun :=
  reached (s.vPlaces va n src 1) (fun l => l.flatMap (fun p =>
    { spc := p.1.kind, lo := p.1.pa, n := p.2 } :: s.walkRuns s.me.part (BitVec.ofNat 56 p.1.va)))

/-- A parameter-window load (R193). -/
def lpReads (n : Nat) (o : FmtLP) (s : State) : List ArrayRun :=
  let w := cget s.me.pw o.pw.toNat
  let off := (s.reg o.sa).toNat + o.imm.toNat
  regRuns s.me [o.sa] ++ s.vReads (fld w 0 50 * 64 + off) (min n (64 * (fld w 50 11 + 1) - off)) 1

/-- An atomic (R197): its home reads the old value. -/
def laReads (o : FmtLA) (s : State) : List ArrayRun :=
  let n := if o.sz = 1 then 8 else 4
  let x := (s.reg o.sc).toNat + o.imm.toNat * n
  regRuns s.me [o.sa, o.sb, o.sc] ++
    (if o.sp = 1 then reached (s.sPlace x n) (fun p => [s.padRun p.strand p.sof n])
      else reached (s.hPlace o.hd x n n 4) (fun p => [{ spc := p.kind, lo := p.pa, n := n }]))

/-- The source lines of a V3 instruction. -/
def v3Reads (un pd : Bool) (o : FmtV3) (s : State) : List ArrayRun :=
  reached (s.v3Lines un false [] o) (fun l => lineRuns s.me l.a ++ (if un then [] else lineRuns s.me l.b) ++
    (if pd then lineRuns s.me l.d else []))

/-- The source line of a VU instruction, and its auxiliary line. -/
def vuReads (aux : Bool) (o : FmtVU) (s : State) : List ArrayRun :=
  reached (s.vuSource o) (fun a => lineRuns s.me a.line ++ (if aux then lineRuns s.me (auxLine a.line o.sl) else []))

/-- The lattice table of VCVT.VQ2 (R219): a whole plane. -/
def latticeRun (t : Strand) (p : BitVec 5) : ArrayRun := { spc := 5, owner := arrayOf t, lo := 4096 * p.toNat, n := 4096 }

/-- The active lanes of an access with its index line. -/
def State.lanesOf (s : State) (ixd : Bool) (pi : BitVec 11) (xi : BitVec 1) : List (Nat × Nat) :=
  activeLanes (if ixd then some (s.me.line (lineOf pi xi)) else none)

/-- A scratchpad access of slot G (R224, R225). -/
def gsReads (load ixd : Bool) (o : FmtGS) (s : State) : List ArrayRun :=
  let act := s.lanesOf ixd o.pi o.xi
  let x := (s.reg o.sa).toNat
  regRuns s.me [o.sa] ++ (if ixd then lineRuns s.me (lineOf o.pi o.xi) else []) ++
    (if load then reached (s.gsTarget x act) (fun k => act.map (fun p => s.padRun k (x % 2 ^ 17 + 4 * p.2) 4))
      else lineRuns s.me (lineOf o.pl o.xl))

/-- A tile access of slot G (R229): `row` bytes a row. -/
def gaReads (load : Bool) (row : Nat) (o : FmtGA) (s : State) : List ArrayRun :=
  let e := s.me.tile o.th
  tableRun s.me o.th :: (if load then [bufRun s.me e.tk (e.base + row * o.row.toNat + 128 * o.qw.toNat) 128]
    else lineRuns s.me (lineOf o.pl o.xl))

/-- A handle access of slot G (R230). -/
def ghReads (load ixd : Bool) (o : FmtGH) (s : State) : List ArrayRun :=
  let act := s.lanesOf ixd o.pi o.xi
  regRuns s.me [o.sa] ++ (if ixd then lineRuns s.me (lineOf o.pi o.xi) else []) ++
    (if load then reached (s.ghPlaces o.hd (s.reg o.sa).toNat act 1) (fun l => l.map (fun p => s.viewRun p.2.kind p.2.pa 4))
      else lineRuns s.me (lineOf o.pl o.xl))

/-- The operands of an E instruction in scalar registers. -/
def eaReads (o : FmtEA) (s : State) : List ArrayRun := regRuns s.me [o.sa, o.sb, o.sc]

/-- The operands of a tile instruction: a scalar, and the entries of the tiles it names. -/
def etReads (sa : Bool) (l : List (BitVec 5)) (o : FmtET) (s : State) : List ArrayRun :=
  (if sa then regRuns s.me [o.sa] else []) ++ l.map (tableRun s.me)

/-- The operands of an engine command: scalars, the entry of its tile, and what it captures of the strand's scratchpad, from
the address in `x` (R232). -/
def ecReads (tile : Bool) (x : BitVec 6) (n : Nat) (o : FmtEC) (s : State) : List ArrayRun :=
  regRuns s.me [o.sa, o.sb, o.sc] ++ (if tile then [tableRun s.me o.th] else []) ++
    (if n = 0 then [] else [s.padRun s.cur ((s.reg x).toNat % 2 ^ 17) n])

/-- Bytes that CPYSC captures (R255). -/
def scatterBytes (c : Word) : Nat := listBytes (rowCount c) + rowCount c * rowLen c

/-- The parts of its request block that SFPOOL reads: bag ends, indices, and weights where it is weighted (R351). -/
def State.requestRuns (s : State) (a c : Word) : List ArrayRun :=
  let off := a.toNat % 2 ^ 17
  [s.padRun s.cur off (4 * poolB c), s.padRun s.cur (off + 0x400) (4 * poolN c)] ++
    (if bitAt c 28 then [s.padRun s.cur (off + 0x800) (4 * poolN c)] else [])

/-- The operands of a matrix instruction: the scale word and its strips, the tiles of its syllable (R239, R240). -/
def mmaReads (o : FmtET) (s : State) : List ArrayRun :=
  let fm := etF o
  let w := s.reg o.sa
  etReads true [o.td, o.ta, o.tb] o s ++
    (if (scaledTag fm || fm = 7) && bitAt w 63 then
      [s.padRun s.cur (fld w 0 17) (if fm = 7 then 256 else 32 * stripB fm), s.padRun s.cur (fld w 17 17) (32 * stripB fm)] ++
        (if fm = 7 then [s.padRun s.cur (fld w 34 17) 1024] else [])
    else [])

/-- A streaming operation's descriptor, and the lattice table that it names (R244). -/
def mmasReads (o : FmtET) (s : State) : List ArrayRun :=
  let a := (s.reg o.sa).toNat % 2 ^ 17
  s.padRun s.cur a 64 :: (if etF o = 7 then [s.padRun s.cur (fld (dwAt (cread s.me.smem a 64) 0x28) 32 17) 1024] else []) ++
    etReads true [o.td] o s

/-- What LAUNCH reads: the batch record, its binding list and its parameter window table (R34, R36, R41). -/
def launchReads (o : FmtEA) (s : State) : List ArrayRun :=
  (s.launchRuns s.me.part (o.imm.toNat % 16) (s.reg o.sa) (fun a n => (s.vPlaces a n 2 1).map s.readPlaces)).flatMap
    (fun x => s.vReads x.1 x.2 2)

/-- What HANDOV reads: its tile's entry; where its block is superseded the records up to the first that is free, and its tile where
one is (R344). -/
def handovReads (o : FmtEA) (s : State) : List ArrayRun :=
  let th : BitVec 5 := o.imm.extractLsb' 0 5
  let e := s.me.tile th
  let a := s.reg o.sa
  let im := s.gang.imf
  tableRun s.me th :: eaReads o s ++ (match s.liveBlock a with
    | .ok b => if (s.supersededBy b (fld a 32 8)).isNone then []
      else
        let n := s.freeRecord im
        (List.range (n.getD 63 + 1)).map (fun i => { spc := 1, lo := recordAt im i, n := 8 }) ++
          (if n.isSome then [bufRun s.me e.tk e.base 4096] else [])
    | .error _ => [])

/-- What SFPLAN reads: the plan record and its segments (R347, R348). -/
def planReads (a : Nat) (s : State) : List ArrayRun :=
  s.vReads a 64 2 ++ (match s.vPlaces a 64 2 1 with
    | .ok l => s.vReads (a + 64) (32 * fld (dwAt (s.readPlaces l) 0x10) 0 11) 2
    | .error _ => [])

/-- What an executing syllable reads (R406). -/
def readsOf (i : Instr) (s : State) : List ArrayRun := match i with
  | .add o | .sub o | .andR o | .orR o | .xorR o | .andn o | .orn o | .xnor o | .sll o | .srl o | .sra o | .rol o | .ror o
  | .slt o | .sltu o | .seq o | .sne o | .min o | .max o | .minu o | .maxu o | .sel o | .mul o | .mulh o | .mulhu o
  | .divS o | .divu o | .remS o | .remu o | .addw o | .subw o | .mulw o | .clz o | .ctz o | .popc o | .brev o | .bswap o
  | .absR o => regRuns s.me [o.sa, o.sb, o.sc]
  | .ext o | .extu o | .ins o => regRuns s.me [o.sa, o.sb]
  | .addi o | .andi o | .ori o | .xori o | .slli o | .srli o | .srai o | .slti o | .sltui o | .addpc o => regRuns s.me [o.sa]
  | .lih o => regRuns s.me [o.sd]
  | .beq o | .bne o | .blt o | .bge o | .bltu o | .bgeu o | .bdnz o => regRuns s.me [o.sa, o.sb]
  | .beqi o | .bnei o | .blti o | .bgei o => regRuns s.me [o.sa]
  | .btR o | .bsw o => regRuns s.me [o.sa]
  | .jl o | .jlx o => regRuns s.me [o.sa]
  | .ldB o | .ldBu o => lhReads true 1 o s
  | .ldH o | .ldHu o => lhReads true 2 o s
  | .ldW o | .ldWu o => lhReads true 4 o s
  | .ldD o => lhReads true 8 o s
  | .stB o | .stH o | .stW o | .stD o => lhReads false 0 o s
  | .ldsB o | .ldsBu o => lsReads true 1 o s
  | .ldsH o | .ldsHu o => lsReads true 2 o s
  | .ldsW o | .ldsWu o => lsReads true 4 o s
  | .ldsD o => lsReads true 8 o s
  | .stsB o | .stsH o | .stsW o | .stsD o => lsReads false 0 o s
  | .aadd o | .amin o | .amax o | .aminu o | .amaxu o | .aand o | .aor o | .axor o | .aswp o | .acas o | .afadd o
  | .abadd o => laReads o s
  | .xlate o => regRuns s.me [o.sa]
  | .ldpW o => lpReads 4 o s
  | .ldpD o => lpReads 8 o s
  | .xget o | .xgetd o => lineRuns s.me (xfRef o)
  | .xput o | .xputd o | .xxch o => regRuns s.me [o.sa] ++ lineRuns s.me (xfRef o)
  | .xbcst o => regRuns s.me [o.sa]
  | .vadd o | .vsub o | .vmul o | .vdiv o | .vmin o | .vmax o | .vceq o | .vclt o | .vcle o | .vcun o | .viadd o | .visub o
  | .vimul o | .vimulh o | .vimin o | .vimax o | .vshl o | .vshr o | .viceq o | .viclt o | .vicle o | .vand o | .vor o
  | .vxor o | .vandn o | .vperm o => v3Reads false false o s
  | .vfma o | .vfms o | .vfnma o | .vsel o => v3Reads false true o s
  | .vsqrt o | .vabs o | .vneg o | .viabs o | .vmov o => v3Reads true false o s
  | .vrot o | .vbcst o | .vcvtF32 o | .vcvtBf16 o | .vcvtFp16 o | .vcvtE4m3 o | .vcvtE5m2 o | .vcvtE2m1 o | .vcvtI32 o
  | .vcvtI16 o | .vcvtI8 o | .vcvtI4 o | .vcvtN32 o | .vcvtN16 o | .vcvtN8 o | .vscan o => vuReads true o s
  | .vrsum o | .vrmin o | .vrmax o | .vrisum o | .viscan o | .vnzs o | .vnzc o => vuReads false o s
  | .vcvtVq2 o => latticeRun s.me o.sl :: vuReads false o s
  | .vld o => gsReads true false o s
  | .vst o => gsReads false false o s
  | .vgath o => gsReads true true o s
  | .vscat o => gsReads false true o s
  | .vlda o => gaReads true 512 o s
  | .vldc o => gaReads true 128 o s
  | .vsta o => gaReads false 512 o s
  | .vldh o | .vldhPm4 o => ghReads true false o s
  | .vsth o | .vsthPm4 o => ghReads false false o s
  | .vgathh o | .vgathhPm4 o => ghReads true true o s
  | .vscath o | .vscathPm4 o => ghReads false true o s
  | .talloc o | .tfree o | .tzero o | .tstat o | .twait o | .trowp o => etReads false [o.td] o s
  | .mlatch o => etReads false [o.tb] o s
  | .mma o => mmaReads o s
  | .mmaX o => mmaReads o.o s
  | .mmas o => mmasReads o s
  | .mmasX o => mmasReads o.o s
  | .tcvt o => etReads true [o.td, o.ta] o s
  | .tmov o | .txpose o => etReads false [o.td, o.ta] o s
  | .cpy o | .cpyi o | .cpysTo o | .cpysFrom o => ecReads false 0 0 o.o s
  | .cpyf o | .cpym o | .tdrain o | .tdraink o => ecReads true 0 0 o.o s
  | .cpyg o => ecReads true o.o.sb (4 * rowCount (s.reg o.o.sc)) o.o s
  | .cpysc o => ecReads false o.o.sb (scatterBytes (s.reg o.o.sc)) o.o s
  | .sfpool o => ecReads true 0 0 o.o s ++ s.requestRuns (s.reg o.o.sa) (s.reg o.o.sc)
  | .sqgo o => s.padRun s.cur ((s.reg o.sa).toNat % 2 ^ 17) 64 :: eaReads o s
  | .acq o | .rel o | .sqwait o | .barw o | .pwr o | .trap o | .mtsr o | .rdid o | .setrm o | .pwsz o | .bind o
  | .unbind o | .bindq o | .csload o | .csinv o | .impr o | .impw o | .gclaim o | .gdone o | .sfstat o => eaReads o s
  | .handov o => handovReads o s
  | .launch o => eaReads o s ++ launchReads o s
  | .sfplan o => eaReads o s ++ planReads (s.reg o.sa).toNat s
  | .frd o | .ffill o => eaReads o s ++ s.vReads (s.reg o.sa).toNat 16 2
  | _ => []

/-- What a step of a collective engine reads of staging (R307, R308). -/
def State.engineReads (s : State) (seq : Nat) (m : MicroFields) : List ArrayRun :=
  let run (w : Word) (n : Nat) : List ArrayRun := if agSPC w = 0 then [{ spc := 1, lo := s.agADR w, n := n }] else []
  (transports m).flatMap (fun t => match dataPort t.src with
    | some n => run (s.micro.agen n) 128
    | none => []) ++ (if seq = 10 then [{ spc := 1, lo := s.agADR (s.micro.agen 0), n := 8 }] else [])

/-- The control-store word at a micro-address. -/
def storeRun (t : Strand) (a : Nat) : ArrayRun := { spc := 11, owner := t.core, lo := 16 * a, n := 16 }

/-- What a micro-step reads: its own word, and what its transports move from lines, scalar registers, the immediate pool of its page,
the scratchpad and tiles (R276, R282, R284, R287). -/
def State.microReads (s : State) (m : MicroFields) : List ArrayRun :=
  let t := s.me
  let x := t.micro
  let port (p : Nat) : List ArrayRun :=
    if 0x08 ≤ p && p < 0x10 then lineRuns t (x.line (p - 8))
    else if 0x3F0 ≤ p then [storeRun t (x.mpc.toNat / 256 * 256 + 252 + p % 16 / 4)]
    else if 0x40 ≤ p && p < 0x80 then regRuns t [BitVec.ofNat 6 (p - 0x40)]
    else match dataPort p with
      | some n =>
        let w := x.agen n
        let e := t.tile (BitVec.ofNat 5 (agTH w))
        if agSPC w = 0 then [s.padRun s.cur (s.agADR w % 2 ^ 17) 128] else [bufRun t e.tk (e.base + s.agADR w) 128]
      | none => []
  storeRun t x.mpc.toNat :: (transports m).flatMap (fun t => port t.src)

/-- What the fetch of a bundle reads of instruction memory (R89, R406). -/
def State.fetchRuns (s : State) (h : Half) (n : Nat) : List ArrayRun :=
  let t := s.me
  let half := if (tget s.cores t.core).half0 = h then 0 else 1
  [{ spc := 10, owner := 2 * t.core + half, lo := t.pc.toNat % 65536, n := 8 * n }]

end Sys2Proof.Machine
end

