-- ==== Sys2Proof/Machine/Run.lean ====
section
/-! DEFINITION. One step of the machine (log 3): the move that the agenda names, else the issue of a bundle or of a
micro-step by the context that the selector picks (R27, R57, R58, R69, R170, R291), else an event that is due. -/

namespace Sys2Proof.Machine

/-- Instructions that end their gang's side-effect-free prefix (R44), but for the stores, which the st counter shows: a
store to the strand's own scratchpad is none. -/
def endsPrefix : Instr → Bool
  | .aadd _ | .amin _ | .amax _ | .aminu _ | .amaxu _ | .aand _ | .aor _ | .axor _ | .aswp _ | .acas _ | .afadd _ | .abadd _
  | .talloc _ | .tfree _ | .tzero _ | .mlatch _ | .mma _ | .mmaX _ | .mmas _ | .mmasX _ | .tcvt _ | .tmov _ | .txpose _
  | .tdrain _ | .tdraink _ | .cpy _ | .cpyf _ | .cpym _ | .cpyi _ | .cpysTo _ | .cpysFrom _ | .cpyg _ | .cpysc _
  | .sqgo _ | .sqwait _ | .sqkill _ | .sfpool _ | .sfplan _
  | .launch _ | .pwr _ | .prd _ | .bar _ | .bara _ | .barw _ | .rel _ | .ffill _
  | .nextblk _ | .gclaim _ | .handov _ => true
  | _ => false

/-- Mark the end of the prefix if the instruction that took `s` to `s'` has such an effect (R44). -/
def State.prefixPast (s : State) (i : Instr) (s' : State) : State :=
  if endsPrefix i || s.me.stq.length < s'.me.stq.length then s'.onGang s.me.gang (fun g => { g with prefixOver := true }) else s'

/-- The state in which a syllable of the bundle executes. -/
def State.atSyll (s : State) (y : Syllable) : State := { s with issue := { s.issue with slot := y.slot, word := y.word } }

/-- The same for a syllable of a bundle that began in `s1`, with the operations of ld and st that the bundle has issued (R72). -/
def State.atSyllIn (s s1 : State) (y : Syllable) : State :=
  let s := s.atSyll y
  { s with issue := { s.issue with
    ownLd := s.me.ldq.length - s1.me.ldq.length, ownSt := s.me.stq.length - s1.me.stq.length } }

/-- What an executed syllable leaves beside its effect: the mark of the prefix (R44), and the records of the units in error
that it and its guard read in `s` (R406). -/
def State.syllPast (s : State) (y : Syllable) (s' : State) : State :=
  let b := s.atSyll y
  (s.prefixPast y.i s').noteAs (b.recordOf b.cur {}) (regRuns b.me [y.guard.extractLsb' 7 6] ++ readsOf y.i b)

/-- Deliver a trap of the bundle from the state before it (R56). The byte in error that a claim met is reported as it is read
(R406, R417). -/
def State.trapBundle (s : State) (t : Trap) : State :=
  let s := if t.cause = cColl && t.aux = 0 then s.noteErrors s.cur [{ spc := 1, lo := t.val.toNat, n := 1 }] else s
  let s' := s.deliver t
  { s' with issue := { s'.issue with status := .trapped t } }

/-- A bundle that waits for its syllable `y`: the state `s0` before it, with what waiting leaves if the syllable waits in it
too. A BAR that waits has arrived, which ends the prefix (R44, R262). -/
noncomputable def waitAt (s0 : State) (y : Syllable) : State :=
  let w : State := { s0 with issue := { s0.issue with status := .wait } }
  match exec y.i (s0.atSyll y) with
  | .next s' => match s'.issue.status with
    | .wait => match y.i with
      | .bar _ => if s'.gang.bars.any (fun b => b.2.waiting.contains s'.me.rank)
          then s'.onGang s'.me.gang (fun g => { g with prefixOver := true }) else s'
      | _ => s'
    | _ => w
  | _ => w

/-- The executing syllables of a bundle in ascending slot order (R57, R170): `s1` is the state before the bundle, `s0`
that state for a bundle that waits. The first that fails ends the bundle without effect; one that waits leaves only what
its waiting needs. -/
noncomputable def runSyllables (s0 s1 : State) : List Syllable → State → Out
  | [], s => .next s
  | y :: r, s =>
    if !s1.me.guardHolds y.guard then runSyllables s0 s1 r s
    else match exec y.i (s.atSyllIn s1 y) with
      | .next s' => match s'.issue.status with
        | .ok => runSyllables s0 s1 r (s.syllPast y s')
        | .ended => .next (s.syllPast y s')
        | .trapped t => .next (s1.trapBundle t)
        | .wait => .next (waitAt s0 y)
      | o => o

/-- The strand's bundle waits: it is passed over until something has happened, and the selector passes on to the contexts
after it (R27); a bundle without a bound opcode has no place in the order of the sequencer (R291). -/
def State.blockMe (s : State) : State :=
  let s := if isBindable s.issue.word then s
    else s.onCore s.me.core (fun c => { c with seqWait := c.seqWait.filter (· ≠ s.cur) })
  (s.onMe (fun t => { t with blocked := true })).onCore s.me.core (fun c => { c with ctx := s.me.ctx, run := 8 })

/-- Others that were passed over may issue again. -/
def State.unblock (s : State) : State :=
  { s with strands := tmap s.strands (fun k t => if t.blocked && k ≠ s.cur then { t with blocked := false } else t) }

/-- Those that yielded wait only for the strands that satisfy `p` (R31). -/
def State.keepYield (s : State) (p : Nat → Bool) : State :=
  { s with strands := tmap s.strands (fun _ t => match t.yieldHold with
      | some (l, u) => { t with yieldHold := if l.any p then some (l.filter p, u) else none }
      | none => t) }

/-- R31: a strand has issued or blocked, and those that yielded to it wait for it no more. -/
def State.passYield (s : State) (k : Nat) : State :=
  s.keepYield (· ≠ k)

/-- R89: the check of a fetch at an address whose page is absent from the half: a page fault, an access-kind or a
permission trap; none if the page can be read now. No syllable raises it: SLT is 7 (log 78). -/
def State.fetchCheck (s : State) (part a : Nat) : Option Trap :=
  let va : Word := BitVec.ofNat 64 a
  match s.walk part (BitVec.ofNat 56 a) with
  | .leaf l =>
    if l.kd = 2 then some { cause := cKind, val := va, slot := 7 }
    else if !l.pr then some { cause := cPerm, val := va, slot := 7 } else none
  | _ => some { cause := cPage, val := va, aux := faultAux 7 1 0, slot := 7 }

/-- The first address of a byte run of the strand's half whose page is absent (R89). -/
def Half.absentIn (h : Half) (a n : Nat) : Option Nat :=
  let pages := (List.range ((a + n - 1) / 4096 - a / 4096 + 1)).map (fun i => a / 4096 + i)
  (pages.find? (fun p => h.absent.contains (p % 16))).map (fun p => max a (4096 * p))

/-- What a fetch at PC meets first (R89, R388): an absent page, which is checked as a read and filled once it can be
read, or a start in the middle of a bundle. -/
inductive Fetch where
  | run (l : List Syll)
  | trap (t : Trap)
  | fill
  deriving DecidableEq, Repr

/-- An absent page at an address. -/
def State.absentAt (s : State) (t : Strand) (a : Nat) : Fetch := match s.fetchCheck t.part a with
  | some x => .trap x
  | none => .fill

/-- The fetch of the bundle at the strand's PC from its half. An annulled bundle meets no trap but that of R388, whatever
pages are absent (R389); its length is that of the bytes that the half holds. The check of R388 reads the syllable before the bundle:
where that one lies in an absent page and the bundle does not, the trap is that of a fetch there (R89; DESIGN CHOICE, log 97). -/
def State.fetch (s : State) (t : Strand) (h : Half) : Fetch :=
  let a := t.pc.toNat
  if t.annulled then
    if t.mid && !s.beginsBundle t a then .trap { cause := cFlow, val := BitVec.ofNat 64 a, slot := 7 } else .run (s.bundleAt t a)
  else
  let prior : Option Nat := if t.mid && a % 65536 ≠ 0 then h.absentIn (a - 8) 8 else none
  match prior with
  | some x => s.absentAt t x
  | none =>
    if t.mid && !s.beginsBundle t a then .trap { cause := cFlow, val := BitVec.ofNat 64 a, slot := 7 }
    else match h.absentIn a 8 with
      | some x => s.absentAt t x
      | none =>
        let l := s.bundleAt t a
        match h.absentIn a (8 * l.length) with
        | some x => s.absentAt t x
        | none => .run l

/-- The issue of a bundle fetched from a half (R58, R69, R169, R389); what the fetch read of the half is noted (R406). -/
noncomputable def State.issueRun (s0 : State) (h : Half) (l : List Syll) : Out :=
  let t := s0.me
  let next := t.pc + BitVec.ofNat 56 (8 * l.length)
  let s1 := (s0.onMe (fun t => { t with st := 7 })).noteErrors s0.cur (s0.fetchRuns h l.length)
  if t.annulled then .next ((s1.onMe (fun t => t.advance next none)).endBundle)
  else match decodeBundle l with
    | .error (_, w) => .next (s1.trapBundle { cause := cIllegal, val := w, slot := slotOf w })
    | .ok ys =>
      let at_ (s : State) : State := { s with issue := { next := next } }
      runSyllables (at_ s0) (at_ s1) ys (at_ s1)

/-- The attempt of strand `cur` to issue its next bundle. -/
noncomputable def State.issueBundle (s : State) : Out :=
  let s : State := { s with issue := {} }
  let t := s.me
  let wait (s : State) : Out := .next { s with issue := { s.issue with status := .wait } }
  if t.walkHeld || (t.fenced && t.holding) || (t.csFenced && s.csLoading s.cur) then wait s
  else
    let s0 := s.onMe (fun t => { t.landDue with fenced := false, fenceScope := 0, csFenced := false, asks := none })
    match (tget s0.cores t.core).halfOf t.ig t.pc.toNat with
    | none => wait s0
    | some h => match s0.fetch s0.me h with
      | .trap x => .next ((s0.onMe (fun t => { t with st := 7 })).trapBundle x)
      | .fill => wait (s0.refill s0.cur)
      | .run l => s0.issueRun h l

/-- R406: the word of a routine's step in a core is read, whatever becomes of the step. -/
def State.noteWord (s : State) (by_ : State) : State :=
  if by_.inCore then s.noteAs (by_.recordOf by_.cur { mpc := by_.micro.mpc, slot := 7 }) [storeRun by_.me by_.micro.mpc.toNat] else s

/-- A step of the routine of the agent in force (R275 to R280, R390): a SEQ that has no op raises a micro-word trap,
after the checks of the step bound and of MPC. A page that still loads makes the step wait (R272, R301). -/
noncomputable def State.stepRoutine (s : State) : Out :=
  match s.mpcFault with
  | some c => .next (s.microTrap c)
  | none => if s.pageLoads then .next { s with issue := { s.issue with status := .wait } } else match decodeMicro (s.microWord s.micro.mpc.toNat) with
    | .error _ => .next ((s.noteWord s).microTrap cMicro)
    | .ok i => match exec i s with
      | .next s' =>
        let w := s.microWord s.micro.mpc.toNat
        .next (if s'.issue.status = .wait then s'
          else if s'.issue.status ≠ .ok then s'.noteWord s
          else if s.inCore then s'.noteAs (s.recordOf s.cur { mpc := s.micro.mpc, slot := 7 }) (s.microReads (fieldsOf w))
          else s'.noteAs { part := s.enginePart } (s.engineReads (w.extractLsb' 124 4).toNat (fieldsOf w)))
      | o => o

/-- A micro-step of strand `cur`'s routine. -/
noncomputable def State.issueMicro (s : State) : Out :=
  match ({ s with issue := {} } : State).stepRoutine with
  | .next s' => match s'.issue.status with
    | .ok => .next s'.endBundle
    | _ => .next s'
  | o => o

/-- The attempt of strand `cur` to go on with its routine: one that was restored waits for the core's micro-sequencer in the
order of R291 and takes it (R297). -/
noncomputable def State.attemptMicro (s : State) : Out :=
  let c := tget s.cores s.me.core
  if c.sequencer = some s.cur then s.issueMicro
  else if c.sequencer = none && c.seqWait.headD s.cur = s.cur then
    (s.onCore s.me.core (fun c => { c with sequencer := some s.cur, seqWait := c.seqWait.filter (· ≠ s.cur) })).issueMicro
  else
    let s := s.onCore s.me.core (fun c => { c with
      seqWait := if c.seqWait.contains s.cur then c.seqWait else c.seqWait ++ [s.cur] })
    .next { s with issue := { status := .wait } }

/-- The issue of the bundle of strand `k`, or of the next step of its routine, before what it leaves for the selector. -/
noncomputable def State.tryIssue (s : State) (k : Nat) : Out :=
  let s : State := { s with cur := k, agent := .strand, curCore := ((tget s.strands k).core + 1) % 768 }
  if s.me.micro.mv then s.attemptMicro else s.issueBundle

/-- Is a context unblocked (R27)? Its routine does not run (R61), and its next bundle would issue if it were picked. -/
noncomputable def State.unblocked (s : State) (k : Nat) : Bool :=
  let s := s.onStrand k (fun t => { t with blocked := false })
  s.canIssue k && !(tget s.strands k).micro.mv && (match s.tryIssue k with
    | .next t => t.issue.status ≠ .wait
    | _ => true)

/-- Is another context of the strand's core unblocked (R27)? -/
noncomputable def State.othersReady (s : State) (k : Nat) : Bool :=
  s.strands.any (fun e => e.1 ≠ k && e.2.core = (tget s.strands k).core && s.unblocked e.1)

/-- The end of the attempt of the strand `cur` to issue: what remains is by the status of its bundle. The 8 clocks of R27 count
while another context is unblocked; a bundle whose routine begins blocks its context (R61). -/
noncomputable def State.afterIssue (s : State) : State :=
  let k := s.cur
  let s := match s.issue.status with
    | .ok => s.advanceMe
    | _ => s
  let s := match s.issue.status with
    | .wait => s.blockMe
    | _ =>
      let s := s.onMe (fun t => { t with finishing := false, blocked := false })
      let c := tget s.cores s.me.core
      (s.onCore s.me.core (fun x => { x with
        ctx := s.me.ctx, stepped := false,
        run := if s.me.micro.mv then 8 else if !s.othersReady k then 0 else if c.ctx = s.me.ctx then c.run + 1 else 1,
        seqWait := c.seqWait.filter (· ≠ k) })).unblock
  s.passYield k

/-- The end of a step of the routine of the strand `cur`, or of a wait for one: the context stays blocked and is no issue of the
selector's (R27, R61). -/
def State.afterMicro (s : State) : State :=
  let k := s.cur
  let s := match s.issue.status with
    | .wait => s.onMe (fun t => { t with blocked := true })
    | _ => (s.onMe (fun t => { t with finishing := false, blocked := false })).unblock
  (s.onCore s.me.core (fun c => { c with stepped := true })).passYield k

/-- The attempt of strand `k` (R27). -/
noncomputable def State.attempt (s : State) (k : Nat) : Out :=
  match s.tryIssue k with
  | .next s' => .next (if (tget s.strands k).micro.mv then s'.afterMicro else s'.afterIssue)
  | o => o

/-- May a strand issue now: unblocked, and not yielding (R27, R31)? -/
def State.ready (s : State) (k : Nat) : Bool :=
  s.canIssue k && (match (tget s.strands k).yieldHold with
    | some (l, u) => l.isEmpty || u ≤ s.now
    | none => true)

/-- The element of a list with the least measure, the first on equal ones. -/
def leastBy (f : Nat → Nat) : List Nat → Option Nat
  | [] => none
  | x :: r => some (r.foldl (fun a y => if f y < f a then y else a) x)

/-- The routine that takes a core's step among those of the contexts `l`: a restored one first takes its place in the order of
R291, then the one that holds the sequencer goes on (log 3). -/
def State.pickRoutine (s : State) (l : List Nat) : Option Nat :=
  leastBy (fun k =>
    let c := tget s.cores (tget s.strands k).core
    if c.sequencer = some k then 1 else if c.seqWait.contains k then 2 else 0) l

/-- The selector (R27): cores take turns; on a core the current context goes on until it blocks or has issued 8 times in
a row, then the next in ascending order. A routine of another context steps beside it, in turn with the issues (R61; log 3). -/
def State.pick (s : State) : Option Nat :=
  let l := (s.strands.map (·.1)).filter s.ready
  let coreOf (k : Nat) : Nat := (tget s.strands k).core
  match leastBy (fun k => (coreOf k + 768 - s.curCore) % 768) l with
  | none => none
  | some j =>
    let c := tget s.cores (coreOf j)
    let here := l.filter (fun k => coreOf k = coreOf j && !(tget s.strands k).micro.mv)
    let steps := l.filter (fun k => coreOf k = coreOf j && (tget s.strands k).micro.mv)
    if !steps.isEmpty && (here.isEmpty || !c.stepped) then s.pickRoutine steps else
    let dist (k : Nat) : Nat := ((tget s.strands k).ctx + 8 - c.ctx) % 8
    let others := here.filter (fun k => dist k ≠ 0)
    leastBy dist (if c.run < 8 || others.isEmpty then here else others)

/-- Events of strands that have happened or may happen now (R59, R72, R89, R102, R286, R48). -/
noncomputable def State.strandEvents (s : State) : List Instr :=
  s.strands.flatMap (fun e =>
    let k := e.1
    let t := e.2
    if !t.resident then []
    else
      (if t.fly.any (fun l => l.walk) then [.handleWalkComplete k] else []) ++
      ((firstIdx (fun (o : LdOp) => o.held.isNone && !o.done) t.ldq).toList.map
        (fun i => .ldCompletion k i (BitVec.allOnes 32))) ++
      ((firstIdx (fun (o : StOp) => o.held.isNone && !o.done) t.stq).toList.map (fun i => .stCompletion k i)) ++
      (if t.micro.pend.isEmpty then [] else [.laneUnitLanding k]) ++
      (if t.ended || ((tget s.cores t.core).halfOf t.ig t.pc.toNat).isSome then []
        else ([0, 1].filter (fun h => !s.halfUsed t.core h)).map (fun h => .instructionHalfFill k h)) ++
      (if t.ended && t.drained && !t.micro.mv then [.strandRetirement k] else []) ++
      ((t.ldq.filterMap (fun o => o.held.map (·.res))) ++ (t.stq.filterMap (fun o => o.held.map (·.res)))).map .arbiterServe)

/-- Events of commands (R232, R235, R241, R257, R354, R398, R400). -/
noncomputable def State.cmdEvents (s : State) : List Instr :=
  s.cmds.flatMap (fun e =>
    let n := e.1
    let c := e.2
    if c.state = .stalled || c.state = .lost then []
    else if c.op = .sfpool then
      if c.state = .queued then [.commandStart (32 + c.part) 0]
      else .poolingCompletion n :: (if c.wordLeft then [.engineTranslationFault n] else [])
    else if c.op = .sqwait then (if c.wordLeft then [.copyCommandCompletion n] else [.sqwaitPoll n, .engineTranslationFault n])
    else if c.op.isQueued then
      (if c.state = .queued && c.op ≠ .sqkill then [.commandStart c.engine c.queue]
        else [.copyCommandCompletion n, .engineTranslationFault n])
    else if c.op.isMatrix && c.state = .queued then [.matrixOperationStart n]
    else if c.op = .mmas then [.tileCommandCompletion n, .streamFault n]
    else [.tileCommandCompletion n])

/-- Events of the power controller and of what waits for it (R19, R22, R323, R363, R370). -/
noncomputable def State.powerEvents (s : State) : List Instr :=
  (s.dev.islands.filter (fun i => i.2.settling)).map (fun i => .voltageSettled i.1) ++
  (s.dev.islands.filter (fun i => i.1 < 64 && !i.2.settling && i.2.mv10 ≠ i.2.aim && !s.dev.stopped)).map
    (fun i => .operatingPointChange i.1 i.2.aim (topFreq i.1 ((i.2.aim - 4500) / vStep))) ++
  (if s.dev.stopped then [] else (s.dev.junction.filter (fun d => d.1 < 4 && 115 ≤ d.2)).map (fun d => .thermalStop d.1)) ++
  (if s.dev.offAsked then
    if s.parts.any (fun p => p.2.live) then
      (s.parts.filter (fun p => p.2.live && !p.2.destroying && p.2.shrinking.isNone)).map (fun p => .partitionDestroy p.1)
    else [.powerOff]
  else [])

/-- Events of gangs, batches and partitions (R30, R48, R145, R301, R318, R349, R381, R412, R366). -/
noncomputable def State.orderEvents (s : State) : List Instr :=
  (s.gangs.filter (fun g => g.2.placed && !g.2.gate && g.2.halt.isNone)).map (fun g => .startGateOpen g.1) ++
  (s.batches.filter (fun b => !b.2.complete && b.2.gc ≤ b.2.gangsEnded)).map (fun b => .batchCompletion b.1) ++
  (s.parts.filter (fun p => p.2.live && (s.winner p.1).isSome)).map (fun p => .schedulerPlacement p.1) ++
  s.parts.flatMap (fun p => (p.2.plans.filter (fun x => !x.2.loaded)).map (fun x => .hotSegmentLoad p.1 x.2.tid)) ++
  (s.parts.filter (fun p => match p.2.stops.find? (fun t => t.words.isEmpty) with
    | some t => s.atFinal p.1 t
    | none => false)).map (fun p => .stopFinalPoint p.1) ++
  s.cores.flatMap (fun c => (c.2.pages.filter (fun p => p.2.loading)).map (fun p => .controlStorePageLoaded c.1 p.1)) ++
  (if s.dev.waiting.isEmpty || s.dev.ring ≤ s.dev.replay.length then [] else [.replayableRecordPost]) ++
  s.dev.invals.map (fun i => .invalidationRetired i.1) ++ s.dev.zeroing.map .sliceZeroed ++ s.powerEvents

/-- The steps of the cluster islands' ceilings with the moments at which they are due, where they change one (R21, R22). -/
noncomputable def State.ceilingTimers (s : State) : List (Nat × Instr) :=
  let ceil (i : Nat) : Nat := (tget s.dev.islands i).ceiling10
  (if (s.atDue s.downDue (fun t => t.over Device.pkgLog 2400)).isSome && clusterIslands.any (fun i => 4500 < ceil i)
    then [(s.downDue, .ceilingStepDown)] else []) ++
  (if (s.atDue s.upDue (fun t => t.under Device.pkgLog 2300)).isSome && clusterIslands.any (fun i => ceil i < 7500 && !s.hot (i / 16)) then [(s.upDue, .ceilingStepUp)]
    else []) ++
  ((List.range 4).filter (fun d => s.hot d && clusterIslands.any (fun i => i / 16 = d && 4500 < ceil i))).map
    (fun d => (tget s.dev.lastHot d + 100000, .thermalThrottle d))

/-- Timed events with the moment at which each is due (R21, R22, R146, R314, R317, R321, R325, R409). -/
noncomputable def State.timers (s : State) : List (Nat × Instr) :=
  [((s.windowNow + 1) * (1000 * s.dev.windowUs), .fabricWindowBoundary), (s.dev.bwAt + 4000, .bandwidthWindow)] ++
  s.parts.flatMap (fun p => if !p.2.live then [] else
    [(p.2.tokenAt, .tokenRefill p.1)] ++
    p.2.queues.filterMap (fun q => match q.2.candSince with
      | some t => if q.2.overdue then none else some (t + 5000, .candidateOverdue p.1 q.1)
      | none => none) ++
    (match s.starved p.1 with
      | some (t, _) => if s.askedOut p.1 then [] else [(t + 5000, .priorityPreemption p.1)]
      | none => [])) ++
  s.gangs.filterMap (fun g => match g.2.pre with
    | some { halt := some h, kill := k, .. } => some (h + k, .killTimeExpiry g.1)
    | some { halt := none, since := t, grace := d, .. } => some (t + d, .graceTimeExpiry g.1)
    | none => none) ++
  s.ceilingTimers

/-- The move that comes when no context issues: in turn what may happen now; else the timed event that is due first, or a
program of a collective engine (R306). -/
noncomputable def State.nextMove (s : State) : Move :=
  let due := (s.timers.filter (fun e => e.1 ≤ s.now)).map (·.2)
  let progs := s.colls.flatMap (fun e => (e.2.progs.filter (fun p => p.2.live)).map (fun p => Move.coll e.1 p.1))
  let l := (due ++ s.strandEvents ++ s.cmdEvents ++ s.orderEvents).map Move.event ++ progs
  match l[s.turn % l.length]? with
  | some m => m
  | none => match s.timers.foldl (fun (o : Option (Nat × Instr)) e => match o with
      | none => some e
      | some b => if e.1 < b.1 then some e else some b) none with
    | some (_, i) => .event i
    | none => .event .fabricWindowBoundary

/-- Units of other devices' programs have nothing to run here; a collective program takes a step (R308). -/
noncomputable def State.collStep (s : State) (d p : Nat) : Out :=
  if !(tget (tget s.colls d).progs p).live then .next s
  else match ({ s with agent := .coll d p, issue := {} } : State).stepRoutine with
    | .next s' => .next { s' with agent := .strand, issue := {} }
    | o => o

/-- R45: a strand of a gang whose squash has not taken effect reads an empty cell in its next bundle: its own WC rises and its own
folio goes on that cell's chain. A bundle that does anything else is discarded with the strand's registers. -/
noncomputable def State.readBefore (s : State) (k : Nat) : Out :=
  match s.tryIssue k with
  | .next s' => .next (if s.mayRead k && (tget s'.strands k).wc ≠ 0 then { s' with issue := {} } else s)
  | _ => .next s

/-- One move of another agent than the current core. An instruction of a core is no event. -/
noncomputable def State.move (s : State) : Move → Out
  | .event i => if i.native || (encodeMicro i).isSome then .next s else match exec i { s with issue := {} } with
    | .next s' => .next { s' with issue := {} }
    | o => o
  | .core c => .next { s with curCore := c }
  | .coll d p => s.collStep d p
  | .reads k => s.readBefore k

/-- What the clock has reached: token-period boundaries (R314), bandwidth windows (R325) and fabric windows (R146). -/
def State.turns (s : State) : State :=
  let s : State := { s with parts := tmap s.parts (fun _ p => if p.live && p.tokenAt ≤ s.now then p.refilled else p) }
  let s := if s.dev.bwAt + 4000 ≤ s.now then s.bandwidthTurn else s
  if s.dev.windowSeen < s.windowNow then s.windowTurn else s

/-- What the device does by itself after each step: those that yielded wait no more for a context that is blocked (R31),
halts go on (R74), in the order of R323 where several end, resources of a shrunk partition and code of an
unloaded generation are freed (R50, R363), caches evict (R93), candidates are followed (R317), matrix operations whose operands
are ready are noted (R241), and the clock moves on (log 14) with what its time brings. -/
noncomputable def State.settle (s : State) : State :=
  let s := s.keepYield s.unblocked
  let s := (s.byTicket ((s.gangs.filter (fun g => g.2.halt.isSome)).map (·.1))).foldl State.haltStep s
  let s := (s.parts.filter (fun p => p.2.shrinking.isSome)).foldl (fun s p =>
    let s := s.freePool p.1
    s.onPart p.1 (fun p => if p.destroying && p.shrinking.isNone && p.res.clusters.isEmpty then p.gone else p)) s
  let s := (s.parts.filter (fun p => !p.2.unloaded.isEmpty)).foldl (fun s p => s.sweep p.1) s
  let s := s.evictTurn.noteReady.track
  ({ s with now := s.now + 1 } : State).turns

/-- An event of the default order. -/
noncomputable def State.idle (s : State) : Out :=
  match s.move s.nextMove with
  | .next s' => .next { s'.unblock with
      strands := tmap s'.strands (fun _ t => if t.blocked then { t with blocked := false } else t), sinceEvent := 0, turn := s.turn + 1 }
  | o => o

/-- One step without what follows each step. -/
noncomputable def State.stepCore (s : State) : Out :=
  match s.agenda with
  | m :: r => match ({ s with agenda := r } : State).move m with
    | .next s' => .next s'.unblock
    | o => o
  | [] =>
    if 16 ≤ s.sinceEvent then s.idle
    else match s.pick with
      | none => s.idle
      | some k => match s.attempt k with
        | .next s' => .next { s' with sinceEvent := s.sinceEvent + 1 }
        | o => o

/-- One step. The partitions' views of their binding tables follow what it did (R134). -/
noncomputable def State.oneStep (s : State) : Out :=
  match s.stepCore with
  | .next s' => .next (s.mirror s'.settle)
  | o => o

end Sys2Proof.Machine
end

