-- ==== Sys2Proof/Machine/Place.lean ====
section
/-! DEFINITION. A program's first bundle put where the next step fetches it: what partition creation, launch, placement,
start gate and half fill bring about, at once (R30, R73, R89, R363; log 20). -/

namespace Sys2Proof.Machine

/-- The words of an instruction of bits `w` as a bundle of its own: its first syllable, its literal if it takes one, the
stop bit in the last (R52, R54). -/
def fetchWords (w : Nat) : List Syll :=
  let a := tableWord w 0
  let b := tableWord w 1
  if slotOf a = 7 && takesLiteral (opcOf a) then [a &&& 0x7FFF_FFFF_FFFF_FFFF, b ||| 0xF000_0000_0000_0000]
  else [a ||| 0x8000_0000_0000_0000]

/-- Their bytes in memory (R5). -/
def fetchBytes (w : Nat) : List Byte := (fetchWords w).flatMap dwBytes

/-- The code address of the bundle. -/
def placedAt : BitVec 56 := 0x10_0000

/-- Every window a strand can have (R34). -/
def allWindows : Windows := { pl := 32, wt := 32, at_ := 16, ct := 32, sb := 32, th := 32 }

/-- The partition of the placed strand when there is none: cluster 0 with every slice, engine and port. -/
def placedPart (p : Partition) : Partition :=
  if p.live then p
  else { p with
    live := true, res := { clusters := [0], slices := List.range 63, engines := List.range 32, ports := List.range 24 },
    tenants := [(0, {})], queues := [(0, {})], tokenAt := 10000 }

/-- A strand alone in its gang, resident in context 0 of core 0 and next to issue, its code in half 0 (R30, R89). -/
def State.placed (s : State) (code : List Byte) : State :=
  let k := s.nextId
  let t : Strand := {
    gang := k + 1, batch := k + 2, resident := true, win := allWindows, pc := placedAt, entry := placedAt, st := 7, fp := 4095,
    ig := 1, gen := tget s.dev.windowGen 0 }
  let g : Gang := { batch := k + 2, placed := true, gate := true, started := true, strands := [k], firstPlaced := true, placedAt := s.now }
  let b : Batch := { ticket := 1, ep := [placedAt], gc := 1, n := [1], win := allWindows, ig := 1, pn := 16, pd := 63, fz := 4095,
                     nextGang := 1, gangs := [k + 1] }
  let h : Half := { filled := true, ig := 1, base := 0x10, mem := cwrite [] 0 code }
  let free (x : Strand) : Strand := if x.resident && x.core = 0 && x.ctx = 0 then { x with resident := false } else x
  { s with
    strands := tset (tmap s.strands (fun _ x => free x)) k t, gangs := tset s.gangs (k + 1) g,
    batches := tset s.batches (k + 2) b, parts := tset s.parts 0 (placedPart (tget s.parts 0)),
    cores := tset s.cores 0 { tget s.cores 0 with half0 := h, ctx := 0, run := 0 },
    cur := k, curCore := 0, agent := .strand, agenda := [], nextId := k + 3, sinceEvent := 0 }

end Sys2Proof.Machine
end

