-- ==== Sys2Proof/Machine/Step.lean ====
section
/-! DEFINITION. The step of the machine, and the state in which the next step runs a given instruction (log 20). -/

namespace Sys2Proof.Machine

/-- One step (log 3). -/
noncomputable def step (s : State) : Host.Outcome State Fault Refusal := s.oneStep

/-- A state whose next step fetches and runs the instruction of bits `w` (log 20). -/
def State.withFetchWord (s : State) (nbits w : Nat) : State := s.placed (fetchBytes (w % 2 ^ nbits))

end Sys2Proof.Machine
end

