-- ==== Sys2Proof/Safety.lean ====
section
/-! DEFINITION. What claims call safe: the form that memory keeps, and a run that no fault and no refusal ends. -/

namespace Sys2Proof.Machine

/-- Memory is in its canonical form: addresses rising, no byte listed that an unlisted one reads as. -/
abbrev Memory.wf (m : List Host.Cell) : Prop := Cells.wf m = true

/-- The invariant of the memory of a state. -/
abbrev State.memOk (s : State) : Prop := Memory.wf s.mem

/-- A step that goes on. -/
def State.goesOn (s : State) : Prop := ∃ t, step s = .next t

/-- A run of `n` steps that nothing ends. -/
def State.safeFor : Nat → State → Prop
  | 0, _ => True
  | n + 1, s => ∃ t, step s = .next t ∧ State.safeFor n t

end Sys2Proof.Machine
end

