-- ==== Sys2Proof/Certificates/Slice0/Obligations.lean ====
section
/-! DEFINITION. The statements for the provers: tables written from the rules of spec/ and the claims that the
meanings answer as those tables say, leave everything else as it was, and complete on every state that meets the
conditions the rules name. -/

namespace Sys2Proof.Claims
open Sys2Proof.Machine

/-- A byte as the cores of cluster `c` see it (R91, R93); the reach table's are the device's (R92). -/
def seen (s : State) (c kind pa : Nat) : Byte :=
  if kind = 0 then s.cacheByte c pa
  else if kind = 1 ∧ reachBase ≤ pa then reachByte (pa - reachBase) else cget s.mem (memKey kind pa)

/-- `n` bytes of a kind that software may write: none of the reach table, whose contents are fixed (R92). -/
def Writable (kind pa n : Nat) : Prop := kind = 1 → pa + n ≤ reachBase

/-- Memory reads as before to everyone. -/
def MemSame (s t : State) : Prop := t.mem = s.mem ∧ ∀ c pa, t.cacheByte c pa = s.cacheByte c pa

/-- Of all strands only the issuing one changes, and becomes `x`. -/
def OnlyMe (s t : State) (x : Strand) : Prop :=
  t.me = x ∧ t.cur = s.cur ∧ ∀ k, k ≠ s.cur → tfind t.strands k = tfind s.strands k

/-- The instruction raises a trap: the issue stops with it, its delivery done (R56, R379). -/
def Traps (i : Instr) (s : State) (cause : BitVec 16) (val : Word) : Prop :=
  ∃ t, exec i s = .next t ∧ t.issue.status = .trapped { cause := cause, val := val, slot := s.issue.slot }

/-- The bundle waits: the issue stops with nothing changed but that (R27). -/
def Waits (i : Instr) (s : State) : Prop := exec i s = .next { s with issue := { s.issue with status := .wait } }

/-- R180 to R184: the destination, the exposed latency of R61 and the result of each scalar instruction. -/
def scalarRule (s : State) : Instr → Option (BitVec 6 × Nat × Word)
  | .add o => some (o.sd, 1, s.reg o.sa + s.reg o.sb)
  | .sub o => some (o.sd, 1, s.reg o.sa - s.reg o.sb)
  | .andR o => some (o.sd, 1, s.reg o.sa &&& s.reg o.sb)
  | .orR o => some (o.sd, 1, s.reg o.sa ||| s.reg o.sb)
  | .xorR o => some (o.sd, 1, s.reg o.sa ^^^ s.reg o.sb)
  | .andn o => some (o.sd, 1, s.reg o.sa &&& ~~~ s.reg o.sb)
  | .orn o => some (o.sd, 1, s.reg o.sa ||| ~~~ s.reg o.sb)
  | .xnor o => some (o.sd, 1, ~~~ (s.reg o.sa ^^^ s.reg o.sb))
  | .sll o => some (o.sd, 1, s.reg o.sa <<< ((s.reg o.sb).toNat % 64))
  | .srl o => some (o.sd, 1, s.reg o.sa >>> ((s.reg o.sb).toNat % 64))
  | .sra o => some (o.sd, 1, (s.reg o.sa).sshiftRight ((s.reg o.sb).toNat % 64))
  | .rol o => some (o.sd, 1, (s.reg o.sa).rotateLeft ((s.reg o.sb).toNat % 64))
  | .ror o => some (o.sd, 1, (s.reg o.sa).rotateRight ((s.reg o.sb).toNat % 64))
  | .slt o => some (o.sd, 1, if (s.reg o.sa).toInt < (s.reg o.sb).toInt then 1 else 0)
  | .sltu o => some (o.sd, 1, if (s.reg o.sa).toNat < (s.reg o.sb).toNat then 1 else 0)
  | .seq o => some (o.sd, 1, if s.reg o.sa = s.reg o.sb then 1 else 0)
  | .sne o => some (o.sd, 1, if s.reg o.sa = s.reg o.sb then 0 else 1)
  | .min o => some (o.sd, 1, if (s.reg o.sa).toInt ≤ (s.reg o.sb).toInt then s.reg o.sa else s.reg o.sb)
  | .max o => some (o.sd, 1, if (s.reg o.sb).toInt ≤ (s.reg o.sa).toInt then s.reg o.sa else s.reg o.sb)
  | .minu o => some (o.sd, 1, if (s.reg o.sa).toNat ≤ (s.reg o.sb).toNat then s.reg o.sa else s.reg o.sb)
  | .maxu o => some (o.sd, 1, if (s.reg o.sb).toNat ≤ (s.reg o.sa).toNat then s.reg o.sa else s.reg o.sb)
  | .sel o => some (o.sd, 1, if s.reg o.sc = 0 then s.reg o.sb else s.reg o.sa)
  | .mul o => some (o.sd, 3, s.reg o.sa * s.reg o.sb)
  | .mulh o => some (o.sd, 3, BitVec.ofInt 64 ((s.reg o.sa).toInt * (s.reg o.sb).toInt / 2 ^ 64))
  | .mulhu o => some (o.sd, 3, BitVec.ofNat 64 ((s.reg o.sa).toNat * (s.reg o.sb).toNat / 2 ^ 64))
  | .divS o => some (o.sd, 18, if s.reg o.sb = 0 then -1
      else BitVec.ofInt 64 ((s.reg o.sa).toInt.tdiv (s.reg o.sb).toInt))
  | .divu o => some (o.sd, 18, if s.reg o.sb = 0 then -1
      else BitVec.ofNat 64 ((s.reg o.sa).toNat / (s.reg o.sb).toNat))
  | .remS o => some (o.sd, 18, if s.reg o.sb = 0 then s.reg o.sa
      else BitVec.ofInt 64 ((s.reg o.sa).toInt.tmod (s.reg o.sb).toInt))
  | .remu o => some (o.sd, 18, if s.reg o.sb = 0 then s.reg o.sa
      else BitVec.ofNat 64 ((s.reg o.sa).toNat % (s.reg o.sb).toNat))
  | .addw o => some (o.sd, 1, ((s.reg o.sa + s.reg o.sb).setWidth 32).signExtend 64)
  | .subw o => some (o.sd, 1, ((s.reg o.sa - s.reg o.sb).setWidth 32).signExtend 64)
  | .mulw o => some (o.sd, 3, ((s.reg o.sa * s.reg o.sb).setWidth 32).signExtend 64)
  | .clz o => some (o.sd, 1, BitVec.ofNat 64 (clz64 (s.reg o.sa)))
  | .ctz o => some (o.sd, 1, BitVec.ofNat 64 (ctz64 (s.reg o.sa)))
  | .popc o => some (o.sd, 1, BitVec.ofNat 64 (popc64 (s.reg o.sa)))
  | .brev o => some (o.sd, 1, brev64 (s.reg o.sa))
  | .bswap o => some (o.sd, 1, bswap64 (s.reg o.sa))
  | .absR o => some (o.sd, 1, if (s.reg o.sa).toInt < 0 then 0 - s.reg o.sa else s.reg o.sa)
  | .ext o => some (o.sd, 1, BitVec.ofInt 64
      (((s.reg o.sa).extractLsb' o.pos.toNat (o.len.toNat + 1)).toInt))
  | .extu o => some (o.sd, 1, ((s.reg o.sa).extractLsb' o.pos.toNat (o.len.toNat + 1)).setWidth 64)
  | .ins o =>
    let m : Word := ((BitVec.allOnes (o.len.toNat + 1)).setWidth 64) <<< o.pos.toNat
    some (o.sd, 1, (s.reg o.sa &&& ~~~ m) ||| ((s.reg o.sb <<< o.pos.toNat) &&& m))
  | .addi o => some (o.sd, 1, s.reg o.sa + o.imm.signExtend 64)
  | .andi o => some (o.sd, 1, s.reg o.sa &&& o.imm.setWidth 64)
  | .ori o => some (o.sd, 1, s.reg o.sa ||| o.imm.setWidth 64)
  | .xori o => some (o.sd, 1, s.reg o.sa ^^^ o.imm.setWidth 64)
  | .slli o => some (o.sd, 1, s.reg o.sa <<< o.imm.toNat)
  | .srli o => some (o.sd, 1, s.reg o.sa >>> o.imm.toNat)
  | .srai o => some (o.sd, 1, (s.reg o.sa).sshiftRight o.imm.toNat)
  | .slti o => some (o.sd, 1, if (s.reg o.sa).toInt < o.imm.toInt then 1 else 0)
  | .sltui o => some (o.sd, 1, if (s.reg o.sa).toNat < o.imm.toNat then 1 else 0)
  | .addpc o => some (o.sd, 1, s.me.pc.setWidth 64 + o.imm.signExtend 64)
  | .li o => some (o.sd, 1, o.imm.signExtend 64)
  | .lih o => some (o.sd, 1, o.imm ++ (s.reg o.sd).setWidth 32)
  | _ => none

/-- R69: the redirect entry of a branch in form BF. -/
def entryRule (taken : Bool) (bf : BitVec 2) (target : Word) : Option Redirect :=
  if taken then some { rd := 2, ra1 := bf = 2, ra2 := bf = 2, rt := target.setWidth 56 }
  else if bf = 1 then some { rd := 2, ra1 := true, ra2 := true, rt := 0 } else none

/-- A machine whose bundle has a redirect entry to append. -/
def redirected (s : State) : Option Redirect → State
  | some e => { s with issue := { s.issue with redirect := some e } }
  | none => s

/-- R185: T = B + 8 × sext(DISP). -/
def targetRule {n : Nat} (base : Word) (disp : BitVec n) : Word := base + 8 * disp.signExtend 64

/-- R187: the test of BSW on a per-tile status word: the fields NN, NF, SA, OV, UN, IX, UE, and any of them. -/
def statusRule (bn : BitVec 6) (a : Word) : Bool :=
  if bn = 0 then a.extractLsb' 49 11 ≠ 0 else if bn = 1 then a.extractLsb' 38 11 ≠ 0
  else if bn = 2 then a.extractLsb' 27 11 ≠ 0 else if bn = 3 then a.extractLsb' 16 11 ≠ 0
  else if bn = 4 then a.extractLsb' 5 11 ≠ 0 else if bn = 5 then a.getLsbD 4
  else if bn = 6 then a.getLsbD 62 else a.getLsbD 62 || a.extractLsb' 4 56 ≠ 0

/-- R54: a syllable is the last of its bundle, or of its 64 KiB range. -/
def lastSyll (w : Syll) (a : Nat) : Prop := stopOf w = true ∨ (a + 8) % 65536 = 0

/-- R389: the bundle that begins at `a` is `n` syllables long. -/
def RunOf (s : State) (t : Strand) (a n : Nat) : Prop :=
  1 ≤ n ∧ n ≤ 8 ∧ (n < 8 → lastSyll (s.syllAt t (a + 8 * (n - 1))) (a + 8 * (n - 1))) ∧
  ∀ i, i + 1 < n → ¬ lastSyll (s.syllAt t (a + 8 * i)) (a + 8 * i)

/-- R185: a target a branch may take: bits 63..56 and 2..0 zero, and not 0. -/
def goodTarget (w : Word) : Prop := w.toNat < 2 ^ 56 ∧ w.toNat % 8 = 0 ∧ w ≠ 0

/-- R186 to R189: of each branch its outcome, its form, its target and the register it writes. -/
def branchRule (s : State) : Instr → Option (Bool × BitVec 2 × Word × Option (BitVec 6 × Word))
  | .beq o => some (s.reg o.sa = s.reg o.sb, o.bf, targetRule (s.me.pc.setWidth 64) o.disp, none)
  | .bne o => some (s.reg o.sa ≠ s.reg o.sb, o.bf, targetRule (s.me.pc.setWidth 64) o.disp, none)
  | .blt o => some ((s.reg o.sa).toInt < (s.reg o.sb).toInt, o.bf, targetRule (s.me.pc.setWidth 64) o.disp, none)
  | .bge o => some ((s.reg o.sb).toInt ≤ (s.reg o.sa).toInt, o.bf, targetRule (s.me.pc.setWidth 64) o.disp, none)
  | .bltu o => some ((s.reg o.sa).toNat < (s.reg o.sb).toNat, o.bf, targetRule (s.me.pc.setWidth 64) o.disp, none)
  | .bgeu o => some ((s.reg o.sb).toNat ≤ (s.reg o.sa).toNat, o.bf, targetRule (s.me.pc.setWidth 64) o.disp, none)
  | .beqi o => some ((s.reg o.sa).toInt = o.imm.toInt, o.bf, targetRule (s.me.pc.setWidth 64) o.disp, none)
  | .bnei o => some ((s.reg o.sa).toInt ≠ o.imm.toInt, o.bf, targetRule (s.me.pc.setWidth 64) o.disp, none)
  | .blti o => some ((s.reg o.sa).toInt < o.imm.toInt, o.bf, targetRule (s.me.pc.setWidth 64) o.disp, none)
  | .bgei o => some (o.imm.toInt ≤ (s.reg o.sa).toInt, o.bf, targetRule (s.me.pc.setWidth 64) o.disp, none)
  | .btR o => some ((s.reg o.sa).getLsbD o.bn.toNat = (o.bs = 1), o.bf, targetRule (s.me.pc.setWidth 64) o.disp, none)
  | .bsw o => some (statusRule o.bn (s.reg o.sa) = (o.bs = 1), o.bf, targetRule (s.me.pc.setWidth 64) o.disp, none)
  | .bdnz o => some (s.reg o.sa ≠ 1, o.bf, targetRule (s.me.pc.setWidth 64) o.disp, some (o.sa, s.reg o.sa - 1))
  | .jl o => some (true, o.bf, targetRule (s.me.pc.setWidth 64) o.disp,
      some (o.sd, BitVec.ofNat 64 (s.linkOf s.me s.me.pc.toNat)))
  | .jlx o => some (true, o.bf, targetRule (s.reg o.sa) o.disp,
      some (o.sd, BitVec.ofNat 64 (s.linkOf s.me s.me.pc.toNat)))
  | _ => none

/-- A register that a branch writes with exposed latency 1. -/
def linked (s : State) : Option (BitVec 6 × Word) → State
  | some (d, v) => s.landS 1 d v
  | none => s

/-- R103: what an access of `n` bytes at offset `off` through a handle needs. -/
structure HandleReady (s : State) (hd : BitVec 4) (off n : Nat) (right : Handle → Bool) : Prop where
  valid : (s.me.handle hd).hs = 1
  kind : (s.me.handle hd).kd.toNat < 2
  granted : right (s.me.handle hd) = true
  bounds : off + n ≤ 2 ^ pageBits (s.me.handle hd).ps.toNat
  aligned : off % n = 0
  backed : paExists (s.me.handle hd).kd.toNat ((s.me.handle hd).pb.toNat * 4096 + off) n = true
  free : s.me.heldClash (s.me.handle hd).kd.toNat ((s.me.handle hd).pb.toNat * 4096 + off) n = false

/-- R103: the first check that an access through a handle fails, with its cause and TVAL (R379); a failed handle
raises the page fault of R396 and is not listed. -/
def handleTrap (s : State) (hd : BitVec 4) (off n : Nat) (right : Handle → Bool) : Option (BitVec 16 × Word) :=
  let h := s.me.handle hd
  let va : Word := BitVec.ofNat 64 (h.vb.toNat * 4096 + off)
  if h.hs = 0 then some (0x000A, hd.setWidth 64)
  else if h.hs ≠ 1 then none
  else if 2 ≤ h.kd.toNat then some (0x0009, va)
  else if right h = false then some (0x0008, va)
  else if 2 ^ pageBits h.ps.toNat < off + n then some (0x0007, BitVec.ofNat 64 off)
  else if off % n ≠ 0 then some (0x0006, BitVec.ofNat 64 off)
  else none

/-- R103, R395, R396: an access through a handle takes the page fault of the handle's page: SRC 0, the rights `rq` that it needs and HDN. -/
def HandleFaults (i : Instr) (s : State) (hd : BitVec 4) (rq : Nat) : Prop :=
  ∃ t, exec i s = .next t ∧ t.issue.status = .trapped {
    cause := 0x0020, val := BitVec.ofNat 64 ((s.me.handle hd).vb.toNat * 4096),
    aux := BitVec.ofNat 64 (rq * 2 ^ 49 + hd.toNat * 2 ^ 45), slot := s.issue.slot }

/-- R190, R191: operands, sign extension and size of each load through a handle. -/
def loadRule : Instr → Option (FmtLH × Bool × Nat)
  | .ldB o => some (o, true, 1)
  | .ldBu o => some (o, false, 1)
  | .ldH o => some (o, true, 2)
  | .ldHu o => some (o, false, 2)
  | .ldW o => some (o, true, 4)
  | .ldWu o => some (o, false, 4)
  | .ldD o => some (o, false, 8)
  | _ => none

/-- R191: operands and size of each store through a handle. -/
def storeRule : Instr → Option (FmtLH × Nat)
  | .stB o => some (o, 1)
  | .stH o => some (o, 2)
  | .stW o => some (o, 4)
  | .stD o => some (o, 8)
  | _ => none

/-- R190, R192: operands, sign extension and size of each load from a scratchpad. -/
def loadSRule : Instr → Option (FmtLS × Bool × Nat)
  | .ldsB o => some (o, true, 1)
  | .ldsBu o => some (o, false, 1)
  | .ldsH o => some (o, true, 2)
  | .ldsHu o => some (o, false, 2)
  | .ldsW o => some (o, true, 4)
  | .ldsWu o => some (o, false, 4)
  | .ldsD o => some (o, false, 8)
  | _ => none

/-- R192: operands and size of each store to a scratchpad. -/
def storeSRule : Instr → Option (FmtLS × Nat)
  | .stsB o => some (o, 1)
  | .stsH o => some (o, 2)
  | .stsW o => some (o, 4)
  | .stsD o => some (o, 8)
  | _ => none

/-- R190: `n` bytes, lowest first, sign or zero extended. -/
def extended (signed : Bool) (n : Nat) (l : List Byte) : Word :=
  if signed then ((BitVec.ofNat (8 * n) (leNat l)).signExtend 64) else BitVec.ofNat 64 (leNat l)

/-- The offset of a handle access (R191): s[SA] + IMM24. -/
def offsetOf (s : State) (o : FmtLH) : Nat := (s.reg o.sa).toNat + o.imm.toNat

/-- The physical address that an offset of a handle names (R103). -/
def physOf (s : State) (hd : BitVec 4) (off : Nat) : Nat := (s.me.handle hd).pb.toNat * 4096 + off

/-- R326: the arbiters serve an access of the issuing strand at places of a kind and a physical address now: at none of their resources
has its tenant reached its cap, and nothing that waits there comes before it. -/
def Served (s : State) (l : List (Nat × Nat)) : Prop :=
  ∀ p ∈ l, ∀ x, resourceOf p.1 p.2 = some x →
    s.capped s.me.part (s.tenantOf s.me) x = false ∧ s.firstAt s.me.part (s.tenantOf s.me) x = true

/-- R326: the tenant of the issuing strand has reached its cap at one of these places. -/
def Capped (s : State) (l : List (Nat × Nat)) : Prop :=
  ∃ p ∈ l, ∃ x, resourceOf p.1 p.2 = some x ∧ s.capped s.me.part (s.tenantOf s.me) x = true

/-- R72, R326: the access is held: it is counted, at the end of ld or of st, and nothing else has happened; what is held writes or
reads the `n` bytes at each of the places `l`. -/
def IsHeld (i : Instr) (s : State) (ld : Bool) (wo : Bool) (l : List (Nat × Nat)) : Prop :=
  ∃ (t : State) (h : HeldAccess), exec i s = .next t ∧ MemSame s t ∧ h.places.map (fun p => (p.kind, p.pa)) = l ∧ h.writes = !ld ∧
    h.work ≠ .atomic ∧
    OnlyMe s t (if ld then { s.me with ldq := s.me.ldq ++ [{ dest := .none, lanes := BitVec.allOnes 32, wo := wo, held := some h }] }
      else { s.me with stq := s.me.stq ++ [{ held := some h }] })

/-- R141: the hold of a fence of a scope, while an access of the strand is held. -/
def fencedBy (s : State) (scope : Nat) (x : Strand) : Strand :=
  if s.me.ldq.any (fun o => o.held.isSome) || s.me.stq.any (fun o => o.held.isSome)
  then { x with fenced := true, fenceScope := max s.me.fenceScope scope } else x

/-- R82, R84, R379: the trap of an S address of `n` bytes that is not allowed: a window trap, and for a misaligned one an
alignment trap, each naming the address. -/
def scratchTrap (s : State) (x n : Nat) : Option (BitVec 16) :=
  if 2 ^ 24 ≤ x then some 0x0003
  else match if x / 2 ^ 17 = 127 then some s.cur
      else (s.gang.strands[x / 2 ^ 17]?).filter (fun k => (tget s.strands k).st ≠ 5) with
    | none => some 0x0003
    | some k => if 4096 * (tget s.strands k).win.sb < x % 2 ^ 17 + n then some 0x0003
      else if x % 2 ^ 17 % n ≠ 0 then some 0x0006 else none

/-- R82, R84: an S address names `n` bytes of the window of strand `k`, in bounds and aligned. -/
structure SReady (s : State) (x n k : Nat) : Prop where
  inside : x < 2 ^ 24
  target : if x / 2 ^ 17 = 127 then k = s.cur
    else s.gang.strands[x / 2 ^ 17]? = some k ∧ (tget s.strands k).st ≠ 5
  bounds : x % 2 ^ 17 + n ≤ 4096 * (tget s.strands k).win.sb
  aligned : x % 2 ^ 17 % n = 0

/-- R195, R196: the operation of each atomic on `n` bytes: the value found and the operands x and y. -/
def atomicRule : Instr → Option (FmtLA × (Nat → Nat → Nat → Nat → Nat))
  | .aadd o => some (o, fun n v x _ => (v + x) % 2 ^ (8 * n))
  | .amin o => some (o, fun n v x _ => if intVal true (8 * n) v ≤ intVal true (8 * n) x then v else x)
  | .amax o => some (o, fun n v x _ => if intVal true (8 * n) x ≤ intVal true (8 * n) v then v else x)
  | .aminu o => some (o, fun _ v x _ => if v ≤ x then v else x)
  | .amaxu o => some (o, fun _ v x _ => if x ≤ v then v else x)
  | .aand o => some (o, fun _ v x _ => v &&& x)
  | .aor o => some (o, fun _ v x _ => v ||| x)
  | .axor o => some (o, fun _ v x _ => v ^^^ x)
  | .aswp o => some (o, fun _ _ x _ => x)
  | .acas o => some (o, fun _ v x y => if v = y then x else v)
  | .afadd o => some (o, fun n v x _ => laneAdd fF32 32 (n / 4) v x)
  | .abadd o => some (o, fun n v x _ => laneAdd fBF16 16 (n / 2) v x)
  | _ => none

/-- The operand size of an atomic (R194). -/
def atomSize (o : FmtLA) : Nat := if o.sz = 1 then 8 else 4

/-- Has the strand an atomic that its home still holds (R326)? -/
def anyHeld (t : Strand) : Bool := t.ldq.any (fun o => o.held.isSome) || t.stq.any (fun o => o.held.isSome)

/-- A byte of HBM as its home holds it once the line's dirty bytes are written back (R93). -/
def homeByte (s : State) (c pa : Nat) : Byte :=
  match tfind (tget s.clusters c).lines (pa / 64) with
  | some l => if bitAt l.dirty (pa % 64) then cget l.bytes (pa % 64) else cget s.mem pa
  | none => cget s.mem pa

/-- R141, R143: the order field of an atomic holds a fence that writes back and invalidates the cluster's cache: RE or AQ of
scope die or wider. -/
def flushes (ord : BitVec 5) : Bool := (ord.getLsbD 3 || ord.getLsbD 4) && 2 ≤ (ord.extractLsb' 0 3).toNat

/-- R201: of each transfer its operands, its scalar result and its line result from the elements of the line. -/
def transferRule (s : State) : Instr → Option (FmtXF × (List Elem → Option Word) × (List Elem → Option (List Elem)))
  | .xget o => some (o, fun e => some ((e.getD o.ei.toNat 0).setWidth 64), fun _ => none)
  | .xgetd o => some (o, fun e => some (e.getD (o.ei.toNat + 1) 0 ++ e.getD o.ei.toNat 0), fun _ => none)
  | .xput o => some (o, fun _ => none, fun e => some (e.set o.ei.toNat ((s.reg o.sa).setWidth 32)))
  | .xputd o => some (o, fun _ => none, fun e =>
      some ((e.set o.ei.toNat ((s.reg o.sa).setWidth 32)).set (o.ei.toNat + 1) ((s.reg o.sa >>> 32).setWidth 32)))
  | .xbcst o => some (o, fun _ => none, fun _ => some (List.replicate 32 ((s.reg o.sa).setWidth 32)))
  | .xxch o => some (o, fun e => some ((e.getD o.ei.toNat 0).setWidth 64),
      fun e => some (e.set o.ei.toNat ((s.reg o.sa).setWidth 32)))
  | _ => none

/-- A scalar result and a whole-line result in flight, each where there is one. -/
def bothLand (s : State) (n : Nat) (d : BitVec 6) (r : LineRef) (tag : BitVec 4) (sc : Option Word) (ln : Option (List Elem)) : State :=
  let s := match sc with
    | some v => s.landS n d v
    | none => s
  match ln with
  | some l => s.land n (wholeLine r tag l)
  | none => s

/-- R151, R153: the line that a source position names: in a context with CB the all-ones field reads through the
position's latch, which must be valid. -/
def sourceLine (s : State) (pos : Nat) (f : BitVec 11) (x : BitVec 1) : Option LineRef :=
  if s.me.cb && f = 0x7FF && x = 1 then
    let h := tget s.me.latches ((if s.issue.slot = 4 then 2 else 0) + pos)
    if h.hv then some (lineOf h.hf h.hx) else none
  else some (lineOf f x)

/-- The modifier in force at a source position (R153). -/
def sourcePm (s : State) (pos : Nat) (f : BitVec 11) (x : BitVec 1) (pm : BitVec 3) : BitVec 3 :=
  if s.me.cb && f = 0x7FF && x = 1 then (tget s.me.latches ((if s.issue.slot = 4 then 2 else 0) + pos)).pm else pm

/-- R64, R66: a line of a plane inside the window, of a tag that is 0 or accepted. -/
def sourceOk (t : Strand) (l : LineRef) (accept : List (BitVec 4)) : Prop :=
  l.pn.toNat < t.win.pl ∧ (accept = [] ∨ t.tagOf l.pn = 0 ∨ t.tagOf l.pn ∈ accept)

/-- R109: item `j` of width `w` of an element. -/
def item (w j : Nat) (e : Elem) : Nat := e.toNat / 2 ^ (w * j) % 2 ^ w

/-- R153: the modifier of the latch that a position reads through, 0 where the field names the line. -/
def heldPm (s : State) (pos : Nat) (f : BitVec 11) (x : BitVec 1) : BitVec 3 := sourcePm s pos f x 0

/-- R152, R153 (log 25): item `j` that lane `k` of a line supplies to a position with no modifier of its own whose latch holds `pm`:
the lane's own under 0, else the one item that the modifier names. -/
def heldItem (w : Nat) (pm : BitVec 3) (l : List Elem) (k j : Nat) : Nat :=
  if pm = 0 then item w j (l.getD k 0)
  else if w = 8 ∧ 4 ≤ pm.toNat then item 8 (k % 4) (l.getD (4 * (k / 4) + pm.toNat % 4) 0)
  else item w pm.toNat (l.getD k 0)

/-- The items of lane `k` at place `j` of the two sources of a V3 syllable. -/
def v3Item (s : State) (o : FmtV3) (un : Bool) (w : Nat) (a b : LineRef) (k j : Nat) : Nat × Nat :=
  let x := heldItem w (heldPm s 0 o.pa o.xa) (s.me.line a) k j
  (x, if un then x else heldItem w (heldPm s 1 o.pb o.xb) (s.me.line b) k j)

/-- A V3 instruction answers with the items that `f` gives from the items of its lines at the same place, under a
tag, with the flags of every lane ORed (R158, R204 to R206). -/
def ItemWise (i : Instr) (s : State) (o : FmtV3) (un : Bool) (a b : LineRef) (lat w : Nat) (tag : BitVec 4)
    (f : Nat → Nat → Nat → FRes) : Prop :=
  ∃ (vals : List Elem) (ff : BitVec 5),
    exec i s = .next ((s.v3Latch un o).land lat (wholeLine (lineOf o.pd o.xd) tag vals) ff) ∧ vals.length = 32 ∧
    (∀ k j, k < 32 → j < 32 / w → item w j (vals.getD k 0) =
      (f (v3Item s o un w a b k j).1 (v3Item s o un w a b k j).2 (item w j ((s.me.line (lineOf o.pd o.xd)).getD k 0))).bits % 2 ^ w) ∧
    (∀ n, n < 5 → (ff.getLsbD n = true ↔ ∃ k j, k < 32 ∧ j < 32 / w ∧
      (f (v3Item s o un w a b k j).1 (v3Item s o un w a b k j).2
        (item w j ((s.me.line (lineOf o.pd o.xd)).getD k 0))).ff.getLsbD n = true))

/-- The lines of a V3 syllable and their checks (R64, R66, R153); a unary one has no second source, and where PD is a
source its tag is checked too; `w` is the width at which it reads, for which a latched modifier must be legal. -/
structure V3Ready (s : State) (o : FmtV3) (un pdSrc : Bool) (w : Nat) (accept : List (BitVec 4)) (a b : LineRef) : Prop where
  srcA : sourceLine s 0 o.pa o.xa = some a
  srcB : if un then b = a else sourceLine s 1 o.pb o.xb = some b
  dest : (lineOf o.pd o.xd).pn.toNat < s.me.win.pl
  okA : sourceOk s.me a accept
  okB : un = false → sourceOk s.me b accept
  okD : pdSrc = true → sourceOk s.me (lineOf o.pd o.xd) accept
  pmA : pmSrcOk w (heldPm s 0 o.pa o.xa) = true
  pmB : un = false → pmSrcOk w (heldPm s 1 o.pb o.xb) = true

/-- The mode of a V3 syllable (R158, R209): MS 0 and an RM of 4 round to nearest even. -/
def modeOf (s : State) (o : FmtV3) : BitVec 3 := if o.ms = 0 || s.me.rm = 4 then 0 else s.me.rm

/-- R208 to R210: unary, PD a source, the result's tag is the operands' (else 0), and the operation on decoded
values. -/
def vecFRule : Instr → Option (FmtV3 × Bool × Bool × Bool × (Fmt → BitVec 3 → FVal → FVal → FVal → FRes))
  | .vadd o => some (o, false, false, true, fun f m a b _ => fadd f m 0 a b)
  | .vsub o => some (o, false, false, true, fun f m a b _ => fsub f m 0 a b)
  | .vmul o => some (o, false, false, true, fun f m a b _ => fmul f m 0 a b)
  | .vfma o => some (o, false, true, true, fun f m a b d => ffma f m 0 a b d)
  | .vfms o => some (o, false, true, true, fun f m a b d => ffma f m 0 a b d.negate)
  | .vfnma o => some (o, false, true, true, fun f m a b d => ffma f m 0 a.negate b d)
  | .vdiv o => some (o, false, false, true, fun f m a b _ => fdiv f m 0 a b)
  | .vsqrt o => some (o, true, false, true, fun f m a _ _ => fsqrt f m 0 a)
  | .vmin o => some (o, false, false, true, fun f _ a b _ => fminmax false f a b)
  | .vmax o => some (o, false, false, true, fun f _ a b _ => fminmax true f a b)
  | .vabs o => some (o, true, false, true, fun f _ a _ _ => exactF f a.magnitude)
  | .vneg o => some (o, true, false, true, fun f _ a _ _ => exactF f a.negate)
  | .vceq o => some (o, false, false, false, fun f _ a b _ =>
      { bits := if a.eqv b then 2 ^ f.w - 1 else 0, ff := if a.snan || b.snan then 16 else 0 })
  | .vclt o => some (o, false, false, false, fun f _ a b _ =>
      { bits := if a.lt b then 2 ^ f.w - 1 else 0, ff := if a.isNan || b.isNan then 16 else 0 })
  | .vcle o => some (o, false, false, false, fun f _ a b _ =>
      { bits := if a.lt b || a.eqv b then 2 ^ f.w - 1 else 0, ff := if a.isNan || b.isNan then 16 else 0 })
  | .vcun o => some (o, false, false, false, fun f _ a b _ =>
      { bits := if a.isNan || b.isNan then 2 ^ f.w - 1 else 0, ff := if a.snan || b.snan then 16 else 0 })
  | _ => none

/-- R106: the number that a finite value is. -/
noncomputable def valR : FVal → ℝ
  | .fin n m e => (if n then -1 else 1) * (m : ℝ) * (2 : ℝ) ^ e
  | _ => 0

/-- A finite value of at most 24 digits, as every operand of a V3 instruction is (R106). -/
def Small (v : FVal) : Prop := ∃ n m e, v = .fin n m e ∧ m < 2 ^ 24

/-- R106, R114: the spacing of the values of a format at the magnitude of `v`, the subnormal spacing below the normal range. -/
noncomputable def spacing (f : Fmt) (v : ℝ) : ℝ := (2 : ℝ) ^ (max (Int.log 2 |v|) (1 - (f.bias : ℤ)) - (f.mb : ℤ))

/-- R114: `r` is `v` rounded to a multiple of `g` in a mode: the nearer one, of two equally near the even; the largest not above in
magnitude; the largest not above; the smallest not below; under mode 4 one of the two beside it. -/
def RoundedTo (mode : BitVec 3) (v r g : ℝ) : Prop :=
  (∃ k : ℤ, r = k * g) ∧ |r - v| < g ∧
  (mode = 0 → 2 * |r - v| ≤ g ∧ (2 * |r - v| = g → ∃ k : ℤ, r = 2 * k * g)) ∧
  (mode = 1 → |r| ≤ |v| ∧ 0 ≤ r * v) ∧ (mode = 2 → r ≤ v) ∧ (mode = 3 → v ≤ r)

/-- R114, R116, R208: a result is the exact number `v` rounded once to its format, where that has values as large, and it raises
inexact where it differs from it. -/
def IsRounded (f : Fmt) (mode : BitVec 3) (v : ℝ) (x : FRes) : Prop :=
  let r := decodeF f x.bits
  x.bits < 2 ^ f.w ∧ (v = 0 → valR r = 0 ∧ x.ff = 0) ∧
  (v ≠ 0 → |v| ≤ valR (decodeF f (maxOf f false)) →
    (∃ n m e, r = .fin n m e) ∧ RoundedTo mode v (valR r) (spacing f v) ∧ (x.ff.getLsbD 0 = true ↔ valR r ≠ v))

/-- Saturation to a signed width where MS is 1 (R212). -/
def satWhere (o : FmtV3) (w : Nat) (v : Int) : Int :=
  if o.ms = 1 then (if v < -(2 ^ (w - 1) : Nat) then -(2 ^ (w - 1) : Nat)
    else if ((2 ^ (w - 1) : Nat) : Int) - 1 < v then ((2 ^ (w - 1) : Nat) : Int) - 1 else v) else v

/-- R212, R213: unary, MS selects unsigned operands, the result is a mask, and the operation on integer values. -/
def vecIRule : Instr → Option (FmtV3 × Bool × Bool × Bool × (Nat → Int → Int → Int))
  | .viadd o => some (o, false, false, false, fun w a b => satWhere o w (a + b))
  | .visub o => some (o, false, false, false, fun w a b => satWhere o w (a - b))
  | .vimul o => some (o, false, false, false, fun w a b => satWhere o w (a * b))
  | .vimulh o => some (o, false, true, false, fun w a b => (a * b).fdiv (2 ^ w : Nat))
  | .vimin o => some (o, false, true, false, fun _ a b => if a ≤ b then a else b)
  | .vimax o => some (o, false, true, false, fun _ a b => if b ≤ a then a else b)
  | .viabs o => some (o, true, false, false, fun _ a _ => if a < 0 then -a else a)
  | .vshl o => some (o, false, true, false, fun w a b => a * (2 ^ (b % w).toNat : Nat))
  | .vshr o => some (o, false, true, false, fun w a b => a.fdiv (2 ^ (b % w).toNat : Nat))
  | .viceq o => some (o, false, true, true, fun _ a b => if a = b then -1 else 0)
  | .viclt o => some (o, false, true, true, fun _ a b => if a < b then -1 else 0)
  | .vicle o => some (o, false, true, true, fun _ a b => if a ≤ b then -1 else 0)
  | _ => none

/-- R211, R214: the bitwise instructions on whole elements. -/
def vecBRule : Instr → Option (FmtV3 × Bool × (Elem → Elem → Elem → Elem))
  | .vand o => some (o, false, fun a b _ => a &&& b)
  | .vor o => some (o, false, fun a b _ => a ||| b)
  | .vxor o => some (o, false, fun a b _ => a ^^^ b)
  | .vandn o => some (o, false, fun a b _ => a &&& ~~~ b)
  | .vsel o => some (o, false, fun a b d => (a &&& d) ||| (b &&& ~~~ d))
  | .vmov o => some (o, true, fun a _ _ => a)
  | _ => none

/-- The source of a VU syllable and its checks (R64, R66, R153). -/
structure VUReady (s : State) (o : FmtVU) (accept : List (BitVec 4)) (a : LineRef) : Prop where
  src : sourceLine s 0 o.pa o.xa = some a
  dest : (lineOf o.pd o.xd).pn.toNat < s.me.win.pl
  ok : sourceOk s.me a accept

/-- R158: the auxiliary line of a VU syllable: line SL of the source's plane in the source's direction. -/
def auxOf (a : LineRef) (o : FmtVU) : LineRef := { pn := a.pn, dir := a.dir, ix := o.sl }

/-- R216 to R218: the tag that each conversion reads. -/
def cvtRule : Instr → Option (FmtVU × BitVec 4)
  | .vcvtF32 o => some (o, 1)
  | .vcvtBf16 o => some (o, 2)
  | .vcvtFp16 o => some (o, 3)
  | .vcvtE4m3 o => some (o, 4)
  | .vcvtE5m2 o => some (o, 5)
  | .vcvtE2m1 o => some (o, 6)
  | .vcvtI32 o => some (o, 8)
  | .vcvtI16 o => some (o, 9)
  | .vcvtI8 o => some (o, 10)
  | .vcvtI4 o => some (o, 11)
  | .vcvtN32 o => some (o, 12)
  | .vcvtN16 o => some (o, 13)
  | .vcvtN8 o => some (o, 14)
  | _ => none

/-- The mode that an RM field names (R114, R216): 7 is the strand's. -/
def fieldMode (s : State) (o : FmtVU) : BitVec 3 := if o.rm = 7 then s.me.rm else o.rm

/-- R204, R208 to R214: each V3 instruction: unary, PD a source whose tag is checked, and the tags that its sources accept. -/
def v3Form (i : Instr) : Option (FmtV3 × Bool × Bool × List (BitVec 4)) :=
  match vecFRule i, vecIRule i, vecBRule i, i with
  | some (o, un, pdSrc, _, _), _, _, _ => some (o, un, pdSrc, [o.ty.setWidth 4 + 1])
  | _, some (o, un, _, _, _), _, _ => some (o, un, false, if o.ty = 3 then [8 + o.ty.setWidth 4] else [8 + o.ty.setWidth 4, 12 + o.ty.setWidth 4])
  | _, _, some (o, un, _), _ => some (o, un, false, [])
  | _, _, _, .vperm o => some (o, false, false, [])
  | _, _, _, _ => none

/-- R208 to R214: the width at which a V3 instruction reads its sources. -/
def v3Width (i : Instr) (o : FmtV3) : Nat :=
  if (vecFRule i).isSome then (fmtOf (o.ty.setWidth 4 + 1)).w else if (vecIRule i).isSome then 32 / 2 ^ o.ty.toNat else 32

/-- R152, R153, R215 to R223: is the modifier of a source, its latch's in a held read, legal for the width at which the instruction
reads? A field that names the line meets this by its encoding's own checks. -/
def heldLegal (s : State) (i : Instr) (o : FmtVU) : Bool :=
  let pm := sourcePm s 0 o.pa o.xa o.pm
  let held := heldPm s 0 o.pa o.xa
  let w := tagWidth o.df
  match cvtRule i, i with
  | some (_, src), _ => pmSrcOk (tagWidth src) (if w < tagWidth src then held else pm)
  | _, .vcvtVq2 _ => pmSrcOk 16 pm
  | _, .vrot _ => pmSrcOk 32 held
  | _, .vbcst _ => pmDstOk w pm
  | _, .vnzs _ => pmDstOk w pm
  | _, .vnzc _ => pmDstOk w pm
  | _, _ => pmSrcOk w held

/-- R215 to R223: each VU instruction: the tags that its source accepts, and the further planes that it reads. -/
def vuForm (i : Instr) : Option (FmtVU × List (BitVec 4) × List (BitVec 5)) :=
  let any (df : BitVec 4) : List (BitVec 4) := if df = 0 then [] else [df]
  match cvtRule i, i with
  | some (o, src), _ => some (o, [src], [])
  | _, .vcvtVq2 o => some (o, [7], [o.sl])
  | _, .vrot o => some (o, [], [])
  | _, .vbcst o => some (o, any o.df, [])
  | _, .vnzs o => some (o, any o.df, [])
  | _, .vnzc o => some (o, any o.df, [])
  | _, .vrsum o => some (o, [o.df], [])
  | _, .vrmin o => some (o, [o.df], [])
  | _, .vrmax o => some (o, [o.df], [])
  | _, .vrisum o => some (o, [o.df], [])
  | _, .vscan o => some (o, [o.df], [])
  | _, .viscan o => some (o, [o.df], [])
  | _, _ => none

/-- R64, R66, R153, R170, R379: the first check that a syllable of slot V fails, with its cause and TVAL: a plane beyond the window,
then a source tag that is neither 0 nor accepted, then a held read of an empty latch. -/
def lineTrap (s : State) (dest : LineRef) (srcs : List (Option LineRef)) (others : List (BitVec 5)) (more : List LineRef)
    (accept : List (BitVec 4)) : Option (BitVec 16 × Word) :=
  let named := srcs.filterMap id
  match (dest.pn :: named.map (·.pn) ++ others).find? (fun p => s.me.win.pl ≤ p.toNat) with
  | some p => some (0x0003, p.setWidth 64)
  | none => match if accept = [] then none else (named ++ more).find? (fun l => s.me.tagOf l.pn ≠ 0 && !accept.contains (s.me.tagOf l.pn)) with
    | some l => some (0x0004, BitVec.ofNat 64 (4096 * (accept.headD 0).toNat + 256 * (s.me.tagOf l.pn).toNat + l.pn.toNat))
    | none => if srcs.contains none then some (0x0001, s.issue.word) else none

/-- The items of a line in position order (R109). -/
def itemsOf (w : Nat) (l : List Elem) : List Nat := l.flatMap (fun e => (List.range (32 / w)).map (fun j => item w j e))

/-- R119: node `j` of level `n` of the pairwise tree over the FP32 items `x`. -/
def sumNode (m : BitVec 3) (x : Nat → Nat) : Nat → Nat → Nat
  | 0, j => x j
  | n + 1, j => (fadd fF32 m 0 (decodeF fF32 (sumNode m x n (2 * j))) (decodeF fF32 (sumNode m x n (2 * j + 1)))).bits

/-- R116, R119: the flags of the additions of that tree below a node. -/
def sumFlags (m : BitVec 3) (x : Nat → Nat) : Nat → Nat → BitVec 5
  | 0, _ => 0
  | n + 1, j => sumFlags m x n (2 * j) ||| sumFlags m x n (2 * j + 1) |||
      (fadd fF32 m 0 (decodeF fF32 (sumNode m x n (2 * j))) (decodeF fF32 (sumNode m x n (2 * j + 1)))).ff

/-- R221: VRMIN and VRMAX: no item passes the chosen one. -/
def noneBeyond (mx : Bool) (best : FVal) (l : List FVal) : Prop :=
  ∀ v ∈ l, (if mx then best.below v else v.below best) = false

/-- An element in all 32 lanes. -/
def inEvery (v : Nat) : List Elem := List.replicate 32 (BitVec.ofNat 32 v)

/-- R223: is an item not zero? -/
def liveItem (df : BitVec 4) (x : Nat) : Bool :=
  if df = 0 then x ≠ 0
  else if df.toNat < 7 then (match decodeF (fmtOf df) x with | .fin _ 0 _ => false | _ => true) else x ≠ 0

/-- R223: the positions of the live items `j`, in ascending lane order. -/
def livePositions (df : BitVec 4) (j : Nat) (l : List Elem) : List Nat :=
  ((List.range 32).filter (fun k => liveItem df (item (tagWidth df) j (l.getD k 0)))).map (fun k => 32 / tagWidth df * k + j)

/-- R225: the word of lane `k` in a contiguous form or under an index line; none in an inactive lane. -/
def laneWord (t : Strand) (ix : Option LineRef) (k : Nat) : Option Nat :=
  match ix with
  | none => some k
  | some l => if (t.line l).getD k 0 = 0xFFFFFFFF then none else some ((t.line l).getD k 0).toNat

/-- R64: the planes of a vector memory access lie inside the window. -/
structure GLines (t : Strand) (d : LineRef) (ix : Option LineRef) : Prop where
  dest : d.pn.toNat < t.win.pl
  index : ∀ l, ix = some l → l.pn.toNat < t.win.pl

/-- R103, R230: the first check that a vector access through a handle fails, with its cause and TVAL (R379): those of the handle, then the
bounds of every active lane, then the alignment of every active lane. -/
def lanesTrap (s : State) (ix : Option LineRef) (hd : BitVec 4) (base : Nat) (right : Handle → Bool) : Option (BitVec 16 × Word) :=
  let h := s.me.handle hd
  let offs := ((List.range 32).filterMap (laneWord s.me ix)).map (fun n => base + 4 * n)
  let va : Word := BitVec.ofNat 64 (h.vb.toNat * 4096 + offs.headD base)
  if h.hs = 0 then some (0x000A, hd.setWidth 64)
  else if h.hs ≠ 1 then none
  else if 2 ≤ h.kd.toNat then some (0x0009, va)
  else if right h = false then some (0x0008, va)
  else match offs.find? (fun x => 2 ^ pageBits h.ps.toNat < x + 4) with
    | some x => some (0x0007, BitVec.ofNat 64 x)
    | none => (offs.find? (fun x => x % 4 ≠ 0)).map (fun x => (0x0006, BitVec.ofNat 64 x))

/-- R82, R227: the checks of a scratchpad vector access on base address `x`, its active lanes in window `k`. -/
structure GSReady (s : State) (d : LineRef) (ix : Option LineRef) (x k : Nat) : Prop where
  lines : GLines s.me d ix
  inside : x < 2 ^ 24
  aligned : x % 4 = 0
  target : ∀ j n, j < 32 → laneWord s.me ix j = some n →
    (if x / 2 ^ 17 = 127 then k = s.cur else s.gang.strands[x / 2 ^ 17]? = some k ∧ (tget s.strands k).st ≠ 5) ∧
    x % 2 ^ 17 + 4 * n + 4 ≤ 4096 * (tget s.strands k).win.sb

/-- R64, R82, R84, R227, R379: the first check that a scratchpad vector access on base address `x` fails, with its cause and TVAL: a
plane beyond the window, the address, its alignment, its target window, then the first active lane whose word lies beyond it. -/
def gsTrap (s : State) (d : LineRef) (ix : Option LineRef) (x : Nat) : Option (BitVec 16 × Word) :=
  let words := (List.range 32).filterMap (laneWord s.me ix)
  match (d.pn :: ix.toList.map (·.pn)).find? (fun p => s.me.win.pl ≤ p.toNat) with
  | some p => some (0x0003, p.setWidth 64)
  | none =>
    if 2 ^ 24 ≤ x then some (0x0003, BitVec.ofNat 64 x)
    else if x % 4 ≠ 0 then some (0x0006, BitVec.ofNat 64 x)
    else match if x / 2 ^ 17 = 127 then some s.cur
        else (s.gang.strands[x / 2 ^ 17]?).filter (fun k => (tget s.strands k).st ≠ 5) with
      | none => if words = [] then none else some (0x0003, BitVec.ofNat 64 x)
      | some k => (words.find? (fun n => 4096 * (tget s.strands k).win.sb < x % 2 ^ 17 + 4 * n + 4)).map
          (fun n => (0x0003, BitVec.ofNat 64 (x + 4 * n)))

/-- R224: the item of a lane of a load as it is placed in the line, from the words found; zero in inactive lanes. -/
def laneItem (w : Nat) (pm : BitVec 3) (word : Nat → Nat) : Option Nat → Elem
  | some n => pmPlace w pm (item w pm.toNat (BitVec.ofNat 32 (word n)))
  | none => pmPlace w pm 0

/-- R225: is the lane the highest that addresses its word? -/
def highest (t : Strand) (ix : Option LineRef) (j n : Nat) : Prop :=
  laneWord t ix j = some n ∧ ∀ i, j < i → i < 32 → laneWord t ix i ≠ some n

/-- R103, R230: what a handle access needs of the handle and of every active lane. -/
structure GHReady (s : State) (d : LineRef) (ix : Option LineRef) (hd : BitVec 4) (base : Nat) (right : Handle → Bool) : Prop where
  lines : GLines s.me d ix
  valid : (s.me.handle hd).hs = 1
  kind : (s.me.handle hd).kd.toNat < 2
  granted : right (s.me.handle hd) = true
  lanes : ∀ j n, j < 32 → laneWord s.me ix j = some n → HandleReady s hd (base + 4 * n) 4 right

/-- The places of the active lanes of a handle access. -/
def lanePlaces (s : State) (ix : Option LineRef) (hd : BitVec 4) (base : Nat) : List (Nat × Nat) :=
  ((List.range 32).filterMap (laneWord s.me ix)).map (fun n => ((s.me.handle hd).kd.toNat, physOf s hd (base + 4 * n)))

/-- The modifier of a GH syllable: PML below, bit 2 from the opcode (R159, R230). -/
def pmOf (hi : Bool) (o : FmtGH) : BitVec 3 := ghPm hi o

/-- R229: the tile, kind and format checks of slot G and the reader's state of R88. -/
structure TileReady (s : State) (d : LineRef) (th : BitVec 5) (kind : BitVec 2) (tag : BitVec 4) : Prop where
  dest : d.pn.toNat < s.me.win.pl
  inside : th.toNat < s.me.win.th
  kind : (s.me.tile th).tk = kind
  format : tag = (s.me.tile th).ft ∨ tag = 0 ∨ (s.me.tile th).ft = 0
  ready : (s.me.tile th).ts = 2 ∧ (s.me.tile th).qc = 0

/-- R232: what a command carries of its issuer. -/
def issuedBy (s : State) (op : CmdOp) : Cmd :=
  { op := op, strand := s.cur, part := s.me.part, core := s.me.core,
    tenant := (tget (tget s.parts s.me.part).queues s.me.sq.toNat).ten }

/-- R160, R235, R236: a copy command of format EC with the operands it reads at issue. -/
def issuedEC (s : State) (op : CmdOp) (o : FmtECL) : Cmd :=
  { issuedBy s op with
    engine := o.o.imm.toNat % 32, queue := o.o.imm.toNat / 32 % 16, ord := o.o.ord,
    a := s.reg o.o.sa, b := s.reg o.o.sb, c := s.reg o.o.sc, imm := o.o.imm, lit := o.lit }

/-- R257: a sequencer command of format EA. -/
def issuedEA (s : State) (op : CmdOp) (o : FmtEA) : Cmd :=
  { issuedBy s op with
    engine := o.imm.toNat % 32, queue := o.imm.toNat / 32 % 16, ord := o.ord, a := s.reg o.sa, b := s.reg o.sb }

/-- The kind, place and format that an instruction asks of a tile (R66, R88, R170). -/
structure TileIs (t : Strand) (th : BitVec 5) (kinds : List (BitVec 2)) (formats : List (BitVec 4)) : Prop where
  inside : th.toNat < t.win.th
  kind : (t.tile th).tk ∈ kinds
  format : formats = [] ∨ (t.tile th).ft = 0 ∨ (t.tile th).ft ∈ formats

/-- R88: a tile that its readers may name now. -/
def Readable (t : Strand) (th : BitVec 5) : Prop := (t.tile th).ts = 2 ∧ (t.tile th).qc = 0

/-- R232, R72: is a command counted under tl (else under cp)? -/
def underTl (op : CmdOp) : Bool :=
  op ∈ [.talloc, .tzero, .tfree, .mlatch, .mma, .mmas, .tcvt, .tmov, .txpose, .tdrain, .tdraink]

/-- The tiles that a command reads, from its issue on (R88). -/
def sourcesOf (c : Cmd) : List (BitVec 5) := [if c.after.isSome then none else c.ta, c.ta2, c.tb].filterMap id

/-- A command but for what the moves of its tile change. -/
def bare (c : Cmd) : Cmd := { c with active := false }

/-- R232, R87, R88: an engine instruction completes by placing a command: it is recorded with the operands of its
issue, its counter rises, its source tiles have one reader more, its tile moves for it or has it waiting, and memory,
every other strand and everything else of the issuing one are as before. -/
def Places (i : Instr) (s : State) (c : Cmd) : Prop :=
  ∃ (t : State) (c' : Cmd), exec i s = .next t ∧ t.nextId = s.nextId + 1 ∧ tfind t.cmds s.nextId = some c' ∧ bare c' = bare c ∧
    MemSame s t ∧
    OnlyMe s t { s.me with
      tiles := t.me.tiles, wmem := t.me.wmem, amem := t.me.amem, cmem := t.me.cmem,
      tlq := s.me.tlq ++ (if underTl c.op then [({ cmd := s.nextId } : TlOp)] else []),
      cpq := s.me.cpq ++ (if underTl c.op then [] else [s.nextId]) } ∧
    (c.td = none → t.me.wmem = s.me.wmem ∧ t.me.amem = s.me.amem ∧ t.me.cmem = s.me.cmem) ∧
    (∀ th, c.td ≠ some th → t.me.tile th =
      { s.me.tile th with rc := (s.me.tile th).rc + ((sourcesOf c).filter (· = th)).length }) ∧
    (∀ th, c.td = some th → c.op ≠ .talloc → c'.active = true ∨ s.nextId ∈ (t.me.tile th).pend) ∧
    (∀ n, n ≠ s.nextId → (tfind t.cmds n).map bare = (tfind s.cmds n).map bare)

/-- R111, R239: bytes of the A and B strips of a block-scaled format. -/
def stripSizes (fm : BitVec 4) : Nat × Nat :=
  let n := if fm = 6 then 4 else if fm = 7 then 8 else 2
  (if fm = 7 then 256 else 32 * n, 32 * n)

/-- R110, R239: the scale bytes and the lattice table that a scale word names in the own window, none where an offset
is misaligned or beyond it. -/
def scaleRule (s : State) (fm : BitVec 4) (w : Word) : Option (List Byte) :=
  let (na, nb) := stripSizes fm
  let (aso, bso, lto) := (fld w 0 17, fld w 17 17, fld w 34 17)
  let lim := 4096 * s.me.win.sb
  if ¬(fm = 4 ∨ fm = 5 ∨ fm = 6 ∨ fm = 7) then some []
  else if w.getLsbD 63 = false then
    some (List.replicate (na + nb) 0x7F ++ (List.range 1024).map (fun i => Config.noLattice i))
  else if aso % 64 = 0 ∧ bso % 64 = 0 ∧ aso + na ≤ lim ∧ bso + nb ≤ lim ∧ (fm = 7 → lto % 64 = 0 ∧ lto + 1024 ≤ lim) then
    some (cread s.me.smem aso na ++ cread s.me.smem bso nb ++ cread s.me.smem lto 1024)
  else none

/-- R240: the format of the accumulator tile of a matrix operation. -/
def accFormat (fm : BitVec 4) : BitVec 4 := if fm = 10 then 8 else 1

/-- R240: the format of the A operand. -/
def aFormat (fm : BitVec 4) : BitVec 4 := if fm = 7 then 6 else fm

/-- R238 to R240, R251: the conditions of a matrix operation but for its A-tile, which a fill may be writing. -/
def MatReady (s : State) (td tb : BitVec 5) (ta2 : Option (BitVec 5)) (fm : BitVec 4) : Prop :=
  TileIs s.me td [2] [accFormat fm] ∧ TileIs s.me tb [0] [fm] ∧ Readable s.me tb ∧
  (∀ a, ta2 = some a → TileIs s.me a [1] [aFormat fm] ∧ Readable s.me a) ∧
  (∀ e ∈ s.cmds, e.2.strand = s.cur → e.2.op ≠ .mmas) ∧ s.me.tlq.length < 63

/-- The command of MMA and MMA.X (R240, R243). -/
def matCmd (s : State) (td ta tb : BitVec 5) (ta2 : Option (BitVec 5)) (fmt : BitVec 5) (imm : BitVec 12)
    (x : Bool) (half : Bool) (lit : BitVec 60) (cap : List Byte) : Cmd :=
  { issuedBy s .mma with td := some td, ta := some ta, tb := some tb, ta2 := ta2, fmt := fmt, cap := cap, imm := imm,
                               lit := lit, b := ofBool 1 x ++ (0 : BitVec 62) ++ ofBool 1 half }

/-- R244: a stream descriptor whose reserved fields are 0 and whose values are allowed. -/
def streamOk (s : State) (fm : BitVec 4) (d : List Byte) : Prop :=
  let w := dwAt d 0x28
  fld w 49 15 = 0 ∧ dwAt d 0x30 = 0 ∧ dwAt d 0x38 = 0 ∧ fld w 0 16 ≠ 0 ∧ fld w 16 16 < fld w 0 16 ∧
  fld (dwAt d 0x10) 0 32 % 64 = 0 ∧ fld (dwAt d 0x10) 32 32 % 64 = 0 ∧
  (fm = 7 → fld w 32 17 + 1024 ≤ 4096 * s.me.win.sb)

/-- R84, R244: an operand of `n` bytes in the own window. -/
def OwnBytes (s : State) (x : Word) (n align : Nat) : Prop :=
  x.toNat / 2 ^ 17 = 127 ∧ x.toNat % 2 ^ 17 + n ≤ 4096 * s.me.win.sb ∧ x.toNat % align = 0

/-- The command of MMAS and MMAS.X and its conditions (R244). -/
def streamRule (s : State) (o : FmtET) (x : Bool) (lit : BitVec 60) : Cmd × Prop :=
  let fm := etF o
  let d := cread s.me.smem ((s.reg o.sa).toNat % 2 ^ 17) 64
  ({ issuedBy s .mmas with
      td := some o.td, fmt := o.fmt, lit := lit, prog := fld (dwAt d 0x28) 16 16, b := ofBool 1 x ++ (0 : BitVec 63),
      cap := d ++ (if fm = 7 then cread s.me.smem (fld (dwAt d 0x28) 32 17) 1024 else []) },
    TileIs s.me o.td [2] [accFormat fm] ∧ OwnBytes s (s.reg o.sa) 64 64 ∧ streamOk s fm d ∧
    (∀ e ∈ s.cmds, e.2.strand = s.cur → e.2.op ≠ .mma ∧ e.2.op ≠ .mmas) ∧ s.me.tlq.length < 63)

/-- R237 to R246: of each tile and matrix instruction the command it places and the conditions it asks for. -/
def tileRule (s : State) : Instr → Option (Cmd × Prop)
  | .tfree o => some ({ issuedBy s .tfree with td := some o.td }, o.td.toNat < s.me.win.th ∧ s.me.tlq.length < 63)
  | .tzero o => some ({ issuedBy s .tzero with td := some o.td, fmt := (etF o).setWidth 5 },
      o.td.toNat < s.me.win.th ∧ s.me.tlq.length < 63)
  | .mlatch o => some ({ issuedBy s .mlatch with tb := some o.tb, imm := o.imm.setWidth 12 },
      TileIs s.me o.tb [0] [] ∧ Readable s.me o.tb ∧ s.me.tlq.length < 63)
  | .tcvt o => some ({ issuedBy s .tcvt with
        td := some o.td, ta := some o.ta, fmt := o.fmt, imm := o.imm.setWidth 12, a := s.reg o.sa,
        rm := if o.imm.extractLsb' 5 3 = 7 then s.me.rm else o.imm.extractLsb' 5 3 },
      TileIs s.me o.td [0, 1] [] ∧ TileIs s.me o.ta [2] [if etF o = 10 then 8 else 1] ∧ Readable s.me o.ta ∧ s.me.tlq.length < 63)
  | .tmov o => some ({ issuedBy s .tmov with td := some o.td, ta := some o.ta },
      o.td.toNat < s.me.win.th ∧ o.ta.toNat < s.me.win.th ∧ ((s.me.tile o.td).tk = 2 ↔ (s.me.tile o.ta).tk = 2) ∧
      Readable s.me o.ta ∧ s.me.tlq.length < 63)
  | .txpose o => some ({ issuedBy s .txpose with td := some o.td, ta := some o.ta },
      TileIs s.me o.td [2] [] ∧ TileIs s.me o.ta [2] [] ∧ Readable s.me o.ta ∧ s.me.tlq.length < 63)
  | .mma o =>
    let ta2 := if etF o = 7 then some (o.imm.extractLsb' 3 5) else none
    some (matCmd s o.td o.ta o.tb ta2 o.fmt (o.imm.setWidth 12) false false 0 ((scaleRule s (etF o) (s.reg o.sa)).getD []),
      MatReady s o.td o.tb ta2 (etF o) ∧ TileIs s.me o.ta [1] [aFormat (etF o)] ∧ Readable s.me o.ta ∧
      (scaleRule s (etF o) (s.reg o.sa)).isSome)
  | .mmaX o =>
    some (matCmd s o.o.td o.o.ta o.o.tb none o.o.fmt 0 true (o.o.imm.getLsbD 2) o.lit ((scaleRule s (etF o.o) (s.reg o.o.sa)).getD []),
      MatReady s o.o.td o.o.tb none (etF o.o) ∧ TileIs s.me o.o.ta [1] [aFormat (etF o.o)] ∧ Readable s.me o.o.ta ∧
      (scaleRule s (etF o.o) (s.reg o.o.sa)).isSome)
  | .mmas o => some (streamRule s o false 0)
  | .mmasX o => some (streamRule s o.o true o.lit)
  | _ => none

/-- R235: the engine of a command is the partition's, and cp can count one more. -/
def CopyReady (s : State) (c : Cmd) : Prop :=
  (tget s.parts s.me.part).res.engines.contains c.engine = true ∧ s.me.cpq.length < 63

/-- Of these operations of R87, those that leave a tile empty. -/
def frees (o : CmdOp) : Prop := o = .tdrain ∨ o = .tfree

/-- R87: a tile that a drain may be issued on: it is not empty with nothing before the drain, and is not going to be empty when
the drain's turn comes. -/
def DrainTurn (s : State) (th : BitVec 5) : Prop :=
  let e := s.me.tile th
  ¬(e.ts = 0 ∧ e.pend = []) ∧
  (∀ n, e.pend.getLast? = some n → ¬frees (tget s.cmds n).op) ∧
  (e.pend = [] → e.ts = 3 → ∀ x ∈ s.cmds, x.2.strand = s.cur → x.2.td = some th → x.2.active = true → ¬frees x.2.op)

/-- R247, R248: a drain's command and conditions. -/
def drainRule (s : State) (op : CmdOp) (o : FmtECL) : Cmd × Prop :=
  let df : BitVec 4 := o.lit.extractLsb' 0 4
  let ft := (s.me.tile o.o.th).ft
  let rm : BitVec 3 := o.lit.extractLsb' 4 3
  ({ issuedEC s op o with td := some o.o.th, fmt := ft.setWidth 5, rm := if rm = 7 then s.me.rm else rm },
    o.o.th.toNat < s.me.win.th ∧ (df = 0 ∨ (s.me.tile o.o.th).tk = 2) ∧
    (df = 0 ∨ (ft = 1 ∧ df.toNat < 7) ∨ (ft = 8 ∧ 8 ≤ df.toNat ∧ df ≠ 11)) ∧ DrainTurn s o.o.th ∧ (df = 0 → s.reg o.o.sc = 0) ∧
    (s.reg o.o.sb).toNat % 16 = 0 ∧ (tget s.parts s.me.part).res.engines.contains (o.o.imm.toNat % 32) = true ∧
    s.me.tlq.length < 63)

/-- R253: the strand whose window an S address names. -/
def WindowOf (s : State) (x k : Nat) : Prop :=
  x < 2 ^ 24 ∧ if x / 2 ^ 17 = 127 then k = s.cur
    else s.gang.strands[x / 2 ^ 17]? = some k ∧ (tget s.strands k).st ≠ 5

/-- R247 to R258: of each command of a copy engine, and of SFPOOL, the command it places and the conditions it asks
for; `k` is the strand whose window CPYS names. -/
def copyRule (s : State) (k : Nat) : Instr → Option (Cmd × Prop)
  | .tdrain o => some (drainRule s .tdrain o)
  | .tdraink o => some (drainRule s .tdraink o)
  | .cpy o => some (issuedEC s .cpy o, (s.reg o.o.sc).toNat < 2 ^ 40 ∧ CopyReady s (issuedEC s .cpy o))
  | .cpyf o => some ({ issuedEC s .cpyf o with td := some o.o.th, fmt := (o.lit.extractLsb' 56 4).setWidth 5 },
      TileIs s.me o.o.th [0, 1] [] ∧ (s.reg o.o.sb).toNat % 64 = 0 ∧ CopyReady s (issuedEC s .cpyf o))
  | .cpyi o =>
    let half := if o.o.imm.getLsbD 9 then (tget s.cores s.me.core).half1 else (tget s.cores s.me.core).half0
    some (issuedEC s .cpyi o,
      (s.reg o.o.sb).toNat % 64 = 0 ∧ (s.reg o.o.sc).toNat % 64 = 0 ∧
      (s.reg o.o.sb).toNat % 65536 + (s.reg o.o.sc).toNat ≤ 65536 ∧ half.holds s.me.ig s.me.pc.toNat = false ∧
      CopyReady s (issuedEC s .cpyi o))
  | .cpysTo o => some ({ issuedEC s .cpysTo o with after := some k },
      (s.reg o.o.sc).toNat < 2 ^ 40 ∧ (s.reg o.o.sc).toNat % 4 = 0 ∧ WindowOf s (s.reg o.o.sb).toNat k ∧
      (s.reg o.o.sb).toNat % 2 ^ 17 + (s.reg o.o.sc).toNat ≤ 4096 * (tget s.strands k).win.sb ∧
      (s.reg o.o.sc = 0 ∨ (s.reg o.o.sb).toNat % 4 = 0) ∧ CopyReady s (issuedEC s .cpysTo o))
  | .cpysFrom o => some ({ issuedEC s .cpysFrom o with after := some k },
      (s.reg o.o.sc).toNat < 2 ^ 40 ∧ (s.reg o.o.sc).toNat % 4 = 0 ∧ WindowOf s (s.reg o.o.sb).toNat k ∧
      (s.reg o.o.sb).toNat % 2 ^ 17 + (s.reg o.o.sc).toNat ≤ 4096 * (tget s.strands k).win.sb ∧
      (s.reg o.o.sc = 0 ∨ (s.reg o.o.sb).toNat % 4 = 0) ∧ CopyReady s (issuedEC s .cpysFrom o))
  | .cpyg o =>
    let lf : BitVec 4 := o.lit.extractLsb' 56 4
    let rb := (s.reg o.o.sc).toNat % 2 ^ 16
    let n := (s.reg o.o.sc).toNat / 2 ^ 16 % 2 ^ 13
    some ({ issuedEC s .cpyg o with td := some o.o.th, fmt := lf.setWidth 5,
                                    cap := cread s.me.smem ((s.reg o.o.sb).toNat % 2 ^ 17) (4 * n) },
      TileIs s.me o.o.th [0, 1] [] ∧
      (if o.o.imm.getLsbD 9 then rb = 4 * tagWidth lf ∧ n ≤ 4096 / tagWidth lf else 1 ≤ rb ∧ rb ≤ 512 ∧ n * rb ≤ 16384) ∧
      OwnBytes s (s.reg o.o.sb) (4 * n) 4 ∧ CopyReady s (issuedEC s .cpyg o))
  | .cpysc o =>
    let rb := (s.reg o.o.sc).toNat % 2 ^ 16
    let n := (s.reg o.o.sc).toNat / 2 ^ 16 % 2 ^ 13
    let size := (4 * n + 63) / 64 * 64 + n * rb
    let mode := (o.o.imm.extractLsb' 9 2).toNat
    some ({ issuedEC s .cpysc o with cap := cread s.me.smem ((s.reg o.o.sb).toNat % 2 ^ 17) size },
      4 ≤ rb ∧ rb ≤ 4096 ∧ rb % 4 = 0 ∧ (mode = 0 ∨ (mode = 1 ∧ (s.reg o.o.sa).toNat % 4 = 0) ∨ (mode = 2 ∧ (s.reg o.o.sa).toNat % 2 = 0)) ∧
      OwnBytes s (s.reg o.o.sb) size 64 ∧ CopyReady s (issuedEC s .cpysc o))
  | .sqgo o =>
    let d := cread s.me.smem ((s.reg o.sa).toNat % 2 ^ 17) 64
    some ({ issuedEA s .sqgo o with cap := d },
      OwnBytes s (s.reg o.sa) 64 64 ∧ fld (dwAt d 0x10) 48 16 ≠ 0 ∧ fld (dwAt d 0x10) 32 16 ≠ 0 ∧
      fld (dwAt d 0x28) 56 8 = 0 ∧ fld (dwAt d 0x28) 0 3 = 0 ∧ (dwAt d 0x30).toNat < 3 ∧ dwAt d 0x38 = 0 ∧
      CopyReady s (issuedEA s .sqgo o))
  | .sqwait o => some (issuedEA s .sqwait o, (s.reg o.sa).toNat % 8 = 0 ∧ CopyReady s (issuedEA s .sqwait o))
  | .sfpool o =>
    let a := s.reg o.o.sa
    let c := s.reg o.o.sc
    let n := c.toNat % 2 ^ 9
    let b := c.toNat / 2 ^ 9 % 2 ^ 9
    let l := c.toNat / 2 ^ 18 % 2 ^ 10
    let size := (if c.getLsbD 28 then 0x800 else 0x400) + 4 * n
    let cap := cread s.me.smem (a.toNat % 2 ^ 17) size
    let bagEnd (g : Nat) : Nat := (wAt cap (4 * g)).toNat
    some ({ issuedBy s .sfpool with
        ord := o.o.ord, a := a, b := s.reg o.o.sb, c := c, imm := o.o.imm, lit := o.lit, td := some o.o.th, cap := cap,
        plan := tfind (tget s.parts s.me.part).pools ((s.reg o.o.sb).toNat % 2 ^ 16) },
      TileIs s.me o.o.th [1] [] ∧ 1 ≤ n ∧ n ≤ 256 ∧ 1 ≤ b ∧ b ≤ 256 ∧ 1 ≤ l ∧ l ≤ 512 ∧ b * ((l + 127) / 128) ≤ 16 ∧
      OwnBytes s a size 64 ∧ 32 * o.o.imm.toNat + 32 ≤ 4096 * s.me.win.sb ∧
      (∀ g, g + 1 < b → bagEnd g ≤ bagEnd (g + 1)) ∧ bagEnd (b - 1) = n ∧ s.me.cpq.length < 63)
  | _ => none

/-- R235: the commands of a queue of a copy engine, in order. -/
def queueList (s : State) (e q : Nat) : List (Nat × Cmd) :=
  s.cmds.filter (fun x => x.2.op ∈ [.tdrain, .tdraink, .cpy, .cpym, .cpyi, .cpysTo, .cpysFrom, .cpyf, .cpyg, .cpysc,
    .sqgo, .sqwait, .sqkill] && x.2.engine = e && x.2.queue = q)

/-- R347: the fields of a plan record's header. -/
def planOf (s : State) (h entries : List Byte) : Plan :=
  { tid := fld (dwAt h 0) 48 16, fmt := (dwAt h 0).extractLsb' 44 4, dim := fld (dwAt h 0) 34 10, nr := fld (dwAt h 8) 0 32,
    segs := (List.range (fld (dwAt h 0x10) 0 11)).map (segmentAt entries), tables := s.mem,
    regs := (tget s.parts s.me.part).regions, loaded := false }

/-- Nothing waits to move a tile of strand `k`, and its gang is not halting. -/
def Calm (s : State) (k : Nat) : Prop :=
  (tfind s.strands k).isSome ∧ (∀ th, ((tget s.strands k).tile th).pend = []) ∧
  (tget s.gangs (tget s.strands k).gang).halt = none

/-- R72, R232: command `n` has ended: it is gone with its counter, and of memory, other commands, other strands and
the issuer's registers and window nothing has changed. -/
def Ended (s t : State) (n : Nat) (c : Cmd) : Prop :=
  tfind t.cmds n = none ∧ (∀ m, m ≠ n → tfind t.cmds m = tfind s.cmds m) ∧
  (∀ k, k ≠ c.strand → tfind t.strands k = tfind s.strands k) ∧
  (tget t.strands c.strand).s = (tget s.strands c.strand).s ∧ (tget t.strands c.strand).planes = (tget s.strands c.strand).planes ∧
  (if underTl c.op then ∀ rest, (tget s.strands c.strand).tlq = { cmd := n } :: rest → (∀ o ∈ rest, o.done = false ∧ o.cmd ≠ n) →
      (tget t.strands c.strand).tlq = rest
    else (tget t.strands c.strand).cpq = (tget s.strands c.strand).cpq.filter (· ≠ n))

/-- R87: the command is the one that writes its tile, nothing else uses the tile, and its end leaves it ready. -/
structure Writing (s : State) (n : Nat) (c : Cmd) (th : BitVec 5) : Prop where
  known : tfind s.cmds n = some c
  tile : c.td = some th
  active : c.active = true
  first : s.behindOnTile n = false
  state : ((tget s.strands c.strand).tile th).ts = 1
  alone : ((tget s.strands c.strand).tile th).dc = 1
  unread : ∀ x ∈ s.cmds, x.1 < n → x.2.strand = c.strand → x.2.ta ≠ some th ∧ x.2.ta2 ≠ some th ∧ x.2.tb ≠ some th
  sources : c.ta ≠ some th ∧ c.ta2 ≠ some th ∧ c.tb ≠ some th

/-- A 32-bit element of a tile's buffer. -/
def tileElem (t : Strand) (e : Tile) (i : Nat) : Nat := leNat (t.tileBytes e (4 * i) 4)

/-- A byte of memory as the engines see it: past the cluster caches, the reach table's as the device fixes them (R91, R92). -/
def engineByte (s : State) (kind pa : Nat) : Byte :=
  if kind = 1 ∧ reachBase ≤ pa then reachByte (pa - reachBase) else cget s.mem (memKey kind pa)

/-- R91, R98, R102, R144, R367, R399: command `c` reaches the `n` bytes at an address with right `rq`, byte `j` at place `key j`: those of
a slice form lie in slices that the partition owns; those of a virtual address in no route window, on pages that the walk of the
command grants, in whatever memory that differs from the machine's in the bytes `D` alone. -/
structure Reaches (s : State) (c : Cmd) (D : Nat → Prop) (rq : BitVec 3) (top : Nat) (slice : Bool) (va n : Nat)
    (kind pa : Nat → Nat) : Prop where
  slices : slice = true → ∀ j, j < n → kind j = 1 ∧ pa j = (va + j) % 2 ^ 32 ∧
    (tget s.parts c.part).res.slices.contains ((va + j) % 2 ^ 32 / 2 ^ 26) = true
  pages : slice = false → ∃ leaf : Nat → Leaf, ∀ j, j < n →
    let l := leaf ((va + j) / 4096)
    (∀ m, (∀ k, ¬D k → cget m k = cget s.mem k) → ({ s with mem := m } : State).cmdWalk c (va + j) = .leaf l) ∧
    l.grants rq = true ∧ l.kd ≤ top ∧ (l.kd = 2 → s.dev.failed.contains (l.at (va + j) / 2 ^ 38) = false) ∧
    paExists l.kd (l.at (va + j)) 1 = true ∧ kind j = l.kd ∧ pa j = l.at (va + j) ∧
    s.routeOf c.part (va + j) = none ∧ s.routeBarred c.part (va + j) = false

/-- The `n` bytes at an address that command `c` reads are `f`, and lie outside `D`. -/
def Source (s : State) (c : Cmd) (D : Nat → Prop) (slice : Bool) (va n : Nat) (f : Nat → Byte) : Prop :=
  ∃ kind pa, Reaches s c D 1 2 slice va n kind pa ∧ ∀ j, j < n → ¬D (memKey (kind j) (pa j)) ∧ f j = engineByte s (kind j) (pa j)

/-- A command of a copy engine that its completion performs from its first unit on (R398). -/
structure Runs (s : State) (n : Nat) (c : Cmd) : Prop where
  known : tfind s.cmds n = some c
  state : c.state = .started ∧ c.wordLeft = false ∧ c.wordSent = false ∧ c.prog = 0 ∧ c.units = [] ∧ c.window = none ∧ c.error = 0
  noWord : c.cwa = 0
  sources : c.ta = none ∧ c.ta2 = none ∧ c.tb = none

/-- R326: the tenant of a command has no bandwidth cap, and at every resource the budget of `lanes` more atomic additions, for
which nothing else waits. -/
def Unhindered (s : State) (c : Cmd) (lanes : Nat) : Prop :=
  (lanes ≠ 0 → ∀ e ∈ s.strands, anyHeld e.2 = false ∧ e.2.asks = none) ∧
  ∀ x e, s.bwEntry c.part c.tenant x = some e → e.extractLsb' 16 8 = 0 ∧
    (lanes ≠ 0 → x < 96 → (tget s.parts c.part).lateAb.contains (152 * c.tenant.toNat + x) = false ∧
      tget (tget s.parts c.part).atomics (152 * c.tenant.toNat + x) + lanes ≤ (e.extractLsb' 0 16).toNat)

/-- R414: the dirty-page log of the command's tenant has room for every page of `count` runs of `len r` bytes. -/
def LogRoom (s : State) (c : Cmd) (count : Nat) (len : Nat → Nat) : Prop :=
  ∀ d, tfind (tget s.parts c.part).dirty c.tenant.toNat = some d → d.armed = false ∨
    d.ring.length + ((List.range count).map (fun r => len r / 4096 + 2)).sum ≤ d.size

/-- The number of a line of 32 items of `w` bits (R109). -/
def lineNumber (w : Nat) (item : Nat → Nat) : Nat := ((List.range 32).map (fun j => item j % 2 ^ w * 2 ^ (w * j))).sum

/-- R248: the conversion of element `i` of the tile that a drain writes. -/
def drained (s : State) (c : Cmd) (i : Nat) : FRes :=
  let x := tget s.strands c.strand
  convertTo (c.lit.extractLsb' 0 4) c.rm (hash32 (c.lit.extractLsb' 7 32) i) (valueOf (c.fmt.setWidth 4) (tileElem x (x.tile (c.td.getD 0)) i))

/-- R123, R248: a status word that describes the tile of a drain and its conversions. -/
def StatusOf (s : State) (c : Cmd) (w : Word) : Prop :=
  let x := tget s.strands c.strand
  let e := x.tile (c.td.getD 0)
  let vs := (List.range 1024).map (fun i => valueOf (c.fmt.setWidth 4) (tileElem x e i))
  let count (p : Nat → Bool) : BitVec 11 := BitVec.ofNat 11 ((List.range 1024).countP p)
  w.getLsbD 63 = true ∧ w.extractLsb' 60 2 = 0 ∧ w.extractLsb' 0 4 = 0 ∧
  w.getLsbD 62 = s.hasError (x.tileRun e) ∧
  w.extractLsb' 49 11 = BitVec.ofNat 11 (vs.countP FVal.isNan) ∧
  w.extractLsb' 38 11 = BitVec.ofNat 11 (vs.countP (fun v => v = .inf false || v = .inf true)) ∧
  w.extractLsb' 27 11 = count (fun i => c.fmt = 8 && (tileElem x e i = 2 ^ 31 || tileElem x e i = 2 ^ 31 - 1)) ∧
  w.extractLsb' 16 11 = count (fun i => (drained s c i).ff.getLsbD (if c.fmt = 8 then 4 else 2)) ∧
  w.extractLsb' 5 11 = count (fun i => (drained s c i).ff.getLsbD 1) ∧
  w.getLsbD 4 = (List.range 1024).any (fun i => (drained s c i).ff.getLsbD 0)

/-- R247 to R257: the runs of bytes that a command writes to memory, in order: their number, and of each whether its address is a
slice form, the address and the length. -/
def targetRuns (s : State) (c : Cmd) : Nat × (Nat → Bool × Nat × Nat) :=
  let df := c.lit.toNat % 16
  let rb := c.c.toNat % 2 ^ 16
  let idx (r : Nat) : Nat := (wAt c.cap (4 * r)).toNat
  let n1 := fld (dwAt c.cap 0x10) 32 16
  let tk := ((tget s.strands c.strand).tile (c.td.getD 0)).tk
  match c.op with
  | .cpy => (1, fun _ => (c.imm.getLsbD 9, c.a.toNat, c.c.toNat))
  | .cpysFrom => (1, fun _ => (c.imm.getLsbD 10, c.a.toNat, c.c.toNat))
  | .cpysc => (c.c.toNat / 2 ^ 16 % 2 ^ 13, fun r => (false, (c.a + BitVec.ofNat 64 (rb * idx r)).toNat, if idx r = 0xFFFFFFFF then 0 else rb))
  | .sqgo => (fld (dwAt c.cap 0x10) 48 16 * n1, fun r =>
      (false, (dwAt c.cap 0 + BitVec.ofInt 64 ((dwAt c.cap 0x18).extractLsb' 32 32).toInt * BitVec.ofNat 64 (r / n1) +
        BitVec.ofInt 64 ((dwAt c.cap 0x18).extractLsb' 0 32).toInt * BitVec.ofNat 64 (r % n1)).toNat, fld (dwAt c.cap 0x10) 0 32))
  | .tdrain | .tdraink => (if df ≠ 0 ∧ c.c ≠ 0 then 33 else 32, fun r =>
      if r = 32 then (false, c.c.toNat, 8)
      else (c.imm.getLsbD 9, (c.a + BitVec.ofNat 64 r * c.b).toNat,
        if df ≠ 0 then 4 * tagWidth (c.lit.extractLsb' 0 4) else if tk = 2 then 128 else 512))
  | _ => (0, fun _ => (false, 0, 0))

/-- R247 to R257: byte `j` of run `r` of what a command writes to memory is `f r j`, the bytes `D` being those it writes. -/
def DataOf (s : State) (c : Cmd) (D : Nat → Prop) (f : Nat → Nat → Byte) : Prop :=
  let x := tget s.strands c.strand
  let e := x.tile (c.td.getD 0)
  let w := tagWidth (c.lit.extractLsb' 0 4)
  let rb := c.c.toNat % 2 ^ 16
  let rows := c.c.toNat / 2 ^ 16 % 2 ^ 13
  let n1 := fld (dwAt c.cap 0x10) 32 16
  match c.op with
  | .cpy => Source s c D (c.imm.getLsbD 10) c.b.toNat c.c.toNat (f 0)
  | .cpysFrom => ∀ j, j < c.c.toNat → f 0 j = cget (tget s.strands (c.after.getD 0)).smem (c.b.toNat % 2 ^ 17 + j)
  | .cpysc => ∀ r j, r < rows → j < rb → f r j = c.cap.getD ((4 * rows + 63) / 64 * 64 + rb * r + j) 0
  | .sqgo => ∀ r, r < fld (dwAt c.cap 0x10) 48 16 * n1 → Source s c D false
      (dwAt c.cap 8 + BitVec.ofInt 64 ((dwAt c.cap 0x20).extractLsb' 32 32).toInt * BitVec.ofNat 64 (r / n1) +
        BitVec.ofInt 64 ((dwAt c.cap 0x20).extractLsb' 0 32).toInt * BitVec.ofNat 64 (r % n1)).toNat (fld (dwAt c.cap 0x10) 0 32) (f r)
  | .tdrain | .tdraink => ∃ status : Word, StatusOf s c status ∧ ∀ r j,
      f r j = if r = 32 then status.extractLsb' (8 * j) 8
        else if c.lit.toNat % 16 ≠ 0 then BitVec.ofNat 8 (lineNumber w (fun i => (drained s c (32 * r + i)).bits) / 2 ^ (8 * j))
        else cget (x.bufMem e.tk) (bufBytes e.tk * e.bi.toNat + (if e.tk = 2 then 128 else 512) * r + j)
  | _ => False

/-- R255: memory after `n` bytes `f` are stored at the places `key`, or added there in lanes of `add` bytes. -/
def putRun (add : Nat) (key : Nat → Nat) (n : Nat) (f : Nat → Byte) (m : Nat → Byte) (k : Nat) : Byte :=
  match (List.range n).reverse.find? (fun j => key j = k) with
  | none => m k
  | some j =>
    if add = 0 then f j
    else
      let lane (g : Nat → Byte) : Nat := leNat ((List.range add).map (fun b => g (j / add * add + b)))
      BitVec.ofNat 8 (laneAdd (if add = 4 then fF32 else fBF16) (8 * add) 1 (lane (fun i => m (key i))) (lane f) / 2 ^ (8 * (j % add)))

/-- The rows of bag `g` of a pooling command as its plan stands, none where the bag fails (R351, R354, R355). -/
def bagOf (s : State) (c : Cmd) (g : Nat) : Option (List (Nat × FVal × List FVal)) :=
  match c.plan.bind (fun k => tfind (tget s.parts c.part).plans k) with
  | none => none
  | some p => if poolL c.c = p.dim then s.bagRows c p g else none

/-- R93, R141: what writing back and invalidating every line of cluster `c` at die scope or wider does. -/
def Fenced (s t : State) (c : Nat) (scope : Nat) : Prop :=
  if 2 ≤ scope then
    (tget t.clusters c).lines = [] ∧ (∀ pa, pa < 2 ^ 39 → cget t.mem pa = homeByte s c pa) ∧
    (∀ k, 2 ^ 39 ≤ k → cget t.mem k = cget s.mem k) ∧ ∀ m, m ≠ c → tget t.clusters m = tget s.clusters m
  else t.mem = s.mem ∧ t.clusters = s.clusters

/-- A strand with one more result in flight, of the syllable of state `s`. -/
def flying (s : State) (n : Nat) (d : Dest) : Strand :=
  { s.me with fly := s.me.fly ++ [{ due := s.me.steps + n, origin := s.me.steps, slot := s.issue.slot, dest := d }] }

/-- R263: a future cell that the E unit may access with the rights asked for: its one place. -/
structure CellAt (s : State) (a : Word) (rq : BitVec 3) (p : Place) : Prop where
  aligned : a.toNat % 16 = 0
  place : s.vPlaces a.toNat 16 2 rq = .ok [(p, 16)]

/-- R325, R326: the strand's tenant has a budget for an access of a future cell. -/
def CellFree (s : State) (p : Place) : Prop :=
  s.atomicFree s.me.part (s.tenantOf s.me) ((resourceOf p.kind p.pa).getD 0) = true

/-- A doubleword of a place as its home holds it for the issuing strand (R93, R142). -/
def homeWord (s : State) (p : Place) (off : Nat) : Word :=
  BitVec.ofNat 64 (leNat ((List.range 8).map (fun i =>
    if p.kind = 0 then homeByte s s.cl (p.pa + off + i) else cget s.mem (memKey p.kind (p.pa + off + i)))))

/-- R262: the ranks that take part in a barrier of mask `m`. -/
def partRanks (s : State) (m : BitVec 4) : List Nat :=
  (List.range s.gang.strands.length).filter (fun r =>
    m = 0 || m.getLsbD (tget s.strands (s.gang.strands.getD r 0)).role)

/-- R143, R262: an arrival that the barrier accepts, while no atomic of the strand is held; `last` says that it completes the phase. -/
structure Arrives (s : State) (b : Nat) (m : BitVec 4) (last : Prop) : Prop where
  known : (tfind s.gangs s.me.gang).isSome
  released : anyHeld s.me = false
  takesPart : s.me.rank ∈ partRanks s m
  mask : (tget s.gang.bars b).arrived = [] ∨ (tget s.gang.bars b).mask = m
  completes : last ↔ ∀ r ∈ partRanks s m, r = s.me.rank ∨ r ∈ (tget s.gang.bars b).arrived

/-- The saved registers and the rest of a strand that enters its handler (R270, R383): TEPC, TCAUSE, TVAL, TSTS, TRQ0
and TRQ1 as given, HA 1, an empty queue, PC at TVEC; every other system register, the general registers, the
planes, the handles, the tiles, the flags and the window memory as in `x`. -/
def Entered (x y : Strand) (cause val : Word) : Prop :=
  y.sysreg 1 = x.pc.setWidth 64 ∧ y.sysreg 2 = cause ∧ y.sysreg 3 = val ∧ y.sysreg 4 = x.statusWord 7 ∧
  y.sysreg 5 = packQueue x.rq 0 ∧ y.sysreg 6 = packQueue x.rq 1 ∧
  y.sysreg 0 = x.sysreg 0 ∧ y.sysreg 7 = x.sysreg 7 ∧
  y.ha = true ∧ y.rq = [] ∧ y.pc.toNat = (x.sysreg 0).toNat % 2 ^ 56 / 8 * 8 ∧
  y.s = x.s ∧ y.planes = x.planes ∧ y.ptag = x.ptag ∧ y.hd = x.hd ∧ y.tiles = x.tiles ∧ y.smem = x.smem ∧
  y.rm = x.rm ∧ y.ff = x.ff ∧ y.wo = x.wo ∧ y.steps = x.steps ∧ y.bind = x.bind ∧ y.pw = x.pw

/-- R269, R383: a strand has a handler where TVEC, by its bits 55 to 3, is not 0. -/
def hasVector (t : Strand) : Prop := (t.sysreg 0).toNat % 2 ^ 56 / 8 ≠ 0

/-- R383, R384, R386: a V-class trap that cannot be delivered: a handler runs already, and the trap is no failure of its RETT, or there is
none. -/
def Undeliverable (s : State) (tr : Trap) : Prop :=
  tr.im0 = none ∧ tr.delivery = .vector ∧ ((s.me.ha = true ∧ tr.rett = false) ∨ ¬hasVector s.me)

/-- R74, R384: nothing keeps strand `k` of a gang in its context once the gang halts: it has no operation outstanding, runs no routine,
waits for no sync object, and no wait of it at a barrier of the gang has ended. -/
structure Leaves (s : State) (x : Gang) (k : Nat) : Prop where
  drained : (tget s.strands k).ldq = [] ∧ (tget s.strands k).stq = [] ∧ (tget s.strands k).cpq = [] ∧ (tget s.strands k).tlq = []
  still : (tget s.strands k).finishing = false ∧ (tget s.strands k).micro.mv = false
  barriers : ∀ b ∈ x.bars, (tget s.strands k).rank ∉ b.2.released
  objects : ∀ b ∈ (tget s.parts (tget s.strands k).part).bindings, ∀ r ∈ b.2.waiters, r.strand ∉ x.strands

/-- R74, R382, R384: after `t` the gang `g`, whose strands `s` shows, halts with ST `st`, or has left its cluster: no strand of it issues,
and each one that has left has that ST, or 5 if it has ended (R48). -/
structure HaltsWith (s t : State) (g : Nat) (st : BitVec 4) : Prop where
  quiet : ∀ k ∈ (tget s.gangs g).strands, (tget t.strands k).written = true ∨ (tget t.strands k).halted = true
  goes : (tget t.gangs g).halt = some { st := st } ∨ ((tget t.gangs g).halt = none ∧ (tget t.gangs g).placed = false ∧
    ∀ k ∈ (tget s.gangs g).strands, (tget t.strands k).written = true ∧ ((tget t.strands k).st = st ∨ (tget t.strands k).st = 5))

/-- R74: a gang whose strands nothing keeps has left. -/
def GoneWhere (s t : State) (g : Nat) : Prop :=
  (∀ k ∈ (tget s.gangs g).strands, Leaves s (tget s.gangs g) k) → (tget t.gangs g).halt = none

/-- A gang of strands that exist, the issuing one among them, which has neither been killed nor stopped. -/
structure LiveGang (s : State) : Prop where
  known : (tfind s.gangs s.me.gang).isSome ∧ (tfind s.batches s.gang.batch).isSome
  runs : s.gang.killed = false ∧ s.gang.stopped = false
  mine : s.cur ∈ s.gang.strands ∧ s.gang.strands.Nodup
  strands : ∀ k ∈ s.gang.strands, (tfind s.strands k).isSome

/-- R74: a gang of the issuing strand alone has left: its frame stands in memory, and then its folio, as the strand now is; the
cluster holds nothing else to write back. -/
def LeftAlone (s t : State) : Prop :=
  s.gang.strands = [s.cur] → Leaves s s.gang s.cur → s.me.written = false → s.me.ended = false →
    (tget s.clusters s.gang.cluster).lines = [] → t.me.fs = true ∧ t.mem = ((s.writeFrame t.me).writeFolio t.me).mem

/-- R24: a saved redirect entry within the limits of R271. -/
def savedOk (w : Word) : Prop :=
  fld w 61 2 ≠ 3 ∧ (w.getLsbD 63 = true → fld w 61 2 ≠ 0) ∧ fld w 56 3 = 0 ∧ fld w 0 3 = 0

/-- R24, R271: the redirect entry of a saved word. -/
def restored (w : Word) : List Redirect :=
  if w.getLsbD 63 then [{ rd := w.extractLsb' 61 2, ra1 := w.getLsbD 60, ra2 := w.getLsbD 59,
                          rt := w.extractLsb' 3 53 ++ (0 : BitVec 3) }] else []

/-- The bundle of the issuing strand has completed its issue step and ended (R58, R69). -/
def bundleDone (s : State) : Strand := s.me.advance s.issue.next s.issue.redirect

/-- R34, R37: the batch that LAUNCH makes of a record without a binding list. -/
def launched (s : State) (queue : Nat) (d : List Byte) : Batch :=
  { parseRecord d with
    part := s.me.part, queue := queue,
    ticket := (0 : BitVec 28) ++ BitVec.ofNat 4 queue ++ nextSeq (tget (tget s.parts s.me.part).queues queue).seq }

/-- R268, R269: the value that each instruction reading a register or an identity returns. -/
def systemRule (s : State) : Instr → Option (BitVec 6 × Word)
  | .mfsr o => some (o.sd,
      if o.imm.toNat = 16 then (0 : BitVec 28) ++ s.me.sq ++ (0 : BitVec 4) ++ s.me.fp ++ s.me.rm ++ ofBool 1 s.me.wo ++ s.me.ff ++
        ofBool 1 s.me.ha ++ ofBool 1 s.me.cb ++ ofBool 1 s.me.fs ++ (7 : BitVec 4)
      else if o.imm.toNat = 17 then s.me.ig.setWidth 64
      else if o.imm.toNat = 4 then s.me.sysreg 4 &&& 0x0000000F0FFFFFFF
      else if o.imm.toNat = 5 ∨ o.imm.toNat = 6 then s.me.sysreg o.imm.toNat &&& 0xF8FFFFFFFFFFFFF8
      else s.me.sysreg o.imm.toNat)
  | .rdclk o => some (o.sd, BitVec.ofNat 64 s.now)
  | .rdff o => some (o.sd, s.me.ff.setWidth 64 ||| (if s.me.wo then 0x20 else 0))
  | .pwsz o =>
    let w := cget s.me.pw (o.imm.toNat % 8)
    some (o.sd, if w.getLsbD 63 then BitVec.ofNat 64 (64 * (w.toNat / 2 ^ 50 % 2 ^ 11 + 1)) else 0)
  | .rdid o => match o.imm.toNat with
    | 0 => some (o.sd, BitVec.ofNat 64 s.me.core)
    | 1 => some (o.sd, BitVec.ofNat 64 s.me.ctx)
    | 2 => some (o.sd, BitVec.ofNat 64 (s.me.core / 12))
    | 3 => some (o.sd, BitVec.ofNat 64 (s.me.core / 12 / 16))
    | 4 => some (o.sd, BitVec.ofNat 64 s.me.part)
    | 5 => some (o.sd, s.me.fol.setWidth 64)
    | 6 => some (o.sd, (0 : BitVec 28) ++ s.me.sq ++ s.me.bs)
    | 7 => some (o.sd, s.me.batchWord)
    | _ => some (o.sd, 0x00040001)
  | _ => none

/-- R268, R269: what each instruction writing a register of the context makes of its strand. -/
def systemWrite (s : State) : Instr → Option Strand
  | .mtsr o => some (s.me.setSys o.imm.toNat (s.reg o.sa ||| (if o.imm.toNat = 4 then s.me.late.setWidth 64 <<< 7 else 0)))
  | .setrm o => some { s.me with rm := o.imm.extractLsb' 0 3 }
  | .clrff o => some { s.me with ff := s.me.ff &&& ~~~ (o.imm.extractLsb' 0 5), wo := s.me.wo && !o.imm.getLsbD 5 }
  | .ifence _ => some { s.me with stale := [] }
  | _ => none

/-- R296: a binding slot's word that names entry `e` with step bound `b`. -/
def boundWord (w : Word) (e : BitVec 14) (b : Nat) : Prop :=
  w.getLsbD 63 = true ∧ w.extractLsb' 28 35 = 0 ∧ (w.extractLsb' 16 12).toNat = b - 1 ∧ w.extractLsb' 14 2 = 0 ∧ w.extractLsb' 0 14 = e

/-- R272, R273: a micro-address in the base region or in a writable page that the strand owns. -/
def mayReach (s : State) (a : Nat) : Prop :=
  a < 0x0800 ∨ (a < 0x2000 ∧ (tget (tget s.cores s.me.core).pages (a / 256)).owner = some s.cur)

/-- R300: the word of a page image that the loader writes for a group at micro-address `m`: branches into the writable
store move with it; a target that would pass 0x3FFF stays as it is written, above 0x2000 (log 94). -/
def relocated (m i : Nat) (w : BitVec 128) : BitVec 128 :=
  let seq := (w.extractLsb' 124 4).toNat
  let tgt := (w.extractLsb' 110 14).toNat
  if i < 252 ∧ 1 ≤ seq ∧ seq ≤ 6 ∧ 0x0800 ≤ tgt ∧ tgt + m < 0x4800 then
    w.extractLsb' 124 4 ++ BitVec.ofNat 14 (tgt + m - 0x0800) ++ w.extractLsb' 0 110 else w

/-- R98, R301: a page image at `va` that CSLOAD may read: its page is present, of kind 0 or 1, readable and there. -/
def ImageReadable (s : State) (va : Nat) : Prop :=
  va < 2 ^ 56 ∧ ∃ l, s.walk s.me.part (BitVec.ofNat 56 va) = .leaf l ∧ l.kd ≠ 2 ∧ l.pr = true ∧ paExists l.kd (l.at va) 4096 = true

/-- R390, R294: the first step of the routine bound to an opcode fails a check, of this cause: its place, then its encoding, then its
partition's ports, then, where it need not wait, what it does. -/
def FirstStepFails (s : State) (cls : BitVec 1) (o : FmtOB) (cause : BitVec 16) : Prop :=
  let e := ((cget s.me.bind (32 * cls.toNat + o.opx.toNat)).extractLsb' 0 14).toNat
  let at0 : State := s.onMe (fun t => { t with micro := s.me.boundMicro cls o })
  let w := at0.microWord e
  let seq := (w.extractLsb' 124 4).toNat
  ((252 ≤ e % 256 ∨ 0x2000 ≤ e) ∧ cause = 0x0013) ∨
  (e % 256 < 252 ∧ ¬mayReach s e ∧ e < 0x2000 ∧ cause = 0x0015) ∨
  (e % 256 < 252 ∧ mayReach s e ∧ at0.encOk seq (fieldsOf w) = false ∧ cause = 0x0013) ∨
  (e % 256 < 252 ∧ mayReach s e ∧ at0.encOk seq (fieldsOf w) = true ∧ at0.portsOk seq (fieldsOf w) = false ∧ cause = 0x0015) ∨
  (at0.stepFault seq (fieldsOf w) = none ∧ at0.stepWaits seq (fieldsOf w) = false ∧ at0.doStep seq (fieldsOf w) = .error cause)

/-- R291, R294: the first step of the routine bound to an opcode passes its checks, or waits after them. -/
def FirstStep (s : State) (cls : BitVec 1) (o : FmtOB) : Prop :=
  let at0 : State := s.onMe (fun t => { t with micro := s.me.boundMicro cls o })
  let w := at0.microWord ((cget s.me.bind (32 * cls.toNat + o.opx.toNat)).extractLsb' 0 14).toNat
  let seq := (w.extractLsb' 124 4).toNat
  at0.stepFault seq (fieldsOf w) = none ∧
    (at0.stepWaits seq (fieldsOf w) = true ∨ ∃ x, at0.doStep seq (fieldsOf w) = .ok x)

/-- R277, R278: the micro state after the sequencing of a word: counted, and at its next address; `m` is the micro state that the step's
transports left, the condition is of the state before them. -/
def sequencedFrom (s : State) (m : Micro) : Instr → Option (MicroFields × Nat × Micro)
  | .microNext f => some (f, 0, { m with msn := m.msn + 1, mpc := m.mpc + 1 })
  | .jump f => some (f, 1, { m with msn := m.msn + 1, mpc := f.tgt })
  | .brt f => some (f, 2, { m with msn := m.msn + 1, mpc := if s.cndHolds f.cnd.toNat then f.tgt else m.mpc + 1 })
  | .brf f => some (f, 3, { m with msn := m.msn + 1, mpc := if s.cndHolds f.cnd.toNat then m.mpc + 1 else f.tgt })
  | .loop0 f => some (f, 4, { m with
      msn := m.msn + 1, lc0 := if m.lc0 = 0 then 0 else m.lc0 - 1, mpc := if m.lc0 = 0 ∨ m.lc0 = 1 then m.mpc + 1 else f.tgt })
  | .loop1 f => some (f, 5, { m with
      msn := m.msn + 1, lc1 := if m.lc1 = 0 then 0 else m.lc1 - 1, mpc := if m.lc1 = 0 ∨ m.lc1 = 1 then m.mpc + 1 else f.tgt })
  | .microCall f => some (f, 6, { m with msn := m.msn + 1, mra := m.mpc + 1, mpc := f.tgt })
  | .microRet f => some (f, 7, { m with msn := m.msn + 1, mpc := m.mra })
  | .microTrap f => some (f, 9, { m with msn := m.msn + 1, mpc := m.mpc + 1 })
  | .poll f => some (f, 10, { m with msn := m.msn + 1, mpc := m.mpc + 1 })
  | _ => none

/-- R278: the same of a word that changes no register of the routine. -/
def sequenced (s : State) (i : Instr) : Option (MicroFields × Nat × Micro) := sequencedFrom s s.micro i

/-- R276: source, destination and transform of a transport field. -/
def srcOf (tf : BitVec 26) : Nat := (tf.extractLsb' 16 10).toNat
def dstOf (tf : BitVec 26) : Nat := (tf.extractLsb' 6 10).toNat
def xfOf (tf : BitVec 26) : Nat := (tf.extractLsb' 0 6).toNat

/-- R281, R282, R284, R289: element `k` of the value that a strand's source port `p` reads, a data port on the scratchpad. -/
def portValue (s : State) (p k : Nat) : Elem :=
  let m := s.micro
  let reg (w : Word) : Elem := if k = 0 then w.extractLsb' 0 32 else if k = 1 then w.extractLsb' 32 32 else 0
  let ag := cget m.ag (p % 4)
  if p < 8 then cget m.mt (32 * p + k)
  else if p < 0x10 then (s.me.line (m.line (p - 8))).getD k 0
  else if p < 0x18 then reg ((cget m.lp (p - 0x10)).extractLsb' 0 19 |>.setWidth 64)
  else if p < 0x20 then reg ((s.me.tagOf (m.line (p - 0x18)).pn).setWidth 64)
  else if p < 0x28 then BitVec.ofNat 32 (cnum s.me.smem (fld ag 0 17 + 4 * k) 4)
  else if p < 0x2C then reg ((ag.extractLsb' 0 24).setWidth 64)
  else if p < 0x30 then reg ((ag.extractLsb' 32 32).setWidth 64)
  else if p < 0x34 then reg ((ag.extractLsb' 56 5).setWidth 64)
  else if p = 0x34 then reg (m.opb.setWidth 64)
  else if p = 0x35 then reg (m.lc0.setWidth 64)
  else if p = 0x36 then reg (m.lc1.setWidth 64)
  else if p = 0x37 then reg (m.cf.setWidth 64)
  else if p = 0x38 then reg (m.rmu.setWidth 64)
  else if p < 0x80 then reg (s.me.reg (BitVec.ofNat 6 (p - 0x40)))
  else if p < 0x300 then (BitVec.ofNat 8 p).signExtend 32
  else s.poolValue (p % 16)

/-- R288: element `k` of what a transport that is no trigger moves. -/
def carried (s : State) (tf : BitVec 26) (k : Nat) : Elem := transform (xfOf tf) (portValue s (srcOf tf) 0) (portValue s (srcOf tf) k)

/-- R281 to R284: the registers of a routine after a write of value `x` through port `q`; other ports leave them. -/
def regWrite (m : Micro) (q : Nat) (x : Nat → Elem) : Micro :=
  let e := x 0
  let w := cget m.ag (q % 4)
  let p := cget m.lp (q % 8)
  let ag (v : Word) : Micro := { m with ag := cset m.ag (q % 4) v }
  if q < 0x10 then m
  else if q < 0x18 then { m with lp := cset m.lp (q % 8) ((0 : BitVec 45) ++ e.extractLsb' 15 4 ++ (0 : BitVec 3) ++ e.extractLsb' 0 12) }
  else if q < 0x20 then { m with lp := cset m.lp (q % 8) (p.extractLsb' 19 45 ++ e.extractLsb' 0 4 ++ p.extractLsb' 0 15) }
  else if q < 0x28 then m
  else if q < 0x2C then ag (w.extractLsb' 24 40 ++ e.extractLsb' 0 24)
  else if q < 0x30 then ag (e.extractLsb' 8 24 ++ (0 : BitVec 8) ++ w.extractLsb' 0 32)
  else if q < 0x34 then ag (w.extractLsb' 61 3 ++ e.extractLsb' 0 5 ++ w.extractLsb' 0 56)
  else if q = 0x35 then { m with lc0 := e.extractLsb' 0 16 }
  else if q = 0x36 then { m with lc1 := e.extractLsb' 0 16 }
  else if q = 0x37 then { m with cf := e.extractLsb' 0 8 }
  else if q = 0x38 then { m with rmu := e.extractLsb' 0 2 }
  else m

/-- R284: a use of an AGDI port advances ADR by the STR of the start of the step. -/
def advanced (m0 m : Micro) (p : Nat) : Micro :=
  let w := cget m.ag (p % 4)
  if 0x24 ≤ p ∧ p < 0x28 then
    { m with ag := cset m.ag (p % 4) (w.extractLsb' 24 40 ++ (w.extractLsb' 0 24 + ((cget m0.ag (p % 4)).extractLsb' 40 16).signExtend 24)) }
  else m

/-- R285: the operand latches that a trigger reads, 0 for none. -/
def operandPorts (p : Nat) : Nat × Nat :=
  if p = 0x081 ∨ p = 0x082 then (0x080, 0) else if p = 0x085 then (0x084, 0) else if p = 0x08A then (0x088, 0x089)
  else if p = 0x08D ∨ p = 0x08E then (0x08C, 0) else if 0x099 ≤ p ∧ p ≤ 0x09C then (0x098, 0)
  else if 0x0A2 ≤ p ∧ p ≤ 0x0A7 then (0x0A0, 0x0A1) else (0, 0)

/-- R285, R287: the element result of a trigger on elements of its operand latches and of its value, with its flags; of 2^v see
`Exp2Elem`. -/
def unitRule (p : Nat) (mode : BitVec 3) (o m v : Elem) : Option FRes :=
  let d (e : Elem) : FVal := decodeF fF32 e.toNat
  let int (e : Elem) : Option FRes := some { bits := e.toNat, ff := 0 }
  let narrow (tag : BitVec 4) : FRes := convertTo tag mode 0 (d v)
  let low (tag : BitVec 4) : Option FRes := some { bits := o.toNat / 2 ^ 16 * 2 ^ 16 + (narrow tag).bits, ff := (narrow tag).ff }
  let high (tag : BitVec 4) : Option FRes := some { bits := 2 ^ 16 * (narrow tag).bits + o.toNat % 2 ^ 16, ff := (narrow tag).ff }
  if p = 0x081 then some (fadd fF32 mode 0 (d o) (d v))
  else if p = 0x082 then some (fsub fF32 mode 0 (d o) (d v))
  else if p = 0x085 then some (fmul fF32 mode 0 (d o) (d v))
  else if p = 0x08A then some (ffma fF32 mode 0 (d o) (d m) (d v))
  else if p = 0x08D then some (fminmax true fF32 (d o) (d v))
  else if p = 0x08E then some (fminmax false fF32 (d o) (d v))
  else if p = 0x090 then some (fdiv fF32 mode 0 (.fin false 1 0) (d v))
  else if p = 0x099 then low 2 else if p = 0x09A then high 2 else if p = 0x09B then low 3 else if p = 0x09C then high 3
  else if p = 0x0A2 then int (o + v) else if p = 0x0A3 then int (o &&& v) else if p = 0x0A4 then int (o ||| v)
  else if p = 0x0A5 then int (o ^^^ v) else if p = 0x0A6 then int ((o &&& m) ||| (v &&& ~~~ m))
  else if p = 0x0A7 then int (if o.toInt < v.toInt then v else o)
  else none

/-- R287: 2^v for an infinity, a NaN, and a whole number whose power is a normal value. -/
def Exp2Elem (v : FVal) (r : FRes) : Prop :=
  (v = .inf false → r = { bits := 0x7F800000, ff := 0 }) ∧ (v = .inf true → r = { bits := 0, ff := 0 }) ∧
  (∀ sg, v = .nan sg → r = { bits := 0x7FC00000, ff := if sg then 16 else 0 }) ∧
  ∀ (n : Bool) (m : Nat) (e i : ℤ), v = .fin n m e → valR v = i → -126 ≤ i → i ≤ 127 →
    valR (decodeF fF32 r.bits) = (2 : ℝ) ^ i ∧ r.ff = 0

/-- R276: a micro-word that moves nothing. -/
def moveless (f : MicroFields) : Prop := f.tf0 = 0 ∧ f.tf1 = 0 ∧ f.tf2 = 0 ∧ f.tf3 = 0

/-- R336: is a grain free in the collation map? -/
def freeGrain (s : State) (im : Cells 64) (g : Nat) : Bool := !(cget s.mem (memKey 1 (imCMB im + g / 8))).getLsbD (g % 8)

/-- R336, R417: the bytes of the map that hold a list of grains can be reached. -/
def mapReachable (s : State) (im : Cells 64) (l : List Nat) : Prop :=
  ∀ g ∈ l, s.inSlice s.me.part (imCMB im + g / 8) 1 = true ∧ s.hasError { spc := 1, lo := imCMB im + g / 8, n := 1 } = false

/-- R325, R326: the strand's tenant has a budget for claims at the home of the collation map. -/
def mapFree (s : State) (im : Cells 64) : Prop := s.atomicFree s.me.part (s.tenantOf s.me) (32 + imCMB im / 2 ^ 26) = true

/-- R336: the machine's memory after a claim of grains: those are taken, every other byte but the map's is as before,
and every other bit of the map. -/
def Claimed (s t : State) (im : Cells 64) (l : List Nat) : Prop :=
  ∀ pa i, i < 8 → (cget t.mem (memKey 1 pa)).getLsbD i =
    ((cget s.mem (memKey 1 pa)).getLsbD i || l.any (fun g => imCMB im + g / 8 = pa && g % 8 = i))

/-- R318: of two candidates `c` comes first: an overdue one, among overdue ones the earlier and then the lower queue,
else by PRI, by BAL and by the first queue after LW. -/
def comesFirst (lw : Cells 4) (c d : Cand) : Prop :=
  (c.overdue = true ∧ d.overdue = false) ∨
  (c.overdue = true ∧ d.overdue = true ∧ (c.since < d.since ∨ (c.since = d.since ∧ c.queue ≤ d.queue))) ∨
  (c.overdue = false ∧ d.overdue = false ∧ (d.pri < c.pri ∨ (d.pri = c.pri ∧ (d.bal < c.bal ∨ (d.bal = c.bal ∧
    (c.queue + 31 - (cget lw c.pri).toNat) % 16 ≤ (d.queue + 31 - (cget lw c.pri).toNat) % 16)))))

/-- R314: what the tenants `ts` repay at a boundary. -/
def repaid (ts : Nat → Tenant) : Nat := ((List.range 16).map (fun n => min (ts n).db ((ts n).rf / 2))).sum

/-- R314: what of the repayments is left when tenant `n` is paid. -/
def poolAt (ts : Nat → Tenant) : Nat → Nat
  | 0 => repaid ts
  | n + 1 => poolAt ts n - min (ts n).cr (poolAt ts n)

/-- R314: tenant `n` after a boundary. -/
def refilled (ts : Nat → Tenant) (n : Nat) : Tenant :=
  let t := ts n
  let r := min t.db (t.rf / 2)
  let pay := min t.cr (poolAt ts n)
  { t with db := t.db - r, cr := t.cr - pay, bal := min (min (t.bal + t.rf - r) t.cap + pay) t.cap }

/-- R409: the forced rung of gang `g` has begun: cause 0x0060 is posted and no strand of the gang issues. -/
def Forced (s t : State) (g : Nat) : Prop :=
  (∃ r ∈ t.dev.waiting, r.cause = 0x0060 ∧ r.part = (tget s.gangs g).part ∧
    r.val = (tget s.strands ((tget s.gangs g).strands.headD 0)).fol.setWidth 64) ∧
  ∀ k ∈ (tget s.gangs g).strands, (tfind s.strands k).isSome → (tget t.strands k).halted = true ∨ (tget t.strands k).written = true

/-- R380: word `i` of a posted record; the fields that the rule reserves are 0. -/
def recordWord (r : Record) (i : Nat) : Word :=
  let at_ {n : Nat} (b : BitVec n) (lo : Nat) : Word := b.setWidth 64 <<< lo
  if i = 0 then at_ (1 : BitVec 1) 63 ||| at_ (BitVec.ofBool r.mod) 62 ||| at_ (BitVec.ofBool r.ovf) 61 ||| at_ (BitVec.ofBool r.ud) 60 |||
    at_ (BitVec.ofNat 6 r.part) 52 ||| at_ r.cause 36 ||| at_ r.seq 0
  else if i = 1 then at_ (r.fol.extractLsb' 6 50) 6
  else if i = 2 then at_ (r.tpc.extractLsb' 3 53) 3
  else if i = 3 then r.val
  else if i = 4 then at_ r.core 38 ||| at_ r.ctx 35 ||| at_ r.slt 32 ||| at_ r.mpc 18
  else if i = 5 then r.time
  else if i = 6 then r.aux
  else r.tkt

/-- R382: a posted record awaits its answer under a partition and a sequence number. -/
def Awaits (s : State) (r : Record) (part seq : Nat) : Prop :=
  r ∈ s.dev.answers ∧ r.named part seq = true ∧ (∀ q ∈ s.dev.answers, q.named part seq = true → q = r) ∧
  match r.cmd with
  | none => (tget s.gangs r.gang).answer = true ∧ (tfind s.gangs r.gang).isSome
  | some n => ∃ c, tfind s.cmds n = some c ∧ (c.state = .stalled ∨ c.state = .lost)

/-- R104: a handle's page overlaps a range of virtual addresses. -/
def inRange (h : Handle) (va len : Nat) : Prop :=
  4096 * h.vb.toNat < va + len ∧ va < 4096 * h.vb.toNat + 2 ^ pageBits h.ps.toNat

/-- R50: something of a partition still carries an image generation. -/
def Carried (s : State) (part : Nat) (ig : BitVec 32) : Prop :=
  (∃ e ∈ s.strands, e.2.part = part ∧ e.2.ig = ig ∧ e.2.ended = false ∧ e.2.st ≠ 6 ∧ e.2.st ≠ 8) ∨
  ∃ q ∈ (tget s.parts part).queues, ∃ b ∈ q.2.batches, (tget s.batches b).ig = ig

/-- R100: `w` is `e` with BASE `n` pages of 4 KiB further on. -/
def RaisedBase (w e : Word) (n : Nat) : Prop :=
  w.extractLsb' 52 12 = e.extractLsb' 52 12 ∧ w.extractLsb' 0 12 = e.extractLsb' 0 12 ∧
  (w.extractLsb' 12 40).toNat = ((e.extractLsb' 12 40).toNat + n) % 2 ^ 40

/-- R310, R312, R314, R318, R323: what nobody but the partition and the resources given to it changes in. -/
def OthersKept (s t : State) (part : Nat) : Prop :=
  (∀ n, n ≠ part → tfind t.parts n = tfind s.parts n) ∧ t.strands = s.strands ∧ t.gangs = s.gangs ∧ t.batches = s.batches ∧
  t.cmds = s.cmds

/-- R360, R362: the capability table of a partition in reserved staging memory: length, sequence number and document. -/
def TableHolds (t : State) (part : Nat) : Prop :=
  let p := tget t.parts part
  let a := memKey 1 (tablePa 0 part)
  p.cap = t.capDoc part ∧ cnum t.mem a 8 = p.cap.length % 2 ^ 64 ∧ cnum t.mem (a + 8) 8 = p.capSeq % 2 ^ 64 ∧
  ∀ i, i < p.cap.length → i < 2 ^ 19 - 16 → cget t.mem (a + 16 + i) = p.cap.getD i 0

/-- R358: memory is unchanged but for the reserved tables of a partition. -/
def TablesOnly (s t : State) (part : Nat) : Prop :=
  ∀ k, ¬(memKey 1 (tablePa 0 part) ≤ k ∧ k < memKey 1 (tablePa 0 part) + tableBytes) → cget t.mem k = cget s.mem k

/-- R365: nothing is left of the owner before in the clusters of a list: their caches hold no line, and lines of the generation
before would not count. -/
def Cleaned (s t : State) (l : List Nat) : Prop :=
  (∀ c ∈ l, tget t.clusters c = { lines := [], gen := nextGen s.dev.generation } ∧ ∀ k, clusterOf k = c → tfind t.cores k = none) ∧
  (∀ c, c ∉ l → tfind t.clusters c = tfind s.clusters c ∧ ∀ k, clusterOf k = c → tfind t.cores k = tfind s.cores k)

/-- R21: an island's ceiling one step of 12.5 mV lower, not below 450 mV. -/
def lowered (x : Island) : Island := { x with ceiling10 := max 4500 (x.ceiling10 - 125) }

/-- R18, R21: an island's ceiling one step higher, not above 750 mV. -/
def raised (x : Island) : Island := { x with ceiling10 := min 7500 (x.ceiling10 + 125) }

/-- R18: the highest frequency of an island at a voltage: at least 500 MHz, and 940 MHz from 600 mV on, at most 1,250 MHz, and never
below that of a lower voltage (log 8). -/
def topMhz (i mv10 : Nat) : Nat :=
  max (if 6000 ≤ mv10 then 940 else 500) (min 1250 (((List.range ((mv10 - 4500) / 125 + 1)).map (Config.maxFreq i)).foldl max 0))

/-- R18, R19, R323, R370: a voltage and a frequency that an island may run at: 450 to 750 mV in steps of 12.5 mV, at least 500 MHz and
at most the frequency of its voltage; a cluster island runs at 600 mV and its offset under its ceiling, at that frequency; an
island without power has no operating point. -/
def PointAllowed (s : State) (i mv10 mhz : Nat) : Prop :=
  s.dev.powered = true ∧ (i < 124 → s.dev.stopped = false) ∧
  4500 ≤ mv10 ∧ mv10 ≤ 7500 ∧ mv10 % 125 = 0 ∧ 500 ≤ mhz ∧ mhz ≤ topMhz i mv10 ∧
  (i < 64 → (mv10 : Int) = min (max 0 (6000 + 125 * (tget s.dev.islands i).offset)) (tget s.dev.islands i).ceiling10 ∧
    mhz = topMhz i mv10)

/-- R406: the bytes of a unit of an array. -/
def unitBytes (spc : Nat) : Nat := if spc ≤ 4 then 64 else if spc ≤ 10 then 128 else if spc = 11 then 16 else 8

/-- R27, R58: the state in which strand `k` starts an attempt to issue. -/
def starts (s : State) (k : Nat) : State :=
  { s with cur := k, agent := .strand, curCore := ((tget s.strands k).core + 1) % 768, issue := {} }

/-- R59, R58: that state once the results that are due have landed. -/
def landed (s : State) (k : Nat) : State :=
  (starts s k).onMe (fun t => { t.landDue with fenced := false, fenceScope := 0, csFenced := false, asks := none })

/-- R58, R406: the strand runs, and the units in error that the fetch of a bundle read are on record. -/
def fetched (s : State) (k : Nat) (h : Half) (l : List Syll) : State :=
  ((landed s k).onMe (fun t => { t with st := 7 })).noteErrors (landed s k).cur ((landed s k).fetchRuns h l.length)

/-- R54, R58: the state in which the syllables of a bundle of `l` execute: the strand runs, the address after the bundle
is known. -/
def executes (s : State) (k : Nat) (h : Half) (l : List Syll) : State :=
  let s := fetched s k h l
  { s with issue := { next := s.me.pc + BitVec.ofNat 56 (8 * l.length) } }

/-- R27, R89: the next step is the issue of a bundle `l` by strand `k` from its half of instruction memory. -/
structure Issues (s : State) (k : Nat) (h : Half) (l : List Syll) : Prop where
  turn : s.agenda = [] ∧ s.sinceEvent < 16 ∧ s.pick = some k
  free : (tget s.strands k).micro.mv = false ∧ (tget s.strands k).walkHeld = false ∧
    ((tget s.strands k).fenced = true → (tget s.strands k).holding = false) ∧
    ((tget s.strands k).csFenced = true → s.csLoading k = false)
  half : (tget (landed s k).cores (landed s k).me.core).halfOf (landed s k).me.ig (landed s k).me.pc.toNat = some h
  whole : h.absent = [] ∧ (landed s k).me.mid = false
  bytes : (landed s k).bundleAt (landed s k).me (landed s k).me.pc.toNat = l

/-- The rest of a step whose attempt has left `x`: the strand's bundle ends, the device goes on by itself (log 3), and
the binding tables in memory follow (R134; log 52). -/
noncomputable def settled (s x : State) : State := s.mirror { x.afterIssue with sinceEvent := s.sinceEvent + 1 }.settle

end Sys2Proof.Claims

open Sys2Proof Sys2Proof.Machine Sys2Proof.Claims

/-- R180 to R184, R61: every scalar integer instruction completes on every state, with the result of its rule in
flight at its exposed latency and nothing else changed. -/
def Obligations.ScalarResults : Prop :=
  ∀ (s : State) (i : Instr) (d : BitVec 6) (n : Nat) (v : Word), scalarRule s i = some (d, n, v) →
    exec i s = .next (s.landS n d v)

/-- R180: the bit counts and reversals that the tables of ScalarResults name, bit by bit. -/
def Obligations.ScalarBitResults : Prop :=
  ∀ a : Word,
    (∀ i, i < clz64 a → a.getLsbD (63 - i) = false) ∧ (clz64 a < 64 → a.getLsbD (63 - clz64 a) = true) ∧ clz64 a ≤ 64 ∧
    (∀ i, i < ctz64 a → a.getLsbD i = false) ∧ (ctz64 a < 64 → a.getLsbD (ctz64 a) = true) ∧ ctz64 a ≤ 64 ∧
    popc64 a = ((List.range 64).filter (fun i => a.getLsbD i)).length ∧
    (∀ i, i < 64 → (brev64 a).getLsbD i = a.getLsbD (63 - i)) ∧
    (∀ i, i < 8 → (bswap64 a).extractLsb' (8 * i) 8 = a.extractLsb' (8 * (7 - i)) 8)

/-- R59, R60, R62: before the issue of the step at which it is due, a scalar result is written to its register, s0
discards it, its flags join FF, and nothing else of the strand changes; a result that is not due is not seen. -/
def Obligations.ResultsLand : Prop :=
  ∀ (t : Strand) (l : Landing) (rest : List Landing) (d : BitVec 6) (v : Word),
    (∀ x ∈ rest, t.steps < x.due) → l.dest = .scalar d v → l.pre = false → t.fly = l :: rest →
      (t.steps < l.due → t.landDue = t) ∧
      (l.due ≤ t.steps → t.landDue = { t.setReg d v with fly := rest, ff := t.ff ||| l.ff, wo := t.wo || l.wo } ∧
        ∀ q, (t.landDue).reg q = if q = d ∧ d ≠ 0 then v else t.reg q)

/-- R69, R185 to R189: every branch completes when it is not taken, and when it is taken to a target that R185
allows: the entry of R69 is appended and the register of R188 or R189 is written one step on. -/
def Sys2Proof.Claims.BranchesTaken : Prop :=
  ∀ (s : State) (i : Instr) (tk : Bool) (bf : BitVec 2) (tg : Word) (w : Option (BitVec 6 × Word)),
    branchRule s i = some (tk, bf, tg, w) → (tk = true → goodTarget tg) →
      exec i s = .next (linked (redirected s (entryRule tk bf tg)) w)

/-- R185: a taken branch whose target has a bit of 63..56 or 2..0 set, or is 0, raises a control-flow trap that
names the target. -/
def Sys2Proof.Claims.BranchTraps : Prop :=
  ∀ (s : State) (i : Instr) (bf : BitVec 2) (tg : Word) (w : Option (BitVec 6 × Word)),
    branchRule s i = some (true, bf, tg, w) → ¬ goodTarget tg → Traps i s 0x000C tg

/-- R189, R389: the link is the address of the first syllable after the branch's bundle and the two bundles that follow it in
memory, each as long as R389 says. -/
def Sys2Proof.Claims.Links : Prop :=
  ∀ (s : State) (t : Strand) (b : Nat), b % 8 = 0 → ∃ i j k, RunOf s t b i ∧ RunOf s t (b + 8 * i) j ∧
    RunOf s t (b + 8 * i + 8 * j) k ∧ s.linkOf t b = b + 8 * (i + j + k)

/-- R69, R185 to R189: every branch completes when it is not taken or its target is one R185 allows, with its redirect entry and
its register; a taken one to another target is the control-flow trap that names it.
That the syllables of a link are read from memory where no half holds them is the model's choice (log 24). -/
def Obligations.BranchResults : Prop :=
  Sys2Proof.Claims.BranchesTaken ∧ Sys2Proof.Claims.BranchTraps ∧ Sys2Proof.Claims.Links

/-- R68 to R70: a branch that has an entry to append is followed by the two bundles after it and then by its target, if it has
one; they are annulled where the entry says so (form `.A` not taken, form `.T` taken). Branches in the two delay slots
have their own entries: after the first branch's target come theirs, one step apart, as the table of R70 gives the
order, and never more than two entries are valid. Every issue step counts. -/
def Obligations.DelaySlots : Prop :=
  ∀ (t : Strand) (n1 n2 n3 n4 n5 : BitVec 56) (e : Redirect) (x y : Option Redirect), t.rq = [] →
    (∀ r, (r = e ∨ x = some r ∨ y = some r) → r.rd = 2 ∧ r.ra1 = r.ra2) →
    let annuls (o : Option Redirect) : Bool := o.any Redirect.ra1
    let after (o : Option Redirect) (n : BitVec 56) : BitVec 56 := match o with
      | some r => if r.rt = 0 then n else r.rt
      | none => n
    let a := t.advance n1 (some e)
    let b := a.advance n2 x
    let c := b.advance n3 y
    let d := c.advance n4 none
    let f := d.advance n5 none
    a.pc = n1 ∧ a.annulled = e.ra1 ∧
    b.pc = n2 ∧ b.annulled = (e.ra1 || annuls x) ∧ b.rq.length ≤ 2 ∧
    c.pc = after (some e) n3 ∧ c.annulled = (annuls x || annuls y) ∧ c.rq.length ≤ 2 ∧
    d.pc = after x n4 ∧ d.annulled = annuls y ∧
    f.pc = after y n5 ∧ f.annulled = false ∧ f.rq = [] ∧ f.steps = t.steps + 5 ∧
    f.s = t.s ∧ f.fly = t.fly ∧ f.sys = t.sys ∧ f.ff = t.ff ∧ f.rm = t.rm ∧ f.planes = t.planes ∧ f.hd = t.hd

/-- R103, R190, R191: a load through a handle completes whenever the checks of R103 pass and fewer than 63 loads are
outstanding: its value is the bytes at its place as the cluster sees them, it is counted under ld, and neither memory
nor anything else of the strand changes.
Where its tenant has reached its cap it is held instead.
That a load that is not held reads at issue, and what waits at an arbiter, are the model's choices (log 4 and 70). -/
def Obligations.HandleLoads : Prop :=
  ∀ (s : State) (i : Instr) (o : FmtLH) (sg : Bool) (n : Nat), loadRule i = some (o, sg, n) →
    HandleReady s o.hd (offsetOf s o) n Handle.pr → s.me.ldq.length < 63 →
    let place := ((s.me.handle o.hd).kd.toNat, physOf s o.hd (offsetOf s o))
    (Capped s [place] → IsHeld i s true false [place]) ∧
    (Served s [place] →
      ∃ t, exec i s = .next t ∧ MemSame s t ∧
        OnlyMe s t { s.me with ldq := s.me.ldq ++ [{
          dest := .scalar o.sd (extended sg n ((List.range n).map (fun j =>
            seen s s.cl (s.me.handle o.hd).kd.toNat (physOf s o.hd (offsetOf s o) + j)))),
          lanes := BitVec.allOnes 32 }] })

/-- R103, R191, R414: a store through a handle completes whenever the checks of R103 pass, fewer than 63 stores are
outstanding and the dirty-page log can take its pages: the low bytes of s[SD] stand at its place as its cluster sees
it, every other byte of memory reads as before, for other clusters every byte of kind 0 does, it is counted under st,
and nothing else of the strand changes. While the log has no room the bundle waits and nothing is stored. Where the tenant has
reached its cap the store is held instead.
That a store that is not held is performed at issue, and what waits at an arbiter, are the model's choices (log 4 and 70). -/
def Obligations.HandleStores : Prop :=
  ∀ (s : State) (i : Instr) (o : FmtLH) (n : Nat), storeRule i = some (o, n) →
    HandleReady s o.hd (offsetOf s o) n Handle.pw → s.me.stq.length < 63 →
    Writable (s.me.handle o.hd).kd.toNat (physOf s o.hd (offsetOf s o)) n →
    let logged := (s.logAll s.me.part (s.tenantOf s.me) (pagesOf (s.me.handle o.hd).kd.toNat
      ((s.me.handle o.hd).vb.toNat * 4096 + offsetOf s o) n)).2
    let place := ((s.me.handle o.hd).kd.toNat, physOf s o.hd (offsetOf s o))
    (Capped s [place] → IsHeld i s false false [place]) ∧
    (Served s [place] → logged = false → ∃ t, exec i s = .next t ∧ t.issue.status = .wait ∧ MemSame s t ∧ t.strands = s.strands) ∧
    (Served s [place] → logged = true →
      ∃ t, exec i s = .next t ∧ OnlyMe s t { s.me with stq := s.me.stq ++ [({} : StOp)] } ∧
        (∀ j, j < n → seen t s.cl (s.me.handle o.hd).kd.toNat (physOf s o.hd (offsetOf s o) + j) =
          (s.reg o.sd).extractLsb' (8 * j) 8) ∧
        (∀ kind pa, pa < 2 ^ 52 → ¬(kind = (s.me.handle o.hd).kd.toNat ∧ physOf s o.hd (offsetOf s o) ≤ pa ∧
            pa < physOf s o.hd (offsetOf s o) + n) → seen t s.cl kind pa = seen s s.cl kind pa) ∧
        (∀ c pa, c ≠ s.cl → pa < 2 ^ 52 → seen t c 0 pa = seen s c 0 pa))

/-- R103, R379, R395, R396: the first failing check of an access through a handle decides what the load, store, atomic, vector load or
store, gather or scatter takes, in the order of R103; a vector form takes each check for all its active lanes before the next, and names
the first lane that fails it. A handle invalidated or whose walk failed gives the page fault of its page, with SRC 0, the right that the
access needs and the handle's number.
That the checks of the handle are made where no lane is active is the model's reading (log 95). -/
def Obligations.HandleTraps : Prop :=
  (∀ (s : State) (i : Instr) (o : FmtLH) (n : Nat) (right : Handle → Bool) (rq : Nat),
    ((∃ sg, loadRule i = some (o, sg, n)) ∧ right = Handle.pr ∧ rq = 1) ∨ (storeRule i = some (o, n) ∧ right = Handle.pw ∧ rq = 2) →
    (∀ cause val, handleTrap s o.hd (offsetOf s o) n right = some (cause, val) → Traps i s cause val) ∧
    (2 ≤ (s.me.handle o.hd).hs.toNat → HandleFaults i s o.hd rq)) ∧
  (∀ (s : State) (i : Instr) (o : FmtLA) (f : Nat → Nat → Nat → Nat → Nat), atomicRule i = some (o, f) → o.sp = 0 →
    let n := atomSize o
    (∀ cause val, handleTrap s o.hd ((s.reg o.sc).toNat + o.imm.toNat * n) n Handle.pa = some (cause, val) → Traps i s cause val) ∧
    (2 ≤ (s.me.handle o.hd).hs.toNat → HandleFaults i s o.hd 4)) ∧
  ∀ (s : State) (i : Instr) (o : FmtGH) (ix : Option LineRef) (hi : Bool) (right : Handle → Bool) (rq : Nat),
    let d := lineOf o.pl o.xl
    (((i = (if hi then .vldhPm4 o else .vldh o) ∧ ix = none) ∨ (i = (if hi then .vgathhPm4 o else .vgathh o) ∧ ix = some (lineOf o.pi o.xi))) ∧
        right = Handle.pr ∧ rq = 1) ∨
      (((i = (if hi then .vsthPm4 o else .vsth o) ∧ ix = none) ∨ (i = (if hi then .vscathPm4 o else .vscath o) ∧ ix = some (lineOf o.pi o.xi))) ∧
        right = Handle.pw ∧ rq = 2 ∧ pmDstOk (tagWidth (s.me.tagOf d.pn)) (pmOf hi o) = true) →
    GLines s.me d ix →
    (∀ cause val, lanesTrap s ix o.hd (s.reg o.sa).toNat right = some (cause, val) → Traps i s cause val) ∧
    (2 ≤ (s.me.handle o.hd).hs.toNat → HandleFaults i s o.hd rq)

/-- R82 to R85, R192: a scratchpad load completes on every address that R82 and R84 allow: from the own window its
value is in flight at latency 4, from a sibling's it is counted under ld. -/
def Sys2Proof.Claims.ScratchReads : Prop :=
  ∀ (s : State) (i : Instr) (o : FmtLS) (sg : Bool) (n k : Nat), loadSRule i = some (o, sg, n) →
    SReady s ((s.reg o.sa).toNat + o.imm.toNat) n k →
    let x := (s.reg o.sa).toNat + o.imm.toNat
    let v := extended sg n (cread (tget s.strands k).smem (x % 2 ^ 17) n)
    (x / 2 ^ 17 = 127 → exec i s = .next (s.landS 4 o.sd v)) ∧
    (x / 2 ^ 17 ≠ 127 → s.me.ldq.length < 63 → exec i s = .next (s.pushLd (.scalar o.sd v)))

/-- R82 to R85, R192: a scratchpad store completes on every address that R82 and R84 allow: the low bytes of s[SD]
stand in the window, every other byte of every window and all of memory is as before; to a sibling's window it is
counted under st. -/
def Sys2Proof.Claims.ScratchStores : Prop :=
  ∀ (s : State) (i : Instr) (o : FmtLS) (n k : Nat), storeSRule i = some (o, n) →
    SReady s ((s.reg o.sa).toNat + o.imm.toNat) n k → (tfind s.strands k).isSome →
    (((s.reg o.sa).toNat + o.imm.toNat) / 2 ^ 17 ≠ 127 → s.me.stq.length < 63) →
    let x := (s.reg o.sa).toNat + o.imm.toNat
    ∃ t, exec i s = .next t ∧ MemSame s t ∧
      (∀ j, j < n → cget (tget t.strands k).smem (x % 2 ^ 17 + j) = (s.reg o.sd).extractLsb' (8 * j) 8) ∧
      (∀ m a, ¬(m = k ∧ x % 2 ^ 17 ≤ a ∧ a < x % 2 ^ 17 + n) →
        cget (tget t.strands m).smem a = cget (tget s.strands m).smem a) ∧
      t.me.stq = s.me.stq ++ (if x / 2 ^ 17 = 127 then [] else [({} : StOp)]) ∧
      (∀ m, (tget t.strands m).s = (tget s.strands m).s ∧ (tget t.strands m).planes = (tget s.strands m).planes)

/-- R82, R84, R192, R197: a scratchpad load, store or atomic on an address that R82 or R84 does not allow raises the trap that
scratchTrap gives, naming the address. -/
def Sys2Proof.Claims.ScratchTraps : Prop :=
  (∀ (s : State) (i : Instr) (o : FmtLS) (n : Nat) (cause : BitVec 16), (∃ sg, loadSRule i = some (o, sg, n)) ∨ storeSRule i = some (o, n) →
    let x := (s.reg o.sa).toNat + o.imm.toNat
    scratchTrap s x n = some cause → Traps i s cause (BitVec.ofNat 64 x)) ∧
  (∀ (s : State) (i : Instr) (o : FmtLA) (f : Nat → Nat → Nat → Nat → Nat) (cause : BitVec 16), atomicRule i = some (o, f) → o.sp = 1 →
    let x := (s.reg o.sc).toNat + o.imm.toNat * atomSize o
    scratchTrap s x (atomSize o) = some cause → Traps i s cause (BitVec.ofNat 64 x))

/-- R82 to R85, R192: scratchpad loads and stores complete on every address that R82 and R84 allow; on any other the window or
alignment trap of those rules is raised.
That an access of a sibling's window is performed at issue is the model's choice (log 4). -/
def Obligations.ScratchAccesses : Prop :=
  Sys2Proof.Claims.ScratchReads ∧ Sys2Proof.Claims.ScratchStores ∧ Sys2Proof.Claims.ScratchTraps

/-- R93, R103, R142 to R144, R194 to R197: an atomic through a handle that its home may perform now completes: what
its home held is its result, the new value stands at its home, the cluster keeps no copy of the line, every other byte
of memory is as before but for the dirty bytes that the line, or under an order field of scope die or wider the whole
cache, writes back; it is counted under ld, or under st when SD is s0; with AQ the strand's next bundle is held while an
earlier atomic of it is held; and nothing else of the strand changes.
That an atomic with budget is performed at issue, and which entries give one no budget, are the model's choices (log 4 and 29). -/
def Obligations.HandleAtomics : Prop :=
  ∀ (s : State) (i : Instr) (o : FmtLA) (f : Nat → Nat → Nat → Nat → Nat), atomicRule i = some (o, f) → o.sp = 0 →
    (∀ e ∈ (tget s.clusters s.cl).lines, e.1 < 2 ^ 33) →
    let n := atomSize o
    let off := (s.reg o.sc).toNat + o.imm.toNat * n
    let kd := (s.me.handle o.hd).kd.toNat
    let pa := physOf s o.hd off
    HandleReady s o.hd off n Handle.pa → Writable kd pa n → (if o.sd = 0 then s.me.stq.length < 63 else s.me.ldq.length < 63) →
    (bitAt o.ord 3 = true → anyHeld s.me = false) →
    (s.logAll s.me.part (s.tenantOf s.me) (pagesOf kd ((s.me.handle o.hd).vb.toNat * 4096 + off) n)).2 = true →
    s.atomicFree s.me.part (s.tenantOf s.me) ((resourceOf kd pa).getD 0) = true →
      let v := leNat ((List.range n).map (fun j => if kd = 0 then homeByte s s.cl (pa + j) else cget s.mem (memKey kd (pa + j))))
      ∃ t, exec i s = .next t ∧
        OnlyMe s t { s.me with
          stq := s.me.stq ++ (if o.sd = 0 then [({} : StOp)] else []),
          ldq := s.me.ldq ++ (if o.sd = 0 then [] else [{ dest := .scalar o.sd (BitVec.ofNat 64 v), lanes := BitVec.allOnes 32 }]),
          fenced := s.me.fenced || (bitAt o.ord 4 && anyHeld s.me),
          fenceScope := if bitAt o.ord 4 && anyHeld s.me then max s.me.fenceScope (o.ord.extractLsb' 0 3).toNat else s.me.fenceScope } ∧
        (∀ j, j < n → cget t.mem (memKey kd (pa + j)) =
          BitVec.ofNat 8 (f n v ((s.reg o.sa).toNat % 2 ^ (8 * n)) ((s.reg o.sb).toNat % 2 ^ (8 * n)) / 256 ^ j)) ∧
        (∀ k, ¬(memKey kd pa ≤ k ∧ k < memKey kd pa + n) → cget t.mem k =
          if k < 2 ^ 39 ∧ (flushes o.ord ∨ (kd = 0 ∧ k / 64 = pa / 64)) then homeByte s s.cl k else cget s.mem k) ∧
        (∀ c, c ≠ s.cl → tget t.clusters c = tget s.clusters c) ∧
        (kd = 0 → tfind (tget t.clusters s.cl).lines (pa / 64) = none)

/-- R82, R84, R143, R194 to R197: an atomic on a scratchpad completes: its result is what the window held, the new value
stands there, no other byte of any window changes, memory only by the cache's dirty bytes that an order field of scope
die or wider writes back, and it is counted under ld, or under st when SD is s0; with AQ the next bundle is held while
an earlier atomic of the strand is.
That an atomic on a sibling's window is performed at issue is the model's choice (log 4). -/
def Obligations.ScratchAtomics : Prop :=
  ∀ (s : State) (i : Instr) (o : FmtLA) (f : Nat → Nat → Nat → Nat → Nat) (k : Nat), atomicRule i = some (o, f) → o.sp = 1 →
    let n := atomSize o
    let x := (s.reg o.sc).toNat + o.imm.toNat * n
    SReady s x n k → (tfind s.strands k).isSome → (if o.sd = 0 then s.me.stq.length < 63 else s.me.ldq.length < 63) →
    (∀ e ∈ (tget s.clusters s.cl).lines, e.1 < 2 ^ 33) → (bitAt o.ord 3 = true → anyHeld s.me = false) →
      let v := leNat (cread (tget s.strands k).smem (x % 2 ^ 17) n)
      ∃ t, exec i s = .next t ∧
        (∀ j, j < n → cget (tget t.strands k).smem (x % 2 ^ 17 + j) =
          BitVec.ofNat 8 (f n v ((s.reg o.sa).toNat % 2 ^ (8 * n)) ((s.reg o.sb).toNat % 2 ^ (8 * n)) / 256 ^ j)) ∧
        (∀ m a, ¬(m = k ∧ x % 2 ^ 17 ≤ a ∧ a < x % 2 ^ 17 + n) →
          cget (tget t.strands m).smem a = cget (tget s.strands m).smem a) ∧
        t.me.stq = s.me.stq ++ (if o.sd = 0 then [({} : StOp)] else []) ∧
        t.me.ldq = s.me.ldq ++ (if o.sd = 0 then [] else [{ dest := .scalar o.sd (BitVec.ofNat 64 v), lanes := BitVec.allOnes 32 }]) ∧
        t.me.fenced = (s.me.fenced || (bitAt o.ord 4 && anyHeld s.me)) ∧
        (bitAt o.ord 4 = true → anyHeld s.me = true → t.me.fenceScope = max s.me.fenceScope (o.ord.extractLsb' 0 3).toNat) ∧
        (∀ a, cget t.mem a = if a < 2 ^ 39 ∧ flushes o.ord then homeByte s s.cl a else cget s.mem a) ∧
        (∀ m, (tget t.strands m).s = (tget s.strands m).s ∧ (tget t.strands m).planes = (tget s.strands m).planes)

/-- R98, R101, R102, R198, R199, R367: XLATE and HREL complete on every state: the handle lands 24 issue steps on, valid with
the page's base, kind and rights exactly where the walk ends in a leaf that grants what is asked for and the address is in no route
window (R367), failed otherwise; HREL's is empty. Memory is unchanged.
Which entries of the route table count, and that no walk but XLATE's is refused for a route window, are the model's reading (log 46). -/
def Obligations.Translations : Prop :=
  ∀ (s : State) (o : FmtLX),
    exec (.hrel o) s = .next (s.land 24 (.handle o.hd {})) ∧
    ∃ (t : State) (h : Handle), exec (.xlate o) s = .next t ∧ t.mem = s.mem ∧ t.clusters = s.clusters ∧
      OnlyMe s t { s.me with fly := s.me.fly ++
        [{ due := s.me.steps + 24, origin := s.me.steps, slot := s.issue.slot, dest := .handle o.hd h, walk := true }] } ∧
      h.rq = o.rq ∧ (h.hs = 1 ∨ h.hs = 3) ∧
      (h.hs = 1 ↔ (s.reg o.sa).toNat < 2 ^ 56 ∧ s.routeOf s.me.part ((s.reg o.sa).setWidth 56).toNat = none ∧
        ∃ l, s.walk s.me.part ((s.reg o.sa).setWidth 56) = .leaf l ∧ l.grants o.rq = true) ∧
      (h.hs = 1 → ∀ l, s.walk s.me.part ((s.reg o.sa).setWidth 56) = .leaf l →
        h.ps = BitVec.ofNat 3 l.ps ∧ h.kd = BitVec.ofNat 3 l.kd ∧ h.pr = l.pr ∧ h.pw = l.pw ∧ h.pa = l.pa ∧
        h.pb = BitVec.ofNat 40 (l.base / 4096) ∧ h.vb = BitVec.ofNat 44 (l.vbase / 4096))

/-- R41, R193: a load from a bound parameter window completes at every aligned offset whose bytes below the limit can
be read: bytes at and beyond the limit read as zero and set WO when it lands; it is counted under ld, and nothing else
of the strand and no memory changes. -/
def Sys2Proof.Claims.WindowReads : Prop :=
  ∀ (s : State) (i : Instr) (o : FmtLP) (n : Nat) (ps : List (Place × Nat)),
    (i = .ldpW o ∧ n = 4) ∨ (i = .ldpD o ∧ n = 8) →
    let w := cget s.me.pw o.pw.toNat
    let off := (s.reg o.sa).toNat + o.imm.toNat
    let lim := 64 * (w.toNat / 2 ^ 50 % 2 ^ 11 + 1)
    w.getLsbD 63 = true → off % n = 0 → s.me.ldq.length < 63 →
    s.vPlaces (w.toNat % 2 ^ 50 * 64 + off) (min n (lim - off)) 1 1 = .ok ps →
    let places := ps.map (fun p => (p.1.kind, p.1.pa))
    (∀ p ∈ ps, s.me.heldClash p.1.kind p.1.pa p.2 = false) →
    (Capped s places → IsHeld i s true (lim < off + n) places) ∧
    (Served s places →
      ∃ t, exec i s = .next t ∧ MemSame s t ∧ OnlyMe s t { s.me with ldq := s.me.ldq ++ [{
        dest := .scalar o.sd (BitVec.ofNat 64 (leNat (s.readPlaces ps))), lanes := BitVec.allOnes 32, wo := lim < off + n }] })

/-- R42, R84, R193: a load from a window that is not bound raises a parameter-window trap that names it, and a
misaligned one an alignment trap. -/
def Sys2Proof.Claims.WindowTraps : Prop :=
  ∀ (s : State) (i : Instr) (o : FmtLP) (n : Nat), (i = .ldpW o ∧ n = 4) ∨ (i = .ldpD o ∧ n = 8) →
    ((cget s.me.pw o.pw.toNat).getLsbD 63 = false → Traps i s 0x000B (o.pw.setWidth 64)) ∧
    ((cget s.me.pw o.pw.toNat).getLsbD 63 = true → ((s.reg o.sa).toNat + o.imm.toNat) % n ≠ 0 →
      Traps i s 0x0006 (BitVec.ofNat 64 ((s.reg o.sa).toNat + o.imm.toNat)))

/-- R41, R42, R84, R193: loads from a bound parameter window complete at every aligned offset whose bytes below the limit can be
read; an unbound window and a misaligned offset are the traps their rules name.
That the bytes are read at issue, past the cluster cache, and what waits at an arbiter, are the model's choices (log 4, 33 and 70). -/
def Obligations.WindowLoads : Prop :=
  Sys2Proof.Claims.WindowReads ∧ Sys2Proof.Claims.WindowTraps

/-- R59, R72, R102, R128, R326: the events that finish what a strand has outstanding: a walk ends and issue goes on, results
that are due land unless a routine runs (R291), a load writes its register and leaves ld, a store leaves st; a line load may write lanes before it is
complete, its plane's tag only with the last (R230); one that is held does not complete (R326). -/
def Obligations.StrandCompletions : Prop :=
  (∀ (s : State) (k : Nat) (pre post : List Landing) (l : Landing), (tget s.strands k).fly = pre ++ l :: post →
      (∀ x ∈ pre, x.walk = false) → l.walk = true → (tfind s.strands k).isSome →
      ∃ t, exec (.handleWalkComplete k) s = .next t ∧ t.mem = s.mem ∧
        tget t.strands k = { tget s.strands k with fly := pre ++ { l with walk := false } :: post }) ∧
  (∀ (s : State) (k : Nat), (tfind s.strands k).isSome →
      ∃ t, exec (.resultLanding k) s = .next t ∧ t.mem = s.mem ∧ tget t.strands k =
        if (tget s.strands k).walkHeld = true ∨ (tget s.strands k).micro.mv = true then tget s.strands k
        else (tget s.strands k).landDue) ∧
  (∀ (s : State) (k : Nat) (o : LdOp) (rest : List LdOp) (d : BitVec 6) (v : Word) (lanes : BitVec 32),
      (tfind s.strands k).isSome → (tget s.strands k).ldq = o :: rest → o.dest = .scalar d v → o.held = none →
      o.pre = false → o.lanes &&& lanes ≠ 0 → (∀ x ∈ rest, x.lanes ≠ 0) →
      (tget s.gangs (tget s.strands k).gang).halt = none →
      ∃ t, exec (.ldCompletion k 0 lanes) s = .next t ∧ t.mem = s.mem ∧
        tget t.strands k = { (tget s.strands k).setReg d v with ldq := rest, wo := (tget s.strands k).wo || o.wo }) ∧
  (∀ (s : State) (k n : Nat) (lanes : BitVec 32), (tget s.gangs (tget s.strands k).gang).halt = none →
      (∀ o, (tget s.strands k).ldq[n]? = some o → o.held ≠ none →
        ∃ t, exec (.ldCompletion k n lanes) s = .next t ∧ t.mem = s.mem ∧ tget t.strands k = tget s.strands k) ∧
      ∀ o, (tget s.strands k).stq[n]? = some o → o.held ≠ none →
        ∃ t, exec (.stCompletion k n) s = .next t ∧ t.mem = s.mem ∧ tget t.strands k = tget s.strands k) ∧
  (∀ (s : State) (k : Nat) (o : StOp) (rest : List StOp), (tfind s.strands k).isSome →
      (tget s.strands k).stq = o :: rest → o.held = none → (∀ x ∈ rest, x.done = false) →
      (tget s.gangs (tget s.strands k).gang).halt = none →
      ∃ t, exec (.stCompletion k 0) s = .next t ∧ t.mem = s.mem ∧
        tget t.strands k = { tget s.strands k with stq := rest }) ∧
  (∀ (s : State) (k : Nat) (o : LdOp) (rest : List LdOp) (l : LineRef) (pm : BitVec 3) (vals masks : List Elem) (tag : BitVec 4)
      (lanes : BitVec 32),
      (tfind s.strands k).isSome → (tget s.strands k).ldq = o :: rest → o.dest = .line l pm vals masks tag → o.held = none →
      o.pre = false → o.wo = false → o.lanes &&& lanes ≠ 0 → o.lanes &&& ~~~ lanes ≠ 0 →
      vals.length = 32 → masks.length = 32 → (tget s.gangs (tget s.strands k).gang).halt = none →
      ∃ t, exec (.ldCompletion k 0 lanes) s = .next t ∧ t.mem = s.mem ∧
        (let x := tget s.strands k
        let y := tget t.strands k
        y.ptag = x.ptag ∧ y.ldq = { o with lanes := o.lanes &&& ~~~ lanes } :: rest ∧
        ∀ j, j < 32 → (y.line l).getD j 0 = if (o.lanes &&& lanes).getLsbD j
          then mergeBits ((x.line l).getD j 0) (vals.getD j 0) (masks.getD j 0) else (x.line l).getD j 0))

/-- R201 to R203: every transfer completes on a line inside the window: its results, of the elements as read at issue,
land 3 steps on, and nothing else changes; on any other line it raises a window trap that names the plane. -/
def Obligations.Transfers : Prop :=
  ∀ (s : State) (i : Instr) (o : FmtXF) (sc : List Elem → Option Word) (ln : List Elem → Option (List Elem)),
    transferRule s i = some (o, sc, ln) →
    let r := lineOf o.pl o.xl
    (r.pn.toNat < s.me.win.pl →
      exec i s = .next (bothLand s 3 o.sd r o.ft (sc (s.me.line r)) (ln (s.me.line r)))) ∧
    (s.me.win.pl ≤ r.pn.toNat → Traps i s 0x0003 (r.pn.setWidth 64))

/-- R158, R204 to R206, R208 to R210: every floating-point vector instruction completes on lines inside the window
whose tags it accepts, with the item result of its rule in every lane at latency 4. -/
def Sys2Proof.Claims.FloatItems : Prop :=
  ∀ (s : State) (i : Instr) (o : FmtV3) (un pdSrc same : Bool) (f : Fmt → BitVec 3 → FVal → FVal → FVal → FRes)
    (a b : LineRef), vecFRule i = some (o, un, pdSrc, same, f) →
    let tag : BitVec 4 := o.ty.setWidth 4 + 1
    let fm := fmtOf tag
    o.ty ≠ 3 → V3Ready s o un pdSrc fm.w [tag] a b →
      ItemWise i s o un a b 4 fm.w (if same then tag else 0)
        (fun x y z => f fm (modeOf s o) (decodeF fm x) (decodeF fm y) (decodeF fm z))

/-- R106, R114, R116, R208: the sum, difference, product, sum after a product, quotient and square root of finite operands are the
exact ones, rounded once to the format in every mode, with inexact raised where they differ. -/
def Sys2Proof.Claims.RoundsOnce : Prop :=
  ∀ (f : Fmt) (mode : BitVec 3) (h : BitVec 32) (a b c : FVal), f ∈ [fF32, fBF16, fFP16] → mode.toNat ≤ 4 →
    Small a → Small b → Small c →
      IsRounded f mode (valR a + valR b) (fadd f mode h a b) ∧ IsRounded f mode (valR a - valR b) (fsub f mode h a b) ∧
      IsRounded f mode (valR a * valR b) (fmul f mode h a b) ∧
      IsRounded f mode (valR a * valR b + valR c) (ffma f mode h a b c) ∧
      (valR b ≠ 0 → IsRounded f mode (valR a / valR b) (fdiv f mode h a b)) ∧
      (0 ≤ valR a → IsRounded f mode (Real.sqrt (valR a)) (fsqrt f mode h a))

/-- R158, R204 to R206, R208 to R210: every floating-point vector instruction completes on lines inside the window whose tags it
accepts, with the item result of its rule in every lane at latency 4; its arithmetic is exact and rounded once.
What the latch's modifier does in a held read of these formats is the model's reading (log 25). -/
def Obligations.VectorFloat : Prop :=
  Sys2Proof.Claims.FloatItems ∧ Sys2Proof.Claims.RoundsOnce

/-- R158, R165, R204 to R206, R212, R213: every integer vector instruction completes on lines inside the window whose
tags it accepts, with the item result of its rule, mod 2^w, in every lane at latency 2.
What the latch's modifier does in a held read of these formats is the model's reading (log 25). -/
def Obligations.VectorInteger : Prop :=
  ∀ (s : State) (i : Instr) (o : FmtV3) (un uns mask : Bool) (f : Nat → Int → Int → Int) (a b : LineRef),
    vecIRule i = some (o, un, uns, mask, f) →
    let w := 32 / 2 ^ o.ty.toNat
    let ti : BitVec 4 := 8 + o.ty.setWidth 4
    let tn : BitVec 4 := 12 + o.ty.setWidth 4
    let sg := !(uns && o.ms = 1)
    V3Ready s o un false w (if o.ty = 3 then [ti] else [ti, tn]) a b →
      ItemWise i s o un a b 2 w (if mask then 0 else if sg then ti else tn)
        (fun x y _ => { bits := (f w (intVal sg w x) (intVal sg w y) % (2 ^ w : Nat)).toNat })

/-- R204 to R206, R211, R214: the bitwise vector instructions and VPERM complete on lines inside the window, whatever
their tags; the result takes the tag of PA's plane. -/
def Sys2Proof.Claims.LineBitwise : Prop :=
  (∀ (s : State) (i : Instr) (o : FmtV3) (un : Bool) (f : Elem → Elem → Elem → Elem) (a b : LineRef),
    vecBRule i = some (o, un, f) → V3Ready s o un false 32 [] a b →
      ∃ vals, exec i s = .next ((s.v3Latch un o).land 2 (wholeLine (lineOf o.pd o.xd) (s.me.tagOf a.pn) vals)) ∧
        vals.length = 32 ∧ ∀ k, k < 32 → vals.getD k 0 =
          f ((s.me.line a).getD k 0) ((s.me.line b).getD k 0) ((s.me.line (lineOf o.pd o.xd)).getD k 0)) ∧
  (∀ (s : State) (o : FmtV3) (a b : LineRef), V3Ready s o false false 32 [] a b →
      ∃ vals, exec (.vperm o) s = .next ((s.v3Latch false o).land 2 (wholeLine (lineOf o.pd o.xd) (s.me.tagOf a.pn) vals)) ∧
        vals.length = 32 ∧ ∀ k, k < 32 → vals.getD k 0 = (s.me.line a).getD (((s.me.line b).getD k 0).toNat % 32) 0)

/-- R152, R158, R215: VROT and VBCST complete on lines inside the window: a rotation by, and a broadcast of the item
at, the lane that element 0 of the auxiliary line names. -/
def Sys2Proof.Claims.VectorMoves : Prop :=
  ∀ (s : State) (o : FmtVU) (a : LineRef),
    let c := ((s.me.line (auxOf a o)).getD 0 0).toNat % 32
    (VUReady s o [] a → heldPm s 0 o.pa o.xa = 0 →
      ∃ vals, exec (.vrot o) s = .next ((s.loadLatch 0 o.pa o.xa o.pm).land 2
          (wholeLine (lineOf o.pd o.xd) (s.me.tagOf a.pn) vals)) ∧
        vals.length = 32 ∧ ∀ k, k < 32 → vals.getD k 0 = (s.me.line a).getD ((k + c) % 32) 0) ∧
    (VUReady s o (if o.df = 0 then [] else [o.df]) a → pmDstOk (tagWidth o.df) (sourcePm s 0 o.pa o.xa o.pm) = true →
      ∃ vals, exec (.vbcst o) s = .next ((s.loadLatch 0 o.pa o.xa o.pm).land 2 (wholeLine (lineOf o.pd o.xd) o.df vals)) ∧
        vals.length = 32 ∧ ∀ k j, k < 32 → j < 32 / tagWidth o.df → item (tagWidth o.df) j (vals.getD k 0) =
          item (tagWidth o.df) (sourcePm s 0 o.pa o.xa o.pm).toNat ((s.me.line a).getD c 0))

/-- R64, R66, R153, R170, R379: every instruction of slot V that names a plane beyond the window, a source plane of a tag that it does
not accept, or an empty latch, raises the trap that lineTrap gives, the window trap first. -/
def Sys2Proof.Claims.LineTraps : Prop :=
  (∀ (s : State) (i : Instr) (o : FmtV3) (un pdSrc : Bool) (accept : List (BitVec 4)) (cause : BitVec 16) (val : Word),
    v3Form i = some (o, un, pdSrc, accept) →
    lineTrap s (lineOf o.pd o.xd) (sourceLine s 0 o.pa o.xa :: if un then [] else [sourceLine s 1 o.pb o.xb]) []
      (if pdSrc then [lineOf o.pd o.xd] else []) accept = some (cause, val) → Traps i s cause val) ∧
  (∀ (s : State) (i : Instr) (o : FmtVU) (accept : List (BitVec 4)) (others : List (BitVec 5)) (cause : BitVec 16) (val : Word),
    vuForm i = some (o, accept, others) →
    lineTrap s (lineOf o.pd o.xd) [sourceLine s 0 o.pa o.xa] others [] accept = some (cause, val) → Traps i s cause val)

/-- R152, R153, R170 (log 25): an instruction of slot V whose other checks pass raises an illegal-instruction trap where it reads a latch
whose modifier is illegal for the width at which it reads. -/
def Sys2Proof.Claims.HeldModifiers : Prop :=
  (∀ (s : State) (i : Instr) (o : FmtV3) (un pdSrc : Bool) (accept : List (BitVec 4)), v3Form i = some (o, un, pdSrc, accept) →
    lineTrap s (lineOf o.pd o.xd) (sourceLine s 0 o.pa o.xa :: if un then [] else [sourceLine s 1 o.pb o.xb]) []
      (if pdSrc then [lineOf o.pd o.xd] else []) accept = none →
    pmSrcOk (v3Width i o) (heldPm s 0 o.pa o.xa) = false ∨ (un = false ∧ pmSrcOk (v3Width i o) (heldPm s 1 o.pb o.xb) = false) →
      Traps i s 0x0001 s.issue.word) ∧
  (∀ (s : State) (i : Instr) (o : FmtVU) (accept : List (BitVec 4)) (others : List (BitVec 5)), vuForm i = some (o, accept, others) →
    lineTrap s (lineOf o.pd o.xd) [sourceLine s 0 o.pa o.xa] others [] accept = none → heldLegal s i o = false →
      Traps i s 0x0001 s.issue.word)

/-- R64, R66, R204 to R206, R211, R214, R215: the bitwise vector instructions, VPERM, VROT and VBCST complete on lines inside the
window; and every instruction of slot V raises the window and format-tag traps of its lines.
That a held read of whole elements under a modifier is illegal is the model's reading (log 25). -/
def Obligations.VectorBitwise : Prop :=
  Sys2Proof.Claims.LineBitwise ∧ Sys2Proof.Claims.VectorMoves ∧ Sys2Proof.Claims.LineTraps ∧ Sys2Proof.Claims.HeldModifiers

/-- R116, R117, R152, R216 to R218: every conversion completes on a line inside the window whose tag it accepts: each lane's
item is the exact source value, scaled where the format is block-scaled, delivered in the destination format, and the
flags are those of any lane.
What the latch's modifier does in a held read that narrows (log 25), what a scale of 255 raises, and an E2M1 value out of range (log 83), are
the model's reading. -/
def Obligations.VectorConversions : Prop :=
  ∀ (s : State) (i : Instr) (o : FmtVU) (src : BitVec 4) (a : LineRef), cvtRule i = some (o, src) →
    VUReady s o [src] a →
    let ws := tagWidth src
    let wd := tagWidth o.df
    let pm := sourcePm s 0 o.pa o.xa o.pm
    let aux := s.me.line (auxOf a o)
    let scaled := src = 4 ∨ src = 5 ∨ src = 6
    let held := heldPm s 0 o.pa o.xa
    pmSrcOk ws (if wd < ws then held else pm) = true →
      ∃ (pmOut : BitVec 3) (vals masks : List Elem) (ff : BitVec 5),
        exec i s = .next ((s.loadLatch 0 o.pa o.xa o.pm).land 4 (.line (lineOf o.pd o.xd) pmOut vals masks o.df) ff) ∧
        vals.length = 32 ∧ masks.length = 32 ∧
        let p (k : Nat) : Nat × Nat × Nat := cvtPos ws wd pm o.pm k
        let x (k : Nat) : FVal := valueOf src (if wd < ws then heldItem ws held (s.me.line a) (p k).1 (p k).2.1
          else item ws (p k).2.1 ((s.me.line a).getD (p k).1 0))
        let r (k : Nat) : FRes :=
          if scaled then convertTo o.df (fieldMode s o) (hash32 0 (32 / wd * k + (p k).2.2)) (scaleV ((aux.getD k 0).toNat % 256) (x k))
          else convertTo o.df (fieldMode s o) (hash32 (aux.getD k 0) (32 / wd * k + (p k).2.2)) (x k)
        (∀ k, k < 32 → vals.getD k 0 = pmPlace wd (BitVec.ofNat 3 (p k).2.2) (r k).bits ∧
          masks.getD k 0 = pmMask wd (BitVec.ofNat 3 (p k).2.2)) ∧
        ∀ n, n < 5 → (ff.getLsbD n = true ↔ ∃ k, k < 32 ∧ (r k).ff.getLsbD n = true)

/-- R112, R219: VCVT from VQ2 completes on a line of tag 7 or RAW with its lattice plane inside the window: each lane is
a decoded weight as FP32; a lattice plane beyond the window is a window trap that names it. -/
def Obligations.VectorLattice : Prop :=
  ∀ (s : State) (o : FmtVU) (a : LineRef), VUReady s o [7] a →
    let pm := sourcePm s 0 o.pa o.xa o.pm
    (s.me.win.pl ≤ o.sl.toNat → Traps (.vcvtVq2 o) s 0x0003 (o.sl.setWidth 64)) ∧
    (o.sl.toNat < s.me.win.pl → pmSrcOk 16 pm = true →
      ∃ vals, exec (.vcvtVq2 o) s = .next ((s.loadLatch 0 o.pa o.xa o.pm).land 4 (wholeLine (lineOf o.pd o.xd) 1 vals)) ∧
        vals.length = 32 ∧ ∀ k, k < 32 →
          let idx := item 16 pm.toNat ((s.me.line a).getD (4 * o.rm.toNat + k / 8) 0)
          vals.getD k 0 = BitVec.ofNat 32 (roundF fF32 0 0
            (vq2Value (cget s.me.planes (1024 * o.sl.toNat + idx / 256)) idx (k % 8))).bits)

/-- R116, R119 to R121, R221, R222: the reductions and scans complete on a line inside the window whose tag is DF or 0, with
the result and the flags of their rule at latency 8. -/
def Sys2Proof.Claims.Reductions : Prop :=
  ∀ (s : State) (o : FmtVU) (a : LineRef), VUReady s o [o.df] a →
    let w := tagWidth o.df
    let held := heldPm s 0 o.pa o.xa
    let xs := (List.range 32).flatMap (fun k => (List.range (32 / w)).map (heldItem w held (s.me.line a) k))
    let aux := s.me.line (auxOf a o)
    let sg := decide (o.df.toNat < 12)
    let s' := s.loadLatch 0 o.pa o.xa o.pm
    let put (tag : BitVec 4) (v : Nat) (ff : BitVec 5) : State := s'.land 8 (wholeLine (lineOf o.pd o.xd) tag (inEvery v)) ff
    let m := fieldMode s o
    pmSrcOk w held = true →
    (o.df = 1 ∨ o.df = 2 ∨ o.df = 3 →
      let x (n : Nat) : FRes := convertTo 1 0 0 (valueOf o.df (xs.getD n 0))
      let levels := if w = 32 then 5 else 6
      ∃ ff, exec (.vrsum o) s = .next (put 1 (sumNode (if m = 4 then 0 else m) (fun n => (x n).bits) levels 0) ff) ∧
        ∀ n, n < 5 → (ff.getLsbD n = true ↔ (∃ k, k < 32 * (32 / w) ∧ (x k).ff.getLsbD n = true) ∨
          (sumFlags (if m = 4 then 0 else m) (fun n => (x n).bits) levels 0).getLsbD n = true)) ∧
    (o.df = 1 ∨ o.df = 2 ∨ o.df = 3 →
      ∀ mx : Bool, ∃ v : Nat, exec (if mx then .vrmax o else .vrmin o) s =
          .next (put 1 v (if xs.any (fun x => (valueOf o.df x).snan) then 16 else 0)) ∧
        if xs.any (fun x => (valueOf o.df x).isNan) then v = 0x7FC00000
        else ∃ x ∈ xs, v = (convertTo 1 0 0 (valueOf o.df x)).bits ∧ noneBeyond mx (valueOf o.df x) (xs.map (valueOf o.df))) ∧
    (8 ≤ o.df.toNat ∧ o.df.toNat < 15 →
      ∀ mx : Bool, ∃ v : Int, exec (if mx then .vrmax o else .vrmin o) s = .next (put (if sg then 8 else 12) (v % 2 ^ 32).toNat 0) ∧
        (∃ x ∈ xs, v = intVal sg w x) ∧ ∀ x ∈ xs, if mx then intVal sg w x ≤ v else v ≤ intVal sg w x) ∧
    (8 ≤ o.df.toNat ∧ o.df.toNat < 15 →
      let v := (xs.map (intVal sg w)).sum
      exec (.vrisum o) s = .next (put (if sg then 8 else 12) ((max (intMin sg 32) (min v (intMax sg 32))) % 2 ^ 32).toNat 0)) ∧
    (o.df = 1 ∨ o.df = 2 ∨ o.df = 3 →
      ∃ (vals : List Elem) (ff : BitVec 5),
        exec (.vscan o) s = .next (s'.land 8 (wholeLine (lineOf o.pd o.xd) o.df vals) ff) ∧ vals.length = 32 ∧
        let f := fmtOf o.df
        let r := itemsOf w vals
        let sum (n : Nat) : FRes := if n = 0 then roundF f m 0 (decodeF f (xs.getD 0 0))
          else fadd f m (hash32 (aux.getD (n / (32 / w)) 0) n) (decodeF f (r.getD (n - 1) 0)) (decodeF f (xs.getD n 0))
        (∀ n, n < 32 * (32 / w) → r.getD n 0 = (sum n).bits) ∧
        ∀ b, b < 5 → (ff.getLsbD b = true ↔ ∃ n, n < 32 * (32 / w) ∧ (sum n).ff.getLsbD b = true)) ∧
    (8 ≤ o.df.toNat ∧ o.df.toNat < 15 →
      ∃ vals : List Elem, exec (.viscan o) s = .next (s'.land 8 (wholeLine (lineOf o.pd o.xd) o.df vals)) ∧
        vals.length = 32 ∧ ∀ n, n < 32 * (32 / w) → (itemsOf w vals).getD n 0 = (xs.take (n + 1)).sum % 2 ^ w)

/-- R223: the nonzero scan completes on a line inside the window whose tag it accepts: the positions of the lanes whose
item is not zero in ascending order, the null index after them, or their number in every element. -/
def Sys2Proof.Claims.NonzeroScan : Prop :=
  ∀ (s : State) (o : FmtVU) (a : LineRef), VUReady s o (if o.df = 0 then [] else [o.df]) a → o.df ≠ 7 → o.df ≠ 15 →
    let pm := sourcePm s 0 o.pa o.xa o.pm
    pmDstOk (tagWidth o.df) pm = true →
      let l := livePositions o.df pm.toNat (s.me.line a)
      let s' := s.loadLatch 0 o.pa o.xa o.pm
      exec (.vnzs o) s = .next (s'.land 8 (wholeLine (lineOf o.pd o.xd) 12
        ((List.range 32).map (fun m => BitVec.ofNat 32 (l.getD m 0xFFFFFFFF))))) ∧
      exec (.vnzc o) s = .next (s'.land 8 (wholeLine (lineOf o.pd o.xd) 12 (inEvery l.length)))

/-- R119 to R121, R221 to R223: the reductions, the scans and the nonzero scan complete on a line inside the window whose tag they
accept, with the result of their rule at latency 8.
What the latch's modifier does in a held read by a reduction or a scan is the model's reading (log 25). -/
def Obligations.VectorReductions : Prop :=
  Sys2Proof.Claims.Reductions ∧ Sys2Proof.Claims.NonzeroScan

/-- R81 to R85, R224, R225, R227: VLD and VGATH complete on every address that R227 allows: from the own window the
line lands 6 steps on, from a sibling's it is counted under ld; nothing else changes. -/
def Sys2Proof.Claims.ScratchVectorReads : Prop :=
  ∀ (s : State) (i : Instr) (o : FmtGS) (ix : Option LineRef) (k : Nat),
    (i = .vld o ∧ ix = none) ∨ (i = .vgath o ∧ ix = some (lineOf o.pi o.xi)) →
    let w := tagWidth o.ft
    let x := (s.reg o.sa).toNat
    let d := lineOf o.pl o.xl
    GSReady s d ix x k → pmDstOk w o.pm = true → (x / 2 ^ 17 ≠ 127 → s.me.ldq.length < 63) →
      ∃ vals : List Elem, vals.length = 32 ∧
        (∀ j, j < 32 → vals.getD j 0 = laneItem w o.pm
          (fun n => cnum (tget s.strands k).smem (x % 2 ^ 17 + 4 * n) 4) (laneWord s.me ix j)) ∧
        let dest : Dest := .line d o.pm vals (List.replicate 32 (pmMask w o.pm)) o.ft
        exec i s = .next (if x / 2 ^ 17 = 127 then s.land 6 dest else s.pushLd dest)

/-- R81 to R85, R224 to R227: VST and VSCAT complete on every address that R227 allows: of every word addressed the
item of its highest lane is stored, every other byte of every window and all of memory is as before; to a sibling's
window the store is counted under st. -/
def Sys2Proof.Claims.ScratchVectorStores : Prop :=
  ∀ (s : State) (i : Instr) (o : FmtGS) (ix : Option LineRef) (k : Nat),
    (i = .vst o ∧ ix = none) ∨ (i = .vscat o ∧ ix = some (lineOf o.pi o.xi)) →
    let d := lineOf o.pl o.xl
    let w := tagWidth (s.me.tagOf d.pn)
    let x := (s.reg o.sa).toNat
    GSReady s d ix x k → (tfind s.strands k).isSome → pmDstOk w o.pm = true → (x / 2 ^ 17 ≠ 127 → s.me.stq.length < 63) →
      ∃ t, exec i s = .next t ∧ MemSame s t ∧
        (∀ j n, j < 32 → highest s.me ix j n → cnum (tget t.strands k).smem (x % 2 ^ 17 + 4 * n) 4 =
          (mergeBits (BitVec.ofNat 32 (cnum (tget s.strands k).smem (x % 2 ^ 17 + 4 * n) 4)) ((s.me.line d).getD j 0)
            (pmMask w o.pm)).toNat) ∧
        (∀ m a, ¬(m = k ∧ ∃ j n, j < 32 ∧ laneWord s.me ix j = some n ∧ x % 2 ^ 17 + 4 * n ≤ a ∧ a < x % 2 ^ 17 + 4 * n + 4) →
          cget (tget t.strands m).smem a = cget (tget s.strands m).smem a) ∧
        t.me.stq = s.me.stq ++ (if x / 2 ^ 17 = 127 then [] else [({} : StOp)]) ∧
        (∀ m, (tget t.strands m).s = (tget s.strands m).s ∧ (tget t.strands m).planes = (tget s.strands m).planes)

/-- R64, R82, R84, R227: a vector load, gather, store or scatter of a scratchpad raises the first trap that its lines, its address and
its active lanes ask for; a store whose modifier is legal for the tag of its data plane. -/
def Sys2Proof.Claims.ScratchVectorTraps : Prop :=
  ∀ (s : State) (i : Instr) (o : FmtGS) (ix : Option LineRef) (cause : BitVec 16) (val : Word),
    ((i = .vld o ∨ i = .vst o) ∧ ix = none) ∨ ((i = .vgath o ∨ i = .vscat o) ∧ ix = some (lineOf o.pi o.xi)) →
    (i = .vst o ∨ i = .vscat o → pmDstOk (tagWidth (s.me.tagOf (lineOf o.pl o.xl).pn)) o.pm = true) →
    gsTrap s (lineOf o.pl o.xl) ix (s.reg o.sa).toNat = some (cause, val) → Traps i s cause val

/-- R64, R81 to R85, R224 to R227: the vector loads, gathers, stores and scatters of scratchpads complete on every address that R227
allows, with the lines and windows of their rules; on any other they raise its trap.
That an access of a sibling's window is performed at issue is the model's choice (log 4), as is the merge of a 4-bit item stored (log 41). -/
def Obligations.ScratchVectorAccesses : Prop :=
  Sys2Proof.Claims.ScratchVectorReads ∧ Sys2Proof.Claims.ScratchVectorStores ∧ Sys2Proof.Claims.ScratchVectorTraps

/-- R88, R229: VLDA and VLDC complete on a ready tile of their kind with the span's elements landing 6 steps on; VSTA
on one that no command reads, writing the span and nothing else; another kind is an access-kind trap, an empty tile
a tile-state trap, each naming the tile. -/
def Obligations.TileVectors : Prop :=
  ∀ (s : State) (o : FmtGA),
    let d := lineOf o.pl o.xl
    let e := s.me.tile o.th
    let aBase := 16384 * e.bi.toNat + 512 * o.row.toNat + 128 * o.qw.toNat
    let cBase := 4096 * e.bi.toNat + 128 * o.row.toNat
    (TileReady s d o.th 1 o.ft → ∃ vals : List Elem,
      exec (.vlda o) s = .next (s.land 6 (wholeLine d o.ft vals)) ∧ vals.length = 32 ∧
      ∀ k, k < 32 → vals.getD k 0 = BitVec.ofNat 32 (cnum s.me.amem (aBase + 4 * k) 4)) ∧
    (TileReady s d o.th 2 o.ft → o.qw = 0 → ∃ vals : List Elem,
      exec (.vldc o) s = .next (s.land 6 (wholeLine d o.ft vals)) ∧ vals.length = 32 ∧
      ∀ k, k < 32 → vals.getD k 0 = BitVec.ofNat 32 (cnum s.me.cmem (cBase + 4 * k) 4)) ∧
    (TileReady s d o.th 1 (s.me.tagOf d.pn) → e.rc = 0 → ∃ t,
      exec (.vsta o) s = .next t ∧ MemSame s t ∧ OnlyMe s t { s.me with amem := t.me.amem } ∧
      (∀ k, k < 32 → cnum t.me.amem (aBase + 4 * k) 4 = ((s.me.line d).getD k 0).toNat) ∧
      ∀ a, ¬(aBase ≤ a ∧ a < aBase + 128) → cget t.me.amem a = cget s.me.amem a) ∧
    (d.pn.toNat < s.me.win.pl → o.th.toNat < s.me.win.th →
      (e.tk ≠ 1 → Traps (.vlda o) s 0x0009 (o.th.setWidth 64) ∧ Traps (.vsta o) s 0x0009 (o.th.setWidth 64)) ∧
      (e.tk ≠ 2 → Traps (.vldc o) s 0x0009 (o.th.setWidth 64)) ∧
      (e.ts = 0 → e.dc = 0 → e.qc = 0 → e.ft = 0 →
        (e.tk = 1 → Traps (.vlda o) s 0x0005 (o.th.setWidth 64) ∧ Traps (.vsta o) s 0x0005 (o.th.setWidth 64)) ∧
        (e.tk = 2 → Traps (.vldc o) s 0x0005 (o.th.setWidth 64))))

/-- R103, R224, R225, R230: the loads and gathers through a handle complete whenever every active lane passes the
checks of R103: each lane's item is of the bytes at its place as the cluster sees them; one load is counted under ld,
and neither memory nor anything else of the strand changes. One at a place where the tenant has reached its cap is held. -/
def Sys2Proof.Claims.HandleVectorReads : Prop :=
  ∀ (s : State) (i : Instr) (o : FmtGH) (ix : Option LineRef) (hi : Bool),
    (i = (if hi then .vldhPm4 o else .vldh o) ∧ ix = none) ∨
      (i = (if hi then .vgathhPm4 o else .vgathh o) ∧ ix = some (lineOf o.pi o.xi)) →
    let w := tagWidth o.ft
    let pm := pmOf hi o
    let d := lineOf o.pl o.xl
    let base := (s.reg o.sa).toNat
    let places := lanePlaces s ix o.hd base
    GHReady s d ix o.hd base Handle.pr → pmDstOk w pm = true → s.me.ldq.length < 63 →
    (Capped s places → IsHeld i s true false places) ∧
    (Served s places →
      ∃ (t : State) (vals : List Elem), exec i s = .next t ∧ MemSame s t ∧ vals.length = 32 ∧
        OnlyMe s t { s.me with ldq := s.me.ldq ++
          [{ dest := .line d pm vals (List.replicate 32 (pmMask w pm)) o.ft, lanes := BitVec.allOnes 32 }] } ∧
        ∀ j, j < 32 → vals.getD j 0 = laneItem w pm (fun n => leNat ((List.range 4).map (fun b =>
          seen s s.cl (s.me.handle o.hd).kd.toNat (physOf s o.hd (base + 4 * n) + b)))) (laneWord s.me ix j))

/-- R103, R224 to R226, R230: the stores and scatters through a handle complete whenever every active lane passes the
checks of R103 and the dirty-page log can take their pages: of every word addressed the item of its highest lane is
stored, every other byte reads as before, one store is counted under st, and nothing else of the strand changes. One at a place where
the tenant has reached its cap is held. -/
def Sys2Proof.Claims.HandleVectorStores : Prop :=
  ∀ (s : State) (i : Instr) (o : FmtGH) (ix : Option LineRef) (hi : Bool),
    (i = (if hi then .vsthPm4 o else .vsth o) ∧ ix = none) ∨
      (i = (if hi then .vscathPm4 o else .vscath o) ∧ ix = some (lineOf o.pi o.xi)) →
    let d := lineOf o.pl o.xl
    let w := tagWidth (s.me.tagOf d.pn)
    let pm := pmOf hi o
    let base := (s.reg o.sa).toNat
    let kd := (s.me.handle o.hd).kd.toNat
    let word (x : State) (n : Nat) : Nat := leNat ((List.range 4).map (fun b => seen x s.cl kd (physOf s o.hd (base + 4 * n) + b)))
    GHReady s d ix o.hd base Handle.pw → pmDstOk w pm = true → s.me.stq.length < 63 →
    (∀ j n, j < 32 → laneWord s.me ix j = some n → Writable kd (physOf s o.hd (base + 4 * n)) 4) →
    let places := lanePlaces s ix o.hd base
    (Capped s places → IsHeld i s false false places) ∧
    (Served s places → (s.logAll s.me.part (s.tenantOf s.me) (((List.range 32).filterMap (laneWord s.me ix)).flatMap (fun n =>
      pagesOf kd ((s.me.handle o.hd).vb.toNat * 4096 + (base + 4 * n)) 4))).2 = true →
      ∃ t, exec i s = .next t ∧
        OnlyMe s t { s.me with stq := s.me.stq ++ [({} : StOp)] } ∧
        (∀ j n, j < 32 → highest s.me ix j n →
          word t n = (mergeBits (BitVec.ofNat 32 (word s n)) ((s.me.line d).getD j 0) (pmMask w pm)).toNat) ∧
        (∀ kind pa, pa < 2 ^ 52 → ¬(kind = kd ∧ ∃ j n, j < 32 ∧ laneWord s.me ix j = some n ∧
            physOf s o.hd (base + 4 * n) ≤ pa ∧ pa < physOf s o.hd (base + 4 * n) + 4) →
          seen t s.cl kind pa = seen s s.cl kind pa) ∧
        (∀ c pa, c ≠ s.cl → pa < 2 ^ 52 → seen t c 0 pa = seen s c 0 pa))

/-- R103, R224 to R226, R230: the vector loads, gathers, stores and scatters through a handle complete whenever every active lane
passes the checks of R103, with the lines and bytes of their rules.
That an access is performed at issue (log 4), the merge of a 4-bit item stored (log 41) and what waits at an arbiter
(log 70) are the model's choices. -/
def Obligations.HandleVectorAccesses : Prop :=
  Sys2Proof.Claims.HandleVectorReads ∧ Sys2Proof.Claims.HandleVectorStores

/-- R87, R88, R232, R237 to R246: every tile and matrix instruction completes under its conditions by placing its
command; TALLOC also gives the entry its kind, buffer and format at once.
The moves of a drain or TFREE of an empty tile (log 13), an offset of lattices that is not aligned and a VQ2 operation with SP 0 (log
26), and a C-tile of format 0 at TCVT (log 48) are the model's reading. -/
def Obligations.TileIssues : Prop :=
  (∀ (s : State) (i : Instr) (c : Cmd) (p : Prop), tileRule s i = some (c, p) → p → Places i s c) ∧
  (∀ (s : State) (o : FmtET),
    let tk : BitVec 2 := o.imm.extractLsb' 0 2
    let bi : BitVec 5 := o.imm.extractLsb' 2 5
    o.td.toNat < s.me.win.th → (s.me.tile o.td).ts = 0 → s.me.tlq.length < 63 →
    bi.toNat < (if tk = 0 then s.me.win.wt else if tk = 1 then s.me.win.at_ else s.me.win.ct) →
    (∀ e ∈ s.me.tiles, e.1 ≠ o.td.toNat → e.2.ts ≠ 0 → ¬(e.2.tk = tk ∧ e.2.bi = bi)) →
      Places (.talloc o) s { issuedBy s .talloc with td := some o.td } ∧
      ∃ t, exec (.talloc o) s = .next t ∧ t.me.tile o.td = { s.me.tile o.td with tk := tk, bi := bi, ft := etF o })

/-- R232, R235, R236, R247 to R258, R351, R352: every copy, drain, sequencer and pooling instruction completes under
its conditions by placing its command with the operands and the own-window bytes of its issue. -/
def Sys2Proof.Claims.CopiesIssued : Prop :=
  ∀ (s : State) (k : Nat) (i : Instr) (c : Cmd) (p : Prop), copyRule s k i = some (c, p) → p → Places i s c

/-- R251: CPYM completes by placing its fill and, one identity on, the matrix operation that follows it, counted under
cp and tl. -/
def Sys2Proof.Claims.FillAndMultiply : Prop :=
  ∀ (s : State) (o : FmtECL),
    let fmt : BitVec 5 := o.lit.extractLsb' 10 5
    let fm : BitVec 4 := o.lit.extractLsb' 10 4
    let td : BitVec 5 := o.lit.extractLsb' 0 5
    let tb : BitVec 5 := o.lit.extractLsb' 5 5
    let lf : BitVec 4 := o.lit.extractLsb' 56 4
    let ta2 := if fm = 7 then some (0 : BitVec 5) else none
    TileIs s.me o.o.th [1] [] → (lf = 0 ∨ lf = aFormat fm) → MatReady s td tb ta2 fm →
    (scaleRule s fm (s.reg o.o.sc)).isSome → (s.reg o.o.sb).toNat % 64 = 0 → CopyReady s (issuedEC s .cpym o) →
      ∃ (t : State) (c m : Cmd), exec (.cpym o) s = .next t ∧ t.nextId = s.nextId + 2 ∧ MemSame s t ∧
        tfind t.cmds s.nextId = some c ∧ tfind t.cmds (s.nextId + 1) = some m ∧
        bare c = { issuedEC s .cpym o with td := some o.o.th, fmt := lf.setWidth 5 } ∧
        bare m = { matCmd s td o.o.th tb ta2 fmt ((o.lit.extractLsb' 15 2).setWidth 12) false false 0
          ((scaleRule s fm (s.reg o.o.sc)).getD []) with after := some s.nextId } ∧
        OnlyMe s t { s.me with
          tiles := t.me.tiles, wmem := t.me.wmem, amem := t.me.amem, cmem := t.me.cmem,
          tlq := s.me.tlq ++ [({ cmd := s.nextId + 1 } : TlOp)], cpq := s.me.cpq ++ [s.nextId] }

/-- R86, R235, R237, R245, R256, R259: the instructions that read engine state complete with the value of their rule at
latency 1 and change nothing else; TWAIT goes on exactly where its tile is empty or ready; SQSTAT on an engine that is
not the partition's is an isolation trap. -/
def Obligations.EngineQueries : Prop :=
  (∀ (s : State) (o : FmtET), o.td.toNat < s.me.win.th →
    let e := s.me.tile o.td
    (∃ v : Word, exec (.tstat o) s = .next (s.landS 1 o.sa v) ∧ v.extractLsb' 62 2 = e.ts ∧ v.extractLsb' 60 2 = e.tk ∧
      v.extractLsb' 55 5 = e.bi ∧ v.extractLsb' 51 4 = e.ft ∧ v.extractLsb' 48 3 = 0 ∧
      v.extractLsb' 40 8 = BitVec.ofNat 8 e.rc ∧ v.extractLsb' 32 8 = BitVec.ofNat 8 e.dc ∧ v.extractLsb' 0 32 = 0) ∧
    (e.ts = 0 ∨ e.ts = 2 → exec (.twait o) s = .next s) ∧ (e.ts = 1 ∨ e.ts = 3 → Waits (.twait o) s) ∧
    ((∀ x ∈ s.cmds, ¬(x.2.strand = s.cur ∧ x.2.op = .mmas ∧ x.2.td = some o.td)) →
      exec (.trowp o) s = .next (s.landS 1 o.sa 0xFFFFFFFFFFFFFFFF)) ∧
    (∀ c, (∃ n, (n, c) ∈ s.cmds) → c.strand = s.cur → c.op = .mmas → c.td = some o.td →
      (∀ x ∈ s.cmds, x.2.strand = s.cur → x.2.op = .mmas → x.2.td = some o.td → x.2 = c) →
      exec (.trowp o) s = .next (s.landS 1 o.sa (BitVec.ofNat 64 c.prog)))) ∧
  (∀ (s : State) (o : FmtEA),
    let e := o.imm.toNat % 32
    let own := (tget s.parts s.me.part).res.engines.contains e
    (own = false → exec (.cpyq o) s = .next (s.landS 1 o.sd 0) ∧ Traps (.sqstat o) s 0x0015 (BitVec.ofNat 64 e)) ∧
    (own = true → ∃ v w : Word,
      exec (.cpyq o) s = .next (s.landS 1 o.sd v) ∧ v.getLsbD 63 = true ∧ v.extractLsb' 16 47 = 0 ∧
      (∀ q, q < 16 → (v.getLsbD q = true ↔ queueList s e q ≠ [])) ∧
      exec (.sqstat o) s = .next (s.landS 1 o.sd w) ∧
      let l := queueList s e (o.imm.toNat / 32 % 16)
      w.extractLsb' 0 16 = BitVec.ofNat 16 l.length ∧ w.extractLsb' 16 45 = 0 ∧ w.getLsbD 63 = false ∧
      (w.getLsbD 62 = true ↔ ∃ x, l.head? = some x ∧ x.2.op = .sqwait) ∧
      (w.getLsbD 61 = true ↔ ∃ x ∈ l, x.2.op = .sqkill)) ∧
    let pools := (tget s.parts s.me.part).pools
    let tid := (s.reg o.sa).toNat % 2 ^ 16
    (tfind pools tid = none → exec (.sfstat o) s = .next (s.landS 1 o.sd 0)) ∧
    (∀ n, tfind pools tid = some n → ∃ v : Word, exec (.sfstat o) s = .next (s.landS 1 o.sd v) ∧
      v.getLsbD 63 = true ∧ v.extractLsb' 32 31 = 0 ∧
      ∀ i, i < 16 → (v.getLsbD i = true ↔ ∃ g ∈ (tget (tget s.parts s.me.part).plans n).segs, g.ld = i) ∧
        (v.getLsbD (16 + i) = true ↔ (∃ g ∈ (tget (tget s.parts s.me.part).plans n).segs, g.ld = i) ∧
          s.dev.failed.contains i = true)))

/-- R257: SQKILL completes by taking its place in its queue and withdrawing every command of the queue that has not
started, each with error code 1 and its completion word still to write; every other command stays as it is. -/
def Sys2Proof.Claims.QueueKill : Prop :=
  ∀ (s : State) (o : FmtEA), CopyReady s (issuedEA s .sqkill o) → tfind s.cmds s.nextId = none →
    ∃ t, exec (.sqkill o) s = .next t ∧ MemSame s t ∧
      OnlyMe s t { s.me with cpq := s.me.cpq ++ [s.nextId] } ∧
      tfind t.cmds s.nextId = some (issuedEA s .sqkill o) ∧
      ∀ n c, n ≠ s.nextId → tfind s.cmds n = some c → tfind t.cmds n = some
        (if (queueList s (o.imm.toNat % 32) (o.imm.toNat / 32 % 16)).any (fun x => x.1 = n && x.2.state = .queued && x.2.op ≠ .sqkill)
        then { c with wordLeft := true, state := .started, error := 1 } else c)

/-- R87, R88, R379: a drain of a tile that is empty with no writer before it is a tile-state trap; one behind a releasing drain waits. -/
def Sys2Proof.Claims.DrainsOfEmpty : Prop :=
  ∀ (s : State) (o : FmtECL) (i : Instr), i ∈ [.tdrain o, .tdraink o] →
    let e := s.me.tile o.o.th
    let df : BitVec 4 := o.lit.extractLsb' 0 4
    o.o.th.toNat < s.me.win.th → (df = 0 ∨ e.tk = 2) → (df = 0 ∨ (e.ft = 1 ∧ df.toNat < 7) ∨ (e.ft = 8 ∧ 8 ≤ df.toNat ∧ df ≠ 11)) →
      (e.ts = 0 → e.pend = [] → Traps i s 0x0005 (o.o.th.setWidth 64)) ∧
      (∀ n, e.pend.getLast? = some n → frees (tget s.cmds n).op → Waits i s) ∧
      (∀ x ∈ s.cmds, e.pend = [] → e.ts = 3 → x.2.strand = s.cur → x.2.td = some o.o.th → x.2.active = true → frees x.2.op → Waits i s)

/-- R87, R235 to R258: every command of a copy engine, SFPOOL, SQKILL and CPYM complete under their conditions by placing their commands,
SQKILL withdrawing the commands its queue has not begun; a drain of an empty tile traps.
That a drain behind a releasing one waits (log 13), the alignment of the S address of CPYS (log 101) and the order of two traps of CPYSC
(log 102) are the model's choices.
The second A-tile of a VQ2 operation behind CPYM (log 27) and how the queue goes on after a withdrawal (log 51) are the model's choices. -/
def Obligations.CopyIssues : Prop :=
  Sys2Proof.Claims.CopiesIssued ∧ Sys2Proof.Claims.QueueKill ∧ Sys2Proof.Claims.FillAndMultiply ∧ Sys2Proof.Claims.DrainsOfEmpty

/-- R347: the header of a plan record has its reserved bits 0 and its values in their ranges; NR and NS count where OP is 0. -/
def HeaderFits (h : List Byte) : Prop :=
  let w0 := dwAt h 0
  let w1 := dwAt h 8
  let w2 := dwAt h 0x10
  fld w0 0 32 = 0 ∧ fld w1 32 32 = 0 ∧ fld w2 11 53 = 0 ∧ (∀ i, i < 5 → dwAt h (0x18 + 8 * i) = 0) ∧
  1 ≤ fld w0 44 4 ∧ fld w0 44 4 ≤ 4 ∧ 1 ≤ fld w0 34 10 ∧ fld w0 34 10 ≤ 512 ∧ fld w0 32 2 < 2 ∧
  (fld w0 32 2 = 0 → 1 ≤ fld w2 0 11 ∧ fld w2 0 11 ≤ 1024 ∧ 1 ≤ fld w1 0 32 ∧ fld w1 0 32 ≤ 0xFFFF_FFFE)

/-- R348: FR, SN, the address, LD and TR of segment entry `i` of a plan record, whose entries are `e`. -/
def segFr (e : List Byte) (i : Nat) : Nat := fld (dwAt e (32 * i)) 32 32
def segSn (e : List Byte) (i : Nat) : Nat := fld (dwAt e (32 * i)) 0 32
def segVa (e : List Byte) (i : Nat) : Nat := 64 * fld (dwAt e (32 * i + 8)) 6 50
def segLd (e : List Byte) (i : Nat) : Nat := fld (dwAt e (32 * i + 0x10)) 60 4
def segTr (e : List Byte) (i : Nat) : Nat := fld (dwAt e (32 * i + 0x10)) 58 2

/-- R348: the `n` segment entries have their reserved bits 0 and their values in range, and cover rows 0 to `nr` - 1 in order. -/
def SegmentsFit (e : List Byte) (n nr : Nat) : Prop :=
  (∀ i, i < n → 1 ≤ segSn e i ∧ fld (dwAt e (32 * i + 8)) 56 8 = 0 ∧ fld (dwAt e (32 * i + 8)) 0 6 = 0 ∧ segTr e i < 3 ∧
    fld (dwAt e (32 * i + 0x10)) 0 58 = 0 ∧ dwAt e (32 * i + 0x18) = 0) ∧
  segFr e 0 = 0 ∧ (∀ i, i < n - 1 → segFr e (i + 1) = segFr e i + segSn e i) ∧ segFr e (n - 1) + segSn e (n - 1) = nr

/-- R346: the row stride of a table of format `fmt` and `dim` elements a row. -/
def strideOf (fmt dim : Nat) : Nat := 64 * ((dim * (if fmt = 1 then 4 else if fmt = 4 then 1 else 2) + 63) / 64)

/-- R348, R350: every segment, in rows of `rs` bytes, is on a landing of the partition, and every page of it, at the first of its addresses
there, is of kind 2, readable, and on that landing. -/
def SegmentsMapped (s : State) (part rs : Nat) (e : List Byte) (n : Nat) : Prop :=
  ∀ i, i < n → (∃ x ∈ (tget s.parts part).res.landings, x.landing = segLd e i) ∧
    ∀ a, segVa e i ≤ a → a < segVa e i + rs * segSn e i → a = segVa e i ∨ a % 4096 = 0 →
      a < 2 ^ 56 ∧ ∃ l, s.walk part (BitVec.ofNat 56 a) = .leaf l ∧ l.kd = 2 ∧ l.pr = true ∧ l.at a / 2 ^ 38 = segLd e i

/-- R349: bytes of hot rows at landing `ld` of a plan in force. -/
def hotOf (ld : Nat) (p : Plan) : Nat :=
  (p.segs.map (fun g => if g.tr = 0 ∧ g.ld = ld then strideOf p.fmt.toNat p.dim * g.sn else 0)).sum

/-- R349, R350: the hot segments of the record and of the partition's other tables are more than its share at some landing. -/
def SramExceeded (s : State) (part tid rs : Nat) (e : List Byte) (n : Nat) : Prop :=
  ∃ x ∈ (tget s.parts part).res.landings, x.sram <
    ((List.range n).map (fun i => if segTr e i = 0 ∧ segLd e i = x.landing then rs * segSn e i else 0)).sum +
    (((tget s.parts part).pools.filter (fun t => t.1 ≠ tid)).map (fun t => hotOf x.landing (tget (tget s.parts part).plans t.2))).sum

/-- R259, R347 to R350: SFPLAN on an aligned record that the strand may read completes: a record of OP 1 deletes its
table, an acceptable record becomes the table's plan, to be loaded where a segment is hot, and a refused one changes
nothing and answers its reason, the first of those of R350 that holds.
That the record is read past the cluster cache, the limits of a removal, and that a header out of range is refused before the rest is
translated are the model's choices (log 33, 48 and 84). -/
def Obligations.PlacementPlans : Prop :=
  ∀ (s : State) (o : FmtEA) (ps : List (Place × Nat)),
    let a := (s.reg o.sa).toNat
    let part := s.me.part
    a % 64 = 0 → s.vPlaces a 64 2 1 = .ok ps →
    let h := s.readPlaces ps
    let tid := fld (dwAt h 0) 48 16
    let at_ (l : List (Place × Nat)) : List (Nat × Nat) := l.map (fun p => (p.1.kind, p.1.pa))
    let r := s.chargeReads ps
    (Capped s (at_ ps) → Waits (.sfplan o) s) ∧
    (Served s (at_ ps) →
    (¬HeaderFits h → exec (.sfplan o) s = .next (r.landS 1 o.sd (BitVec.ofNat 64 (2 ^ 63 + 1)))) ∧
    (HeaderFits h → fld (dwAt h 0) 32 2 = 1 → fld (dwAt h 0x10) 0 11 = 0 →
      (tfind (tget s.parts part).pools tid).isSome →
      exec (.sfplan o) s = .next ((r.onPart part (fun q => { q with pools := tdel q.pools tid })).landS 1 o.sd 0)) ∧
    (HeaderFits h → fld (dwAt h 0) 32 2 = 1 → fld (dwAt h 0x10) 0 11 ≠ 0 ∨ tfind (tget s.parts part).pools tid = none →
      exec (.sfplan o) s = .next (r.landS 1 o.sd (BitVec.ofNat 64 (2 ^ 63 + 1)))) ∧
    (HeaderFits h → fld (dwAt h 0) 32 2 = 0 → ∀ qs,
      let n := fld (dwAt h 0x10) 0 11
      s.vPlaces (a + 64) (32 * n) 2 1 = .ok qs →
      (Capped s (at_ qs) → Waits (.sfplan o) s) ∧
      (Served s (at_ qs) →
      let e := s.readPlaces qs
      let p := planOf s h e
      let rs := strideOf (fld (dwAt h 0) 44 4) (fld (dwAt h 0) 34 10)
      let pools := (tget s.parts part).pools
      let Chained := SegmentsFit e n (fld (dwAt h 8) 0 32)
      let Mapped := SegmentsMapped s part rs e n
      let Over := SramExceeded s part tid rs e n
      let Failed := ∃ i, i < n ∧ segLd e i ∈ s.dev.failed
      let Full := tfind pools tid = none ∧ 1024 ≤ pools.length
      let Refused (r : Nat) : Prop := ∃ t, exec (.sfplan o) s = .next t ∧ t.nextId = s.nextId ∧ MemSame s t ∧
        (tget t.parts part).pools = pools ∧ (tget t.parts part).plans = (tget s.parts part).plans ∧
        OnlyMe s t { s.me with fly := s.me.fly ++ [{ due := s.me.steps + 1, origin := s.me.steps, slot := s.issue.slot,
                                                     dest := .scalar o.sd (BitVec.ofNat 64 (2 ^ 63 + r)) }] }
      (¬Chained → Refused 1) ∧ (Chained → ¬Mapped → Refused 2) ∧ (Chained → Mapped → Over → Refused 3) ∧
      (Chained → Mapped → ¬Over → Failed → Refused 4) ∧ (Chained → Mapped → ¬Over → ¬Failed → Full → Refused 5) ∧
      (Chained → Mapped → ¬Over → ¬Failed → ¬Full → (tfind s.parts part).isSome →
        ∃ t, exec (.sfplan o) s = .next t ∧ t.nextId = s.nextId + 1 ∧ MemSame s t ∧
          tfind (tget t.parts part).pools tid = some s.nextId ∧
          tfind (tget t.parts part).plans s.nextId = some { p with loaded := !p.segs.any (fun g => g.tr = 0) } ∧
          OnlyMe s t { s.me with fly := s.me.fly ++
            [{ due := s.me.steps + 1, origin := s.me.steps, slot := s.issue.slot, dest := .scalar o.sd 0 }] }))))

/-- R93, R143, R235: the first command of a queue that has not started does so when all before it run and its tile and
its half are free; under an acquire of die scope or wider its cluster's dirty bytes stand in memory first. -/
def Sys2Proof.Claims.StartedCommands : Prop :=
  ∀ (s : State) (e q n : Nat) (c : Cmd) (pre post : List (Nat × Cmd)), e < 32 → queueList s e q = pre ++ (n, c) :: post →
    (∀ x ∈ pre, x.2.state = .started) → (∀ x ∈ post, n ≤ x.1) → tfind s.cmds n = some c → c.state = .queued →
    c.op ≠ .sqwait → c.op ≠ .sqkill → s.tileFree n = true → s.halfBusy c = false → s.acquired n c = true →
    (∀ x ∈ (tget s.clusters (clusterOf c.core)).lines, x.1 < 2 ^ 33) →
      ∃ t, exec (.commandStart e q) s = .next t ∧ tfind t.cmds n = some { c with state := .started } ∧
        (∀ m, m ≠ n → tfind t.cmds m = tfind s.cmds m) ∧ t.strands = s.strands ∧
        (∀ pa, t.cacheByte (clusterOf c.core) pa = s.cacheByte (clusterOf c.core) pa) ∧
        (if c.ord.getLsbD 4 = true ∧ 2 ≤ (c.ord.extractLsb' 0 3).toNat
          then (∀ pa, pa < 2 ^ 39 → cget t.mem pa = homeByte s (clusterOf c.core) pa) ∧
            ∀ k, 2 ^ 39 ≤ k → cget t.mem k = cget s.mem k
          else t.mem = s.mem)

/-- R21, R350, R356: the first pooling command of a partition that has not started does so once every plan before it is loaded and its
tile is its own, while the tier has drawn at most 400 W on average over the last 1 ms; above that it waits. -/
def Sys2Proof.Claims.PoolingStarts : Prop :=
  ∀ (s : State) (part n : Nat) (c : Cmd) (pre post : List (Nat × Cmd)),
    s.cmds.filter (fun x => x.2.op = .sfpool && x.2.part = part) = pre ++ (n, c) :: post → (∀ x ∈ pre, x.2.state ≠ .queued) →
    tfind s.cmds n = some c → c.state = .queued →
      (400 * 1000000 < s.share Device.tierLog → exec (.commandStart (32 + part) 0) s = .next s) ∧
      (s.share Device.tierLog ≤ 400 * 1000000 → (∀ x ∈ (tget s.parts part).plans, x.1 < n → x.2.loaded = true) →
        s.tileFree n = true → s.acquired n c = true → (∀ x ∈ (tget s.clusters (clusterOf c.core)).lines, x.1 < 2 ^ 33) →
        ∃ t, exec (.commandStart (32 + part) 0) s = .next t ∧ tfind t.cmds n = some { c with state := .started } ∧
          (∀ m, m ≠ n → tfind t.cmds m = tfind s.cmds m) ∧ t.strands = s.strands ∧
          ∀ k, 2 ^ 39 ≤ k → cget t.mem k = cget s.mem k)

/-- R240 to R242: the context's oldest matrix operation starts when its core's array is free, its tile is its own and no other context's
operation on the core became ready before it; a stationary one takes B from its latch, which is loaded afresh where it does not hold TB as it stands. -/
def Sys2Proof.Claims.MatrixStarts : Prop :=
  ∀ (s : State) (n : Nat) (c : Cmd), tfind s.cmds n = some c → c.op = .mma ∨ c.op = .mmas → c.state = .queued →
    s.tileFree n = true → (∀ f, c.after = some f → tfind s.cmds f = none) →
    (∀ x ∈ s.cmds, x.1 < n → x.2.strand = c.strand → (x.2.op = .mma ∨ x.2.op = .mmas) → x.2.state ≠ .queued) →
    (∀ x ∈ s.cmds, x.2.core = c.core → (x.2.op = .mma ∨ x.2.op = .mmas) → x.2.state ≠ .started) →
    (∀ x ∈ s.cmds, x.1 ≠ n → x.2.core = c.core → s.matrixReady x.1 = true →
      c.readyAt.getD s.now < x.2.readyAt.getD s.now ∨ (c.readyAt.getD s.now = x.2.readyAt.getD s.now ∧ n < x.1)) →
      (c.op = .mmas ∨ c.fmt.getLsbD 4 = false →
        exec (.matrixOperationStart n) s = .next (s.onCmd n (fun c => { c with state := .started }))) ∧
      (c.op = .mma → c.fmt.getLsbD 4 = true → ∃ (t : State) (h : Cells 8), exec (.matrixOperationStart n) s = .next t ∧
        tfind t.cmds n = some { c with state := .started, held := h } ∧ t.mem = s.mem ∧ t.strands = s.strands ∧
        let th := c.tb.getD 0
        let b := (tget s.strands c.strand).tile th
        let l := tget (tget s.cores c.core).latches (c.imm.toNat % 4)
        let wc := tget (tget s.cores c.core).wcount (32 * (tget s.strands c.strand).ctx + b.bi.toNat)
        if l.ctx = some c.strand ∧ l.th = th ∧ l.bi = b.bi ∧ l.wc = wc then h = l.bytes
        else ∀ i, i < 16384 → cget h i = cget ((tget s.strands c.strand).bufMem b.tk) (b.base + i))

/-- R257, R326: an SQWAIT at its turn that polls a word it may read, with a budget at its place, completes once the word is at least b,
and otherwise goes on waiting. -/
def Sys2Proof.Claims.QueueWaits : Prop :=
  ∀ (s : State) (n : Nat) (c : Cmd) (l : Leaf), tfind s.cmds n = some c → c.op = .sqwait → c.state = .queued →
    s.atTurn n = true → c.ord.getLsbD 4 = false → s.routeOf c.part c.a.toNat = none → s.routeBarred c.part c.a.toNat = false →
    s.cmdWalk c c.a.toNat = .leaf l → l.pa = true → l.kd < 2 → paExists l.kd (l.at c.a.toNat) 8 = true →
    Writable l.kd (l.at c.a.toNat) 8 → s.atomicFree c.part c.tenant ((resourceOf l.kd (l.at c.a.toNat)).getD 0) = true → Calm s c.strand →
    c.td = none → c.ta = none → c.ta2 = none → c.tb = none →
      let v := cnum s.mem (memKey l.kd (l.at c.a.toNat)) 8
      (c.b.toNat ≤ v → ∃ t, exec (.sqwaitPoll n) s = .next t ∧ Ended s t n c ∧ t.mem = s.mem) ∧
      (v < c.b.toNat → ∃ t, exec (.sqwaitPoll n) s = .next t ∧ t.cmds = s.cmds ∧ t.strands = s.strands ∧ t.mem = s.mem)

/-- R21, R88, R235, R238, R241, R242, R244, R257, R350, R356: the events with which commands, pooling commands, matrix operations and
SQWAIT start, and when they wait.
Which events start a command (log 5), the latches at reset (log 17), how a share's average is taken (log 15), the right that a poll
asks for (log 45), a matrix operation after CPYM's fill is gone (log 47), which commands a draw above 400 W holds (log 72) and which of two
operations ready at the same moment goes first (log 93) are the model's choices. -/
def Obligations.CommandStarts : Prop :=
  Sys2Proof.Claims.StartedCommands ∧ Sys2Proof.Claims.PoolingStarts ∧ Sys2Proof.Claims.MatrixStarts ∧ Sys2Proof.Claims.QueueWaits

/-- R72, R87, R232, R237, R240, R244, R246: a tile or matrix command performed alone on its tile ends with its effect: the
tile's elements and its format are those of its rule, the tile is ready and its counter falls. -/
def Sys2Proof.Claims.TilesCompleted : Prop :=
  ∀ (s : State) (n : Nat) (c : Cmd), Calm s c.strand →
    let x := tget s.strands c.strand
    (∀ th, Writing s n c th →
      let e := x.tile th
      let src := x.tile (c.ta.getD 0)
      let done (t : State) : Prop := exec (.tileCommandCompletion n) s = .next t ∧ Ended s t n c ∧ t.mem = s.mem ∧
        ((tget t.strands c.strand).tile th).ts = 2 ∧ (tget t.strands c.strand).smem = x.smem
      (c.op = .tzero → ∃ t, done t ∧ ((tget t.strands c.strand).tile th).ft = c.fmt.setWidth 4 ∧
        ∀ i, i < bufBytes e.tk → cget ((tget t.strands c.strand).bufMem e.tk) (e.base + i) = 0) ∧
      (c.op = .tmov → ∃ t, done t ∧ ((tget t.strands c.strand).tile th).ft = src.ft ∧
        (tget t.strands c.strand).tileBytes e 0 (bufBytes e.tk) = x.tileBytes src 0 (bufBytes e.tk)) ∧
      (c.op = .txpose → e.tk = 2 → ∃ t, done t ∧ ((tget t.strands c.strand).tile th).ft = src.ft ∧
        ∀ i j, i < 32 → j < 32 → tileElem (tget t.strands c.strand) e (32 * i + j) = tileElem x src (32 * j + i)) ∧
      (c.op = .tcvt → e.tk ≠ 2 → ∃ t, done t ∧
        let ft : BitVec 4 := c.fmt.setWidth 4
        let w := tagWidth ft
        ((tget t.strands c.strand).tile th).ft = ft ∧
        (32 * w * (c.imm.toNat % 32) + 32 * w ≤ 4096 → ∀ i j, i < 32 → j < 32 →
          leNat ((tget t.strands c.strand).tileBytes e (512 * i + 4 * w * (c.imm.toNat % 32)) (4 * w)) / 2 ^ (w * j) % 2 ^ w =
            (convertTo ft c.rm (hash32 (c.a.extractLsb' 0 32) (32 * i + j))
              (valueOf (if ft = 10 then 8 else 1) (tileElem x src (32 * i + j)))).bits % 2 ^ w)) ∧
      (c.op = .mma → c.state = .started → e.tk = 2 → ∃ t, done t ∧ ((tget t.strands c.strand).tile th).ft = accFormat c.mfmt ∧
        let m := s.tileOperands c
        ∀ i j, i < 32 → j < 32 → tileElem (tget t.strands c.strand) e (32 * i + j) =
          accFirst m.i8 (m.a.getD i []).length (m.a.getD i []) (m.b.getD j []) (tileElem x e (32 * i + j)) % 2 ^ 32) ∧
      (∀ m, c.op = .mmas → c.state = .started → e.tk = 2 → s.slabOperands c c.prog = .ok m → s.slabHeld c = false → ∃ t,
        exec (.tileCommandCompletion n) s = .next t ∧ t.mem = s.mem ∧
        (∀ i j, i < 32 → j < 32 → tileElem (tget t.strands c.strand) e (32 * i + j) =
          accFirst m.i8 (m.a.getD i []).length (m.a.getD i []) (m.b.getD j []) (tileElem x e (32 * i + j)) % 2 ^ 32) ∧
        (c.prog + 1 < descNR c.cap → tfind t.cmds n = some { c with prog := c.prog + 1 }) ∧
        (descNR c.cap ≤ c.prog + 1 → Ended s t n c ∧ ((tget t.strands c.strand).tile th).ts = 2))) ∧
    (tfind s.cmds n = some c → c.op = .talloc → ∃ t, exec (.tileCommandCompletion n) s = .next t ∧ Ended s t n c ∧ t.mem = s.mem) ∧
    (∀ th, tfind s.cmds n = some c → c.op = .tfree → c.td = some th → c.active = true → s.behindOnTile n = false → s.readEarlier n = false → ∃ t,
      exec (.tileCommandCompletion n) s = .next t ∧ Ended s t n c ∧ t.mem = s.mem ∧ ((tget t.strands c.strand).tile th).ts = 0) ∧
    (∀ tb, tfind s.cmds n = some c → c.op = .mlatch → c.tb = some tb → (x.tile tb).tk = 0 → c.td = none → c.ta = none → c.ta2 = none →
      ∃ t, exec (.tileCommandCompletion n) s = .next t ∧ Ended s t n c ∧ t.mem = s.mem ∧
        let l := tget (tget t.cores c.core).latches (c.imm.toNat % 4)
        l.ctx = some c.strand ∧ l.th = tb ∧ l.bi = (x.tile tb).bi ∧ cread l.bytes 0 16384 = x.tileBytes (x.tile tb) 0 16384)

/-- R395, R400, R401: at a slab that it cannot read, a streaming operation ends with the slabs before it in its sum: its tile is ready, of
its accumulator's format, and holds the elements that it held. Its restart record is kept at that slab, and a record names the address; of a gang killed or stopped before, nothing is suspended and no
restart record is kept (log 93). -/
def Sys2Proof.Claims.StreamFaults : Prop :=
  ∀ (s : State) (n : Nat) (c : Cmd) (va : Nat), tfind s.cmds n = some c → c.op = .mmas → c.state = .started →
    s.slabFault c = some va → (tfind s.strands c.strand).isSome →
    (tget s.gangs (tget s.strands c.strand).gang).halt = none →
      ∃ t, exec (.streamFault n) s = .next t ∧ tfind t.cmds n = none ∧
        (∃ r ∈ t.dev.waiting, r.cause = 0x0041 ∧ r.val = BitVec.ofNat 64 va ∧ r.strand = c.strand ∧ r.slt = 7) ∧
        (∀ th, Writing s n c th → (∀ u, ((tget s.strands c.strand).tile u).pend = []) →
          let e := (tget t.strands c.strand).tile th
          e.ts = 2 ∧ e.ft = accTag c.mfmt ∧
          ∀ i, i < 1024 → tileElem (tget t.strands c.strand) e i = tileElem (tget s.strands c.strand) ((tget s.strands c.strand).tile th) i) ∧
        let x := tget s.gangs (tget s.strands c.strand).gang
        if x.killed = true ∨ x.stopped = true then t.gangs = s.gangs ∧ (tget t.strands c.strand).restart = (tget s.strands c.strand).restart
        else let r := (tget t.strands c.strand).restart
        r.fv = true ∧ r.td = c.td.getD 0 ∧ r.x = c.isX ∧ r.fm = c.mfmt ∧ r.ord = c.ord ∧ r.lit = c.lit ∧
        (∀ i, i < 5 → r.desc.getD i 0 = dwAt c.cap (8 * i)) ∧
        (c.prog < 2 ^ 16 → fld (r.desc.getD 5 0) 16 16 = c.prog ∧ fld (r.desc.getD 5 0) 0 16 = descNR c.cap)

/-- R72, R87, R239 to R246, R395, R400, R401: a tile command that may complete leaves its tile as its rule says; a streaming operation
that cannot read a slab ends with its tile ready, the slabs before it in its sum, and its restart record kept.
That a command is performed at its completion (log 5), the sign of a zero sum (log 12), a C-tile of format 0 (log 48) and a stream fault
of a gang that is gone (log 93) are the model's choices. -/
def Obligations.TileCompletions : Prop :=
  Sys2Proof.Claims.TilesCompleted ∧ Sys2Proof.Claims.StreamFaults

/-- R87, R248, R249, R253, R255, R257: a copy, a drain, a scatter, a copy out of a window or a sequencer's runs, every byte of which
the command reaches, store their bytes in order and nothing else, and end; a drain leaves its tile empty, a keeping one ready. -/
def Sys2Proof.Claims.MemoryCommands : Prop :=
  ∀ (s : State) (n : Nat) (c : Cmd) (kind pa : Nat → Nat → Nat) (f : Nat → Nat → Byte), Runs s n c → Calm s c.strand →
    let count := (targetRuns s c).1
    let run := (targetRuns s c).2
    let D (k : Nat) : Prop := ∃ r j, r < count ∧ j < (run r).2.2 ∧ k = memKey (kind r j) (pa r j)
    let mode := (c.imm.extractLsb' 9 2).toNat
    let add := if c.op = .cpysc then (if mode = 1 then 4 else if mode = 2 then 2 else 0) else 0
    let drain := decide (c.op = .tdrain ∨ c.op = .tdraink)
    (c.op = .cpysc → mode < 3 ∧ c.c.toNat % 2 ^ 16 ≤ 4096 ∧ c.c.toNat % 2 ^ 16 % 4 = 0 ∧ (mode = 1 → c.a.toNat % 4 = 0) ∧ (mode = 2 → c.a.toNat % 2 = 0)) →
    (drain = true → c.active = true ∧ ∃ th, c.td = some th) → (drain = false → c.td = none) →
    (∀ r, r < count → Reaches s c D (if add = 0 then 2 else 4) (if drain = true ∨ add ≠ 0 then 1 else 2) (run r).1 (run r).2.1 (run r).2.2 (kind r) (pa r) ∧
      ∀ j, j < (run r).2.2 → Writable (kind r j) (pa r j) 1) →
    DataOf s c D f → LogRoom s c count (fun r => (run r).2.2) →
    Unhindered s c (if add = 0 then 0 else count * (c.c.toNat % 2 ^ 16) / add) →
    ∃ t, exec (.copyCommandCompletion n) s = .next t ∧ Ended s t n c ∧
      (∀ k, cget t.mem k = (List.range count).foldl (fun m r => putRun add (fun j => memKey (kind r j) (pa r j)) (run r).2.2 (f r) m) (cget s.mem) k) ∧
      ∀ th, c.td = some th → ((tget t.strands c.strand).tile th).ts = (if c.op = .tdraink then 2 else 0)

/-- R87, R251, R254: a fill and a gather whose rows the command reaches place the rows' bytes in their tile, zeros for a null index, a
spread gather at its position of each line; the tile takes its format and is ready, memory is as before, and the command ends. -/
def Sys2Proof.Claims.TileFills : Prop :=
  ∀ (s : State) (n : Nat) (c : Cmd) (th : BitVec 5) (f : Nat → Nat → Byte), Runs s n c → Writing s n c th → Calm s c.strand → Unhindered s c 0 →
    let x := tget s.strands c.strand
    let e := x.tile th
    let rb := c.c.toNat % 2 ^ 16
    let rows := c.c.toNat / 2 ^ 16 % 2 ^ 13
    let idx (r : Nat) : Nat := (wAt c.cap (4 * r)).toNat
    let row (r : Nat) : Prop := (idx r = 0xFFFFFFFF ∧ ∀ j, f r j = 0) ∨
      (idx r ≠ 0xFFFFFFFF ∧ Source s c (fun _ => False) false (c.a + BitVec.ofNat 64 (rb * idx r)).toNat rb (f r))
    let done (t : State) : Prop := exec (.copyCommandCompletion n) s = .next t ∧ Ended s t n c ∧ t.mem = s.mem ∧
      ((tget t.strands c.strand).tile th).ts = 2 ∧ ((tget t.strands c.strand).tile th).ft = c.fmt.setWidth 4 ∧
      (tget t.strands c.strand).smem = x.smem
    e.tk ≠ 2 →
      (c.op = .cpyf ∨ c.op = .cpym →
        (∀ i, i < 32 → Source s c (fun _ => False) (c.imm.getLsbD 10) (c.a + BitVec.ofNat 64 i * c.b).toNat 512 (f i)) →
        ∃ t, done t ∧ ∀ i j, i < 32 → j < 512 → cget ((tget t.strands c.strand).bufMem e.tk) (16384 * e.bi.toNat + 512 * i + j) = f i j) ∧
      (c.op = .cpyg → c.imm.getLsbD 9 = false → rows * rb ≤ 16384 → (∀ r, r < rows → row r) →
        ∃ t, done t ∧ (∀ r j, r < rows → j < rb → cget ((tget t.strands c.strand).bufMem e.tk) (16384 * e.bi.toNat + rb * r + j) = f r j) ∧
          ∀ j, rows * rb ≤ j → j < 16384 → cget ((tget t.strands c.strand).bufMem e.tk) (16384 * e.bi.toNat + j) = cget (x.bufMem e.tk) (16384 * e.bi.toNat + j)) ∧
      (c.op = .cpyg → c.imm.getLsbD 9 = true →
        let w := tagWidth (c.fmt.setWidth 4)
        w ≤ 16 → rb = 4 * w → rows ≤ 4096 / w → (∀ r, r < rows → row r) →
        let line (t : State) (j : Nat) : Nat := leNat ((tget t.strands c.strand).tileBytes e (512 * j) 512)
        ∃ t, done t ∧ ∀ r j, j < 32 →
          (r < rows → line t j / 2 ^ (w * r) % 2 ^ w = leNat ((List.range rb).map (f r)) / 2 ^ (w * j) % 2 ^ w) ∧
          (rows ≤ r → r < 4096 / w → line t j / 2 ^ (w * r) % 2 ^ w = line s j / 2 ^ (w * r) % 2 ^ w))

/-- R89, R252, R253: a copy into a window writes the window's bytes, and a copy into a half of instruction memory the half's, which
takes the strand's IG and the command's code base; memory is as before, and the command ends. -/
def Sys2Proof.Claims.ChipCopies : Prop :=
  ∀ (s : State) (n : Nat) (c : Cmd) (f : Nat → Byte), Runs s n c → c.td = none → Calm s c.strand → Unhindered s c 0 →
    let off := c.b.toNat % 2 ^ 16
    let half (t : State) : Half := if c.imm.getLsbD 9 then (tget t.cores c.core).half1 else (tget t.cores c.core).half0
    let done (t : State) : Prop := exec (.copyCommandCompletion n) s = .next t ∧ tfind t.cmds n = none ∧ t.mem = s.mem ∧
      (tget t.strands c.strand).cpq = (tget s.strands c.strand).cpq.filter (· ≠ n)
    (∀ k, c.op = .cpysTo → c.after = some k → (tfind s.strands k).isSome → Source s c (fun _ => False) (c.imm.getLsbD 10) c.a.toNat c.c.toNat f →
      ∃ t, done t ∧ (∀ j, j < c.c.toNat → cget (tget t.strands k).smem (c.b.toNat % 2 ^ 17 + j) = f j) ∧
        (∀ j, ¬(c.b.toNat % 2 ^ 17 ≤ j ∧ j < c.b.toNat % 2 ^ 17 + c.c.toNat) → cget (tget t.strands k).smem j = cget (tget s.strands k).smem j) ∧
        ∀ m, m ≠ k → m ≠ c.strand → tfind t.strands m = tfind s.strands m) ∧
    (c.op = .cpyi → 0 < c.c.toNat → off + c.c.toNat ≤ 65536 → s.halfBusy c = false → (tfind s.cores c.core).isSome →
      Source s c (fun _ => False) false c.a.toNat c.c.toNat f →
      ∃ t, done t ∧ (half t).filled = true ∧ (half t).ig = (tget s.strands c.strand).ig ∧ (half t).base = c.b.extractLsb' 16 40 ∧
        (∀ j, j < c.c.toNat → cget (half t).mem (off + j) = f j) ∧
        ∀ j, ¬(off ≤ j ∧ j < off + c.c.toNat) → cget (half t).mem j = cget (half s).mem j)

/-- R236, R429: a command of which only the completion word is left writes it, if its address is one that it may write, and ends: VLD,
the error flag, the error code and the bytes performed. -/
def Sys2Proof.Claims.CompletionWords : Prop :=
  ∀ (s : State) (n : Nat) (c : Cmd) (kind pa : Nat → Nat), tfind s.cmds n = some c → c.op ≠ .sqkill → c.op ≠ .sfpool → underTl c.op = false →
    c.state = .started → c.wordLeft = true → c.wordSent = false → c.units = [] → c.window = none → c.td = none →
    c.ta = none → c.ta2 = none → c.tb = none → s.halfBusy c = false → Calm s c.strand → Unhindered s c 0 →
    c.cwa ≠ 0 → c.cwa % 8 = 0 → LogRoom s c 1 (fun _ => 8) →
    let D (k : Nat) : Prop := ∃ j, j < 8 ∧ k = memKey (kind j) (pa j)
    Reaches s c D 2 1 false c.cwa 8 kind pa → (∀ j, j < 8 → Writable (kind j) (pa j) 1) →
    ∃ t, exec (.copyCommandCompletion n) s = .next t ∧ Ended s t n c ∧
      (let w := BitVec.ofNat 64 (leNat ((List.range 8).map (fun j => cget t.mem (memKey (kind j) (pa j)))))
      w.getLsbD 63 = true ∧ w.getLsbD 62 = decide (c.error ≠ 0) ∧ w.extractLsb' 56 6 = c.error ∧ w.extractLsb' 40 16 = 0 ∧
        w.extractLsb' 0 40 = BitVec.ofNat 40 c.bytes) ∧
      ∀ k, ¬D k → cget t.mem k = cget s.mem k

/-- R257, R395, R398, R399: a copy whose source does not translate stalls with nothing stored, a record naming the address; one whose
source lies in the window of a route that its partition does not own ends with a record; SQKILL ends when nothing is before it
in its queue. -/
def Sys2Proof.Claims.QueueEnds : Prop :=
  ∀ (s : State) (n : Nat) (c : Cmd), tfind s.cmds n = some c →
    (c.op = .cpy → c.state = .started → c.wordLeft = false → c.prog = 0 → c.units = [] → 0 < c.c.toNat → c.imm.getLsbD 10 = false → c.queue < 16 →
      s.routeOf c.part c.b.toNat = none → s.routeBarred c.part c.b.toNat = false → (∀ l, s.cmdWalk c c.b.toNat = .leaf l → l.pr = false) →
      ∃ t, exec (.engineTranslationFault n) s = .next t ∧ t.mem = s.mem ∧ t.strands = s.strands ∧
        tfind t.cmds n = some { c with state := .stalled } ∧ (∀ m, m ≠ n → tfind t.cmds m = tfind s.cmds m) ∧
        ∃ r ∈ t.dev.waiting, r.cause = 0x0040 ∧ r.val = c.b ∧ r.slt = 7 ∧ r.strand = c.strand ∧ r.cmd = some n ∧
          r.aux.extractLsb' 59 5 = BitVec.ofNat 5 c.engine) ∧
    (c.op = .cpy → Runs s n c → c.td = none → Calm s c.strand → 0 < c.c.toNat → c.imm.getLsbD 10 = false →
      s.routeOf c.part c.b.toNat = none → s.routeBarred c.part c.b.toNat = true → s.dev.fatal.length < 64 →
      ∃ t, exec (.copyCommandCompletion n) s = .next t ∧ Ended s t n c ∧ t.mem = s.mem ∧
        ∃ r ∈ t.dev.fatal, r.cause = 0x0042 ∧ r.val = c.b ∧ r.slt = 7 ∧ r.strand = c.strand) ∧
    (c.op = .sqkill → (∀ x ∈ queueList s c.engine c.queue, n ≤ x.1) → Calm s c.strand →
      c.td = none → c.ta = none → c.ta2 = none → c.tb = none →
      ∃ t, exec (.copyCommandCompletion n) s = .next t ∧ Ended s t n c ∧ t.mem = s.mem)

/-- R72, R87, R236, R247 to R257, R398, R429: every command of a copy engine that may be performed now ends with the bytes of its rule in
memory, in its tile, in its window or in its half; its completion word says so; one whose walk fails stalls with a record.
That a command is performed at its completion, in ascending order of progress (log 5), the addresses of slice forms (log 44), the right
that additions ask for (log 45), how a killed queue goes on (log 51) and when a copy sets the format of its tile (log 98) are the model's
choices. -/
def Obligations.CopyCompletions : Prop :=
  Sys2Proof.Claims.MemoryCommands ∧ Sys2Proof.Claims.TileFills ∧ Sys2Proof.Claims.ChipCopies ∧ Sys2Proof.Claims.CompletionWords ∧
    Sys2Proof.Claims.QueueEnds

/-- R349, R350, R353 to R356: a pooling command that has started ends with the pooled
vector of every bag in its tile as FP32, zeros where a bag fails, and the mask of the bags that failed; a table's
load copies the rows of its hot segments by the translations of its plan, leaving out rows that cannot be read.
That a command is performed at its completion, the sign of a zero sum, and what a lost hot row does are the model's choices (log 5, 12 and 49). -/
def Obligations.PoolingEvents : Prop :=
  (∀ (s : State) (n : Nat) (c : Cmd) (th : BitVec 5), Writing s n c th → Calm s c.strand →
    c.op = .sfpool → c.state = .started → c.wordLeft = false → c.wordSent = false → c.cwa = 0 → c.units = [] → c.window = none →
    c.ta = none → c.ta2 = none → c.tb = none →
    let b := poolB c.c
    let l := poolL c.c
    let q := (l + 127) / 128
    b * q ≤ 16 → b ≤ 256 →
    let e := (tget s.strands c.strand).tile th
    ∃ t, exec (.poolingCompletion n) s = .next t ∧ Ended s t n c ∧ t.mem = s.mem ∧
      (let x := tget t.strands c.strand
      (x.tile th).ts = 2 ∧ (x.tile th).ft = 1 ∧
      (∀ g j, g < b → j < 128 * q → leNat (x.tileBytes e (512 * q * g + 4 * j) 4) = match bagOf s c g with
        | some rows => if j < l then poolElem rows j % 2 ^ 32 else 0
        | none => 0) ∧
      ∀ g, g < b → (leNat (cread x.smem (32 * c.imm.toNat) 32)).testBit g = (bagOf s c g).isNone)) ∧
  (∀ (s : State) (part table n : Nat) (p : Plan), (tfind s.parts part).isSome →
    (tget s.parts part).plans.find? (fun e => e.2.tid = table && !e.2.loaded) = some (n, p) → segmentsChain p.nr 0 p.segs = true →
    let rs := rowStride p.fmt p.dim
    let row (g : Segment) (i : Nat) : Option (List Byte) :=
      s.tierBytes part (fun va => if 2 ^ 56 ≤ va then .absent else s.walkBy part p.tables p.regs (BitVec.ofNat 56 va)) (g.va.toNat + rs * i) rs
    ∃ (t : State) (p' : Plan), exec (.hotSegmentLoad part table) s = .next t ∧ t.mem = s.mem ∧ t.strands = s.strands ∧
      tfind (tget t.parts part).plans n = some p' ∧ { p' with hot := p.hot, loaded := p.loaded, lostRows := p.lostRows } = p ∧
      p'.loaded = true ∧
      (∀ g ∈ p.segs, g.tr = 0 → ∀ i, i < g.sn → ∀ l, row g i = some l → cread p'.hot (rs * (g.fr + i)) rs = l) ∧
      ∀ r, r ∈ p'.lostRows ↔ r ∈ p.lostRows ∨ ∃ g ∈ p.segs, g.tr = 0 ∧ ∃ i, i < g.sn ∧ r = g.fr + i ∧ row g i = none)

/-- R45, R93, R141, R260, R263: FENCE completes on every state, and the next bundle waits while an atomic of the strand is held; FRD of a
full cell returns its value; FRD of a cell
that is not full, after the prefix, is a future-order trap; FFILL of a full cell is a future-state trap, and of one
with no waiter it stores the value and makes the cell full. Each also fences its cluster's cache. -/
def Sys2Proof.Claims.FullCells : Prop :=
  (∀ (s : State) (o : FmtEA), (∀ x ∈ (tget s.clusters s.cl).lines, x.1 < 2 ^ 33) →
    ∃ t, exec (.fence o) s = .next t ∧ Fenced s t s.cl (o.imm.toNat % 8) ∧
      OnlyMe s t (fencedBy s (o.imm.toNat % 8) s.me)) ∧
  (∀ s : State, s.me.fenced = true → anyHeld s.me = true → s.issueBundle = .next { s with issue := { status := .wait } }) ∧
  (∀ (s : State) (o : FmtEA) (p : Place), (∀ x ∈ (tget s.clusters s.cl).lines, x.1 < 2 ^ 33) →
    let a := s.reg o.sa
    (CellAt s a 1 p → fld (homeWord s p 8) 62 2 = 1 → CellFree s p → ∃ t, exec (.frd o) s = .next t ∧ Fenced s t s.cl 3 ∧
      OnlyMe s t (fencedBy s 3 (flying s 1 (.scalar o.sd (homeWord s p 0))))) ∧
    (CellAt s a 1 p → fld (homeWord s p 8) 62 2 ≠ 1 → s.gang.prefixOver = true → Traps (.frd o) s 0x000F a) ∧
    (CellAt s a 6 p → fld (homeWord s p 8) 62 2 = 1 → Traps (.ffill o) s 0x0010 a) ∧
    (a.toNat % 16 ≠ 0 → Traps (.frd o) s 0x0006 a ∧ Traps (.ffill o) s 0x0006 a) ∧
    (CellAt s a 6 p → fld (homeWord s p 8) 62 2 ≠ 1 → fld (homeWord s p 8) 0 56 / 64 = 0 → anyHeld s.me = false → CellFree s p →
      (s.logAll s.me.part (s.tenantOf s.me) (pagesOf p.kind p.va 16)).2 = true → p.pa % 16 = 0 → p.pa + 16 ≤ 2 ^ 52 → Writable p.kind p.pa 16 →
      (∀ x ∈ s.strands, x.2.fol ≠ 0) →
      ∃ t, exec (.ffill o) s = .next t ∧ (tget t.clusters s.cl).lines = [] ∧ t.strands = s.strands ∧
        BitVec.ofNat 64 (cnum t.mem (memKey p.kind p.pa) 8) = s.reg o.sb ∧
        (let w := BitVec.ofNat 64 (cnum t.mem (memKey p.kind p.pa + 8) 8)
        fld w 62 2 = 1 ∧ fld w 0 56 / 64 = 0) ∧
        ∀ k, ¬(memKey p.kind p.pa ≤ k ∧ k < memKey p.kind p.pa + 16) →
          cget t.mem k = if k < 2 ^ 39 then homeByte s s.cl k else cget s.mem k))

/-- R45, R382: FRD of an empty cell in the prefix squashes its gang: the cell's chain begins with the reader's folio, the reader keeps the
chain's old head and awaits one fill more, a record names the cell, the bundle ends, and no strand of the gang, all of which have
operations outstanding, issues any more. The same holds of another strand of the gang that reads before the squash takes effect: it
awaits its own fill, on its own folio. -/
def Sys2Proof.Claims.SquashBegins : Prop :=
  ∀ (s : State) (o : FmtEA) (p : Place),
    let a := s.reg o.sa
    let w := homeWord s p 8
    let g := s.gang
    CellAt s a 1 p → fld w 62 2 ≠ 1 → g.prefixOver = false → CellFree s p → p.pa % 16 = 0 → Writable p.kind p.pa 16 →
    (tfind s.gangs s.me.gang).isSome → g.halt = none ∨ g.halt = some { st := 2 } → g.killed = false → g.stopped = false → s.cur ∈ g.strands →
    g.strands.Nodup → (∀ k ∈ g.strands, (tfind s.strands k).isSome ∧ (tget s.strands k).drained = false ∧ (tget s.strands k).written = false ∧
      (tget s.strands k).ended = false) →
    s.me.fb.toNat % 8 = 0 →
    (∀ m l, (∀ k, k / 64 ≠ memKey p.kind p.pa / 64 → cget m k = cget s.mem k) →
      ({ s with mem := m } : State).walk s.me.part (BitVec.ofNat 56 s.me.fb.toNat) = .leaf l →
      memKey l.kd (l.at s.me.fb.toNat) / 64 ≠ memKey p.kind p.pa / 64) →
      ∃ t, exec (.frd o) s = .next t ∧ t.issue.status = .ended ∧
        BitVec.ofNat 64 (cnum t.mem (memKey p.kind p.pa) 8) = homeWord s p 0 ∧
        (let w' := BitVec.ofNat 64 (cnum t.mem (memKey p.kind p.pa + 8) 8)
        fld w' 6 50 = s.me.fol.toNat / 64 ∧ fld w' 62 2 = fld w 62 2) ∧
        t.me.wc = s.me.wc + 1 ∧ t.me.link = w &&& 0x00FF_FFFF_FFFF_FFC0 ∧
        (∀ k ∈ g.strands, k ≠ s.cur → (tget t.strands k).wc = (tget s.strands k).wc) ∧
        (∀ k ∈ g.strands, (tget t.strands k).halted = true) ∧ (tget t.gangs s.me.gang).halt = some { st := 2 } ∧
        ∃ r ∈ t.dev.waiting, r.cause = 0x0019 ∧ r.val = BitVec.ofNat 64 p.va ∧ r.strand = s.cur ∧ r.slt = 7

/-- R45, R46: FRD of an empty cell in the prefix by a gang of one strand with nothing outstanding squashes it at once: its folio is
written with ST 2, SC one higher and WC one higher, its registers are discarded, its PC is its entry, and it has left its
cluster without being placeable. -/
def Sys2Proof.Claims.SquashEnds : Prop :=
  ∀ (s : State) (o : FmtEA) (p : Place),
    let g := s.gang
    CellAt s (s.reg o.sa) 1 p → fld (homeWord s p 8) 62 2 ≠ 1 → g.prefixOver = false → CellFree s p →
    (tfind s.gangs s.me.gang).isSome → (tfind s.strands s.cur).isSome → g.halt = none → g.killed = false → g.stopped = false →
    g.strands = [s.cur] → g.bars = [] → s.me.drained = true → s.me.written = false → s.me.halted = false → s.me.ended = false → s.grantWaits s.me.part s.cur = false →
    s.me.wc ≠ -1 →
      ∃ t, exec (.frd o) s = .next t ∧ t.issue.status = .ended ∧ t.me.st = 2 ∧ t.me.wc = s.me.wc + 1 ∧
        t.me.sc = (if s.me.sc = 255 then 255 else s.me.sc + 1) ∧ t.me.pc = s.me.entry ∧ (∀ n, t.me.sysreg n = 0) ∧ (∀ r, t.me.reg r = 0) ∧
        t.me.planes = [] ∧ t.me.resident = false ∧ (tget t.gangs s.me.gang).placed = false ∧
        (tget t.gangs s.me.gang).halt = none ∧ (tget t.gangs s.me.gang).prefixOver = false ∧
        (∀ q x, (tget (tget t.parts q).queues x).head = (tget (tget s.parts q).queues x).head)

/-- R46: FFILL of a cell on which one folio waits: the waiter awaits one fill less and is on no chain, and its gang, if it was squashed,
has left its cluster and no strand of it awaits a fill, enters the queue named by SQ at the head. -/
def Sys2Proof.Claims.FillsWake : Prop :=
  ∀ (s : State) (o : FmtEA) (p : Place) (k : Nat) (x : Strand),
    let w := homeWord s p 8
    let g := tget s.gangs x.gang
    let queue (u : State) : PQueue := tget (tget u.parts g.part).queues (tget s.batches g.batch).queue
    CellAt s (s.reg o.sa) 6 p → fld w 62 2 ≠ 1 → anyHeld s.me = false → CellFree s p →
    (s.logAll s.me.part (s.tenantOf s.me) (pagesOf p.kind p.va 16)).2 = true →
    tfind s.strands k = some x → x.part = s.me.part → x.fol.setWidth 64 = w &&& 0x00FF_FFFF_FFFF_FFC0 → 0 < x.wc.toNat → x.link = 0 →
    (∀ e ∈ s.strands, e.2.fol ≠ 0 ∧ (e = (k, x) ∨ e.2.fol ≠ x.fol)) →
      ∃ t, exec (.ffill o) s = .next t ∧ (tget t.strands k).wc = x.wc - 1 ∧ (tget t.strands k).link = 0 ∧
        (∀ m, m ≠ k → (tget t.strands m).wc = (tget s.strands m).wc) ∧
        (x.st = 2 → g.halt = none → g.placed = false → (tfind s.parts g.part).isSome →
          (∀ j ∈ g.strands, (if j = k then x.wc - 1 else (tget s.strands j).wc) = 0) → (queue t).head = (queue s).head ++ [x.gang]) ∧
        (x.wc ≠ 1 → k ∈ g.strands → (queue t).head = (queue s).head)

/-- R45, R46, R93, R141, R260, R263: FENCE; FRD of full and empty cells, in the prefix and after it; FFILL of full and empty cells, with
and without a waiter.
Which codes of FST are full (log 53), when an access of a cell is performed (log 4 and 29) and the cluster cache's part (log 33) are the
model's choices. -/
def Obligations.FencesAndFutures : Prop :=
  Sys2Proof.Claims.FullCells ∧ Sys2Proof.Claims.SquashBegins ∧ Sys2Proof.Claims.SquashEnds ∧ Sys2Proof.Claims.FillsWake

/-- R134 to R139, R261: ACQ of an object that nobody waits for is granted where R136 allows, with its value as the result,
and otherwise joins the queue and waits; REL by a holder makes the object free or lowers its count; the unbound
index, a second ACQ by the exclusive holder and a REL without a hold trap. -/
def Sys2Proof.Claims.SyncRequests : Prop :=
  ∀ (s : State) (o : FmtEA) (b : Binding), (∀ x ∈ (tget s.clusters s.cl).lines, x.1 < 2 ^ 33) →
    let x := (s.reg o.sa).toNat + o.imm.toNat % 512
    let excl := decide (o.imm.toNat / 512 = 0)
    let v : Word := ofBool 1 b.bk ++ (0 : BitVec 31) ++ b.seq
    let now (t : State) : Binding := tget (tget t.parts s.me.part).bindings x
    let region (ln : Nat) : Bool := s.regionHas s.me.part b ln
    let flushed (t : State) (drop : Bool) : Prop :=
      (∀ k, 2 ^ 39 ≤ k → cget t.mem k = cget s.mem k) ∧
      ∀ pa, pa < 2 ^ 39 → cget t.mem pa = (if 2 ≤ b.hsc.toNat ∧ region (pa / 64) = true then homeByte s s.cl pa else cget s.mem pa) ∧
        (tfind (tget t.clusters s.cl).lines (pa / 64) = none ↔ tfind (tget s.clusters s.cl).lines (pa / 64) = none ∨
          (drop = true ∧ 2 ≤ b.hsc.toNat ∧ region (pa / 64) = true))
    (x < 4096 → tget (tget s.parts s.me.part).bindings x = b → b.bv = true → (tfind s.parts s.me.part).isSome → b.waiters = [] →
      (((excl = true ∧ b.md = 0) ∨ (excl = false ∧ (b.md = 0 ∨ b.md = 2))) →
        ∃ t, exec (.acq o) s = .next t ∧ OnlyMe s t (flying s 1 (.scalar o.sd v)) ∧ flushed t true ∧
          now t = (if excl then { b with md := 1, own := s.me.fol } else { b with md := 2, sh := b.sh + 1 })) ∧
      ((excl = true ∧ b.md = 2) ∨ (b.md = 1 ∧ b.own ≠ s.me.fol) →
        ∃ t, exec (.acq o) s = .next t ∧ t.issue.status = .wait ∧ t.strands = s.strands ∧ MemSame s t ∧
          now t = { b with waiters := [{ strand := s.cur, excl := excl }] }) ∧
      (b.md = 1 → b.own = s.me.fol → Traps (.acq o) s 0x000E (BitVec.ofNat 64 x)) ∧
      (b.md = 1 → b.own = s.me.fol → anyHeld s.me = false →
        ∃ t, exec (.rel o) s = .next t ∧ t.strands = s.strands ∧ flushed t false ∧
          now t = { b with seq := b.seq + 1, bk := false, own := 0, md := 0 }) ∧
      (b.md = 2 → anyHeld s.me = false → ∃ t, exec (.rel o) s = .next t ∧ t.strands = s.strands ∧ flushed t false ∧
          now t = { b with sh := b.sh - 1, md := if b.sh ≤ 1 then 0 else 2 }) ∧
      (b.md = 0 ∨ (b.md = 1 ∧ b.own ≠ s.me.fol) → Traps (.rel o) s 0x000E (BitVec.ofNat 64 x))) ∧
    (4096 ≤ x ∨ (tget (tget s.parts s.me.part).bindings x).bv = false →
      Traps (.acq o) s 0x000D (BitVec.ofNat 64 x) ∧ Traps (.rel o) s 0x000D (BitVec.ofNat 64 x))

/-- R136, R138: REL by the exclusive holder hands the object over to the strand whose request is the oldest: that one holds it, its
request is granted with the new sequence number, and its ACQ, issued again, completes with that value. -/
def Sys2Proof.Claims.SyncHandOver : Prop :=
  (∀ (s : State) (o : FmtEA) (b : Binding) (r : SyncReq) (rest : List SyncReq),
    let x := (s.reg o.sa).toNat + o.imm.toNat % 512
    let now (t : State) : Binding := tget (tget t.parts s.me.part).bindings x
    let v : Word := BitVec.setWidth 64 (b.seq + 1)
    x < 4096 → now s = b → b.bv = true → b.md = 1 → b.own = s.me.fol → anyHeld s.me = false → (tfind s.parts s.me.part).isSome →
    b.waiters = r :: rest → (∀ q ∈ b.waiters, q.granted = false) →
      ∃ t, exec (.rel o) s = .next t ∧ t.strands = s.strands ∧ (now t).seq = b.seq + 1 ∧ (now t).bk = false ∧
        (now t).waiters.head? = some { r with granted := true, value := v } ∧
        (r.excl = true → (now t).md = 1 ∧ (now t).own = (tget s.strands r.strand).fol ∧ (now t).waiters.tail = rest) ∧
        (r.excl = false → (now t).md = 2 ∧ (now t).own = 0 ∧ 1 ≤ (now t).sh - b.sh)) ∧
  (∀ (s : State) (o : FmtEA) (b : Binding) (r : SyncReq),
    let x := (s.reg o.sa).toNat + o.imm.toNat % 512
    let now (t : State) : Binding := tget (tget t.parts s.me.part).bindings x
    x < 4096 → now s = b → b.bv = true → (tfind s.parts s.me.part).isSome →
    b.waiters.find? (fun q => q.strand = s.cur) = some r → r.granted = true →
      ∃ t, exec (.acq o) s = .next t ∧ OnlyMe s t (flying s 1 (.scalar o.sd r.value)) ∧
        now t = { b with waiters := b.waiters.filter (fun q => q.strand ≠ s.cur) })

/-- R134 to R139, R261: ACQ and REL on objects that nobody waits for, and the hand-over to a strand that waits.
What a halt does to a granted ACQ (log 37) and to a waiting one whose binding is made invalid (log 99) are the model's readings. -/
def Obligations.SyncObjects : Prop :=
  Sys2Proof.Claims.SyncRequests ∧ Sys2Proof.Claims.SyncHandOver

/-- R262: BARA and BAR arrive; the arrival that completes a phase raises it and lets the waiting ranks go, any other is
remembered and a BAR waits; BARA returns the phase it found; BARW waits exactly while the phase is the one given;
an arrival that is not a participant's or under another mask is a sync-state trap; one of a strand whose accesses are held, which is
a release (R143), waits, of BAR as of BARA.
Which accesses an arbiter holds is the model's choice (log 70). -/
def Obligations.Barriers : Prop :=
  ∀ (s : State) (o : FmtEA),
    let b := o.imm.toNat % 16
    let m : BitVec 4 := o.imm.extractLsb' 4 4
    let x := tget s.gang.bars b
    let now (t : State) : Barrier := tget (tget t.gangs s.me.gang).bars b
    let raised : Barrier := { x with arrived := [], mask := m, phase := x.phase + 1, waiting := [], released := x.released ++ x.waiting }
    (Arrives s b m True → ∃ t, exec (.bara o) s = .next t ∧ MemSame s t ∧ OnlyMe s t (flying s 1 (.scalar o.sd (x.phase.setWidth 64))) ∧
      now t = raised) ∧
    (Arrives s b m False → ∃ t, exec (.bara o) s = .next t ∧ MemSame s t ∧ OnlyMe s t (flying s 1 (.scalar o.sd (x.phase.setWidth 64))) ∧
      (now t).phase = x.phase ∧ (now t).mask = m ∧ (now t).waiting = x.waiting ∧
      ∀ r, r ∈ (now t).arrived ↔ r = s.me.rank ∨ r ∈ x.arrived) ∧
    (s.me.rank ∉ x.released → Arrives s b m True → ∃ t, exec (.bar o) s = .next t ∧ MemSame s t ∧ t.strands = s.strands ∧
      t.issue = s.issue ∧ now t = raised) ∧
    (s.me.rank ∉ x.released → Arrives s b m False → ∃ t, exec (.bar o) s = .next t ∧ MemSame s t ∧ t.strands = s.strands ∧
      t.issue.status = .wait ∧ (now t).phase = x.phase ∧ s.me.rank ∈ (now t).waiting ∧
      ∀ r, r ∈ (now t).arrived ↔ r = s.me.rank ∨ r ∈ x.arrived) ∧
    (s.me.rank ∈ x.released → (tfind s.gangs s.me.gang).isSome → ∃ t, exec (.bar o) s = .next t ∧ MemSame s t ∧
      OnlyMe s t (fencedBy s 1 s.me) ∧ t.issue = s.issue ∧ now t = { x with released := x.released.filter (· ≠ s.me.rank) }) ∧
    (s.me.rank ∈ partRanks s m → x.arrived = [] ∨ x.mask = m → anyHeld s.me = true →
      Waits (.bara o) s ∧ (s.me.rank ∉ x.released → Waits (.bar o) s)) ∧
    (x.phase ≠ (s.reg o.sa).extractLsb' 0 16 → ∃ t, exec (.barw o) s = .next t ∧ MemSame s t ∧
      OnlyMe s t (fencedBy s 1 s.me) ∧ t.issue = s.issue ∧ t.gangs = s.gangs) ∧
    (x.phase = (s.reg o.sa).extractLsb' 0 16 → Waits (.barw o) s) ∧
    (s.me.rank ∉ partRanks s m ∨ (x.arrived ≠ [] ∧ x.mask ≠ m) → Traps (.bara o) s 0x000E (BitVec.ofNat 64 b) ∧
      (s.me.rank ∉ x.released → Traps (.bar o) s 0x000E (BitVec.ofNat 64 b)))

/-- R47, R72, R143, R260, R264: PWR appends to a pipe with room, once no atomic of its strand is held, and PRD takes the oldest value of one that is not empty; WAIT
goes on exactly where no counter, without the bundle's own operations, is above its limit; each waits otherwise; a pipe at or above PN is a window trap. -/
def Obligations.PipesAndWaits : Prop :=
  ∀ (s : State) (o : FmtEA), (tfind s.gangs s.me.gang).isSome →
    let n := o.imm.toNat % 16
    let l := tget s.gang.pipes n
    let room := (tget s.batches s.gang.batch).pd + 1
    let put (q : List Word) : State := s.onGang s.me.gang (fun g => { g with pipes := tset g.pipes n q })
    let within := s.me.ldq.length - s.issue.ownLd ≤ o.sa.toNat ∧ s.me.stq.length - s.issue.ownSt ≤ o.sb.toNat ∧ s.me.cpq.length ≤ o.sc.toNat ∧ s.me.tlq.length ≤ o.imm.toNat
    (n < (tget s.batches s.gang.batch).pn →
      (l.length < room → anyHeld s.me = false → exec (.pwr o) s = .next (put (l ++ [s.reg o.sa]))) ∧
      (room ≤ l.length ∨ anyHeld s.me = true → Waits (.pwr o) s) ∧
      (∀ v r, l = v :: r → ∃ t, exec (.prd o) s = .next t ∧ MemSame s t ∧
        OnlyMe s t (fencedBy s 1 (flying s 1 (.scalar o.sd v))) ∧
        tget (tget t.gangs s.me.gang).pipes n = r) ∧ (l = [] → Waits (.prd o) s)) ∧
    ((tget s.batches s.gang.batch).pn ≤ n → Traps (.pwr o) s 0x0003 (BitVec.ofNat 64 n) ∧ Traps (.prd o) s 0x0003 (BitVec.ofNat 64 n)) ∧
    (within → exec (.wait o) s = .next s) ∧ (¬within → Waits (.wait o) s)

/-- R31, R48, R265: END and YIELD complete their bundle; END leaves the strand ended, YIELD with ST 1 and passed over; an
ended strand whose operations have completed retires with ST 5 and frees its context, and with the last strand of
its gang the gang is over and counted; a batch whose gangs are over becomes complete and its completion word says
so. -/
def Obligations.Ends : Prop :=
  (∀ (s : State) (o : FmtEA), s.issue.bound = none → ∃ t, exec (.endR o) s = .next t ∧ MemSame s t ∧
    OnlyMe s t { bundleDone s with ended := true } ∧ t.issue.status = .ended) ∧
  (∀ (s : State) (o : FmtEA), s.issue.bound = none → s.gang.pre = none → ∃ t, exec (.yield o) s = .next t ∧
    t.issue.status = .ended ∧ t.me = { bundleDone s with st := 1, fs := false, yieldHold := t.me.yieldHold } ∧
    (∃ l, t.me.yieldHold = some l) ∧ ∀ k, k ≠ s.cur → tfind t.strands k = tfind s.strands k) ∧
  (∀ (s : State) (k : Nat),
    let x := tget s.strands k
    (tfind s.strands k).isSome → x.ended = true → x.resident = true → x.ldq = [] → x.stq = [] → x.cpq = [] → x.tlq = [] →
    x.micro.mv = false → (tget s.gangs x.gang).halt = none → ∃ t, exec (.strandRetirement k) s = .next t ∧
      (tget t.strands k).st = 5 ∧ (tget t.strands k).resident = false ∧ (tget t.strands k).fs = false ∧
      ((tfind s.gangs x.gang).isSome → (tfind s.batches (tget s.gangs x.gang).batch).isSome →
        (∀ j ∈ (tget s.gangs x.gang).strands, j = k ∨ (tget s.strands j).st = 5) →
        (tget t.gangs x.gang).placed = false ∧
        (tget t.batches (tget s.gangs x.gang).batch).gangsEnded = (tget s.batches (tget s.gangs x.gang).batch).gangsEnded + 1)) ∧
  (∀ (s : State) (n : Nat) (b : Batch), tfind s.batches n = some b → b.complete = false → b.gc ≤ b.gangsEnded →
    (∀ x ∈ s.cmds, (tget s.strands x.2.strand).batch ≠ n) → (∀ w ∈ b.suc, w = 0) → (∀ c ∈ s.clusters, c.2.lines = []) →
    ∃ t, exec (.batchCompletion n) s = .next t ∧ tfind t.batches n = some { b with complete := true } ∧ t.strands = s.strands ∧
      (b.cwa = 0 → t.mem = s.mem) ∧
      ∀ l, b.cwa ≠ 0 → s.walk b.part b.cwa = .leaf l → l.pw = true → l.kd < 2 → b.cwa.toNat % 8 = 0 → paExists l.kd (l.at b.cwa.toNat) 8 = true →
        let w := BitVec.ofNat 64 (cnum t.mem (memKey l.kd (l.at b.cwa.toNat)) 8)
        w.getLsbD 63 = true ∧ w.getLsbD 62 = b.error ∧ w.extractLsb' 32 30 = 0 ∧ w.extractLsb' 0 32 = b.ticket.extractLsb' 0 32)

/-- R34 to R38, R41, R141, R266: LAUNCH, once no access of its strand is held and while no arbiter would hold its reads, writes back and invalidates its cluster's cache, which is its
release, and then makes its checks in the order of R37: the record address's alignment; reasons 5 and 1 without a read; the
translations of the record, the binding list's header and body and the parameter window table, each of which may trap; reasons 2, 3
and 4; a batch that passes them enters its queue with the next sequence number and its groups and bindings, and its ticket is the
result. Nothing but the release, the bytes counted for its reads (R325) and the result is left of a LAUNCH that is refused, and nothing
of one that traps.
That a header out of range is refused before the body is read (log 84) and that LAUNCH reads memory at its home (log 33) are the
model's choices. -/
def Obligations.Launches : Prop :=
  (∀ (s : State) (o : FmtEA), anyHeld s.me = true → Waits (.launch o) s) ∧
  ∀ (s : State) (o : FmtEA), anyHeld s.me = false → (∀ e ∈ (tget s.clusters s.cl).lines, e.1 < 2 ^ 33) →
    (∀ kind pa, Served s [(kind, pa)]) →
    ∃ r : State, Fenced s r s.cl 3 ∧ r.strands = s.strands ∧ (∀ n, (tfind r.parts n).isSome = (tfind s.parts n).isSome ∧ ∃ sv la, tget r.parts n =
      { tget s.parts n with served := sv, later := la }) ∧ r.batches = s.batches ∧ r.nextId = s.nextId ∧ r.cur = s.cur ∧
    r.issue = s.issue ∧
    let a := (s.reg o.sa).toNat
    let queue := o.imm.toNat % 16
    let part := s.me.part
    let q := tget (tget s.parts part).queues queue
    let refused (n : Nat) : Prop := exec (.launch o) s = .next (r.landS 1 o.sd (BitVec.ofNat 64 (2 ^ 63 + n)))
    let traps (x : Res (List (Place × Nat))) : Prop := ∀ tr, x = .error (.trap tr) →
      ∃ t, exec (.launch o) s = .next t ∧ t.issue.status = .trapped { tr with slot := if tr.slot = 7 then 7 else s.issue.slot }
    (a % 64 ≠ 0 → Traps (.launch o) s 0x0006 (s.reg o.sa)) ∧
    (a % 64 = 0 →
      (q.qe = false ∨ q.shut = true → refused 5) ∧
      (q.qe = true → q.shut = false → 1024 ≤ q.batches.length → refused 1) ∧
      (q.qe = true → q.shut = false → q.batches.length < 1024 →
        (2 ^ 56 ≤ a ∨ (∀ l, r.walk part (BitVec.ofNat 56 a) ≠ .leaf l) → ∃ t, exec (.launch o) s = .next t ∧ t.issue.status = .trapped
          { cause := 0x0020, val := s.reg o.sa, aux := BitVec.ofNat 64 (2 * 2 ^ 52 + 2 ^ 49), slot := s.issue.slot }) ∧
        (∀ l, a < 2 ^ 56 → r.walk part (BitVec.ofNat 56 a) = .leaf l →
          (l.kd = 2 → Traps (.launch o) s 0x0009 (s.reg o.sa)) ∧
          (l.kd ≠ 2 → l.pr = false → Traps (.launch o) s 0x0008 (s.reg o.sa))) ∧
        traps (r.vPlaces a 128 2 1) ∧
        ∀ ps, r.vPlaces a 128 2 1 = .ok ps →
          let d := r.readPlaces ps
          let bla := fld (dwAt d 0x70) 6 50 * 64
          (bla ≠ 0 → traps (r.vPlaces bla 16 2 1)) ∧
          ∀ hs, (if bla = 0 then hs = [] else r.vPlaces bla 16 2 1 = .ok hs) →
            let head := r.readPlaces hs
            let ng := fld (dwAt head 0) 0 8
            let nb := fld (dwAt head 0) 8 8
            let many := 24 < ng ∨ 64 < nb
            (bla ≠ 0 → ¬many → traps (r.vPlaces (bla + 16) (16 * ng + 8 * nb) 2 1)) ∧
            ∀ bs, (if bla = 0 ∨ many then bs = [] else r.vPlaces (bla + 16) (16 * ng + 8 * nb) 2 1 = .ok bs) →
              let body := r.readPlaces bs
              let pwt := fld (dwAt d 0x30) 6 50 * 64
              traps (r.vPlaces pwt 64 2 1) ∧
              ∀ qs, r.vPlaces pwt 64 2 1 = .ok qs →
                let b : Batch := { launched s queue d with
                  groups := (List.range ng).map (fun i => dwAt body (16 * i + 8) ++ dwAt body (16 * i)),
                  binds := (List.range nb).map (fun i => dwAt body (16 * ng + 8 * i)) }
                let bad := many ∨ recordOk d = false ∨ bindingsOk head b = false ∨
                  ∃ i, i < 8 ∧ descriptorOk (dwAt (r.readPlaces qs) (8 * i)) = false
                let fits := (fitGang part b.ig (List.replicate 12 Room.empty) b.needs).isSome
                (bad → refused 2) ∧
                (¬bad → b.ig ∈ (tget s.parts part).unloaded → refused 3) ∧
                (¬bad → b.ig ∉ (tget s.parts part).unloaded → ¬fits → refused 4) ∧
                (¬bad → b.ig ∉ (tget s.parts part).unloaded → fits → (tfind s.parts part).isSome →
                  ∃ t, exec (.launch o) s = .next t ∧ MemSame r t ∧ OnlyMe r t (flying r 1 (.scalar o.sd b.ticket)) ∧
                    t.nextId = s.nextId + 1 ∧ tfind t.batches s.nextId = some b ∧
                    tget (tget t.parts part).queues queue = { q with batches := q.batches ++ [s.nextId], seq := nextSeq q.seq })))

/-- R268, R269, R385: the system instructions that read or write the context's registers complete on every state with the
value of their rule, at latency 1 or at once, and change nothing else. -/
def Obligations.SystemRegisters : Prop :=
  (∀ (s : State) (i : Instr) (d : BitVec 6) (v : Word), systemRule s i = some (d, v) → exec i s = .next (s.landS 1 d v)) ∧
  (∀ (s : State) (i : Instr) (t : Strand), systemWrite s i = some t → exec i s = .next (s.setMe t))

/-- R270, R379, R383: taking an exception. A V-class trap of a strand outside a handler with a vector set enters the
handler from the trapping bundle; TRAP n completes its bundle first and its cause is 0x8000 + n; the frame is that of
Entered, memory and every other strand are as before. BRK, which enters no handler, completes its bundle and leaves a replayable
record that carries n (R268, R382).
What TRQ0 and TRQ1 hold of an entry that is not valid is the model's reading (log 23). -/
def Obligations.TrapEntry : Prop :=
  (∀ (s : State) (tr : Trap), s.me.ha = false → (s.me.sysreg 0).toNat % 2 ^ 56 / 8 ≠ 0 → tr.rett = false → tr.im0 = none →
    tr.delivery = .vector →
    Entered s.me (s.deliver tr).me (tr.cause.setWidth 64) tr.val ∧ (s.deliver tr).mem = s.mem ∧ (s.deliver tr).clusters = s.clusters ∧
      ∀ k, k ≠ s.cur → tfind (s.deliver tr).strands k = tfind s.strands k) ∧
  (∀ (s : State) (o : FmtEA), s.issue.bound = none → s.me.ha = false → (s.me.sysreg 0).toNat % 2 ^ 56 / 8 ≠ 0 →
    ∃ t, exec (.trap o) s = .next t ∧ t.issue.status = .ended ∧
      Entered (bundleDone s) t.me (0x8000 + o.imm.setWidth 64) 0 ∧ t.mem = s.mem ∧ t.clusters = s.clusters ∧
      ∀ k, k ≠ s.cur → tfind t.strands k = tfind s.strands k) ∧
  ∀ (s : State) (o : FmtEA), ∃ t, exec (.brk o) s = .next t ∧ t.issue.status = .ended ∧
    ∃ r ∈ t.dev.waiting, r.cause = 0x0018 ∧ r.val = BitVec.ofNat 64 (o.imm.toNat % 256) ∧ r.strand = s.cur ∧ r.part = s.me.part

/-- R140, R379, R381, R384: an undeliverable or F-class trap is posted to the fatal lane where it has room, with UD for the undeliverable
one, and stops its gang: no strand of it issues any more, each leaves with ST 8, or 5 if it has ended, and once all have left the gang is
stopped and over and its batch has the error mark. TCAUSE and TVAL of the trapping strand are those of the trap, its other system
registers as before; so its frame shows them when it is written. -/
def Sys2Proof.Claims.TrapStops : Prop :=
  ∀ (s : State) (tr : Trap), Undeliverable s tr ∨ (tr.im0 = none ∧ tr.delivery = .fatal) →
    let t := s.deliver tr
    let g := s.me.gang
    ((s.dev.fatal.filter (fun q => !q.mod && q.part = s.me.part)).length < 64 →
      ∃ r ∈ t.dev.fatal, r.ud = decide (tr.delivery = .vector) ∧ r.cause = tr.cause ∧ r.val = tr.val ∧ r.tpc = s.me.pc ∧
        r.strand = s.cur ∧ r.part = s.me.part ∧ r.fatal = true) ∧
    (LiveGang s →
      HaltsWith s t g 8 ∧ GoneWhere s t g ∧
      ((tget t.gangs g).halt = none → (tget t.gangs g).stopped = true ∧ (tget t.batches s.gang.batch).error = true) ∧
      (t.me.sysreg 2 = tr.cause.setWidth 64 ∧ t.me.sysreg 3 = tr.val ∧ ∀ n, n ≠ 2 → n ≠ 3 → t.me.sysreg n = s.me.sysreg n) ∧
      (t.me.pc = s.me.pc ∧ t.me.ended = false) ∧ LeftAlone s t)

/-- R268, R382: BRK completes its bundle on every state: a replayable record carries n and, where the bundle binds no opcode, names the next
bundle; no strand of its gang issues any more, each leaves with ST 3, or 5 if it has ended, and then the gang waits for its answer. -/
def Sys2Proof.Claims.Breakpoints : Prop :=
  ∀ (s : State) (o : FmtEA), ∃ t, exec (.brk o) s = .next t ∧ t.issue.status = .ended ∧
    (∃ r ∈ t.dev.waiting, r.cause = 0x0018 ∧ r.val = BitVec.ofNat 64 (o.imm.toNat % 256) ∧ r.slt = 7 ∧
      r.strand = s.cur ∧ r.part = s.me.part ∧ (s.issue.bound = none → r.tpc = (bundleDone s).pc)) ∧
    (LiveGang s → s.gang.halt = none →
      let g := s.me.gang
      HaltsWith s t g 3 ∧ (s.issue.bound = none ∨ s.me.ended = false → GoneWhere s t g) ∧
      ((tget t.gangs g).halt = none → (tget t.gangs g).answer = true ∨ ∀ k ∈ s.gang.strands, (tget t.strands k).st = 5) ∧
      (s.issue.bound = none → LeftAlone s t ∧ t.me.sys = s.me.sys ∧ (s.me.ended = false → t.me.pc = (bundleDone s).pc)))

/-- R24: the folio of a strand stands in memory, word by word with its fields, once it is written to a page that the device may write, and
no other byte of memory changes. An absent redirect entry is 0 (log 23). -/
def Sys2Proof.Claims.FolioBytes : Prop :=
  ∀ (s : State) (t : Strand) (l : Leaf), t.fol.toNat % 64 = 0 → s.walk t.part t.fol = .leaf l → l.kd < 2 → l.pw = true →
    paExists l.kd (l.at t.fol.toNat) 64 = true →
      let a := memKey l.kd (l.at t.fol.toNat)
      let w (i : Nat) : Word := BitVec.ofNat 64 (cnum (s.writeFolio t).mem (a + 8 * i) 8)
      let entry (w : Word) (o : Option Redirect) : Prop := match o with
        | none => w = 0
        | some e => w.getLsbD 63 = true ∧ w.extractLsb' 61 2 = e.rd ∧ w.getLsbD 60 = e.ra1 ∧ w.getLsbD 59 = e.ra2 ∧
            w.extractLsb' 56 3 = 0 ∧ w.extractLsb' 3 53 = e.rt.extractLsb' 3 53 ∧ w.extractLsb' 0 3 = 0
      w 0 = t.pc.setWidth 64 ∧ entry (w 1) t.rq[0]? ∧ entry (w 2) t.rq[1]? ∧ w 3 = t.fb.setWidth 64 ∧
      ((w 4).extractLsb' 36 28 = 0 ∧ (w 4).extractLsb' 32 4 = t.sq ∧ (w 4).extractLsb' 28 4 = 0 ∧ (w 4).extractLsb' 16 12 = t.fp ∧
        (w 4).extractLsb' 13 3 = t.rm ∧ (w 4).getLsbD 12 = t.wo ∧ (w 4).extractLsb' 7 5 = t.ff ∧ (w 4).getLsbD 6 = t.ha ∧
        (w 4).getLsbD 5 = t.cb ∧ (w 4).getLsbD 4 = t.fs ∧ (w 4).extractLsb' 0 4 = t.st) ∧
      ((w 5).extractLsb' 32 32 = t.bs ∧ (w 5).extractLsb' 16 16 = t.gi ∧ (w 5).extractLsb' 9 7 = 0 ∧
        (w 5).extractLsb' 7 2 = BitVec.ofNat 2 t.role ∧ (w 5).extractLsb' 0 7 = BitVec.ofNat 7 t.rank) ∧
      w 6 = t.pwb.setWidth 64 ∧
      ((w 7).extractLsb' 32 32 = t.ig ∧ (w 7).extractLsb' 16 16 = 0 ∧ (w 7).extractLsb' 8 8 = t.sc ∧ (w 7).extractLsb' 0 8 = t.wc) ∧
      ∀ k, ¬(a ≤ k ∧ k < a + 64) → cget (s.writeFolio t).mem k = cget s.mem k

/-- R75, R77, R78, R86, R101, R154, R295, R296, R401: the bytes of a strand's frame: its length, and at each offset the field that the rule
puts there. RS of a result that a running routine holds back (log 79) and TG of a tile entry (R365, log 73) are the model's readings. -/
def Sys2Proof.Claims.FrameBytes : Prop :=
  ∀ (t : Strand), t.fly.length ≤ 80 →
    let f := t.frameBytes
    let d := dwAt f
    let w := t.win
    let m := t.micro
    let planes := 20480
    let wt := planes + 4096 * w.pl
    let at_ := wt + 16384 * w.wt
    let ct := at_ + 16384 * w.at_
    let sb := ct + 4096 * w.ct
    let th := sb + 4096 * w.sb
    f.length = th + 16 * w.th ∧
    (d 0 = t.link ∧ (d 8).extractLsb' 0 8 = 1 ∧ (d 8).extractLsb' 8 8 = BitVec.ofNat 8 t.fly.length ∧ (d 8).getLsbD 16 = m.mv ∧
      (d 8).getLsbD 17 = t.restart.fv ∧ (d 8).extractLsb' 18 46 = 0 ∧
      (t.ldq = [] → t.stq = [] → t.cpq = [] → t.tlq = [] → d 0x10 = 0)) ∧
    (∀ p, p < 32 → (d (0x18 + 8 * (p / 16))).extractLsb' (4 * (p % 16)) 4 = cget t.ptag p) ∧
    (w.pl < 64 → w.th < 64 → w.wt < 64 → w.at_ < 32 → w.ct < 64 → w.sb < 64 →
      fld (d 0x28) 0 6 = w.pl ∧ fld (d 0x28) 6 6 = w.th ∧ fld (d 0x28) 12 6 = w.wt ∧ fld (d 0x28) 18 5 = w.at_ ∧
      fld (d 0x28) 23 6 = w.ct ∧ fld (d 0x28) 29 6 = w.sb ∧ fld (d 0x28) 35 29 = 0) ∧
    (∀ i, i < 16 →
      let h := tget t.hd i
      let a := d (0x40 + 16 * i)
      let b := d (0x48 + 16 * i)
      a.extractLsb' 62 2 = h.hs ∧ a.extractLsb' 59 3 = h.ps ∧ a.extractLsb' 56 3 = h.kd ∧ a.getLsbD 55 = h.pr ∧ a.getLsbD 54 = h.pw ∧
        a.getLsbD 53 = h.pa ∧ a.getLsbD 52 = false ∧ a.extractLsb' 12 40 = h.pb ∧ a.extractLsb' 0 12 = 0 ∧
        b.extractLsb' 56 8 = 0 ∧ b.extractLsb' 12 44 = h.vb ∧ b.extractLsb' 3 9 = 0 ∧ b.extractLsb' 0 3 = h.rq) ∧
    (let a := d 0x140
      let b := d 0x148
      a.getLsbD 63 = m.mv ∧ a.extractLsb' 62 1 = m.mc ∧ a.extractLsb' 57 5 = m.mop ∧ a.extractLsb' 43 14 = m.mpc ∧
        a.extractLsb' 30 13 = BitVec.ofNat 13 m.msn ∧ a.extractLsb' 18 12 = m.msb ∧ a.extractLsb' 4 14 = m.mra ∧ a.extractLsb' 0 4 = 0 ∧
        b.extractLsb' 56 8 = m.cf ∧ b.extractLsb' 51 5 = m.mf ∧ b.extractLsb' 49 2 = m.rmu ∧ b.extractLsb' 40 9 = 0 ∧
        b.extractLsb' 0 40 = m.opb ∧ (d 0x150).extractLsb' 48 16 = m.lc1 ∧ (d 0x150).extractLsb' 32 16 = m.lc0 ∧
        (d 0x150).extractLsb' 0 32 = 0 ∧ (∀ i, i < 4 → d (0x158 + 8 * i) = cget m.ag i) ∧ d 0x178 = 0) ∧
    (∀ i, i < 4 →
      let h := tget t.latches i
      let a := d (0x180 + 8 * i)
      a.getLsbD 63 = h.hv ∧ a.extractLsb' 15 48 = 0 ∧ a.extractLsb' 12 3 = h.pm ∧ a.extractLsb' 11 1 = h.hx ∧ a.extractLsb' 0 11 = h.hf) ∧
    (let r := t.restart
      let a := d 0x1C0
      a.getLsbD 63 = r.fv ∧ a.extractLsb' 58 5 = r.td ∧ a.getLsbD 57 = r.x ∧ a.extractLsb' 53 4 = r.fm ∧ a.extractLsb' 48 5 = r.ord ∧
        a.extractLsb' 0 48 = 0 ∧ (∀ i, i < 6 → d (0x1C8 + 8 * i) = r.desc.getD i 0) ∧ d 0x1F8 = r.lit.setWidth 64) ∧
    ((∀ i, i < 64 → d (0x200 + 8 * i) = t.reg (BitVec.ofNat 6 i)) ∧ (∀ j, j < 256 → wAt f (0x400 + 4 * j) = cget m.mt j) ∧
      (∀ i, i < 64 → d (0x800 + 8 * i) = cget t.bind i) ∧ (∀ i, i < 8 → d (0xA00 + 8 * i) = cget t.sys i) ∧
      ∀ i, i < 8 → d (0xA40 + 8 * i) = cget m.lp i) ∧
    (∀ i, i < 24 →
      let g := tget t.groups i
      let a := d (0xA80 + 16 * i)
      let b := d (0xA88 + 16 * i)
      a.getLsbD 63 = g.gv ∧ a.extractLsb' 57 6 = 0 ∧ a.extractLsb' 52 5 = g.gn ∧ a.extractLsb' 38 14 = g.gma ∧ a.extractLsb' 0 38 = 0 ∧
        b.extractLsb' 56 8 = 0 ∧ b.extractLsb' 12 44 = g.gsrc ∧ b.extractLsb' 0 12 = 0) ∧
    (∀ (i : Nat) (l : Landing), t.fly[i]? = some l → t.steps ≤ l.due → l.due < t.steps + 32 → l.origin < t.steps → t.steps ≤ l.origin + 32 →
      let o := 0x1000 + 144 * i
      let h := d o
      t.steps + fld h 59 5 = l.due ∧ l.origin + 1 + fld h 54 5 = t.steps ∧ h.extractLsb' 51 3 = l.slot ∧ h.extractLsb' 23 5 = l.ff ∧
        h.extractLsb' 0 23 = 0 ∧ d (o + 8) = 0 ∧ match l.dest with
        | .scalar n v => h.extractLsb' 48 3 = 0 ∧ h.extractLsb' 42 6 = n ∧ d (o + 16) = v
        | .handle n x => h.extractLsb' 48 3 = 1 ∧ h.extractLsb' 42 6 = n.setWidth 6 ∧ (d (o + 16)).extractLsb' 62 2 = x.hs ∧
            (d (o + 16)).extractLsb' 12 40 = x.pb ∧ (d (o + 24)).extractLsb' 12 44 = x.vb ∧ (d (o + 24)).extractLsb' 0 3 = x.rq
        | .line x pm vals _ tag => h.extractLsb' 48 3 = 2 ∧ h.extractLsb' 42 6 = x.pn.setWidth 6 ∧ h.extractLsb' 40 2 = x.dir ∧
            h.extractLsb' 35 5 = x.ix ∧ h.extractLsb' 32 3 = pm ∧ h.extractLsb' 28 4 = tag ∧
            ∀ k, k < 32 → wAt f (o + 16 + 4 * k) = vals.getD k 0
        | .none => True) ∧
    ((∀ j, j < 1024 * w.pl → wAt f (planes + 4 * j) = cget t.planes j) ∧ (∀ j, j < 16384 * w.wt → f.getD (wt + j) 0 = cget t.wmem j) ∧
      (∀ j, j < 16384 * w.at_ → f.getD (at_ + j) 0 = cget t.amem j) ∧ (∀ j, j < 4096 * w.ct → f.getD (ct + j) 0 = cget t.cmem j) ∧
      ∀ j, j < 4096 * w.sb → f.getD (sb + j) 0 = cget t.smem j) ∧
    ∀ i, i < w.th →
      let e := tget t.tiles i
      let a := d (th + 16 * i)
      a.extractLsb' 62 2 = e.ts ∧ a.extractLsb' 60 2 = e.tk ∧ a.extractLsb' 55 5 = e.bi ∧ a.extractLsb' 51 4 = e.ft ∧
        a.extractLsb' 48 3 = 0 ∧ a.extractLsb' 40 8 = BitVec.ofNat 8 e.rc ∧ a.extractLsb' 32 8 = BitVec.ofNat 8 e.dc ∧
        (e ≠ {} → a.extractLsb' 0 32 = t.gen) ∧ d (th + 16 * i + 8) = BitVec.ofNat 64 e.qc

/-- R271, R384, R386: a RETT that fails in a handler while TVEC is 0 is undeliverable: R384, which says so of every V-class trap, is followed
before R386 (log 89). -/
def Sys2Proof.Claims.ReturnStops : Prop :=
  ∀ (s : State) (o : FmtEA), s.me.ha = true → ¬hasVector s.me →
    ¬(fld (s.me.sysreg 4) 36 28 = 0 ∧ fld (s.me.sysreg 4) 28 4 = 0 ∧ fld (s.me.sysreg 4) 13 3 < 5 ∧ savedOk (s.me.sysreg 5) ∧
      savedOk (s.me.sysreg 6) ∧ goodTarget (s.me.sysreg 1)) →
      ∃ t tr, exec (.rett o) s = .next t ∧ t.issue.status = .trapped tr ∧ Undeliverable s tr ∧ t.strands = (s.deliver tr).strands ∧
        t.gangs = (s.deliver tr).gangs ∧ t.mem = (s.deliver tr).mem

/-- R24, R74, R75, R77, R78, R140, R268, R295, R296, R379, R381, R382, R384: what suspends or stops a gang at a bundle, an undeliverable or
F-class trap, TRAP among them, and BRK; and what stands in the folio and in the frame of a strand that leaves.
TCAUSE in the frame (log 32), the bundle that BRK's record names (log 35), how a TRAP op of a routine is delivered (log 91), a RETT that
fails while TVEC is 0 (log 89), an absent redirect entry (log 23), results that a routine holds back (log 79), snapshot entries beyond
the 80 of R77 (log 96) and TG of a tile entry in the frame, the generation of the strand's window (R365, log 73), are the model's
readings. -/
def Obligations.UndeliverableTraps : Prop :=
  Sys2Proof.Claims.TrapStops ∧ Sys2Proof.Claims.ReturnStops ∧
  (∀ (s : State) (o : FmtEA), s.me.ha = true ∨ ¬hasVector s.me → Traps (.trap o) s (0x8000 + o.imm.setWidth 16) 0) ∧
  Sys2Proof.Claims.Breakpoints ∧ Sys2Proof.Claims.FolioBytes ∧ Sys2Proof.Claims.FrameBytes

/-- R185, R271, R385, R386: the return from an exception. In a handler whose saved status is within its limits and whose
TEPC is a legal target, RETT restores RM, WO, FF, the redirect queue and PC and clears HA; outside a handler it is an
illegal-context trap; otherwise it raises the trap of the first check that fails, which, where TVEC is set, enters the handler again with
the cause and nothing else changed. -/
def Obligations.TrapReturn : Prop :=
  ∀ (s : State) (o : FmtEA),
    let st := s.me.sysreg 4
    let good := fld st 36 28 = 0 ∧ fld st 28 4 = 0 ∧ fld st 13 3 < 5
    (s.me.ha = false → Traps (.rett o) s 0x0016 0) ∧
    (s.me.ha = true → good → savedOk (s.me.sysreg 5) → savedOk (s.me.sysreg 6) → goodTarget (s.me.sysreg 1) → s.issue.bound = none →
      ∃ t, exec (.rett o) s = .next t ∧ MemSame s t ∧ t.issue.status = .ended ∧
        OnlyMe s t { s.me with
          rm := st.extractLsb' 13 3, wo := st.getLsbD 12, ff := st.extractLsb' 7 5,
          rq := restored (s.me.sysreg 5) ++ restored (s.me.sysreg 6), ha := false, pc := (s.me.sysreg 1).setWidth 56,
          mid := t.me.mid, steps := s.me.steps + 1, late := 0,
          fly := s.me.fly.map (fun l => { l with pre := false }), ldq := s.me.ldq.map (fun l => { l with pre := false }) }) ∧
    (s.me.ha = true → ∀ cause val,
      (¬good ∧ cause = 0x0017 ∧ val = 4) ∨ (good ∧ ¬savedOk (s.me.sysreg 5) ∧ cause = 0x0017 ∧ val = 5) ∨
      (good ∧ savedOk (s.me.sysreg 5) ∧ ¬savedOk (s.me.sysreg 6) ∧ cause = 0x0017 ∧ val = 6) ∨
      (good ∧ savedOk (s.me.sysreg 5) ∧ savedOk (s.me.sysreg 6) ∧ ¬goodTarget (s.me.sysreg 1) ∧ cause = 0x000C ∧ val = s.me.sysreg 1) →
      (∃ t tr, exec (.rett o) s = .next t ∧ t.issue.status = .trapped tr ∧ tr.cause = cause ∧ tr.val = val) ∧
      (hasVector s.me → ∃ t, exec (.rett o) s = .next t ∧ MemSame s t ∧
        OnlyMe s t { (s.me.setSys 2 (cause.setWidth 64)).setSys 3 val with
          mid := false, pc := (s.me.sysreg 0).extractLsb' 3 53 ++ (0 : BitVec 3) }))

/-- R166, R272, R291, R292, R294, R296 to R302: the binding instructions and the bound opcodes complete under their
conditions: a slot is bound, emptied or read; CSLOAD takes the lowest pages that serve it; a page is loaded with its
image's words, its branches moved with it; CSINV drops a group and unbinds the slots into it; after CSFENCE the next bundle waits for
loads; a bound opcode takes the sequencer for its bundle's routine. Each check that fails is the trap its rule names: those of BIND, of
CSINV, of CSLOAD's count, alignment and page images, and of a bound opcode's binding and first step.
How control-store pages change hands (log 56), TVAL of the window trap of BIND (log 19), what the field of a branch beyond the store holds
(log 94), for which pages a bound opcode waits (log 103) and the tag conditions of a collective program (log 104) are the model's readings. -/
def Obligations.Bindings : Prop :=
  (∀ (s : State) (o : FmtEA),
    let n := o.imm.toNat % 64
    let a := (s.reg o.sa).toNat % 2 ^ 14
    let b := (s.reg o.sb).toNat
    let used := s.me.bind.countP (fun e => e.2.getLsbD 63)
    (1 ≤ b → b ≤ 4096 → mayReach s a → (cget s.me.bind n).getLsbD 63 = true ∨ used < 32 →
      ∃ w : Word, boundWord w (BitVec.ofNat 14 a) b ∧ exec (.bind o) s = .next (s.onMe (fun t => { t with bind := cset t.bind n w }))) ∧
    (b = 0 ∨ 4096 < b → Traps (.bind o) s 0x0001 s.issue.word) ∧
    (1 ≤ b → b ≤ 4096 → ¬mayReach s a → Traps (.bind o) s 0x0015 (BitVec.ofNat 64 a)) ∧
    (1 ≤ b → b ≤ 4096 → mayReach s a → (cget s.me.bind n).getLsbD 63 = false → 32 ≤ used → Traps (.bind o) s 0x0003 (BitVec.ofNat 64 n)) ∧
    exec (.unbind o) s = .next (s.onMe (fun t => { t with bind := cset t.bind n 0 })) ∧
    exec (.bindq o) s = .next (s.landS 1 o.sd (if (cget s.me.bind n).getLsbD 63 then cget s.me.bind n else 0)) ∧
    exec (.csfence o) s = .next (s.onMe (fun t => { t with csFenced := true })) ∧
    (s.me.csFenced = true → (∃ e ∈ (tget s.cores s.me.core).pages, e.2.loading = true ∧ e.2.owner = some s.cur) →
      s.issueBundle = .next { s with issue := { status := .wait } })) ∧
  (∀ (s : State) (o : FmtEA),
    let a := (s.reg o.sa).toNat
    let n := (s.reg o.sb).toNat
    (n = 0 ∨ 24 < n → Traps (.csload o) s 0x0007 (s.reg o.sb)) ∧
    (1 ≤ n → n ≤ 24 → a % 4096 ≠ 0 → Traps (.csload o) s 0x0006 (s.reg o.sa)) ∧
    (1 ≤ n → n ≤ 24 → a % 4096 = 0 → ∀ j, j < n → (∀ i, i < j → ImageReadable s (a + 4096 * i)) →
      let va := a + 4096 * j
      (2 ^ 56 ≤ va ∨ (∀ l, s.walk s.me.part (BitVec.ofNat 56 va) ≠ .leaf l) → ∃ t, exec (.csload o) s = .next t ∧ t.issue.status = .trapped
        { cause := 0x0020, val := BitVec.ofNat 64 va, aux := BitVec.ofNat 64 (3 * 2 ^ 52 + 2 ^ 49), slot := s.issue.slot }) ∧
      (∀ l, va < 2 ^ 56 → s.walk s.me.part (BitVec.ofNat 56 va) = .leaf l →
        (l.kd = 2 → Traps (.csload o) s 0x0009 (BitVec.ofNat 64 va)) ∧
        (l.kd ≠ 2 → l.pr = false → Traps (.csload o) s 0x0008 (BitVec.ofNat 64 va))))) ∧
  (∀ (s : State) (o : FmtEA) (ps : List (Place × Nat)),
    let a := (s.reg o.sa).toNat
    let n := (s.reg o.sb).toNat
    let pages (t : State) : Table CsPage := (tget t.cores s.me.core).pages
    1 ≤ n → n ≤ 24 → a % 4096 = 0 → s.vPlaces a (4096 * n) 3 1 = .ok ps →
    (s.me.freeGroup = none ∨ csAlloc (pages s) s.me.part s.me.ig a n = none →
      exec (.csload o) s = .next (s.landS 1 o.sd 0x8000000000000001)) ∧
    (∀ g p kept, s.me.freeGroup = some g → csAlloc (pages s) s.me.part s.me.ig a n = some (p, kept) → (tfind s.strands s.cur).isSome →
      ∃ t, exec (.csload o) s = .next t ∧ MemSame s t ∧
        OnlyMe s t { flying s 1 (.scalar o.sd (BitVec.ofNat 64 (256 * p))) with
          groups := tset s.me.groups g { gv := true, gn := BitVec.ofNat 5 (n - 1), gma := BitVec.ofNat 14 (256 * p),
                                         gsrc := BitVec.ofNat 44 (a / 4096) } } ∧
        (∀ j, ¬(p ≤ j ∧ j < p + n) → tfind (pages t) j = tfind (pages s) j) ∧
        ∀ j, j < n → let x := tget (pages t) (p + j)
          x.owner = some s.cur ∧ x.words = (tget (pages s) (p + j)).words ∧
          (kept = false → x.valid = true ∧ x.loading = true ∧ x.base = 256 * p ∧ x.image = BitVec.ofNat 56 (a + 4096 * j) ∧
            x.part = s.me.part ∧ x.ig = s.me.ig))) ∧
  (∀ (s : State) (core page : Nat) (l : Leaf),
    let c := tget s.cores core
    let p := tget c.pages page
    p.loading = true → 0x0800 ≤ p.base → (∀ e ∈ c.pages, e.2.loading = true → p.order ≤ e.2.order) → s.walk p.part p.image = .leaf l →
    l.kd < 2 → l.pr = true → paExists l.kd (l.at p.image.toNat) 4096 = true →
      ∃ (t : State) (x : CsPage), exec (.controlStorePageLoaded core page) s = .next t ∧ t.mem = s.mem ∧ t.strands = s.strands ∧
        tfind (tget t.cores core).pages page = some x ∧ x = { p with loading := false, words := x.words } ∧
        ∀ i, i < 256 → cget x.words i = relocated p.base i
          (BitVec.ofNat 128 (cnum s.mem (memKey l.kd (l.at p.image.toNat + 16 * i)) 16))) ∧
  (∀ (s : State) (o : FmtEA),
    ((∀ e ∈ s.me.groups, ¬(e.2.gv = true ∧ e.2.gma.toNat = (s.reg o.sa).toNat)) → Traps (.csinv o) s 0x0015 (s.reg o.sa)) ∧
    (∀ i g, s.me.groups.find? (fun e => e.2.gv && e.2.gma.toNat = (s.reg o.sa).toNat) = some (i, g) →
      let inGroup (p : Nat) : Bool := g.gma.toNat / 256 ≤ p && p ≤ g.gma.toNat / 256 + g.gn.toNat
      ∃ t, exec (.csinv o) s = .next t ∧ MemSame s t ∧
        OnlyMe s t { s.me with groups := tdel s.me.groups i, bind := t.me.bind } ∧
        (s.me.bind.wf = true → ∀ n, cget t.me.bind n = let w := cget s.me.bind n
          if inGroup (fld w 0 14 / 256) then w &&& 0x7FFFFFFFFFFFFFFF else w) ∧
        ∀ p x, tfind (tget s.cores s.me.core).pages p = some x → tfind (tget t.cores s.me.core).pages p =
          some (if inGroup p then { x with owner := none, valid := false, loading := false } else x))) ∧
  (∀ (s : State) (i : Instr) (cls : BitVec 1) (o : FmtOB), (cls = 0 ∧ i = .vbop o) ∨ (cls = 1 ∧ i = .ebop o) →
    let w := cget s.me.bind (32 * cls.toNat + o.opx.toNat)
    let c := tget s.cores s.me.core
    let e := (w.extractLsb' 0 14).toNat
    let p := tget c.pages (e / 256)
    (w.getLsbD 63 = false → Traps i s 0x0002 s.issue.word) ∧
    (∀ cause, w.getLsbD 63 = true → e < 2048 ∨ (∀ x ∈ c.pages, ¬(x.2.owner = some s.cur ∧ x.2.base = p.base ∧ x.2.loading = true)) →
      s.agent = .strand → FirstStepFails s cls o cause → ∃ t, exec i s = .next t ∧ t.issue.status = .trapped
        { cause := cause, val := BitVec.ofNat 64 e, mpc := BitVec.ofNat 14 e, slot := 7, routine := true }) ∧
    (w.getLsbD 63 = true → e < 2048 ∨ (∀ x ∈ c.pages, ¬(x.2.owner = some s.cur ∧ x.2.base = p.base ∧ x.2.loading = true)) →
      FirstStep s cls o →
      (c.sequencer = none → c.seqWait.head? = none ∨ c.seqWait.head? = some s.cur →
        ∃ t m, exec i s = .next t ∧ MemSame s t ∧ t.strands = s.strands ∧ t.issue = { s.issue with bound := some m } ∧
          (tget t.cores s.me.core).sequencer = some s.cur ∧
          m.mv = true ∧ m.mc = cls ∧ m.mop = o.opx ∧ m.mpc.toNat = e ∧ m.msn = 0 ∧ m.msb = w.extractLsb' 16 12 ∧ m.mf = 0 ∧
          m.lc0 = 0 ∧ m.lc1 = 0 ∧ m.ag = [] ∧ m.opb = o.opd ∧ m.cf = o.opd.extractLsb' 0 8 ∧ m.mt = s.me.micro.mt ∧
          m.rmu.toNat = (if s.me.rm.toNat < 4 then s.me.rm.toNat else 0) ∧
          m.line 0 = lineOf (o.opd.extractLsb' 29 11) (o.opd.extractLsb' 3 1) ∧
          m.line 1 = lineOf (o.opd.extractLsb' 18 11) (o.opd.extractLsb' 2 1) ∧
          m.line 2 = lineOf (o.opd.extractLsb' 7 11) (o.opd.extractLsb' 1 1)) ∧
      (c.sequencer ≠ none → ∃ t, exec i s = .next t ∧ t.issue.status = .wait ∧ t.strands = s.strands ∧ MemSame s t)))

/-- R277, R278, R281 to R284, R288, R289: a word of one transport that is no trigger, under any sequencing op by which its routine goes on:
its destination takes the value that it moves, a data port of the scratchpad or of a latch its 128 bytes; an AGDI port advances; the op
takes effect on the registers as the transport left them, its condition as it stood before; nothing else changes.
That a line or an address generator is the one of the step's start (log 92) is the model's reading. -/
def Sys2Proof.Claims.Transports : Prop :=
  ∀ (s : State) (i : Instr) (f : MicroFields) (seq : Nat) (m0 : Micro), sequenced s i = some (f, seq, m0) → s.agent = .strand →
    s.stepFault seq f = none → s.stepWaits seq f = false → (seq = 9 → s.cndHolds f.cnd.toNat = false) →
    f.tf0 ≠ 0 → f.tf1 = 0 → f.tf2 = 0 → f.tf3 = 0 →
    let p := srcOf f.tf0
    let q := dstOf f.tf0
    let x := carried s f.tf0
    let m := s.micro
    let line := m.line (q - 8)
    let w := cget m.ag (q % 4)
    let data (spc : Nat) : Prop := 0x20 ≤ q ∧ q < 0x28 ∧ fld w 61 3 = spc
    q < 0x80 → (0x20 ≤ p → p < 0x28 → fld (cget m.ag (p % 4)) 61 3 = 0) →
    ∃ t, exec i s = .next t ∧ t.agent = s.agent ∧ t.issue = s.issue ∧ MemSame s t ∧
      sequencedFrom s { advanced m (advanced m (regWrite m q x) p) q with mt := t.me.micro.mt } i = some (f, seq, t.me.micro) ∧
      OnlyMe s t { s.me with micro := t.me.micro, planes := t.me.planes, ptag := t.me.ptag, s := t.me.s, smem := t.me.smem } ∧
      (∀ k, cget t.me.micro.mt k = if q < 8 ∧ 32 * q ≤ k ∧ k < 32 * q + 32 then x (k - 32 * q) else cget m.mt k) ∧
      (8 ≤ q → q < 0x10 → ∀ k, k < 32 → (t.me.line line).getD k 0 = x k) ∧
      (∀ e, (∀ k, k < 32 → 8 ≤ q → q < 0x10 → elemKey line k ≠ e) → cget t.me.planes e = cget s.me.planes e) ∧
      (∀ n, t.me.tagOf n = if 8 ≤ q ∧ q < 0x10 ∧ n = line.pn then m.lineTag (q - 8) else s.me.tagOf n) ∧
      (∀ r, t.me.reg r = if q = 0x40 + r.toNat ∧ r ≠ 0 then x 1 ++ x 0 else s.me.reg r) ∧
      (∀ a, data 0 → cget t.me.smem a = if fld w 0 17 ≤ a ∧ a < fld w 0 17 + 128 then (x ((a - fld w 0 17) / 4)).extractLsb' (8 * ((a - fld w 0 17) % 4)) 8
        else cget s.me.smem a) ∧ (¬data 0 → t.me.smem = s.me.smem) ∧
      (data 3 → let l (u : State) (n : Nat) : StatLatch := tget (tget u.cores s.me.core).latches n
        (l t (fld w 56 5)).ctx = none ∧ (∀ n, n ≠ fld w 56 5 → l t n = l s n) ∧
        ∀ a, a < 16384 → cget (l t (fld w 56 5)).bytes a = if fld w 0 24 ≤ a ∧ a < fld w 0 24 + 128
          then (x ((a - fld w 0 24) / 4)).extractLsb' (8 * ((a - fld w 0 24) % 4)) 8 else cget (l s (fld w 56 5)).bytes a) ∧
      (¬data 3 → t.cores = s.cores)

/-- R119, R277, R285 to R287: a word that writes the operand latches of a trigger, or leaves them 0, and starts it: its result is pending for
the destination that XF names, with the values and the flags of its unit; nothing else of the routine changes but by the sequencing op. -/
def Sys2Proof.Claims.LaneUnits : Prop :=
  ∀ (s : State) (i : Instr) (f : MicroFields) (seq : Nat) (m : Micro), sequenced s i = some (f, seq, m) → s.agent = .strand →
    s.stepFault seq f = none → s.stepWaits seq f = false → (seq = 9 → s.cndHolds f.cnd.toNat = false) →
    let p := dstOf f.tf2
    let xf := xfOf f.tf2
    let ports := operandPorts p
    f.tf3 = 0 → f.tf2 ≠ 0 → (f.tf0 = 0 ∨ (ports.1 ≠ 0 ∧ dstOf f.tf0 = ports.1)) → (f.tf1 = 0 ∨ (ports.2 ≠ 0 ∧ dstOf f.tf1 = ports.2)) →
    (∀ tf ∈ [f.tf0, f.tf1, f.tf2], srcOf tf < 0x20 ∨ 0x28 ≤ srcOf tf) →
    xf < 8 ∨ (s.micro.lineTag (xf - 8) ≠ 15 ∧ (s.micro.line (xf - 8)).pn.toNat < s.me.win.pl) →
    let o (k : Nat) : Elem := if f.tf0 = 0 then 0 else carried s f.tf0 k
    let b (k : Nat) : Elem := if f.tf1 = 0 then 0 else carried s f.tf1 k
    let v := portValue s (srcOf f.tf2)
    let d (k : Nat) : FVal := decodeF fF32 (v k).toNat
    let mode := s.micro.rmu.setWidth 3
    let Starts (r : Nat → FRes) : Prop := ∃ (t : State) (l : LaneLanding), exec i s = .next t ∧ t.agent = s.agent ∧ t.issue = s.issue ∧ MemSame s t ∧
      OnlyMe s t { s.me with micro := { m with pend := s.micro.pend ++ [l] } } ∧
      (if xf < 8 then l.temp = true ∧ l.mt.toNat = xf
        else l.temp = false ∧ l.line = s.micro.line (xf - 8) ∧ l.tag = s.micro.lineTag (xf - 8)) ∧
      l.vals.length = 32 ∧ (∀ k, k < 32 → l.vals.getD k 0 = BitVec.ofNat 32 (r k).bits) ∧
      ∀ n, n < 5 → (l.ff.getLsbD n = true ↔ ∃ k, k < 32 ∧ (r k).ff.getLsbD n = true)
    (∀ r : Nat → FRes, (∀ k, unitRule p mode (o k) (b k) (v k) = some (r k)) → Starts r) ∧
    (p = 0x08F → ∃ r, Starts r ∧ ∀ k, k < 32 → Exp2Elem (d k) (r k)) ∧
    (p = 0x094 → Starts (fun _ => { bits := sumNode mode (fun k => (v k).toNat) 5 0, ff := sumFlags mode (fun k => (v k).toNat) 5 0 })) ∧
    (p = 0x095 → ∃ r, Starts (fun _ => { bits := r, ff := if (List.range 32).any (fun k => (d k).snan) then 16 else 0 }) ∧
      if (List.range 32).any (fun k => (d k).isNan) then r = 0x7FC00000
      else ∃ k, k < 32 ∧ r = (v k).toNat ∧ noneBeyond true (d k) ((List.range 32).map d))

/-- R277 to R280, R286, R293, R294, R307, R308, R385: every micro-op that passes its checks and moves nothing only counts its
step and goes to the address of R278; END ends the routine with its landings made and its flags in FF, and in TSTS if it was bound
before the handler was entered; a TRAP whose
condition holds abandons it and raises its cause; POLL waits for its word. -/
def Sys2Proof.Claims.Sequencing : Prop :=
  (∀ (s : State) (i : Instr) (f : MicroFields) (seq : Nat) (m : Micro), sequenced s i = some (f, seq, m) → moveless f →
    s.stepFault seq f = none → (seq = 9 → s.cndHolds f.cnd.toNat = false ∨ s.stepWaits seq f = true) →
    (s.stepWaits seq f = false → ∃ t, exec i s = .next t ∧ t.micro = m ∧ t.agent = s.agent ∧ t.issue = s.issue ∧ MemSame s t ∧
      OnlyMe s t { s.me with micro := t.me.micro } ∧ (s.agent ≠ .strand → t.me.micro = s.me.micro)) ∧
    (s.stepWaits seq f = true → Waits i s)) ∧
  (∀ (s : State) (f : MicroFields), s.agent = .strand → s.stepFault 8 f = none → s.stepWaits 8 f = false → moveless f →
    ∃ t, exec (.microEnd f) s = .next t ∧ MemSame s t ∧ t.me.micro.mv = false ∧ t.me.micro.pend = [] ∧
      (tget t.cores s.me.core).sequencer = none ∧ t.me.s = s.me.s ∧ t.me.pc = s.me.pc ∧
      (s.me.micro.pend = [] → t.me.ff = s.me.ff ||| s.me.micro.mf ∧
        t.me.sysreg 4 = (if s.me.micro.pre then s.me.sysreg 4 ||| (s.me.micro.mf.setWidth 64 <<< 7) else s.me.sysreg 4) ∧ t.me.planes = s.me.planes ∧ t.me.micro.mt = s.me.micro.mt)) ∧
  (∀ (s : State) (f : MicroFields), s.agent = .strand → s.stepFault 9 f = none → s.stepWaits 9 f = false → (∃ x, s.doStep 0 f = .ok x) →
    s.cndHolds f.cnd.toNat = true → ∃ t tr, exec (.microTrap f) s = .next t ∧ t.issue.status = .trapped tr ∧
      t.me.micro.mv = false ∧ t.me.micro.msn = s.me.micro.msn + 1 ∧ tr.routine = true ∧
      tr.val = s.me.micro.mpc.setWidth 64 ∧ tr.mpc = s.me.micro.mpc ∧ tr.slot = 7 ∧
      tr.cause = (if f.tgt.extractLsb' 0 2 = 0 then 0x0004 else if f.tgt.extractLsb' 0 2 = 1 then 0x0001
        else if f.tgt.extractLsb' 0 2 = 2 then 0x0003 else 0x4000 + (f.tgt.extractLsb' 2 12).setWidth 16))

/-- R277 to R289, R293, R294, R307, R308, R385: a micro-op that passes its checks and moves nothing sequences its routine, END and TRAP end
it; a transport moves its value to any destination under any sequencing op; a trigger's result, but for 2^v of a number that is not whole
or whose power is not normal, is its unit's; a
lane unit's oldest result lands; 128 bytes join a receive queue; an unused half is filled for a strand that missed.
How a collective program ends (log 28) and of which moment the lines and address generators of a step are (log 92) are the model's choices. -/
def Obligations.MicroOps : Prop :=
  Sys2Proof.Claims.Sequencing ∧ Sys2Proof.Claims.Transports ∧ Sys2Proof.Claims.LaneUnits ∧
  (∀ (s : State) (k : Nat) (l : LaneLanding) (r : List LaneLanding), (tfind s.strands k).isSome →
    (tget s.strands k).micro.pend = l :: r → l.vals.length = 32 → ∃ t, exec (.laneUnitLanding k) s = .next t ∧ t.mem = s.mem ∧
      (∀ j, j ≠ k → tfind t.strands j = tfind s.strands j) ∧
      (tget t.strands k).micro.pend = r ∧ (tget t.strands k).micro.mf = (tget s.strands k).micro.mf ||| l.ff ∧
      if l.temp then cvals (tget t.strands k).micro.mt (32 * l.mt.toNat) 32 = l.vals ∧ (tget t.strands k).planes = (tget s.strands k).planes
      else (tget t.strands k).line l.line = l.vals ∧ (tget t.strands k).tagOf l.line.pn = l.tag) ∧
  (∀ (s : State) (die port : Nat) (data : List (BitVec 32)), die < 4 → port < 6 → data.length = 32 →
    ∃ t, exec (.collectiveReceive die port data) s = .next t ∧ t.mem = s.mem ∧ t.strands = s.strands ∧
      tget (tget t.colls die).rx port = tget (tget s.colls die).rx port ++ [data] ∧
      ∀ p, p ≠ port → tget (tget t.colls die).rx p = tget (tget s.colls die).rx p) ∧
  (∀ (s : State) (k half : Nat),
    let x := tget s.strands k
    x.resident = true → x.ended = false → half < 2 → ((tget s.cores x.core).halfOf x.ig x.pc.toNat) = none →
    s.halfUsed x.core half = false → ∃ t, exec (.instructionHalfFill k half) s = .next t ∧ t.mem = s.mem ∧
      (tget t.strands k).pc = x.pc ∧ (tget t.strands k).s = x.s ∧
      let h := if half = 0 then (tget t.cores x.core).half0 else (tget t.cores x.core).half1
      h.filled = true ∧ h.ig = x.ig ∧ h.base.toNat = x.pc.toNat / 65536 ∧
      ∀ i l, i < 16 → s.devRead x.part (x.pc.toNat / 65536 * 65536 + 4096 * i) 4096 = some l → cread h.mem (4096 * i) 4096 = l)

/-- R329 to R344: the imposition instructions complete under their conditions: registers are read and written, a commit
takes effect with the next generation, grains are claimed once, a block is granted with its record, retired by GDONE, or
handed over with its partial sum, or stops its gang where its record cannot be written; the end of the blocks and a block not superseded are reported; a failed check is the
imposition trap.
The check of a handle by HANDOV, TVAL without an imposition (log 19 and 57), the GEN bits of im0 that IMPR reads (log 87), what makes a
hand-over fail (log 88) and which accesses count as atomics (log 29) are the model's choices. -/
def Obligations.Impositions : Prop :=
  (∀ (s : State) (o : FmtEA), (tfind s.gangs s.me.gang).isSome →
    let n := o.imm.toNat
    let g := s.gang
    let tuner := decide (s.me.rank = if g.gen = 0 then 0 else imTR g.imf)
    exec (.impr o) s = .next (s.landS 1 o.sd (if n = 8 ∨ n = 9 then 0 else cget g.im n)) ∧
    (tuner = true → n ≠ 8 → n ≠ 9 → exec (.impw o) s = .next (s.onGang s.me.gang (fun g => { g with im := cset g.im n (s.reg o.sa) }))) ∧
    (tuner = false ∨ n = 8 ∨ n = 9 → Traps (.impw o) s 0x0011 (BitVec.ofNat 64 n)) ∧
    (tuner = false → Traps (.impwCommit o) s 0x0011 0) ∧
    let written := (0 : BitVec 16) ++ (s.reg o.sa).extractLsb' 0 48
    (tuner = true → s.commitOk s.me.part s.me.gang (cset g.im 0 written) = true →
      ∃ t, exec (.impwCommit o) s = .next t ∧ MemSame s t ∧ t.strands = s.strands ∧
        let g' := tget t.gangs s.me.gang
        g'.gen = (if g.gen = 0xFFFF then 1 else g.gen + 1) ∧ g'.cursors = [] ∧
        cget g'.im 0 = written ∧ (∀ k, k ≠ 0 → cget g'.im k = cget g.im k) ∧
        cget g'.imf 0 = g'.gen ++ (s.reg o.sa).extractLsb' 0 48 ∧ ∀ k, k ≠ 0 → cget g'.imf k = cget g.im k) ∧
    (tuner = true → s.commitOk s.me.part s.me.gang (cset g.im 0 written) = false →
      ∃ t tr, exec (.impwCommit o) s = .next t ∧ t.issue.status = .trapped tr ∧ tr.cause = 0x0011)) ∧
  (∀ (s : State) (o : FmtEA), (tfind s.gangs s.me.gang).isSome →
    let im := s.gang.imf
    let a := (s.reg o.sa).toNat
    let n := o.imm.toNat
    let l := (List.range n).map (a + ·)
    (s.gang.gen ≠ 0 → a + n ≤ imNG im → n ≤ 64 → mapReachable s im l → mapFree s im → ∃ (t : State) (m : Word), exec (.gclaim o) s = .next t ∧
      OnlyMe s t (flying s 1 (.scalar o.sd m)) ∧ Claimed s t im l ∧ ∀ i, i < 64 → (m.getLsbD i = true ↔ i < n ∧ freeGrain s im (a + i) = true)) ∧
    (s.gang.gen = 0 ∨ imNG im < a + n → Traps (.gclaim o) s 0x0011 (s.reg o.sa)) ∧
    (∀ b, s.gang.blocks.find? (fun b => b.rank = s.me.rank && b.word = noSub (s.reg o.sa)) = some b →
      exec (.gdone o) s = .next (s.onGang s.me.gang (fun g => { g with
        blocks := g.blocks.filter (fun x => !(x.rank = b.rank && x.word = b.word)) }))) ∧
    ((∀ b ∈ s.gang.blocks, ¬(b.rank = s.me.rank ∧ b.word = noSub (s.reg o.sa))) → Traps (.gdone o) s 0x0011 (s.reg o.sa))) ∧
  (∀ (s : State) (o : FmtEA), (tfind s.gangs s.me.gang).isSome →
    let g := s.gang
    let im := g.imf
    let r := s.me.rank
    let ws := s.participants s.me.gang (imWM im)
    let live := (g.blocks.filter (fun b => b.rank = r)).length
    (g.gen = 0 ∨ r ∉ ws ∨ 4 ≤ live → Traps (.nextblk o) s 0x0011 0) ∧
    (∀ w, g.gen ≠ 0 → live < 4 → firstIdx (fun x => x = r) ws = some w → mapFree s im → Served s [(1, imIAB im + 16 * r)] →
      let c := tget g.cursors r
      let b := w + ws.length * c
      let l := imGrains im b
      let mine (v : Word) : Strand := fencedBy s 1 (flying s 1 (.scalar o.sd v))
      (imBlocks im ≤ b → ∃ t, exec (.nextblk o) s = .next t ∧ MemSame s t ∧ OnlyMe s t (mine 0xFFFFFFFFFFFFFFFF) ∧
        (tget t.gangs s.me.gang).endSeen = true ∧ (tget t.gangs s.me.gang).blocks = g.blocks) ∧
      (b < imBlocks im → mapReachable s im l → (∃ x ∈ l, freeGrain s im x = true) → l.length ≤ 64 →
        s.inSlice s.me.part (imIAB im + 16 * r) 16 = true →
        (∀ x ∈ l, imCMB im + x / 8 < imIAB im + 16 * r ∨ imIAB im + 16 * r + 16 ≤ imCMB im + x / 8) →
        ∃ (t : State) (m bw : Word), exec (.nextblk o) s = .next t ∧ OnlyMe s t (mine bw) ∧
          (∀ i, i < 64 → (m.getLsbD i = true ↔ ∃ x, l[i]? = some x ∧ freeGrain s im x = true)) ∧
          bw.extractLsb' 48 16 = g.gen ∧ (bw.getLsbD 47 = true ↔ ∃ x ∈ l, freeGrain s im x = false) ∧
          bw.extractLsb' 32 15 = 0 ∧ bw.extractLsb' 0 32 = BitVec.ofNat 32 b ∧
          BitVec.ofNat 64 (cnum t.mem (memKey 1 (imIAB im + 16 * r)) 8) = bw ∧
          BitVec.ofNat 64 (cnum t.mem (memKey 1 (imIAB im + 16 * r + 8)) 8) = m ∧
          (∀ x ∈ l, freeGrain t im x = false) ∧ tget (tget t.gangs s.me.gang).cursors r = c + 1 ∧
          (tget t.gangs s.me.gang).blocks = g.blocks ++ [{ rank := r, word := bw, granted := m, im := im }]))) ∧
  (∀ (s : State) (o : FmtEA) (b : LiveBlock), (tfind s.gangs s.me.gang).isSome →
    let a := s.reg o.sa
    let th : BitVec 5 := o.imm.extractLsb' 0 5
    let grains := imGrains b.im (fld b.word 0 32)
    let im := s.gang.imf
    let eb := imBlockOf im (grains.getD (fld a 32 8) 0)
    let outer := imGrains im eb
    let kept := b.word.extractLsb' 48 16 = s.gang.gen ∨ (outer.length = grains.length ∧ ∀ g ∈ outer, g ∈ grains)
    let recd (n : Nat) : Nat := imIAB im + 0x600 + 32 * n
    let ws := s.participants s.me.gang (imWM im)
    let dr := ws.getD (eb % ws.length) 0
    s.gang.blocks.find? (fun b => b.rank = s.me.rank && b.word = noSub a) = some b → fld a 32 8 < grains.length →
    TileIs s.me th [2] [] → Readable s.me th → (s.me.tile th).rc = 0 →
    (kept → exec (.handov o) s = .next (s.landS 1 o.sd 0xFFFFFFFFFFFFFFFF)) ∧
    (¬kept → s.inSlice s.me.part (imIAB im) 0x41000 = true →
      ((∀ n, n < 64 → (cget s.mem (memKey 1 (recd n + 7))).getLsbD 7 = true) → exec (.handov o) s = .next (s.landS 1 o.sd 0xFFFFFFFFFFFFFFFE)) ∧
      (∀ n, n < 64 → (cget s.mem (memKey 1 (recd n + 7))).getLsbD 7 = false →
        (∀ k, k < n → (cget s.mem (memKey 1 (recd k + 7))).getLsbD 7 = true) → anyHeld s.me = false →
        s.atomicFree s.me.part (s.tenantOf s.me) (32 + imIAB im / 2 ^ 26) = true →
        (imIAB im / 2 ^ 26 ∈ s.dev.slotFaults → ∃ t tr, exec (.handov o) s = .next t ∧ t.issue.status = .trapped tr ∧ tr.cause = 0x0063 ∧
          tr.aux = 2 ∧ tr.val = BitVec.ofNat 64 (recd n) ∧ t.mem = (s.deliver tr).mem ∧
          (tget t.gangs s.me.gang).blocks = (tget (s.deliver tr).gangs s.me.gang).blocks) ∧
        (imIAB im / 2 ^ 26 ∉ s.dev.slotFaults → ∃ t, exec (.handov o) s = .next t ∧
          OnlyMe s t { flying s 1 (.scalar o.sd (BitVec.ofNat 64 dr)) with tiles := tset s.me.tiles th.toNat { s.me.tile th with ts := 0 } } ∧
          cread t.mem (memKey 1 (imIAB im + 0x1000 + 4096 * n)) 4096 = s.me.tileBytes (s.me.tile th) 0 4096 ∧
          (let w (i : Nat) : Word := BitVec.ofNat 64 (cnum t.mem (memKey 1 (recd n + 8 * i)) 8)
          (w 0).getLsbD 63 = true ∧ (w 0).extractLsb' 56 7 = BitVec.ofNat 7 s.me.rank ∧ (w 0).extractLsb' 49 7 = BitVec.ofNat 7 dr ∧
          w 1 = a ∧ (w 2).extractLsb' 48 16 = s.gang.gen ∧ (w 2).extractLsb' 0 32 = BitVec.ofNat 32 eb ∧ w 3 = b.granted) ∧
          (tget t.gangs s.me.gang).blocks = s.gang.blocks.filter (fun x => !(x.rank = b.rank && x.word = b.word))))))

/-- R36, R298, R301: the first placement of a gang of one strand whose batch gives its role groups that its core has room for, every page
image of which can be read: a load group record for each group in ascending index, and a binding slot for each entry with BV 1, its
step bound, and its entry in the group as it lies now, or in the base region. -/
def Sys2Proof.Claims.PlacedWithRoutines : Prop :=
  ∀ (s : State) (part b : Nat) (c : Cand), s.dev.stopped = false → s.winner part = some c → c.entry = .batch b →
    let x := tget s.batches b
    let core := 12 * c.cluster + c.cores.getD 0 0
    let l := x.groupsOf (roleOf x.n 0)
    let es := x.bindsOf (roleOf x.n 0)
    s.now < (tget s.parts part).tokenAt → (tfind s.batches b).isSome → x.width = 1 → x.part = part →
    (csFit part x.ig 0 (l.map x.group) (tget s.cores core).pages).isSome →
    (es.map (fun e => fld e 54 6)).Nodup → (∀ e ∈ es, fld e 49 5 = 31 ∨ fld e 49 5 < x.groups.length) →
    (∀ i ∈ l, 1 ≤ (x.group i).1 ∧ ∀ j, j < (x.group i).1 →
      ∃ f, s.walk part (BitVec.ofNat 56 ((x.group i).2 + 4096 * j)) = .leaf f ∧ f.kd < 2 ∧ f.pr = true) →
      ∃ (t : State) (at_ : Nat → Nat), exec (.schedulerPlacement part) s = .next t ∧ t.mem = s.mem ∧
        let k := tget t.strands (s.nextId + 1)
        k.resident = true ∧ k.core = core ∧
        (∀ j i, l[j]? = some i → let g := tget k.groups j
          g.gv = true ∧ g.gn.toNat = ((x.group i).1 - 1) % 32 ∧ g.gma = BitVec.ofNat 14 (at_ i) ∧
          g.gsrc = BitVec.ofNat 44 ((x.group i).2 / 4096) ∧ at_ i % 256 = 0 ∧ 8 ≤ at_ i / 256 ∧ at_ i / 256 + (x.group i).1 ≤ 32 ∧
          ∀ p, p < (x.group i).1 → let y := tget (tget t.cores core).pages (at_ i / 256 + p)
            y.owner = some (s.nextId + 1) ∧ y.valid = true ∧ y.image = BitVec.ofNat 56 ((x.group i).2 + 4096 * p)) ∧
        ∀ e ∈ es, boundWord (cget k.bind (fld e 54 6))
          (BitVec.ofNat 14 (fld e 23 14 + if fld e 49 5 = 31 then 0 else at_ (fld e 49 5))) (fld e 37 12 + 1)

/-- R45, R73, R76, R105, R297, R298, R319, R396, R401: a gang that has run is placed again at no cost and leaves the head of its queue.
Every strand of it that has not ended takes its context from its folio and its frame as they stand in memory: PC, redirects, rounding
mode, flags, HA and CB; scalar registers, planes and tags, window memory, tile entries, hold latches, system registers, line pointers
and temporaries; the micro state, whose addresses move with the groups that hold them, as the binding slots' entries do; and the
snapshot, each result due as many steps on as RS says. Every handle is walked again, and a streaming operation is issued again from its
restart record. A folio that can be read, a frame that can be read and the pages of its groups, read for the placement, are assumed. -/
def Sys2Proof.Claims.PlacedAgain : Prop :=
  ∀ (s : State) (part g : Nat) (c : Cand),
    let x := tget s.gangs g
    let ks := x.strands.filter (fun k => !(tget s.strands k).ended)
    let folio (k : Nat) : Option (List Byte) := s.devRead (tget s.strands k).part (tget s.strands k).fol.toNat 64
    let frame (k : Nat) : Option (List Byte) :=
      s.devRead (tget s.strands k).part (tget s.strands k).fb.toNat (frameSize (tget s.strands k).win)
    s.dev.stopped = false → s.winner part = some c → c.entry = .gang g → s.now < (tget s.parts part).tokenAt →
    (tfind s.parts part).isSome → (tfind s.gangs g).isSome → x.firstPlaced = true → x.strands.Nodup →
    (∀ k ∈ ks, (tfind s.strands k).isSome ∧ (tget s.strands k).vectorTrap = none ∧ (tget s.strands k).fs = true ∧
      (∃ l, folio k = some l ∧ folioOk l = true) ∧ ∃ f, frame k = some f ∧ ∀ i, i < 24 → (dwAt f (0xA80 + 16 * i)).getLsbD 63 = true →
        ∀ j, j ≤ fld (dwAt f (0xA80 + 16 * i)) 52 5 → ∃ lf,
          s.walk (tget s.strands k).part (BitVec.ofNat 56 (4096 * fld (dwAt f (0xA88 + 16 * i)) 12 44 + 4096 * j)) = .leaf lf ∧
          lf.kd < 2 ∧ lf.pr = true) →
      ∃ t, exec (.schedulerPlacement part) s = .next t ∧ t.mem = s.mem ∧ (tget t.parts part).tenants = (tget s.parts part).tenants ∧
        cget (tget t.parts part).lw c.pri = BitVec.ofNat 4 c.queue ∧
        (tget (tget t.parts part).queues c.queue).head = (tget (tget s.parts part).queues c.queue).head.filter (· ≠ g) ∧
        (let y := tget t.gangs g
        y.placed = true ∧ y.gate = false ∧ y.cluster = c.cluster ∧ y.answer = false ∧ y.strands = x.strands) ∧
        ∀ k n l f, (k, n) ∈ ks.zip c.cores → folio k = some l → frame k = some f →
          let o := tget s.strands k
          let z := tget t.strands k
          let d := dwAt f
          let st := dwAt l 0x20
          let w := o.win
          let wt := 20480 + 4096 * w.pl
          let at_ := wt + 16384 * w.wt
          let ct := at_ + 16384 * w.at_
          let sb := ct + 4096 * w.ct
          let th := sb + 4096 * w.sb
          let again (a b : Word) (h : Handle) : Prop := if a.extractLsb' 62 2 = 0 then h.hs = 0
            else h = s.translate o.part (b.extractLsb' 12 44 ++ (0 : BitVec 12)) (b.extractLsb' 0 3)
          let group (i : Nat) (a : Nat) : Prop := (d (0xA80 + 16 * i)).getLsbD 63 = true ∧ fld (d (0xA80 + 16 * i)) 38 14 ≤ a ∧
            a < fld (d (0xA80 + 16 * i)) 38 14 + 256 * (fld (d (0xA80 + 16 * i)) 52 5 + 1)
          let moves (a b : BitVec 14) : Prop := ((∀ i, i < 24 → ¬group i a.toNat) → b = a) ∧
            ∀ i, i < 24 → group i a.toNat → (∀ j, j < 24 → j ≠ i → ¬group j a.toNat) →
              b = BitVec.ofNat 14 (a.toNat - fld (d (0xA80 + 16 * i)) 38 14 + (tget z.groups i).gma.toNat)
          (z.resident = true ∧ z.core = 12 * c.cluster + n ∧ z.st = 7 ∧ z.fs = false ∧ z.halted = false ∧ z.written = false ∧ z.win = w) ∧
          (z.pc = (dwAt l 0).extractLsb' 3 53 ++ (0 : BitVec 3) ∧ z.rq = restored (dwAt l 8) ++ restored (dwAt l 16) ∧
            z.rm = st.extractLsb' 13 3 ∧ z.wo = st.getLsbD 12 ∧ z.ff = st.extractLsb' 7 5 ∧ z.ha = st.getLsbD 6 ∧ z.cb = st.getLsbD 5) ∧
          ((∀ i, i < 64 → cget z.s i = d (0x200 + 8 * i)) ∧ (∀ i, i < 8 → cget z.sys i = d (0xA00 + 8 * i)) ∧
            (∀ p, p < 32 → cget z.ptag p = (d (0x18 + 8 * (p / 16))).extractLsb' (4 * (p % 16)) 4) ∧
            (∀ j, j < 1024 * w.pl → cget z.planes j = wAt f (20480 + 4 * j)) ∧ (∀ j, j < 16384 * w.wt → cget z.wmem j = f.getD (wt + j) 0) ∧
            (∀ j, j < 16384 * w.at_ → cget z.amem j = f.getD (at_ + j) 0) ∧ (∀ j, j < 4096 * w.ct → cget z.cmem j = f.getD (ct + j) 0) ∧
            ∀ j, j < 4096 * w.sb → cget z.smem j = f.getD (sb + j) 0) ∧
          (∀ i, i < 4 → let a := d (0x180 + 8 * i)
            tget z.latches i = { hv := a.getLsbD 63, pm := a.extractLsb' 12 3, hx := a.extractLsb' 11 1, hf := a.extractLsb' 0 11 }) ∧
          (let m := z.micro
          m.mv = (d 0x140).getLsbD 63 ∧ m.mc = (d 0x140).extractLsb' 62 1 ∧ m.mop = (d 0x140).extractLsb' 57 5 ∧ m.msn = fld (d 0x140) 30 13 ∧
            m.msb = (d 0x140).extractLsb' 18 12 ∧ m.cf = (d 0x148).extractLsb' 56 8 ∧ m.mf = (d 0x148).extractLsb' 51 5 ∧
            m.rmu = (d 0x148).extractLsb' 49 2 ∧ m.opb = (d 0x148).extractLsb' 0 40 ∧ m.lc1 = (d 0x150).extractLsb' 48 16 ∧
            m.lc0 = (d 0x150).extractLsb' 32 16 ∧ (∀ i, i < 4 → cget m.ag i = d (0x158 + 8 * i)) ∧
            (∀ i, i < 8 → cget m.lp i = d (0xA40 + 8 * i)) ∧ (∀ j, j < 256 → cget m.mt j = wAt f (0x400 + 4 * j)) ∧
            moves ((d 0x140).extractLsb' 43 14) m.mpc ∧ moves ((d 0x140).extractLsb' 4 14) m.mra) ∧
          (∀ i, i < 64 → (cget z.bind i).extractLsb' 14 50 = (d (0x800 + 8 * i)).extractLsb' 14 50 ∧
            moves ((d (0x800 + 8 * i)).extractLsb' 0 14) ((cget z.bind i).extractLsb' 0 14)) ∧
          (∀ i, i < 24 → (d (0xA80 + 16 * i)).getLsbD 63 = true → let r := tget z.groups i
            r.gv = true ∧ r.gn = (d (0xA80 + 16 * i)).extractLsb' 52 5 ∧ r.gsrc = (d (0xA88 + 16 * i)).extractLsb' 12 44) ∧
          (∀ i, i < 16 → again (d (0x40 + 16 * i)) (d (0x48 + 16 * i)) (tget z.hd i)) ∧
          (z.fly.length = fld (d 8) 8 8 ∧ ∀ (i : Nat) (r : Landing), z.fly[i]? = some r →
            let b := 0x1000 + 144 * i
            let h := d b
            r.due = z.steps + fld h 59 5 ∧ r.origin = z.steps - 1 - fld h 54 5 ∧ r.slot = h.extractLsb' 51 3 ∧ r.ff = h.extractLsb' 23 5 ∧
              (fld h 48 3 = 0 → r.dest = .scalar (h.extractLsb' 42 6) (d (b + 16))) ∧
              (fld h 48 3 = 1 → ∃ x, r.dest = .handle (h.extractLsb' 42 4) x ∧ again (d (b + 16)) (d (b + 24)) x) ∧
              (2 ≤ fld h 48 3 → ∃ vals masks, r.dest = .line { pn := h.extractLsb' 42 5, dir := h.extractLsb' 40 2, ix := h.extractLsb' 35 5 }
                (h.extractLsb' 32 3) vals masks (h.extractLsb' 28 4) ∧ ∀ e, e < 32 → vals.getD e 0 = wAt f (b + 16 + 4 * e))) ∧
          ((d 0x1C0).getLsbD 63 = false → z.tlq = o.tlq ∧ ∀ i, i < w.th → let a := d (th + 16 * i)
            (tget z.tiles i).ts = a.extractLsb' 62 2 ∧ (tget z.tiles i).tk = a.extractLsb' 60 2 ∧ (tget z.tiles i).bi = a.extractLsb' 55 5 ∧
            (tget z.tiles i).ft = a.extractLsb' 51 4) ∧
          ((d 0x1C0).getLsbD 63 = true → z.restart = {} ∧ z.tlq.length = o.tlq.length + 1 ∧ ∃ m cc, tfind t.cmds m = some cc ∧
            cc.op = .mmas ∧ cc.strand = k ∧ cc.td = some ((d 0x1C0).extractLsb' 58 5) ∧ cc.isX = (d 0x1C0).getLsbD 57 ∧
            cc.mfmt = (d 0x1C0).extractLsb' 53 4 ∧ cc.ord = (d 0x1C0).extractLsb' 48 5 ∧ cc.prog = fld (d 0x1F0) 16 16 ∧
            ∀ i, i < 6 → dwAt cc.cap (8 * i) = d (0x1C8 + 8 * i))

/-- R30, R35, R36, R45, R73, R76, R105, R297, R298, R316, R318 to R320, R396, R401: a scheduler's winner is a candidate that none comes
before; its first placement, of a batch without routines, makes the gang resident at its entry points on the cluster found, at the
cost of R316, and writes LW, once the boundary's refill is done (R314); with routines it also loads and binds them; a gang that has run
is restored from its folios and frames; the gate opens when every strand is resident and loaded, with the acquire of the first bundles
(R130).
What a bad folio does to its batch (log 61), how the acquire is made (log 81), since when the next head is the candidate (log 69), and
from what a strand at rest is restored (log 6) are the model's reading. -/
def Obligations.Placement : Prop :=
  Sys2Proof.Claims.PlacedWithRoutines ∧ Sys2Proof.Claims.PlacedAgain ∧
  (∀ (s : State) (part : Nat) (c : Cand), s.winner part = some c → c.queue < 16 ∧ s.candidate part c.queue = some c ∧
    ∀ q d, q < 16 → s.candidate part q = some d → comesFirst (tget s.parts part).lw c d) ∧
  (∀ (s : State) (part : Nat), s.dev.stopped = true ∨ (tget s.parts part).tokenAt ≤ s.now ∨
      (∀ q, q < 16 → s.candidate part q = none) →
    exec (.schedulerPlacement part) s = .next s) ∧
  (∀ (s : State) (part b : Nat) (c : Cand), s.dev.stopped = false → s.winner part = some c → c.entry = .batch b →
    let x := tget s.batches b
    let p := tget s.parts part
    let ten := (tget p.queues c.queue).ten.toNat
    s.now < p.tokenAt → x.groups = [] → x.binds = [] → ∃ t, exec (.schedulerPlacement part) s = .next t ∧ t.mem = s.mem ∧
      (let q := tget (tget t.parts part).queues c.queue
      q.candSince = none ∧ q.overdue = false ∧ q.headSince = none) ∧ t.nextId = s.nextId + 1 + x.width ∧ cget (tget t.parts part).lw c.pri = BitVec.ofNat 4 c.queue ∧
      (tget t.batches b).nextGang = x.nextGang + 1 ∧
      (∃ g, tfind t.gangs s.nextId = some g ∧ g.placed = true ∧ g.gate = false ∧ g.cluster = c.cluster ∧ g.batch = b ∧
        g.gi = x.nextGang ∧ g.strands = (List.range x.width).map (fun r => s.nextId + 1 + r)) ∧
      (∀ r, r < x.width → let k := tget t.strands (s.nextId + 1 + r)
        k.resident = true ∧ k.rank = r ∧ k.role = roleOf x.n r ∧ k.core = 12 * c.cluster + c.cores.getD r 0 ∧
        k.pc = x.ep.getD k.role 0 ∧ k.st = 7 ∧ k.s = [] ∧ k.ha = false ∧ k.win = x.win) ∧
      let u := (tget t.parts part).tenants
      (c.lender = none → tget u ten = { tget p.tenants ten with bal := (tget p.tenants ten).bal - x.width } ∧
        ∀ n, n ≠ ten → tget u n = tget p.tenants n) ∧
      ∀ l, c.lender = some l → tget u l = { tget p.tenants l with
          bal := (tget p.tenants l).bal - x.width, cr := (tget p.tenants l).cr + x.width } ∧
        tget u ten = { tget p.tenants ten with db := (tget p.tenants ten).db + x.width } ∧
        ∀ n, n ≠ l → n ≠ ten → tget u n = tget p.tenants n) ∧
  (∀ (s : State) (g : Nat),
    let open_ := (tget s.gangs g).placed = true ∧ ∀ k ∈ (tget s.gangs g).strands, (tget s.strands k).ended = false →
      (tget s.strands k).resident = true ∧
      ∀ e ∈ (tget s.cores (tget s.strands k).core).pages, ¬(e.2.loading = true ∧ e.2.owner = some k)
    (open_ → (∀ e ∈ (tget s.clusters (tget s.gangs g).cluster).lines, e.1 < 2 ^ 33) →
      ∃ t, exec (.startGateOpen g) s = .next t ∧ t.strands = s.strands ∧ t.cmds = s.cmds ∧ Fenced s t (tget s.gangs g).cluster 2 ∧
        t.gangs = (s.onGang g (fun x => { x with gate := true, started := true })).gangs) ∧
    (¬open_ → exec (.startGateOpen g) s = .next s))

/-- R326: a load or a store that was held is performed once its tenant is below its cap: the load with the bytes that then stand at its
place, the store with its own; and a fence of the strand that waited for nothing else ends with the cache's lines written back (R141). -/
def Sys2Proof.Claims.HeldServed : Prop :=
  ∀ (s : State) (k : Nat) (h : HeldAccess) (p : HeldSpan),
    let x := tget s.strands k
    let c := clusterOf x.core
    (tfind s.strands k).isSome → x.held = [h] → h.spans = [p] → h.places = [p] →
    (∀ j, j ≠ k → (tget s.strands j).held = []) → (∀ e ∈ s.strands, e.2.asks ≠ some h.res) →
    resourceOf p.kind p.pa = some h.res → s.capped x.part (s.tenantOf x) h.res = false →
    (s.logAll x.part (s.tenantOf x) h.pages).2 = true → p.pa + p.n ≤ 2 ^ 39 → Writable p.kind p.pa p.n → (∀ e ∈ (tget s.clusters c).lines, e.1 < 2 ^ 33) →
    (∀ (d : BitVec 6) (sg : Bool) (o : LdOp), h.work = .load d sg → x.ldq = [o] → x.stq = [] → p.pa % p.n = 0 → p.n ∈ [1, 2, 4, 8] →
      ∃ t, exec (.arbiterServe h.res) s = .next t ∧ (tget t.strands k).s = x.s ∧
        (x.fenced = false → t.mem = s.mem) ∧ (tget t.strands k).ldq = [{ o with held := none, dest := .scalar d (extended sg p.n
          ((List.range p.n).map (fun j => seen s c p.kind (p.pa + j)))) }] ∧
        (tget t.strands k).fenced = false) ∧
    (∀ (v : Word), h.work = .store v → x.ldq = [] → x.stq = [{ held := some h }] → p.n ≤ 8 →
      ∃ t, exec (.arbiterServe h.res) s = .next t ∧ (tget t.strands k).s = x.s ∧ (tget t.strands k).stq = [{}] ∧
        (∀ j, j < p.n → seen t c p.kind (p.pa + j) = v.extractLsb' (8 * j) 8) ∧
        (x.fenced = true → 2 ≤ x.fenceScope → (tget t.clusters c).lines = [] ∧
          ∀ j, j < p.n → cget t.mem (memKey p.kind (p.pa + j)) = v.extractLsb' (8 * j) 8) ∧
        (tget t.strands k).fenced = false)

/-- R310, R312 to R314, R317, R324 to R327, R409, R416: the clocks of the scheduler: at a token-period boundary the writes that
wait take effect and every tenant is refilled; a candidate becomes overdue; a write of the scheduling table is taken
or refused; a bandwidth window reports who was starved below its floor at an arbiter and begins with what the caps held back; a
held access is performed; timers are set within their range.
How time passes, the TEN of a queue word, what a queue remembers of its candidate, which requests a cap holds back and who is
starved are the model's choices (log 14, 55, 69 and 70), an entry of a resource that is not owned too (log 29). -/
def Obligations.SchedulerClocks : Prop :=
  (∀ (s : State) (part : Nat),
    let p := tget s.parts part
    (p.live = false → exec (.tokenRefill part) s = .next s) ∧
    (p.live = true → ∃ t, exec (.tokenRefill part) s = .next t ∧ t.now = max s.now p.tokenAt ∧ t.mem = s.mem ∧ t.strands = s.strands ∧
      let p' := tget t.parts part
      let a := p.pending.foldl Partition.configured p
      p'.pending = [] ∧ p'.tokenAt = p.tokenAt + 10000 ∧ p'.queues = a.queues ∧ p'.bw = a.bw ∧
      ∀ n, n < 16 → tget p'.tenants n = refilled (tget a.tenants) n)) ∧
  (∀ (p : Partition) (w : PendingWrite) (n : Nat),
    (n < 16 → w.off = 8 * n → tget (p.configured w).queues n =
      { tget p.queues n with pri := w.word.extractLsb' 61 2, ten := w.word.extractLsb' 48 4 }) ∧
    (n < 16 → w.off = 0x100 + 32 * n → tget (p.configured w).tenants n =
      { tget p.tenants n with rf := (w.word.extractLsb' 48 16).toNat, cap := (w.word.extractLsb' 32 16).toNat }) ∧
    (n < 16 → w.off = 0x110 + 32 * n → tget (p.configured w).tenants n = { tget p.tenants n with bl := (w.word.extractLsb' 0 16).toNat }) ∧
    (n < 2432 → w.off = 0x400 + 4 * n → n ∉ (p.configured w).noBudget ∧ cget (p.configured w).bw n =
      if n % 152 < 96 then w.word.extractLsb' 0 32 else w.word.extractLsb' 0 32 &&& 0xFFFF0000)) ∧
  (∀ (s : State) (part off : Nat) (w : Word),
    let p := tget s.parts part
    let pw : PendingWrite := { off := off, word := w }
    let a := (p.pending ++ [pw]).foldl Partition.configured
      (if off < 0x80 then { p with queues := tset p.queues (off / 8) { tget p.queues (off / 8) with
        qe := w.getLsbD 63, shut := (tget p.queues (off / 8)).shut && !w.getLsbD 63 } } else p)
    let bad := (∃ x ∈ a.tenants, x.2.cap < x.2.rf) ∨ ∃ q ∈ a.queues, q.2.qe = true ∧ (tget a.tenants q.2.ten.toNat).rf = 0
    p.live = true → off % 8 = 0 → off < 0x400 →
      (bad → exec (.schedulingTableWrite part off w) s = .next s) ∧
      (¬bad → ∃ t, exec (.schedulingTableWrite part off w) s = .next t ∧ t.strands = s.strands ∧ t.mem = s.mem ∧
        let p' := tget t.parts part
        p'.pending = p.pending ++ [pw] ∧ p'.tenants = p.tenants ∧ p'.bw = p.bw ∧
        ∀ q, tget p'.queues q = if off < 0x80 ∧ q = off / 8 then { tget p.queues q with
          qe := w.getLsbD 63, shut := (tget p.queues q).shut && !w.getLsbD 63 } else tget p.queues q)) ∧
  (∀ (s : State) (part off : Nat) (w : Word),
    let p := tget s.parts part
    let s' := s.onPart part (fun _ => { p with pending := p.pending ++ [{ off := off, word := w }] })
    let bad := (tget s'.parts part).ahead.badConfig = true ∨ s'.overCommitted ((off - 0x400) / 4 % 152) = true
    (p.live = false ∨ off % 4 ≠ 0 → exec (.schedulingTableWrite part off w) s = .next s) ∧
    (p.live = true → off % 4 = 0 → 0x400 ≤ off → exec (.schedulingTableWrite part off w) s = .next (if bad then s else s'))) ∧
  (∀ (s : State) (part q u : Nat), (tget (tget s.parts part).queues q).candSince = some u →
    ∃ t, exec (.candidateOverdue part q) s = .next t ∧ t.now = max s.now (u + 5000) ∧ t.strands = s.strands ∧
      tget (tget t.parts part).queues q = { tget (tget s.parts part).queues q with overdue := true }) ∧
  (∀ s : State, ∃ t, exec .bandwidthWindow s = .next t ∧ t.now = max s.now (s.dev.bwAt + 4000) ∧ t.dev.bwAt = t.now / 4000 * 4000 ∧
    t.strands = s.strands ∧ t.mem = s.mem ∧
    (∀ n p, tfind s.parts n = some p → ∃ sv la, tfind t.parts n =
        some { p with served := sv, later := la, atomics := [], starved := [], lateAb := [] } ∧ (p.later = [] → sv = [] ∧ la = []) ∧
      ((p.later.map (·.1)).Nodup → ∀ ten res inw, ten < 16 → res < 152 →
        let k := servedKey (BitVec.ofNat 4 ten) res inw
        let cap := s.cap2 n (BitVec.ofNat 4 ten) res
        tget sv k + tget la k = tget p.later k ∧ (cap = 0 → tget la k = 0) ∧ (cap ≠ 0 → 2 * tget sv k ≤ cap + 1))) ∧
    ((∀ n, (tget s.parts n).starved = []) → t.dev.fatal = s.dev.fatal) ∧
    ∀ n p ten arb e, tfind s.parts n = some p → (∀ m, m ≠ n → (tget s.parts m).starved = []) → p.starved = [(ten, arb)] → ten < 16 →
      arb < 176 →
      let res := if arb < 152 then arb else arb - 24
      s.bwEntry n (BitVec.ofNat 4 ten) res = some e → (s.dev.fatal.filter (fun r => r.mod)).length < 64 →
      let unit2 := if res < 32 then 28125 else if res < 96 then 31250 else if res < 128 then Config.engineUnit2 else 3125
      let floor2 := (e.extractLsb' 24 8).toNat * unit2
      let served := tget p.served (152 * ten + res + (if arb < 152 then 0 else 2432))
      2 * (served + 512) < floor2 → ∃ r ∈ t.dev.fatal, r.mod = true ∧ r.cause = 0x0067 ∧ r.val = BitVec.ofNat 64 res ∧
        r.aux = BitVec.ofNat 64 (2 ^ 32 * (floor2 / 2 - served) + 2 ^ 8 * n + ten)) ∧
  (∀ (s : State) (part us ms : Nat), (us ≤ 10000 → 1 ≤ ms → ms ≤ 1000 →
      exec (.timerSet part us ms) s = .next (s.onPart part (fun p => { p with graceUs := us, killMs := ms }))) ∧
    (10000 < us ∨ ms = 0 ∨ 1000 < ms → exec (.timerSet part us ms) s = .next s)) ∧
  (∀ (s : State) (k : Nat) (h : HeldAccess) (d : BitVec 6) (v0 : Word) (l : BitVec 32),
    let x := tget s.strands k
    let c := clusterOf x.core
    (tfind s.strands k).isSome → x.ldq = [{ dest := .scalar d v0, lanes := l, held := some h }] → x.stq = [] → h.work = .atomic →
    (∀ j, j ≠ k → (∀ o ∈ (tget s.strands j).ldq, o.held = none) ∧ ∀ o ∈ (tget s.strands j).stq, o.held = none) →
    (∀ e ∈ s.strands, e.2.asks ≠ some h.res) → s.budgetFree x.part (s.tenantOf x) h.res 1 = true →
    (s.logAll x.part (s.tenantOf x) (pagesOf h.kind h.va h.size)).2 = true → h.pa % h.size = 0 → h.kind < 3 → h.pa + h.size ≤ 2 ^ 39 →
    Writable h.kind h.pa h.size →
    (∀ e ∈ (tget s.clusters c).lines, e.1 < 2 ^ 33) →
      let v := leNat ((List.range h.size).map (fun j => if h.kind = 0 then homeByte s c (h.pa + j) else cget s.mem (memKey h.kind (h.pa + j))))
      ∃ t, exec (.arbiterServe h.res) s = .next t ∧
        (tget t.strands k).ldq = [{ dest := .scalar d (BitVec.ofNat 64 v), lanes := l }] ∧
        (tget t.strands k).s = x.s ∧
        ∀ j, j < h.size → cget t.mem (memKey h.kind (h.pa + j)) =
          BitVec.ofNat 8 (atomicNew h.op h.size v (h.b.toNat % 2 ^ (8 * h.size)) (h.c.toNat % 2 ^ (8 * h.size)) / 256 ^ j)) ∧
  Sys2Proof.Claims.HeldServed

/-- R74, R321, R409, R411: the ladder of pre-emption: a request is remembered with the timers in force, one that the gang
has already is joined; the forced rung halts the gang and posts cause 0x0060; the kill rung writes ST 6 and ends the
gang; the scheduler asks, for a priority-3 head that fits nowhere, the placed gang of lowest PRI and latest placement
whose leaving would let it fit.
How time passes, what a halt does to a request, and that of several such heads the one that has waited longest is served are the
model's choices (log 14, 60 and 69). -/
def Obligations.Preemption : Prop :=
  (∀ (s : State) (g : Nat),
    let x := tget s.gangs g
    let p := tget s.parts x.part
    (x.placed = false ∨ x.pre ≠ none → exec (.preemptionRequest g) s = .next s) ∧
    (x.placed = true → x.pre = none → p.graceUs ≠ 0 → exec (.preemptionRequest g) s = .next (s.onGang g (fun x => { x with
      pre := some { since := s.now, grace := 1000 * p.graceUs, kill := 1000000 * p.killMs } }))) ∧
    (x.placed = true → x.killed = false → x.stopped = false → x.pre = none → p.graceUs = 0 →
      ∃ t, exec (.preemptionRequest g) s = .next t ∧ Forced s t g) ∧
    (∀ q, x.killed = false → x.stopped = false → x.pre = some q → q.halt = none → ∃ t, exec (.graceTimeExpiry g) s = .next t ∧ t.now = max s.now (q.since + q.grace) ∧ Forced s t g) ∧
    (∀ q, x.pre = some q → q.halt ≠ none → exec (.graceTimeExpiry g) s = .next s) ∧
    (x.pre = none → exec (.graceTimeExpiry g) s = .next s ∧ exec (.killTimeExpiry g) s = .next s) ∧
    (∀ q h, x.pre = some q → q.halt = some h → ∃ t, exec (.killTimeExpiry g) s = .next t ∧ t.now = max s.now (h + q.kill) ∧
      (let y := tget t.gangs g
      y.killed = true ∧ y.placed = false ∧ y.pre = none ∧ y.pipes = [] ∧ y.bars = [] ∧ y.im = []) ∧
      ((tfind s.batches x.batch).isSome → (tget t.batches x.batch).error = true) ∧
      (∀ k ∈ x.strands, (tfind s.strands k).isSome → (tget s.strands k).st ≠ 5 →
        (tget t.strands k).st = 6 ∧ (tget t.strands k).resident = false ∧ (tget t.strands k).s = (tget s.strands k).s) ∧
      ((∀ e ∈ s.cmds, e.2.strand ∉ x.strands) → s.dev.uncorrectable = [] →
        (s.dev.fatal.filter (fun r => !r.mod && r.part = (tget s.strands (x.strands.headD 0)).part)).length < 64 →
        ∃ r ∈ t.dev.fatal, r.cause = 0x0061 ∧ r.val = (tget s.strands (x.strands.headD 0)).fol.setWidth 64))) ∧
  (∀ (s : State) (part : Nat),
    (s.starved part = none → exec (.priorityPreemption part) s = .next s) ∧
    (∀ u g, s.starved part = some (u, g) → (s.gangs.map (·.1)).Nodup →
      let p := tget s.parts part
      let x := tget s.gangs g
      let fits (e : QEntry) (j : Nat) : Prop := (tget s.gangs j).part = part ∧ (tget s.gangs j).placed = true ∧ (tfind s.gangs j).isSome ∧
        (((tget s.gangs j).strands.foldl State.freeContext s).fitEntry part e).isSome
      (∃ q e, q < 16 ∧ (tget p.queues q).pri = 3 ∧ s.headOf p q = some e ∧ (tget p.queues q).headSince = some (e, u) ∧
        s.fitEntry part e = none ∧ (s.payer part (tget p.queues q).ten.toNat (s.costOf e)).isSome ∧ fits e g ∧
        ∀ j, fits e j → s.priOf g < s.priOf j ∨ (s.priOf g = s.priOf j ∧ (tget s.gangs j).placedAt ≤ x.placedAt)) ∧
      (∀ q e v, q < 16 → (tget p.queues q).pri = 3 → s.headOf p q = some e → (tget p.queues q).headSince = some (e, v) →
        s.fitEntry part e = none → (s.payer part (tget p.queues q).ten.toNat (s.costOf e)).isSome → (∃ j, fits e j) → u ≤ v) ∧
      ((∃ j, p.prioReq = some j ∧ (tget s.gangs j).pre ≠ none) → exec (.priorityPreemption part) s = .next s) ∧
      ((∀ j, p.prioReq = some j → (tget s.gangs j).pre = none) →
        ∃ t, exec (.priorityPreemption part) s = .next t ∧ t.now = max s.now (u + 5000) ∧ (tget t.parts part).prioReq = some g ∧
          (x.pre ≠ none → t.gangs = s.gangs) ∧
          (x.pre = none → p.graceUs ≠ 0 → t.strands = s.strands ∧ t.mem = s.mem ∧
            t.gangs = (s.onGang g (fun x => { x with
              pre := some { since := t.now, grace := 1000 * p.graceUs, kill := 1000000 * p.killMs } })).gangs))))

/-- R380 to R382, R384, R398: the oldest waiting record is posted where the ring has room; a consumed one leaves its
lane; RESUME makes its gang placeable, VECTOR also sends its strand to the handler, KILL stops the gang with ST 8; a
command's record takes only RESUME and KILL.
SEQ of a dropped record, where a lane's ring stands and which free slot a record takes (log 34) and ST after KILL (log 60) are the
model's readings. -/
def Obligations.RecordAnswers : Prop :=
  (∀ (s : State),
    (s.dev.waiting = [] ∨ s.dev.ring ≤ s.dev.replay.length → exec .replayableRecordPost s = .next s) ∧
    (∀ r rest, s.dev.waiting = r :: rest → s.dev.replay.length < s.dev.ring → ∃ t p, exec .replayableRecordPost s = .next t ∧
      t.strands = s.strands ∧ t.gangs = s.gangs ∧ t.mem = s.mem ∧ t.dev.fatal = s.dev.fatal ∧ t.dev.waiting = rest ∧
      p < s.dev.ring ∧ (∀ q ∈ s.dev.replay, q.place ≠ p) ∧ t.dev.replay = s.dev.replay ++ [{ r with place := p }] ∧
      t.dev.answers = (if r.cause ≠ 0x0019 ∧ r.cause ≠ 0x0060 then s.dev.answers ++ [r] else s.dev.answers) ∧
      (s.dev.replayBase + 64 * s.dev.ring ≤ 2 ^ 36 →
        ∀ i, i < 8 → BitVec.ofNat 64 (cnum t.dev.dram (s.dev.replayBase + 64 * p + 8 * i) 8) = recordWord r i))) ∧
  (∀ (s : State) (fatal : Bool) (part seq : Nat), ∃ t, exec (.recordConsumed fatal part seq) s = .next t ∧ t.strands = s.strands ∧
    t.mem = s.mem ∧
    (∀ r, r ∈ t.dev.fatal ↔ r ∈ s.dev.fatal ∧ (fatal = true → r.named part seq = false)) ∧
    (∀ r, r ∈ t.dev.replay ↔ r ∈ s.dev.replay ∧ (fatal = false → r.named part seq = false)) ∧
    ∀ r ∈ (if fatal then s.dev.fatal else s.dev.replay), r.named part seq = true →
      (cget t.dev.dram (s.dev.recordAt r + 7)).getLsbD 7 = false) ∧
  (∀ (s : State) (r : Record) (part seq : Nat), Awaits s r part seq → r.cmd = none →
    let g := tget s.gangs r.gang
    let q := (tget s.batches g.batch).queue
    let back (t : State) : Prop := (tget t.gangs r.gang) = { g with answer := false } ∧ t.mem = s.mem ∧
      ((tfind s.parts g.part).isSome → (tget (tget t.parts g.part).queues q).head = (tget (tget s.parts g.part).queues q).head ++ [r.gang])
    (r.cause ≠ 0x0002 → ∃ t, exec (.resume part seq) s = .next t ∧ back t ∧ t.strands = s.strands) ∧
    (r.cause = 0x0002 → exec (.resume part seq) s = exec (.vector part seq) s) ∧
    (∃ t, exec (.vector part seq) s = .next t ∧ back t ∧ (∀ k, k ≠ r.strand → tfind t.strands k = tfind s.strands k) ∧
      ((tfind s.strands r.strand).isSome → ∃ tr, tget t.strands r.strand = { tget s.strands r.strand with vectorTrap := some tr } ∧
        tr.cause = r.cause ∧ tr.val = r.val)) ∧
    (∃ t, exec (.kill part seq) s = .next t ∧ (tget t.gangs r.gang).stopped = true ∧ (tget t.gangs r.gang).placed = false ∧
      (tget t.gangs r.gang).answer = false ∧ ((tfind s.batches g.batch).isSome → (tget t.batches g.batch).error = true) ∧
      ∀ k ∈ g.strands, (tfind s.strands k).isSome → (tget s.strands k).ended = false → (tget t.strands k).st = 8)) ∧
  (∀ (s : State) (r : Record) (part seq n : Nat), Awaits s r part seq → r.cmd = some n →
    exec (.vector part seq) s = .next s ∧
    (∀ c, tfind s.cmds n = some c → ∃ t c', exec (.resume part seq) s = .next t ∧ t.strands = s.strands ∧ t.mem = s.mem ∧
      tfind t.cmds n = some c' ∧ c'.state = (if c.op = .sqwait then .queued else .started) ∧ c'.prog = c.prog ∧ c'.lostUnit = none ∧
      (c.state = .stalled → c'.old = [] ∧ t.dev.outs = s.dev.outs) ∧
      (c.state = .lost → c'.old = c.old ∧ ∀ u, c.lostUnit = some u →
        c'.window = some s.windowNow ∧ ∀ k o, tfind s.dev.outs k = some o →
          tfind t.dev.outs k = some (if o.cmd = n ∧ u ≤ k then { o with window := s.windowNow, acked := false } else o))) ∧
    (∀ c, tfind s.cmds n = some c → ∃ t, exec (.kill part seq) s = .next t ∧
      (c.wordLeft = true → c.state = .stalled → tfind t.cmds n = none) ∧
      (tfind t.cmds n = none ∨ ∃ c', tfind t.cmds n = some c' ∧ c'.wordLeft = true ∧ c'.error = 2 ∧
        (c.state = .stalled → c'.bytes = c.bytes) ∧
        ∀ u o, c.state = .lost → c.lostUnit = some u → tfind s.dev.outs u = some o → c'.bytes = o.before)))

/-- R50, R96, R99, R100, R104, R135, R145: what the control complex does to code and mappings: an unloaded generation's code
that nothing carries is freed; a region entry is written but for its reserved bits; an invalidation marks the handles
that overlap it and is retired when nothing is before it; a splinter table carries its parent's pages but the changed
ones; a binding that overlaps none is bound, and a reset leaves its SEQ.
Where table entries stand (log 2), which mapping was in force before a marker (log 50), when a region entry takes effect (log 67), when
unneeded code is freed (log 75) and that a failed handle stays as it is (log 85) are the model's choices. -/
def Obligations.Mappings : Prop :=
  (∀ (s : State) (part : Nat) (ig : BitVec 32), (tfind s.parts part).isSome → ∃ t, exec (.unload part ig) s = .next t ∧ t.mem = s.mem ∧
    t.strands = s.strands ∧ ig ∈ (tget t.parts part).unloaded ∧
    (¬Carried s part ig → ∀ k c, clusterOf k ∈ (tget s.parts part).res.clusters → tfind t.cores k = some c →
      (c.half0.filled = true → c.half0.ig ≠ ig) ∧ (c.half1.filled = true → c.half1.ig ≠ ig) ∧
      ∀ p x, tfind c.pages p = some x → x.part = part → x.ig = ig → x.owner = none → x.valid = false)) ∧
  (∀ (s : State) (part n : Nat) (w : Word),
    let old := cget (tget s.parts part).regions n
    let v := w &&& 0xF00F_FFFF_FFFF_F000
    (15 < n ∨ 64 ≤ part ∨ 4 < (w.extractLsb' 60 3).toNat ∨ s.dev.stopped = true → exec (.regionAttributeWrite part n w) s = .next s) ∧
    (n ≤ 15 → part < 64 → (w.extractLsb' 60 3).toNat ≤ 4 → s.dev.stopped = false → ∃ t, exec (.regionAttributeWrite part n w) s = .next t ∧
      t.mem = s.mem ∧ cget (tget t.parts part).regions n = v ∧
      (∀ m, m ≠ n → cget (tget t.parts part).regions m = cget (tget s.parts part).regions m) ∧
      (v = old ∨ (v.getLsbD 63 = false ∧ old.getLsbD 63 = false) → t.strands = s.strands) ∧
      (v ≠ old → v.getLsbD 63 = true ∨ old.getLsbD 63 = true → ∀ k x m, tfind s.strands k = some x → x.part = part → x.resident = true →
        (tget x.hd m).hs = 1 → inRange (tget x.hd m) (n * 2 ^ 52) (2 ^ 52) → (tget (tget t.strands k).hd m).hs = 2))) ∧
  (∀ (s : State) (part len : Nat) (va : BitVec 56), ∃ t, exec (.invalidateMapping part va len) s = .next t ∧ t.mem = s.mem ∧
    t.nextId = s.nextId + 1 ∧
    (∃ i, tfind t.dev.invals s.nextId = some i ∧ i.part = part ∧ i.va = va.toNat ∧ i.len = len ∧
      ∀ n, n ∈ i.cmds ↔ ∃ e ∈ s.cmds, e.1 = n ∧ e.2.part = part ∧ e.2.op.translates = true) ∧
    (∀ n c, tfind s.cmds n = some c → (c.part ≠ part ∨ c.op.translates = false → tfind t.cmds n = some c) ∧
      (c.part = part → c.op.translates = true → (tget s.parts part).before = [] → 0 < len → tfind t.cmds n = some { c with
        old := c.old ++ [{ va := va.toNat, len := len, tables := s.mem, regs := (tget s.parts part).regions }] })) ∧
    ∀ k x, tfind s.strands k = some x →
      (x.part ≠ part ∨ x.resident = false → tfind t.strands k = some x) ∧
      (x.part = part → x.resident = true → ∃ y, tfind t.strands k = some y ∧ y = { x with hd := y.hd, fly := y.fly } ∧
        ∀ n, ((tget x.hd n).hs = 1 → inRange (tget x.hd n) va.toNat len → tget y.hd n = { tget x.hd n with hs := 2 }) ∧
          ((tget x.hd n).hs ≠ 1 ∨ ¬inRange (tget x.hd n) va.toNat len → tget y.hd n = tget x.hd n))) ∧
  (∀ (s : State) (n : Nat) (i : Invalidation), tfind s.dev.invals n = some i →
    (i.cmds = [] → (∀ k ∈ i.strands, (tget s.strands k).holdsIn i.va i.len = false) →
      ∃ t, exec (.invalidationRetired n) s = .next t ∧ tfind t.dev.invals n = none ∧ t.strands = s.strands ∧ t.mem = s.mem) ∧
    (i.cmds ≠ [] ∨ (∃ k ∈ i.strands, (tget s.strands k).holdsIn i.va i.len = true) → exec (.invalidationRetired n) s = .next s)) ∧
  (∀ (s : State) (c : SplinterChange) (a : Nat),
    let r := cget (tget s.parts c.part).regions (c.va.toNat / 2 ^ 52)
    let ps := (r.extractLsb' 60 3).toNat
    let sp := (splinterOf ps).1
    let n := 2 ^ (splinterOf ps).2
    let e := tableEntry s.mem a
    r.getLsbD 63 = true → ps ≠ 0 → c.table % 4096 = 0 → c.table + 4096 ≤ 2 ^ 39 →
    leafEntryAt s.mem c.va.toNat (walkGroups ps) ((r.extractLsb' 12 40).toNat * 4096) = some a →
    e.getLsbD 63 = true → entryReserved e = false → (e.extractLsb' 56 3).toNat ≤ 2 → e.getLsbD 62 = false →
    (a + 8 ≤ c.table ∨ c.table + 4096 ≤ a) → ∃ t, exec (.splinter c) s = .next t ∧
      (∀ i, i < n → if c.first ≤ i ∧ i < c.first + c.count
        then RaisedBase (tableEntry t.mem (c.table + 8 * i)) c.entry ((i - c.first) * 2 ^ (pageBits sp - 12))
        else RaisedBase (tableEntry t.mem (c.table + 8 * i)) e (i * 2 ^ (pageBits sp - 12))) ∧
      tableEntry t.mem a = (e &&& 0xFFF0_0000_0000_0FFF) ||| 0x4000_0000_0000_0000 ||| BitVec.ofNat 64 c.table ∧
      (∀ k, ¬(c.table ≤ k ∧ k < c.table + 8 * n) → ¬(a ≤ k ∧ k < a + 8) → cget t.mem k = cget s.mem k) ∧
      ∃ i, tfind t.dev.invals s.nextId = some i ∧ i.part = c.part ∧ i.va = c.va.toNat / 2 ^ pageBits ps * 2 ^ pageBits ps ∧
        i.len = 2 ^ pageBits ps) ∧
  (∀ (s : State) (part n : Nat) (w0 w1 : Word),
    let b := tget (tget s.parts part).bindings n
    let rb := 4096 * (w0.extractLsb' 12 44).toNat
    let len := 4096 * ((w1.extractLsb' 0 28).toNat + 1)
    let clash := ∃ e ∈ (tget s.parts part).bindings, e.1 ≠ n ∧ e.2.bv = true ∧ e.2.rb.toNat < rb + len ∧
      rb < e.2.rb.toNat + 4096 * (e.2.np.toNat + 1)
    let scope := (w0.extractLsb' 60 3).toNat
    (tget s.parts part).live = true → n < 4096 →
      (w0.getLsbD 63 = true → scope = 0 ∨ 3 < scope ∨ clash → exec (.bindingWrite part n (.bind w0 w1)) s = .next s) ∧
      (w0.getLsbD 63 = false ∨ (1 ≤ scope ∧ scope ≤ 3 ∧ ¬clash) → ∃ t, exec (.bindingWrite part n (.bind w0 w1)) s = .next t ∧
        t.strands = s.strands ∧ t.mem = s.mem ∧ tget (tget t.parts part).bindings n = { b with
          bv := w0.getLsbD 63, hsc := w0.extractLsb' 60 3, rb := w0.extractLsb' 12 44 ++ (0 : BitVec 12), np := w1.extractLsb' 0 28 }) ∧
      (b.waiters = [] → ∃ t, exec (.bindingWrite part n .reset) s = .next t ∧ t.strands = s.strands ∧ t.mem = s.mem ∧
        tget (tget t.parts part).bindings n = { b with md := 0, sh := 0, own := 0, bk := true }))

/-- R306, R323, R327, R358, R360, R362 to R367: a partition is created with resources that nobody owns and grows by them, with clean
clusters and a table rewritten in two moves of its sequence number, and nothing of another partition changes; one that
would lose its last cluster or a port that a route names is not shrunk; a slice's bytes are zeroed; a rewrite of the table is odd
while it lasts; route entries and collective stores are written.
How the capability table is written (log 30 and 52), what growing and a change of owner do (log 67 and 73), when a command for a
partition is refused, the status of a destruction and what a route entry with RV 0 holds (log 71), and where programs of a collective
engine are set up (log 28) are the model's choices. -/
def Obligations.Partitions : Prop :=
  (∀ (s : State) (part : Nat) (r : Resources),
    let p := tget s.parts part
    let ok := part < 64 ∧ p.live = false ∧ s.dev.stopped = false ∧ s.dev.powered = true ∧ s.dev.boot = 4 ∧ r.clusters ≠ [] ∧
      1 ≤ r.tenants ∧ r.tenants ≤ 16 ∧ s.available r = true
    (¬ok → exec (.partitionCreate part r) s = .next s) ∧
    (ok → ∃ t, exec (.partitionCreate part r) s = .next t ∧ OthersKept s t part ∧ Cleaned s t r.clusters ∧
      (∀ i ∈ r.clusters, (tget t.dev.islands i).offset = 0) ∧ TablesOnly s t part ∧ TableHolds t part ∧
      (∀ a, a < 2 ^ 17 → cget t.mem (memKey 1 (tablePa 16 part) + a) = 0) ∧
      let q := tget t.parts part
      q.live = true ∧ q.res = r ∧ q.regions = p.regions ∧ q.capSeq = 2 ∧ q.graceUs = 200 ∧ q.killMs = 20 ∧
      (∀ n, tget q.tenants n = {}) ∧ (∀ n, tget q.queues n = {}) ∧ (∀ l, l < 4 → cget q.lw l = 15) ∧ s.now < q.tokenAt ∧
      q.tokenAt % 10000 = 0 ∧ q.tokenAt ≤ s.now + 10000)) ∧
  (∀ (s : State) (part : Nat) (r : Resources),
    let p := tget s.parts part
    let res := addResources p.res r
    let grown := s.onPart part (fun p => { p with
      res := res, tenants := (List.range res.tenants).map (fun n => (n, tget p.tenants n)) })
    let ok := p.live = true ∧ p.destroying = false ∧ p.shrinking = none ∧ r.tenants ≤ 16 ∧ s.available r = true ∧
      ∀ x, x < 152 → ownsRes r x = true → grown.overCommitted x = false
    (¬ok → exec (.partitionGrow part r) s = .next s) ∧
    (ok → ∃ t, exec (.partitionGrow part r) s = .next t ∧ OthersKept s t part ∧ Cleaned s t r.clusters ∧ TablesOnly s t part ∧
      TableHolds t part ∧
      let q := tget t.parts part
      q.live = true ∧ q.capSeq = p.capSeq + (if p.capSeq % 2 = 0 then 2 else 1) ∧ (∀ i, i ∈ q.res.clusters ↔ i ∈ p.res.clusters ∨ i ∈ r.clusters) ∧
      (∀ i, i ∈ q.res.slices ↔ i ∈ p.res.slices ∨ i ∈ r.slices) ∧ (∀ i, i ∈ q.res.engines ↔ i ∈ p.res.engines ∨ i ∈ r.engines) ∧
      (∀ i, i ∈ q.res.ports ↔ i ∈ p.res.ports ∨ i ∈ r.ports))) ∧
  (∀ (s : State) (part : Nat) (r : Resources),
    let p := tget s.parts part
    let named := ∃ n ∈ p.res.routes, n ∉ r.routes ∧ (cget s.dev.routes n).getLsbD 63 = true ∧
      ∃ i ∈ r.ports, (cget s.dev.routes n).getLsbD (70 + i) = true
    (p.live = false ∨ p.destroying = true ∨ p.shrinking ≠ none ∨ hasResources p.res r = false ∨
        (∀ i ∈ p.res.clusters, i ∈ r.clusters) ∨ named → exec (.partitionShrink part r) s = .next s) ∧
    (p.live = true → p.destroying = false → p.shrinking = none → hasResources p.res r = true →
        (∃ i ∈ p.res.clusters, i ∉ r.clusters) → ¬named →
      ∃ t, exec (.partitionShrink part r) s = .next t ∧
        (tget t.parts part).res.clusters = p.res.clusters.filter (fun i => !r.clusters.contains i) ∧
        (tget t.parts part).res.slices = p.res.slices.filter (fun i => !r.slices.contains i) ∧
        (tget t.parts part).res.engines = p.res.engines.filter (fun i => !r.engines.contains i)) ∧
    (p.live = false ∨ p.destroying = true ∨ p.shrinking ≠ none → exec (.partitionDestroy part) s = .next s) ∧
    (p.live = true → p.destroying = false → p.shrinking = none → ∃ t, exec (.partitionDestroy part) s = .next t ∧
      (tget t.parts part).destroying = true ∧ (tget t.parts part).stops = p.stops ++ [({} : TenantStop)] ∧
      ∀ q, (tfind p.queues q).isSome → (tget (tget t.parts part).queues q).shut = true)) ∧
  (∀ (s : State) (n : Nat), n ∈ s.dev.zeroing → ∃ t, exec (.sliceZeroed n) s = .next t ∧ t.strands = s.strands ∧ n ∉ t.dev.zeroing ∧
    ∀ k, cget t.mem k = if memKey 1 (2 ^ 26 * n) ≤ k ∧ k < memKey 1 (2 ^ 26 * (n + 1)) then 0 else cget s.mem k) ∧
  (∀ (s : State) (part : Nat) (doc : List Byte),
    let p := tget s.parts part
    (p.live = false ∨ doc ≠ s.capDoc part → exec (.capabilityTableRewrite part doc) s = .next s) ∧
    (p.live = true → doc = s.capDoc part → ∃ t, exec (.capabilityTableRewrite part doc) s = .next t ∧ OthersKept s t part ∧
      TablesOnly s t part ∧ (tget t.parts part).capSeq = p.capSeq + 1 ∧ (p.capSeq % 2 = 0 → (tget t.parts part).cap = p.cap) ∧
      (p.capSeq % 2 = 1 → TableHolds t part))) ∧
  (∀ (s : State) (n : Nat) (w0 w1 : Word),
    let pm : BitVec 24 := w1.extractLsb' 6 24
    let own := (s.routeOwner n).getD {}
    let base (w : Word) : Nat := (w.extractLsb' 30 26).toNat
    let gib (w : Word) : Nat := (w.extractLsb' 16 14).toNat + 1
    let clash := ∃ e ∈ s.dev.routes, e.1 ≠ n ∧ e.2.getLsbD 63 = true ∧
      let x : Word := e.2.extractLsb' 0 64
      base x < base w0 + gib w0 ∧ base w0 < base x + gib x
    let bad := pm = 0 ∨ (∃ i, i < 24 ∧ pm.getLsbD i = true ∧ i ∉ own.res.ports) ∨ (w0.getLsbD 63 = true ∧ clash)
    (1024 ≤ n ∨ bad → exec (.routeEntryWrite n w0 w1) s = .next s) ∧
    let new : BitVec 128 := (w1 &&& 0xFFFF_FFFF_FFFF_FFC0) ++ (w0 &&& 0x80FF_FFFF_FFFF_0000)
    (n < 1024 → ¬bad → ∃ t, exec (.routeEntryWrite n w0 w1) s = .next t ∧ t.strands = s.strands ∧
      cget t.dev.routes n = new ∧ (∀ m, m ≠ n → cget t.dev.routes m = cget s.dev.routes m) ∧
      (cget s.dev.routes n = new → t.mem = s.mem ∧ t.parts = s.parts) ∧
      ∀ part, (tget s.parts part).live = true → n ∈ (tget s.parts part).res.routes → cget s.dev.routes n ≠ new →
        (tget t.parts part).cap = t.capDoc part ∧ (tget t.parts part).capSeq % 2 = 0)) ∧
  (∀ (s : State) (part die a : Nat) (w : BitVec 128), (tget s.parts part).live = true → die < 4 → a < 2048 →
    let e := tget s.colls die
    let s' : State := { s with colls := tset s.colls die { e with store := cset e.store a w, owner := tset e.owner (a / 256) part } }
    ((∃ p ∈ e.progs, p.2.live = true ∧ s'.namesForeign p.2.part die p.2.starts = true) → exec (.collectiveStoreWrite part die a w) s = .next s) ∧
    ((∀ p ∈ e.progs, p.2.live = true → s'.namesForeign p.2.part die p.2.starts = false) →
      ∃ t, exec (.collectiveStoreWrite part die a w) s = .next t ∧ t.strands = s.strands ∧ t.mem = s.mem ∧
        cget (tget t.colls die).store a = w ∧ ∀ b, b ≠ a → cget (tget t.colls die).store b = cget e.store b)) ∧
  (∀ (s : State) (part die k : Nat) (w : BitVec 128), (tget s.parts part).live = true → die < 4 → k < 4 →
    let start : List Nat := [(w.extractLsb' 0 11).toNat / 256]
    (w.getLsbD 127 = true → s.namesForeign part die start = true → exec (.collectiveStoreWrite part die (2048 + k) w) s = .next s) ∧
    (w.getLsbD 127 = false ∨ s.namesForeign part die start = false → ∃ t, exec (.collectiveStoreWrite part die (2048 + k) w) s = .next t ∧
      t.strands = s.strands ∧ t.mem = s.mem ∧ let p := tget (tget t.colls die).progs k
      p.live = w.getLsbD 127 ∧ p.part = part ∧ p.bound = min (w.extractLsb' 32 21).toNat (2 ^ 20) ∧
      p.micro.mpc.toNat = (w.extractLsb' 0 11).toNat))

/-- R412 to R414: a tenant stop closes the tenant's queues; once nothing of it is left running its final point writes the
status and the final entries of its logs, each when its ring has room, which disarms the log; the control complex arms a log and
frees its oldest slot.
Which gangs a status counts is the model's reading (log 64). -/
def Obligations.TenantStops : Prop :=
  (∀ (s : State) (part status : Nat) (ten : Option Nat),
    let p := tget s.parts part
    let named (n : Nat) : Prop := ten = none ∨ ten = some n
    (p.live = false ∨ 2 ^ 36 < status + 32 → exec (.tenantStop part ten status) s = .next s) ∧
    (p.live = true → status + 32 ≤ 2 ^ 36 → ∃ t, exec (.tenantStop part ten status) s = .next t ∧
      (tget t.parts part).stops = p.stops ++ [{ tenant := ten, status := some status }] ∧
      ∀ q x, tfind p.queues q = some x → (named x.ten.toNat → (tget (tget t.parts part).queues q).shut = true) ∧
        (¬named x.ten.toNat → (tget (tget t.parts part).queues q).shut = x.shut))) ∧
  (∀ (s : State) (part : Nat) (x : TenantStop),
    let p := tget s.parts part
    let covered (n : Nat) : Prop := x.tenant = none ∨ x.tenant = some n
    ∀ before after : List TenantStop, p.stops = before ++ x :: after → (∀ y ∈ before, y.words ≠ []) →
    x.words = [] → p.destroying = false → s.atFinal part x = true → ∃ t, exec (.stopFinalPoint part) s = .next t ∧
      t.strands = s.strands ∧ (∀ c ∈ p.owns (·.clusters), ∀ n l, tfind (tget t.clusters c).lines n = some l → l.dirty = 0) ∧
      let q := tget t.parts part
      q.sseq = (if p.sseq = 0xFFFFFFFF then 1 else p.sseq + 1) ∧
      (∃ ws, q.stops = before ++ { x with words := ws } :: after ∧ ws.length = 4 ∧ (ws.getD 0 0).getLsbD 63 = true ∧
        ((ws.getD 0 0).getLsbD 62 = true ↔ x.killed ≠ 0) ∧ (ws.getD 0 0).extractLsb' 36 26 = 0 ∧
        (∀ n, x.tenant = some n → (ws.getD 0 0).extractLsb' 32 4 = BitVec.ofNat 4 n ∧ ws.getD 3 0 = 0) ∧
        (x.tenant = none → (ws.getD 0 0).extractLsb' 32 4 = 15 ∧ ws.getD 3 0 = 1) ∧
        (ws.getD 0 0).extractLsb' 0 32 = q.sseq ∧ (ws.getD 1 0).extractLsb' 0 32 = BitVec.ofNat 32 x.killed ∧
        ws.getD 2 0 = BitVec.ofNat 64 s.now) ∧
      (∀ a, x.status = some a → a + 32 ≤ 2 ^ 36 → p.dirty = [] → ∀ i, i < 4 →
        BitVec.ofNat 64 (cnum t.dev.dram (a + 8 * i) 8) = (((q.stops.drop before.length).headD {}).words.getD i 0)) ∧
      ∀ n d, (p.dirty.map (·.1)).Nodup → tfind p.dirty n = some d → d.finals = [] →
        (covered n → d.ring.length < d.size → tfind q.dirty n = some { d with
          ring := d.ring ++ [(1 : BitVec 1) ++ (0 : BitVec 31) ++ q.sseq], pos := d.pos + 1, pages := [], armed := false }) ∧
        (covered n → d.size ≤ d.ring.length → tfind q.dirty n = some { d with finals := [q.sseq] }) ∧
        (¬covered n → tfind q.dirty n = some d)) ∧
  (∀ (s : State) (part : Nat) (x : TenantStop) (before after : List TenantStop), (tget s.parts part).stops = before ++ x :: after →
    (∀ y ∈ before, y.words ≠ []) → x.words = [] → s.atFinal part x = false → exec (.stopFinalPoint part) s = .next s) ∧
  (∀ (s : State) (part ten base size : Nat), (tfind s.parts part).isSome →
    (2 ^ 36 < base + 8 * size → exec (.dirtyLogArm part ten base size) s = .next s) ∧
    (base + 8 * size ≤ 2 ^ 36 → ∃ t, exec (.dirtyLogArm part ten base size) s = .next t ∧ t.strands = s.strands ∧ t.mem = s.mem ∧
      tfind (tget t.parts part).dirty ten = some { base := base, size := size, armed := true } ∧
      ∀ n, n ≠ ten → tfind (tget t.parts part).dirty n = tfind (tget s.parts part).dirty n) ∧
    ∃ t, exec (.dirtyLogSlotFree part ten) s = .next t ∧ t.strands = s.strands ∧ t.mem = s.mem ∧
      (∀ d, tfind (tget s.parts part).dirty ten = some d →
        (d.finals = [] → tfind (tget t.parts part).dirty ten = some { d with ring := d.ring.drop 1 }) ∧
        ∀ f r, d.finals = f :: r → (d.ring.drop 1).length < d.size → tfind (tget t.parts part).dirty ten = some { d with
          ring := d.ring.drop 1 ++ [(1 : BitVec 1) ++ (0 : BitVec 31) ++ f], pos := d.pos + 1, finals := r, pages := [],
          armed := false }) ∧
      ∀ n, n ≠ ten → tfind (tget t.parts part).dirty n = tfind (tget s.parts part).dirty n)

/-- R146 to R148, R418 to R420: windows follow one another and take a new W at the boundary named; an acknowledgement ends
the wait for its unit and a late one is reported once; a unit 64 windows old stalls its command; a unit of another
device is performed once; the time base is lost and found; a failed landing is reported and retrained.
How time passes, how the capability table is rewritten under a new W, how windows are numbered under it, the port of a lost time
base, and that a boundary which has begun is refused and a second setting replaces the first are the model's choices (log 14, 30, 65,
86 and 100). -/
def Obligations.FabricEvents : Prop :=
  (∀ (s : State) (us n : Nat),
    (us = 0 ∨ 16 < us ∨ n ≤ s.windowNow → exec (.windowLengthSet us n) s = .next s) ∧
    (1 ≤ us → us ≤ 16 → s.windowNow < n →
      exec (.windowLengthSet us n) s = .next (s.onDev (fun d => { d with windowNext := some (us, n) })))) ∧
  (∀ (s : State), 0 < s.dev.windowUs → s.windowNow = s.now / (1000 * s.dev.windowUs) ∧
    ((∀ e ∈ s.cmds, e.2.wordLeft = false) → ∃ t, exec .fabricWindowBoundary s = .next t ∧ t.strands = s.strands ∧
    t.now = max s.now ((s.windowNow + 1) * (1000 * s.dev.windowUs)) ∧ t.dev.windowSeen = t.windowNow ∧
    (s.dev.windowNext = none → t.dev.windowUs = s.dev.windowUs ∧ t.windowNow = s.windowNow + 1 ∧ t.mem = s.mem ∧
      (∀ unit o c, tfind s.dev.outs unit = some o → tfind s.cmds o.cmd = some c → o.window + 64 ≤ t.windowNow → o.acked = false → c.state ≠ .stalled →
        (tget t.cmds o.cmd).state = .lost) ∧
      ((∀ e ∈ s.dev.outs, t.windowNow < e.2.window + 64) → t.cmds = s.cmds)) ∧
    ∀ w b, s.dev.windowNext = some (w, b) → (s.windowNow + 1 < b → t.dev.windowUs = s.dev.windowUs ∧ t.dev.windowNext = some (w, b)) ∧
      (b ≤ s.windowNow + 1 → t.dev.windowUs = w ∧ t.dev.windowNext = none ∧
        ∀ part, (tget s.parts part).live = true → (tget t.parts part).cap = t.capDoc part ∧ (tget t.parts part).capSeq % 2 = 0))) ∧
  (∀ (s : State) (port unit w : Nat) (o : RemoteOut), tfind s.dev.outs unit = some o →
    (o.port ≠ port ∨ o.acked = true ∨ (tget s.cmds o.cmd).lostUnit = some unit → exec (.fabricAcknowledgement port unit w) s = .next s) ∧
    (o.port = port → o.acked = false → (tget s.cmds o.cmd).lostUnit ≠ some unit →
    (∀ e ∈ s.cmds, e.2.wordLeft = false) → ∃ t, exec (.fabricAcknowledgement port unit w) s = .next t ∧ t.strands = s.strands ∧
      t.mem = s.mem ∧
      (let earlier (u : Nat) : Prop := ∃ v x, v < u ∧ v ≠ unit ∧ tfind s.dev.outs v = some x ∧ x.cmd = o.cmd ∧ x.acked = false
      (¬earlier unit → tfind t.dev.outs unit = none) ∧ (earlier unit → tfind t.dev.outs unit = some { o with acked := true }) ∧
      ∀ u, u ≠ unit → tfind t.dev.outs u = tfind s.dev.outs u ∨
        (¬earlier u ∧ tfind t.dev.outs u = none ∧ ∃ x, tfind s.dev.outs u = some x ∧ x.cmd = o.cmd ∧ x.acked = true)) ∧
      (w ≤ o.window + 1 → t.dev.fatal = s.dev.fatal) ∧
      (o.window + 1 < w → (port, s.windowNow) ∉ s.dev.misses → (s.dev.fatal.filter (fun r => r.mod)).length < 64 →
        (port, s.windowNow) ∈ t.dev.misses ∧ ∃ r ∈ t.dev.fatal, r.mod = true ∧ r.cause = 0x0065 ∧ r.val = BitVec.ofNat 64 port ∧
          r.aux.getLsbD 63 = s.dev.timeLost ∧ r.aux.extractLsb' 0 63 = BitVec.ofNat 63 (tget s.dev.lastSent port)) ∧
      (o.window + 1 < w → (port, s.windowNow) ∈ s.dev.misses → t.dev.fatal = s.dev.fatal))) ∧
  (∀ (s : State) (unit : Nat) (o : RemoteOut) (c : Cmd), tfind s.dev.outs unit = some o → tfind s.cmds o.cmd = some c →
    (s.windowNow < o.window + 64 ∨ o.acked = true → exec (.fabricUnitLost unit) s = .next s) ∧
    (o.window + 64 ≤ s.windowNow → o.acked = false → c.state ≠ .lost → c.state ≠ .stalled → ∃ t, exec (.fabricUnitLost unit) s = .next t ∧
      t.strands = s.strands ∧ t.mem = s.mem ∧ tfind t.cmds o.cmd = some { c with state := .lost, lostUnit := some unit } ∧
      ∃ r ∈ t.dev.waiting, r.cause = 0x0066 ∧ r.val = BitVec.ofNat 64 o.addr ∧ r.strand = c.strand ∧ r.cmd = some o.cmd)) ∧
  (∀ (s : State),
    (s.dev.timeLost = true → exec .timeBaseLoss s = .next s) ∧
    (s.dev.timeLost = false → (s.dev.fatal.filter (fun r => r.mod)).length < 64 → ∃ t, exec .timeBaseLoss s = .next t ∧
      t.strands = s.strands ∧ t.mem = s.mem ∧ t.dev.timeLost = true ∧
      ∃ r ∈ t.dev.fatal, r.mod = true ∧ r.cause = 0x0065 ∧ r.aux.getLsbD 63 = true) ∧
    exec .timeBaseRegained s = .next (s.onDev (fun d => { d with timeLost := false }))) ∧
  (∀ (s : State) (u : RemoteUnit), s.dev.stopped = false → s.dev.powered = true →
    ((u.dev, u.unit) ∈ s.dev.performed → exec (.remoteWriteArrival u) s = .next s) ∧
    ((u.dev, u.unit) ∉ s.dev.performed → paExists u.kind u.addr u.data.length = true → u.add = 0 →
      ∃ t, exec (.remoteWriteArrival u) s = .next t ∧ t.strands = s.strands ∧ t.clusters = s.clusters ∧
        (u.dev, u.unit) ∈ t.dev.performed ∧ (∀ i, i < u.data.length → cget t.mem (memKey u.kind u.addr + i) = u.data.getD i 0) ∧
        ∀ k, ¬(memKey u.kind u.addr ≤ k ∧ k < memKey u.kind u.addr + u.data.length) → cget t.mem k = cget s.mem k)) ∧
  (∀ (s : State) (n : Nat), n < 16 →
    (n ∈ s.dev.failed → exec (.landingFailed n) s = .next s) ∧
    (n ∉ s.dev.failed → (s.dev.fatal.filter (fun r => r.mod)).length < 64 → ∃ t, exec (.landingFailed n) s = .next t ∧ t.strands = s.strands ∧
      t.mem = s.mem ∧ (∀ m, m ∈ t.dev.failed ↔ m = n ∨ m ∈ s.dev.failed) ∧
      (∀ part p k x, tfind s.parts part = some p → tfind p.plans k = some x → (∃ g ∈ x.segs, g.ld = n) →
        n ∈ (tget (tget t.parts part).plans k).broken) ∧
      ∃ r ∈ t.dev.fatal, r.mod = true ∧ r.cause = 0x0064 ∧ r.val = BitVec.ofNat 64 n) ∧
    ∃ t, exec (.landingRetrain n) s = .next t ∧ t.strands = s.strands ∧ t.parts = s.parts ∧
      ∀ m, m ∈ t.dev.failed ↔ m ∈ s.dev.failed ∧ m ≠ n)

/-- R20 to R22: the ceilings of the cluster islands: down every 100 µs while the package's average exceeds 2,400 W, up every 1 ms while
it stays below 2,300 W, as the average stands when the step is due; down for a die at 105 °C, whose islands take one step every 100 µs
under both rules; a die at 115 °C is reported and the package and the tier lose their power, but not what the control complex holds
(R370), nor the moves that it has still to make. -/
def Sys2Proof.Claims.Ceilings : Prop :=
  ∀ (s : State),
    let down := max s.now (s.dev.lastDown + 100000)
    let up := max s.now (max s.dev.lastUp s.dev.lastDown + 1000000)
    let stepped (die : Nat) : Prop := 105 ≤ tget s.dev.junction die ∧ down < tget s.dev.lastHot die + 100000
    (({ s with now := down } : State).share Device.pkgLog ≤ 2400 * 1000000 → exec .ceilingStepDown s = .next s) ∧
    (2400 * 1000000 < ({ s with now := down } : State).share Device.pkgLog → ∃ t, exec .ceilingStepDown s = .next t ∧
      t.strands = s.strands ∧ t.mem = s.mem ∧ t.now = down ∧ t.dev.lastDown = down ∧
      (∀ die, tget t.dev.lastHot die = if die < 4 ∧ ¬stepped die then down else tget s.dev.lastHot die) ∧
      ∀ i, tget t.dev.islands i = if i < 64 ∧ ¬stepped (i / 16) then lowered (tget s.dev.islands i) else tget s.dev.islands i) ∧
    (2300 * 1000000 ≤ ({ s with now := up } : State).share Device.pkgLog → exec .ceilingStepUp s = .next s) ∧
    (({ s with now := up } : State).share Device.pkgLog < 2300 * 1000000 → ∃ t, exec .ceilingStepUp s = .next t ∧
      t.strands = s.strands ∧ t.mem = s.mem ∧ t.now = up ∧ t.dev.lastUp = up ∧
      ∀ i, tget t.dev.islands i = if i < 64 ∧ tget s.dev.junction (i / 16) < 105 then raised (tget s.dev.islands i)
        else tget s.dev.islands i) ∧
    (∀ die, 4 ≤ die ∨ tget s.dev.junction die < 105 → exec (.thermalThrottle die) s = .next s) ∧
    (∀ die, die < 4 → 105 ≤ tget s.dev.junction die → ∃ t, exec (.thermalThrottle die) s = .next t ∧ t.strands = s.strands ∧
      t.mem = s.mem ∧ t.now = max s.now (tget s.dev.lastHot die + 100000) ∧ tget t.dev.lastHot die = t.now ∧
      ∀ i, tget t.dev.islands i = if i < 64 ∧ i / 16 = die then lowered (tget s.dev.islands i) else tget s.dev.islands i) ∧
    (∀ die, 4 ≤ die ∨ tget s.dev.junction die < 115 ∨ s.dev.stopped = true → exec (.thermalStop die) s = .next s) ∧
    (∀ die, die < 4 → 115 ≤ tget s.dev.junction die → s.dev.stopped = false →
      ∃ t, exec (.thermalStop die) s = .next t ∧ t.dev.stopped = true ∧ t.dev.powered = s.dev.powered ∧ t.now = s.now ∧ t.strands = [] ∧
        t.gangs = [] ∧ t.batches = [] ∧ t.cmds = [] ∧ t.mem = [] ∧ t.clusters = [] ∧ t.cores = [] ∧ t.agenda = s.agenda ∧
        (∀ n, (tget t.parts n).live = false ∧ (tget t.parts n).stops = (tget s.parts n).stops.filter (fun x => !x.words.isEmpty)) ∧
        (∀ i, tget t.dev.islands i = if 124 ≤ i then tget s.dev.islands i else {}) ∧ t.dev.waiting = s.dev.waiting ∧
        t.dev.answers = s.dev.answers ∧ t.dev.replay = s.dev.replay ∧
        ((s.dev.fatal.filter (fun r => r.mod)).length < 64 →
          ∃ r ∈ t.dev.fatal, r.mod = true ∧ r.cause = 0x0032 ∧ r.val = BitVec.ofNat 64 die))

/-- R18, R19, R323: an operating point that is allowed is taken in the order of R19: the voltage rises before the frequency, which
waits until it has settled, and falls with it. -/
def Sys2Proof.Claims.OperatingPoints : Prop :=
  ∀ (s : State) (i mv mhz : Nat),
    let x := tget s.dev.islands i
    (128 ≤ i ∨ x.settling = true ∨ ¬PointAllowed s i mv mhz → exec (.operatingPointChange i mv mhz) s = .next s) ∧
    (i < 128 → x.settling = false → PointAllowed s i mv mhz → ∃ t, exec (.operatingPointChange i mv mhz) s = .next t ∧ t.strands = s.strands ∧
      (∀ j, j ≠ i → tget t.dev.islands j = tget s.dev.islands j) ∧ (tget t.dev.islands i).mv10 = mv ∧
      (x.mv10 < mv → (tget t.dev.islands i).mhz = x.mhz ∧ (tget t.dev.islands i).settling = true ∧
        (tget t.dev.islands i).target = some (mv, mhz)) ∧
      (mv ≤ x.mv10 → (tget t.dev.islands i).mhz = mhz ∧ (tget t.dev.islands i).settling = false)) ∧
    (∀ v f, x.target = some (v, f) → ∃ t, exec (.voltageSettled i) s = .next t ∧ t.strands = s.strands ∧
      tget t.dev.islands i = { x with mhz := f, target := none, settling := false }) ∧
    (x.target = none → exec (.voltageSettled i) s = .next s)

/-- R17, R369, R370: power comes with the machine as at reset, or with the steps before the one that fails, which is reported; the
package's power comes back from step 2 on, every island at 600 mV and 940 MHz; a commanded power-off waits for the partitions, and
power-off takes everything. -/
def Sys2Proof.Claims.PowerSequence : Prop :=
  ∀ (s : State),
    let k := s.dev.bootFault
    (s.dev.powered = true → exec .powerOn s = .next s) ∧
    (s.dev.powered = false → k = 0 → exec .powerOn s = .next { State.reset with free := s.free }) ∧
    (s.dev.powered = false → 1 ≤ k → k ≤ 4 → ∃ t, exec .powerOn s = .next t ∧ t.dev.boot = k - 1 ∧
      t.dev.bootFailed = some k ∧ t.dev.stopped = true ∧ t.dev.powered = decide (k ≠ 1) ∧ t.parts = [] ∧ t.strands = [] ∧ t.mem = []) ∧
    (s.dev.offAsked = false ∨ (∀ e ∈ s.parts, e.2.live = false) → ∃ t, exec .powerOff s = .next t ∧ t.dev.powered = false ∧
      t.mem = [] ∧ t.strands = [] ∧ t.parts = [] ∧ t.cmds = [] ∧ t.dev.fatal = [] ∧ t.dev.dram = [] ∧ t.now = 0) ∧
    (s.dev.offAsked = true → (∃ e ∈ s.parts, e.2.live = true) → exec .powerOff s = .next s) ∧
    (s.dev.powered = false ∨ s.dev.stopped = false → exec .packagePowerRestore s = .next s) ∧
    (s.dev.powered = true → s.dev.stopped = true → k < 2 → ∃ t, exec .packagePowerRestore s = .next t ∧ t.dev.stopped = false ∧
      t.dev.boot = 4 ∧ t.dev.bootFailed = none ∧ t.mem = s.mem ∧ t.parts = s.parts ∧
      ∀ i, (tget t.dev.islands i).mv10 = 6000 ∧ (tget t.dev.islands i).mhz = 940 ∧ (tget t.dev.islands i).offset = 0) ∧
    (s.dev.powered = true → s.dev.stopped = true → 2 ≤ k → k ≤ 4 → exec .packagePowerRestore s =
      .next (s.onDev (fun d => { d with boot := k - 1, bootFailed := some k })))

/-- R7, R14, R20, R37, R381, R406: every write of the control complex: bytes of memory and of its own DRAM, a LAUNCH, where the lanes
stand, the ring's size in its range, the draws of the shares, the temperatures, the time base, errors and corrections of arrays,
starved tenants, the step of power-on that fails, a command to power off; and R20's average over the last 1 ms is what all draws give. -/
def Sys2Proof.Claims.ControlWrites : Prop :=
  (∀ (s : State) (v : Word), s.dev.powered = true →
    (∀ kind a n, kind ≠ 3 → s.dev.stopped = false → 1 ≤ n → n ≤ 8 → paExists kind a n = true →
      ∃ t, exec (.registerWrite (.mem kind a n) v) s = .next t ∧
      t.strands = s.strands ∧ t.dev = s.dev ∧ (∀ j, j < n → cget t.mem (memKey kind a + j) = v.extractLsb' (8 * j) 8) ∧
      (∀ k, ¬(memKey kind a ≤ k ∧ k < memKey kind a + n) → cget t.mem k = cget s.mem k) ∧
      ∀ m, (tget t.parts m).regions = (tget s.parts m).regions ∧ (tget t.parts m).res = (tget s.parts m).res) ∧
    (∀ a n, 1 ≤ n → n ≤ 8 → a + n ≤ 2 ^ 36 → ∃ t, exec (.registerWrite (.mem 3 a n) v) s = .next t ∧
      t.strands = s.strands ∧ t.mem = s.mem ∧ t.parts = s.parts ∧ (∀ j, j < n → cget t.dev.dram (a + j) = v.extractLsb' (8 * j) 8) ∧
      ∀ k, ¬(a ≤ k ∧ k < a + n) → cget t.dev.dram k = cget s.dev.dram k) ∧
    (∀ kind a n, n = 0 ∨ 8 < n → exec (.registerWrite (.mem kind a n) v) s = .next s) ∧
    (∀ part queue, (tget s.parts part).live = true → queue < 16 →
      (∀ w t, s.launch part queue v (s.ctlRead part) = .ok (w, t) →
        ∃ t', exec (.registerWrite (.launch part queue) v) s = .next t' ∧ t'.dev.ticket = w ∧ t'.batches = t.batches ∧
          t'.nextId = t.nextId ∧ t'.mem = t.mem ∧ t'.strands = t.strands ∧ (tget t'.parts part).queues = (tget t.parts part).queues) ∧
      (∀ e, s.launch part queue v (s.ctlRead part) = .error e → ∃ t, exec (.registerWrite (.launch part queue) v) s = .next t ∧
        t.mem = s.mem ∧ t.strands = s.strands ∧ t.batches = s.batches ∧ t.nextId = s.nextId ∧ t.dev.ticket = s.dev.ticket)) ∧
    (∀ part queue, (tget s.parts part).live = false ∨ 16 ≤ queue → exec (.registerWrite (.launch part queue) v) s = .next s) ∧
    ((∃ i, i < 7 ∧ v.toNat = 2 ^ (10 + i)) → s.dev.replayBase + 64 * v.toNat ≤ 2 ^ 36 →
      exec (.registerWrite .ringSize v) s = .next (s.onDev (fun d => { d with ring := v.toNat }))) ∧
    ((∀ i, i < 7 → v.toNat ≠ 2 ^ (10 + i)) ∨ 2 ^ 36 < s.dev.replayBase + 64 * v.toNat → exec (.registerWrite .ringSize v) s = .next s) ∧
    (v.toNat + 266240 ≤ 2 ^ 36 → exec (.registerWrite .fatalBase v) s = .next (s.onDev (fun d => { d with fatalBase := v.toNat }))) ∧
    (2 ^ 36 < v.toNat + 266240 → exec (.registerWrite .fatalBase v) s = .next s) ∧
    (v.toNat + 64 * s.dev.ring ≤ 2 ^ 36 → exec (.registerWrite .replayBase v) s = .next (s.onDev (fun d => { d with replayBase := v.toNat }))) ∧
    (2 ^ 36 < v.toNat + 64 * s.dev.ring → exec (.registerWrite .replayBase v) s = .next s) ∧
    exec (.registerWrite .packagePower v) s = .next (s.onDev (fun d => { d with pkgLog := addDraw s.now v.toNat d.pkgLog })) ∧
    exec (.registerWrite .tierPower v) s = .next (s.onDev (fun d => { d with tierLog := addDraw s.now v.toNat d.tierLog })) ∧
    exec (.registerWrite .restPower v) s = .next (s.onDev (fun d => { d with restLog := addDraw s.now v.toNat d.restLog })) ∧
    exec (.registerWrite .timeBase v) s = .next { s with now := max s.now v.toNat } ∧
    (∀ die, exec (.registerWrite (.junction die) v) s = .next (s.onDev (fun d => { d with junction := tset d.junction die v.toNat }))) ∧
    (∀ spc owner bad, spc < 13 → ∃ t, exec (.registerWrite (.unitError spc owner bad) v) s = .next t ∧ t.mem = s.mem ∧
      t.strands = s.strands ∧ ∀ x, x ∈ t.dev.uncorrectable ↔
        if x = (spc, owner, v.toNat - v.toNat % unitBytes spc) then bad = true else x ∈ s.dev.uncorrectable) ∧
    (∀ die, ∃ t, exec (.registerWrite (.correction die) v) s = .next t ∧ t.mem = s.mem ∧ t.strands = s.strands ∧
      tget t.dev.corrected die = tget s.dev.corrected die + v.toNat) ∧
    (∀ part ten arb p, ten < 16 → arb < 176 → tfind s.parts part = some p →
      ∃ t, exec (.registerWrite (.starved part ten arb) v) s = .next t ∧
      t.mem = s.mem ∧ t.strands = s.strands ∧
      ∀ x, x ∈ (tget t.parts part).starved ↔ if x = (ten, arb) then v ≠ 0 else x ∈ p.starved) ∧
    (∀ slice, ∃ t, exec (.registerWrite (.slotFault slice) v) s = .next t ∧ t.mem = s.mem ∧ t.strands = s.strands ∧
      ∀ x, x ∈ t.dev.slotFaults ↔ if x = slice then v ≠ 0 else x ∈ s.dev.slotFaults)) ∧
  (∀ (s : State) (v : Word),
    (v.toNat ≤ 4 → exec (.registerWrite .bootFault v) s = .next (s.onDev (fun d => { d with bootFault := v.toNat }))) ∧
    (4 < v.toNat → exec (.registerWrite .bootFault v) s = .next s) ∧
    (s.dev.powered = true → exec (.registerWrite .offAsked v) s = .next (s.onDev (fun d => { d with offAsked := decide (v ≠ 0) })))) ∧
  (∀ (s : State) (r : RegTarget) (v : Word), r ≠ .bootFault → s.dev.powered = false → exec (.registerWrite r v) s = .next s) ∧
  ∀ (l : List (Nat × Nat)) (now w t : Nat), now ≤ t →
    energyIn (addDraw now w l) (t - 1000000) t = energyIn ((now, w) :: l) (t - 1000000) t

/-- R7, R14, R17 to R22, R33, R37, R323, R369, R370, R381, R406: ceilings, operating points, the power sequence and what the control
complex writes.
How time passes and which events are due (log 14), the draws before the first reading (log 15), the input of errors (log 31), where
lanes stand and what they keep (log 34), the loss of memory (log 68), who is starved (log 70), a LAUNCH that cannot be read (log 84)
and when ceilings rise again (log 86) are the model's choices; SLT of the thermal record too (log 78). -/
def Obligations.PowerAndHeat : Prop :=
  Sys2Proof.Claims.Ceilings ∧ Sys2Proof.Claims.OperatingPoints ∧ Sys2Proof.Claims.PowerSequence ∧ Sys2Proof.Claims.ControlWrites

/-- R27, R54 to R58, R69, R89, R169, R170: a step runs the decoded instruction. When the next step is the issue of a strand
whose bundle decodes to one instruction whose guard holds, the step is exec of that instruction and what the model adds
around it: landings before, the records of units in error that it read (R406), the end of the issue step and the device's own
moves after. A bundle under a false guard and an annulled one have no effect; one that does not decode is an illegal-instruction trap; a
trap is delivered from the state before the bundle. The syllables are the little-endian words at PC up to the stop bit.
Which move comes next (log 3), the records of units in error (log 31) and the length of an annulled bundle (log 63) are the model's
choices. -/
def Obligations.StepRunsDecoded : Prop :=
  (∀ (s : State) (k : Nat) (h : Half) (l : List Syll) (y : Syllable), Issues s k h l → (landed s k).me.annulled = false →
    decodeBundle l = .ok [y] →
    let b := executes s k h l
    (b.me.guardHolds y.guard = true → ∀ x, exec y.i (b.atSyll y) = .next x →
      (x.issue.status = .ok ∨ x.issue.status = .ended → step s = .next (settled s (b.syllPast y x))) ∧
      ∀ tr, x.issue.status = .trapped tr → step s = .next (settled s (b.trapBundle tr))) ∧
    (b.me.guardHolds y.guard = true → ∀ f, exec y.i (b.atSyll y) = .fault f → step s = .fault f) ∧
    (b.me.guardHolds y.guard = false → step s = .next (settled s b))) ∧
  (∀ (s : State) (k : Nat) (h : Half) (l : List Syll), Issues s k h l →
    let b := fetched s k h l
    ((landed s k).me.annulled = true → step s =
      .next (settled s ((b.onMe (fun t => t.advance (t.pc + BitVec.ofNat 56 (8 * l.length)) none)).endBundle))) ∧
    ∀ e w, (landed s k).me.annulled = false → decodeBundle l = .error (e, w) →
      step s = .next (settled s (b.trapBundle { cause := 0x0001, val := w, slot := slotOf w }))) ∧
  (∀ (s : State) (t : Strand) (h : Half) (a i : Nat) (w : Syll), (tget s.cores t.core).halfOf t.ig a = some h → t.stale = [] → a % 8 = 0 →
    (s.bundleAt t a)[i]? = some w → i < 8 ∧ w = BitVec.ofNat 64 (cnum h.mem ((a + 8 * i) % 65536) 8) ∧
      (lastSyll w (a + 8 * i) ∨ i = 7 ↔ (s.bundleAt t a).length = i + 1)) ∧
  (∀ (s : State) (k : Nat), s.pick = some k → s.ready k = true)

/-- R52 to R54, R149 to R168, R275: words that the spec writes out decode to the instructions they stand for, one of each
class of syllable and of micro-words, with a bundle of two. -/
def Obligations.DecodeWords : Prop :=
  decodeBundle [0x00000010_41C00000, 0xB0800018_A3142800] =
    .ok [⟨0, 0, .add { sd := 4, sa := 4, sb := 7 }, 0x00000010_41C00000⟩,
         ⟨3, 0x100, .vadd { pd := 0xC5, pa := 0xC5, pb := 0x50 }, 0xB0800018_A3142800⟩] ∧
  decodeSyll 0x90004241_0BFFFFF8 0 = .ok (.blt { bf := 1, sa := 1, sb := 2, disp := 0x3FFFFF8 }) ∧
  decodeSyll 0xA0000424_C4000040 0 = .ok (.ldW { sd := 9, hd := 3, sa := 4, imm := 0x40 }) ∧
  decodeSyll 0xA0003415_80000000 0 = .ok (.ldpW { sd := 5, pw := 3 }) ∧
  decodeSyll 0xB0000320_4644E024 0 = .ok (.vfma { pd := 0x102, pa := 0x191, pb := 0x1C0, ty := 1, xa := 1 }) ∧
  decodeSyll 0xB0002848_08010400 0 = .ok (.vcvtF32 { pd := 0x240, pa := 0x200, pm := 2, df := 4 }) ∧
  decodeSyll 0xD0000250_0020C040 0 = .ok (.vgath { pl := 0x280, sa := 4, pi := 0xC0, ft := 8 }) ∧
  decodeSyll 0xF0000520_52400000 0 = .ok (.mma { td := 4, ta := 1, tb := 9, fmt := 4 }) ∧
  decodeSyll 0x70001C58_C3400060 0x610000 = .ok (.sfpool { o := { sa := 22, sb := 12, sc := 13, imm := 0x60 }, lit := 0x610000 }) ∧
  decodeSyll 0xF0004824_00000000 0 = .ok (.nextblk { sd := 9 }) ∧
  decodeSyll 0xB0006028_04000000 0 = .ok (.vbop { opx := 0, opd := 0x28_0400_0000 }) ∧
  decodeMicro 0x80000002_8A620190_600020A1_00092800 =
    .ok (.microEnd { tf3 := 0xA2988, tf2 := 0x190600, tf1 := 0x82840, tf0 := 0x92800 })

/-- R149 to R170, R275, R278: decoding gives back what was encoded: every well-formed native instruction, in every slot of its
class and under every guard, from the bundle it makes alone, and every micro-op from its word. -/
def Obligations.RoundTrip : Prop :=
  (∀ (i : Instr) (e : Enc) (slot : BitVec 3) (guard : BitVec 13), i.enc = some e → i.wf = true →
    slot = e.slot ∨ (e.slot = 0 ∧ slot = 1) ∨ (e.slot = 3 ∧ slot = 4) →
    ∃ w r, encodeAt slot 1 guard i = w :: r ∧ decodeBundle (w :: r) = .ok [⟨slot, guard, i, w⟩]) ∧
  ∀ (i : Instr) (w : BitVec 128), encodeMicro i = some w → decodeMicro w = .ok i

/-- The model's memory form (INVENTORY.md, ## Memory and ordering): every step that answers a next state keeps memory in its
canonical form, addresses rising and no byte listed that an unlisted one reads as.
What an unlisted byte reads as is the model's choice (log 1). -/
def Obligations.StepKeepsMemory : Prop := ∀ (s t : State), s.memOk → step s = .next t → t.memOk

/-- R17, R18, R96, R146, R310, R367, R369, R381: reset leaves the values that the spec gives: staging reads zero, every
island stands at 600 mV and 940 MHz, W is 2 µs, no region is mapped, no route is valid, no queue is enabled, the lanes
are empty, nothing runs, and memory has its canonical form. -/
def Obligations.ResetValues : Prop :=
  let s := State.reset
  s.memOk ∧ (∀ pa, cget s.mem (memKey 1 pa) = 0) ∧ (∀ i, (tget s.dev.islands i).mv10 = 6000 ∧ (tget s.dev.islands i).mhz = 940 ∧
    (tget s.dev.islands i).offset = 0) ∧ s.dev.windowUs = 2 ∧ (∀ p n, (cget (tget s.parts p).regions n).getLsbD 63 = false) ∧
  (∀ n, (cget s.dev.routes n).getLsbD 63 = false) ∧ (∀ p q, (tget (tget s.parts p).queues q).qe = false) ∧
  s.dev.fatal = [] ∧ s.dev.replay = [] ∧ s.dev.powered = true ∧ s.strands = [] ∧ s.cmds = []

/-- No instruction is refused: whatever the instruction and the state, its meaning answers a next state, or a fault where an access
of at most a page, or a unit that another device sends, leaves the memory that R14 gives (log 2). -/
def Obligations.NothingRefused : Prop :=
  ∀ (i : Instr) (s : State), (∃ t, exec i s = .next t) ∨
    ∃ kind pa n, exec i s = .fault (.addressHole (memKey kind pa)) ∧
      (kind = 0 ∧ 2 ^ 39 < pa + n ∨ kind = 1 ∧ 2 ^ 32 < pa + n ∨ kind = 2 ∧ 2 ^ 42 < pa + n ∨ 3 ≤ kind) ∧
      (n ≤ 4096 ∨ ∃ u, i = .remoteWriteArrival u ∧ n = u.data.length)
end

