-- ==== Sys2Proof/Laws/Cells.lean ====
section
/-! SUPPORT. Reading after writing, and the canonical form, for the cells and tables of Machine/Cells.lean. -/

namespace Sys2Proof.Machine

theorem tfind_cdrop {α : Type} (t : List (Nat × α)) (k j : Nat) :
    tfind (cdrop k t) j = if j = k then none else tfind t j := by
  induction t with
  | nil => simp [cdrop, tfind]
  | cons p r ih =>
    obtain ⟨a, x⟩ := p
    by_cases h : a = k
    · subst h
      have : cdrop a ((a, x) :: r) = cdrop a r := by simp [cdrop]
      rw [this, ih]
      by_cases hj : j = a
      · simp [hj]
      · simp [hj, tfind, Ne.symm hj]
    · have : cdrop k ((a, x) :: r) = (a, x) :: cdrop k r := by simp [cdrop, h]
      rw [this]
      simp only [tfind, ih]
      by_cases hj : a = j
      · subst hj; simp [h]
      · simp [hj]

theorem tfind_cput {α : Type} (t : List (Nat × α)) (k j : Nat) (v : α) (h : tfind t k = none) :
    tfind (cput k v t) j = if j = k then some v else tfind t j := by
  induction t with
  | nil => simp [cput, tfind, eq_comm]
  | cons p r ih =>
    obtain ⟨a, x⟩ := p
    have ha : a ≠ k := by intro e; simp [tfind, e] at h
    have hr : tfind r k = none := by simpa [tfind, ha] using h
    by_cases hk : k < a
    · simp only [cput, if_pos hk]
      by_cases hj : j = k
      · simp [tfind, hj]
      · simp [tfind, Ne.symm hj, hj]
    · simp only [cput, if_neg hk, tfind, ih hr]
      by_cases hj : a = j
      · subst hj; simp [ha]
      · simp [hj]

/-- A record put is the record found. -/
@[simp] theorem tfind_tset {α : Type} (t : Table α) (k j : Nat) (v : α) :
    tfind (tset t k v) j = if j = k then some v else tfind t j := by
  unfold tset
  rw [tfind_cput _ _ _ _ (by simp [tfind_cdrop]), tfind_cdrop]
  by_cases h : j = k <;> simp [h]

@[simp] theorem tget_tset_self {α : Type} [Inhabited α] (t : Table α) (k : Nat) (v : α) : tget (tset t k v) k = v := by
  simp [tget]

theorem tget_tset {α : Type} [Inhabited α] (t : Table α) (k j : Nat) (v : α) :
    tget (tset t k v) j = if j = k then v else tget t j := by
  by_cases h : j = k <;> simp [tget, h]

@[simp] theorem tget_tset_of_ne {α : Type} [Inhabited α] (t : Table α) {k j : Nat} (v : α) (h : j ≠ k) :
    tget (tset t k v) j = tget t j := by simp [tget, h]

@[simp] theorem tfind_tdel {α : Type} (t : Table α) (k j : Nat) :
    tfind (tdel t k) j = if j = k then none else tfind t j := tfind_cdrop t k j

/-- Changing a record changes it where it is, and nothing else. -/
@[simp] theorem tfind_tmod {α : Type} (t : Table α) (k j : Nat) (f : α → α) :
    tfind (tmod t k f) j = if j = k then (tfind t k).map f else tfind t j := by
  unfold tmod
  induction t with
  | nil => simp [tfind]
  | cons p r ih =>
    obtain ⟨a, x⟩ := p
    simp only [List.map_cons, tfind]
    by_cases ha : a = k
    · subst ha
      by_cases hj : j = a
      · subst hj; simp
      · have hs : a ≠ j := fun e => hj e.symm
        simp [hj, hs, ih]
    · simp only [if_neg ha, ih]
      by_cases hj : a = j
      · subst hj; simp [ha]
      · simp [hj]

theorem tget_tmod {α : Type} [Inhabited α] (t : Table α) {k : Nat} (f : α → α) (h : (tfind t k).isSome) :
    tget (tmod t k f) k = f (tget t k) := by
  obtain ⟨x, hx⟩ := Option.isSome_iff_exists.mp h
  simp [tget, hx]

@[simp] theorem tget_tmod_of_ne {α : Type} [Inhabited α] (t : Table α) {k j : Nat} (f : α → α) (h : j ≠ k) :
    tget (tmod t k f) j = tget t j := by simp [tget, h]

@[simp] theorem tfind_tmap {α : Type} (t : Table α) (f : Nat → α → α) (j : Nat) :
    tfind (tmap t f) j = (tfind t j).map (f j) := by
  unfold tmap
  induction t with
  | nil => simp [tfind]
  | cons p r ih =>
    obtain ⟨a, x⟩ := p
    simp only [List.map_cons, tfind, ih]
    by_cases hj : a = j
    · subst hj; simp
    · simp [hj]

theorem cget_eq_tfind {w : Nat} (c : Cells w) (k : Nat) : cget c k = (tfind c k).getD 0 := by
  induction c with
  | nil => simp [cget, tfind]
  | cons p r ih =>
    obtain ⟨a, x⟩ := p
    simp only [cget, tfind, ih]
    by_cases h : a = k <;> simp [h]

/-- A value written is the value read, and every other key reads as before. -/
@[simp] theorem cget_cset {w : Nat} (c : Cells w) (k j : Nat) (v : BitVec w) :
    cget (cset c k v) j = if j = k then v else cget c j := by
  simp only [cget_eq_tfind, cset]
  by_cases hv : v = 0
  · simp only [if_pos hv, tfind_cdrop]
    by_cases hj : j = k <;> simp [hj, hv]
  · simp only [if_neg hv]
    rw [tfind_cput _ _ _ _ (by simp [tfind_cdrop]), tfind_cdrop]
    by_cases hj : j = k <;> simp [hj]

@[simp] theorem cget_nil {w : Nat} (k : Nat) : cget ([] : Cells w) k = 0 := rfl

theorem tfind_filter {α : Type} (c : List (Nat × α)) (p : Nat → Bool) (j : Nat) :
    tfind (c.filter (fun x => p x.1)) j = if p j then tfind c j else none := by
  induction c with
  | nil => simp [tfind]
  | cons q r ih =>
    obtain ⟨a, x⟩ := q
    by_cases hp : p a
    · rw [List.filter_cons_of_pos (by simpa using hp)]
      simp only [tfind, ih]
      by_cases hj : a = j
      · subst hj; simp [hp]
      · simp [hj]
    · rw [List.filter_cons_of_neg (by simpa using hp), ih]
      by_cases hj : a = j
      · subst hj; simp [hp]
      · simp [tfind, hj]

@[simp] theorem cget_cclear {w : Nat} (c : Cells w) (a n j : Nat) :
    cget (cclear c a n) j = if a ≤ j ∧ j < a + n then 0 else cget c j := by
  simp only [cget_eq_tfind, cclear]
  rw [tfind_filter c (fun k => decide (k < a) || decide (a + n ≤ k)) j]
  by_cases h : a ≤ j ∧ j < a + n
  · have : ¬(j < a ∨ a + n ≤ j) := by omega
    simp [h, this]
  · have : (j < a ∨ a + n ≤ j) := by omega
    simp [h, this]

@[simp] theorem cget_ckeep {w : Nat} (c : Cells w) (p : Nat → Bool) (j : Nat) :
    cget (ckeep c p) j = if p j then cget c j else 0 := by
  simp only [cget_eq_tfind, ckeep, tfind_filter]
  by_cases h : p j <;> simp [h]

theorem cget_cputs {w : Nat} (l : List (BitVec w)) : ∀ (c : Cells w) (a j : Nat),
    (∀ i, a ≤ i → i < a + l.length → tfind c i = none) →
    cget (cputs c a l) j = if a ≤ j ∧ j < a + l.length then l.getD (j - a) 0 else cget c j := by
  induction l with
  | nil => intro c a j _; simp [cputs] <;> omega
  | cons b r ih =>
    intro c a j h
    have h0 : tfind c a = none := h a (Nat.le_refl _) (by simp)
    have hc : ∀ i, tfind (if b = 0 then c else cput a b c) i = if i = a then (if b = 0 then none else some b) else tfind c i := by
      intro i
      by_cases hb : b = 0
      · simp only [if_pos hb]
        by_cases hi : i = a
        · simp [hi, h0]
        · simp [hi]
      · simp only [if_neg hb]; exact tfind_cput c a i b h0
    rw [cputs, ih _ (a + 1) j]
    · by_cases hj : j = a
      · subst hj
        rw [if_neg (by omega), if_pos (And.intro (Nat.le_refl j) (by simp)), cget_eq_tfind (c := if b = 0 then c else cput j b c), hc]
        by_cases hb : b = 0#w <;> simp [hb]
      · by_cases hr : a + 1 ≤ j ∧ j < a + 1 + r.length
        · have h1 : a ≤ j ∧ j < a + (b :: r).length := by simp only [List.length_cons]; omega
          rw [if_pos hr, if_pos h1]
          obtain ⟨d, rfl⟩ : ∃ d, j = a + 1 + d := ⟨j - (a + 1), by omega⟩
          have : a + 1 + d - a = d + 1 := by omega
          simp [this]
        · have h1 : ¬(a ≤ j ∧ j < a + (b :: r).length) := by simp only [List.length_cons]; omega
          rw [if_neg hr, if_neg h1, cget_eq_tfind (c := if b = 0 then c else cput a b c), hc, if_neg hj, ← cget_eq_tfind]
    · intro i h1 h2
      rw [hc, if_neg (by omega)]
      exact h i (by omega) (by simp; omega)

/-- Values written are the values read; every other key reads as before. -/
@[simp] theorem cget_cwrite {w : Nat} (c : Cells w) (a : Nat) (l : List (BitVec w)) (j : Nat) :
    cget (cwrite c a l) j = if a ≤ j ∧ j < a + l.length then l.getD (j - a) 0 else cget c j := by
  unfold cwrite
  rw [cget_cputs]
  · by_cases h : a ≤ j ∧ j < a + l.length <;> simp [h]
  · intro i h1 h2
    unfold cclear
    rw [tfind_filter c (fun k => decide (k < a) || decide (a + l.length ≤ k)) i]
    have : ¬(i < a ∨ a + l.length ≤ i) := by omega
    simp [this]

@[simp] theorem cread_length (c : Cells 8) (a n : Nat) : (cread c a n).length = n := by simp [cread]

theorem cread_getElem? (c : Cells 8) (a n i : Nat) (h : i < n) : (cread c a n)[i]? = some (cget c (a + i)) := by
  simp [cread, h]

/-- Bytes written are the bytes read. -/
theorem cread_cwrite_self (c : Cells 8) (a : Nat) (l : List Byte) : cread (cwrite c a l) a l.length = l := by
  apply List.ext_getElem?
  intro i
  by_cases h : i < l.length
  · rw [cread_getElem? _ _ _ _ h, cget_cwrite, if_pos ⟨by omega, by omega⟩]
    have : a + i - a = i := by omega
    simp [this, List.getD, h]
  · simp [h]

/-- Every key of a list is at least a bound, and its keys rise. -/
theorem rising_cons {α : Type} (a : Nat) (x : α) (r : List (Nat × α)) :
    rising ((a, x) :: r) = true ↔ rising r = true ∧ ∀ p ∈ r, a < p.1 := by
  induction r generalizing a x with
  | nil => simp [rising]
  | cons q r ih =>
    obtain ⟨b, y⟩ := q
    simp only [rising, Bool.and_eq_true, decide_eq_true_eq]
    constructor
    · rintro ⟨h1, h2⟩
      refine ⟨h2, ?_⟩
      intro p hp
      rcases List.mem_cons.mp hp with rfl | hp
      · exact h1
      · exact Nat.lt_trans h1 (((ih b y).mp h2).2 p hp)
    · rintro ⟨h1, h2⟩
      exact ⟨h2 (b, y) (by simp), h1⟩

theorem rising_filter {α : Type} (p : Nat × α → Bool) : ∀ (l : List (Nat × α)), rising l = true → rising (l.filter p) = true := by
  intro l
  induction l with
  | nil => simp [rising]
  | cons q r ih =>
    obtain ⟨b, y⟩ := q
    intro h
    have h' := (rising_cons b y r).mp h
    by_cases hp : p (b, y)
    · rw [List.filter_cons_of_pos hp, rising_cons]
      exact ⟨ih h'.1, fun q hq => h'.2 q ((List.mem_filter.mp hq).1)⟩
    · rw [List.filter_cons_of_neg hp]; exact ih h'.1

theorem mem_cput {α : Type} (k : Nat) (v : α) : ∀ (l : List (Nat × α)) (p : Nat × α),
    p ∈ cput k v l ↔ p = (k, v) ∨ p ∈ l := by
  intro l
  induction l with
  | nil => simp [cput]
  | cons q r ih =>
    obtain ⟨a, x⟩ := q
    intro p
    by_cases h : k < a
    · simp [cput, h]
    · simp only [cput, if_neg h, List.mem_cons, ih]
      constructor
      · rintro (h | h | h)
        · exact .inr (.inl h)
        · exact .inl h
        · exact .inr (.inr h)
      · rintro (h | h | h)
        · exact .inr (.inl h)
        · exact .inl h
        · exact .inr (.inr h)

theorem rising_cput {α : Type} (k : Nat) (v : α) : ∀ (l : List (Nat × α)), rising l = true → (∀ p ∈ l, p.1 ≠ k) →
    rising (cput k v l) = true := by
  intro l
  induction l with
  | nil => simp [cput, rising]
  | cons q r ih =>
    obtain ⟨a, x⟩ := q
    intro h hk
    have h' := (rising_cons a x r).mp h
    by_cases hlt : k < a
    · simp only [cput, if_pos hlt]
      rw [rising_cons]
      refine ⟨h, fun p hp => ?_⟩
      rcases List.mem_cons.mp hp with rfl | hp
      · exact hlt
      · exact Nat.lt_trans hlt (h'.2 p hp)
    · simp only [cput, if_neg hlt]
      rw [rising_cons]
      have hne : a ≠ k := hk (a, x) (by simp)
      refine ⟨ih h'.1 (fun p hp => hk p (List.mem_cons_of_mem _ hp)), fun p hp => ?_⟩
      rcases (mem_cput k v r p).mp hp with rfl | hp
      · show a < k; omega
      · exact h'.2 p hp

theorem wf_iff {w : Nat} (c : Cells w) : Cells.wf c = true ↔ rising c = true ∧ ∀ p ∈ c, p.2 ≠ 0 := by
  simp [Cells.wf]

@[simp] theorem wf_nil {w : Nat} : Cells.wf ([] : Cells w) = true := rfl

theorem wf_filter {w : Nat} (c : Cells w) (p : Nat × BitVec w → Bool) (h : Cells.wf c = true) :
    Cells.wf (w := w) (c.filter p) = true := by
  rw [wf_iff] at h ⊢
  exact ⟨rising_filter p c h.1, fun q hq => h.2 q ((List.mem_filter.mp hq).1)⟩

theorem wf_cput {w : Nat} (c : Cells w) (k : Nat) (v : BitVec w) (h : Cells.wf c = true) (hv : v ≠ 0)
    (hk : ∀ p ∈ c, p.1 ≠ k) : Cells.wf (w := w) (cput k v c) = true := by
  rw [wf_iff] at h ⊢
  refine ⟨rising_cput k v c h.1 hk, fun p hp => ?_⟩
  rcases (mem_cput k v c p).mp hp with rfl | hp
  · exact hv
  · exact h.2 p hp

/-- Writing one cell keeps the canonical form. -/
theorem wf_cset {w : Nat} (c : Cells w) (k : Nat) (v : BitVec w) (h : Cells.wf c = true) : Cells.wf (cset c k v) = true := by
  unfold cset cdrop
  by_cases hv : v = 0
  · rw [if_pos hv]; exact wf_filter c _ h
  · rw [if_neg hv]
    refine wf_cput _ k v (wf_filter c _ h) hv (fun p hp => ?_)
    simpa using (List.mem_filter.mp hp).2

theorem wf_cputs {w : Nat} (l : List (BitVec w)) : ∀ (c : Cells w) (a : Nat), Cells.wf c = true →
    (∀ p ∈ c, ¬(a ≤ p.1 ∧ p.1 < a + l.length)) → Cells.wf (cputs c a l) = true := by
  induction l with
  | nil => intro c a h _; exact h
  | cons b r ih =>
    intro c a h hk
    rw [cputs]
    apply ih
    · by_cases hb : b = 0
      · rw [if_pos hb]; exact h
      · rw [if_neg hb]
        exact wf_cput c a b h hb (fun p hp e => hk p hp ⟨by omega, by simp; omega⟩)
    · intro p hp hc
      by_cases hb : b = 0
      · rw [if_pos hb] at hp
        exact hk p hp ⟨by omega, by simp; omega⟩
      · rw [if_neg hb] at hp
        rcases (mem_cput a b c p).mp hp with rfl | hp
        · exact absurd hc.1 (by simp)
        · exact hk p hp ⟨by omega, by simp; omega⟩

/-- Writing a run of cells keeps the canonical form. -/
theorem wf_cwrite {w : Nat} (c : Cells w) (a : Nat) (l : List (BitVec w)) (h : Cells.wf c = true) :
    Cells.wf (cwrite c a l) = true := by
  unfold cwrite
  refine wf_cputs l _ a (wf_filter c _ h) (fun p hp => ?_)
  have := (List.mem_filter.mp hp).2
  simp at this
  omega

/-- Clearing a run of cells keeps the canonical form. -/
theorem wf_cclear {w : Nat} (c : Cells w) (a n : Nat) (h : Cells.wf c = true) : Cells.wf (cclear c a n) = true :=
  wf_filter c _ h

/-- Keeping some cells keeps the canonical form. -/
theorem wf_ckeep {w : Nat} (c : Cells w) (p : Nat → Bool) (h : Cells.wf c = true) : Cells.wf (ckeep c p) = true :=
  wf_filter c _ h

end Sys2Proof.Machine
end

