-- ==== Sys2Proof/Laws/Exec.lean ====
section
/-! SUPPORT. Each arm of the dispatch as an equation. -/

namespace Sys2Proof.Machine

@[simp] theorem exec_add (s : State) : ∀ o, exec (.add o) s = execAdd o s :=
  fun _ => rfl
@[simp] theorem exec_sub (s : State) : ∀ o, exec (.sub o) s = execSub o s :=
  fun _ => rfl
@[simp] theorem exec_andR (s : State) : ∀ o, exec (.andR o) s = execAndR o s :=
  fun _ => rfl
@[simp] theorem exec_orR (s : State) : ∀ o, exec (.orR o) s = execOrR o s :=
  fun _ => rfl
@[simp] theorem exec_xorR (s : State) : ∀ o, exec (.xorR o) s = execXorR o s :=
  fun _ => rfl
@[simp] theorem exec_andn (s : State) : ∀ o, exec (.andn o) s = execAndn o s :=
  fun _ => rfl
@[simp] theorem exec_orn (s : State) : ∀ o, exec (.orn o) s = execOrn o s :=
  fun _ => rfl
@[simp] theorem exec_xnor (s : State) : ∀ o, exec (.xnor o) s = execXnor o s :=
  fun _ => rfl
@[simp] theorem exec_sll (s : State) : ∀ o, exec (.sll o) s = execSll o s :=
  fun _ => rfl
@[simp] theorem exec_srl (s : State) : ∀ o, exec (.srl o) s = execSrl o s :=
  fun _ => rfl
@[simp] theorem exec_sra (s : State) : ∀ o, exec (.sra o) s = execSra o s :=
  fun _ => rfl
@[simp] theorem exec_rol (s : State) : ∀ o, exec (.rol o) s = execRol o s :=
  fun _ => rfl
@[simp] theorem exec_ror (s : State) : ∀ o, exec (.ror o) s = execRor o s :=
  fun _ => rfl
@[simp] theorem exec_slt (s : State) : ∀ o, exec (.slt o) s = execSlt o s :=
  fun _ => rfl
@[simp] theorem exec_sltu (s : State) : ∀ o, exec (.sltu o) s = execSltu o s :=
  fun _ => rfl
@[simp] theorem exec_seq (s : State) : ∀ o, exec (.seq o) s = execSeq o s :=
  fun _ => rfl
@[simp] theorem exec_sne (s : State) : ∀ o, exec (.sne o) s = execSne o s :=
  fun _ => rfl
@[simp] theorem exec_min (s : State) : ∀ o, exec (.min o) s = execMin o s :=
  fun _ => rfl
@[simp] theorem exec_max (s : State) : ∀ o, exec (.max o) s = execMax o s :=
  fun _ => rfl
@[simp] theorem exec_minu (s : State) : ∀ o, exec (.minu o) s = execMinu o s :=
  fun _ => rfl
@[simp] theorem exec_maxu (s : State) : ∀ o, exec (.maxu o) s = execMaxu o s :=
  fun _ => rfl
@[simp] theorem exec_sel (s : State) : ∀ o, exec (.sel o) s = execSel o s :=
  fun _ => rfl
@[simp] theorem exec_mul (s : State) : ∀ o, exec (.mul o) s = execMul o s :=
  fun _ => rfl
@[simp] theorem exec_mulh (s : State) : ∀ o, exec (.mulh o) s = execMulh o s :=
  fun _ => rfl
@[simp] theorem exec_mulhu (s : State) : ∀ o, exec (.mulhu o) s = execMulhu o s :=
  fun _ => rfl
@[simp] theorem exec_divS (s : State) : ∀ o, exec (.divS o) s = execDivS o s :=
  fun _ => rfl
@[simp] theorem exec_divu (s : State) : ∀ o, exec (.divu o) s = execDivu o s :=
  fun _ => rfl
@[simp] theorem exec_remS (s : State) : ∀ o, exec (.remS o) s = execRemS o s :=
  fun _ => rfl
@[simp] theorem exec_remu (s : State) : ∀ o, exec (.remu o) s = execRemu o s :=
  fun _ => rfl
@[simp] theorem exec_addw (s : State) : ∀ o, exec (.addw o) s = execAddw o s :=
  fun _ => rfl
@[simp] theorem exec_subw (s : State) : ∀ o, exec (.subw o) s = execSubw o s :=
  fun _ => rfl
@[simp] theorem exec_mulw (s : State) : ∀ o, exec (.mulw o) s = execMulw o s :=
  fun _ => rfl
@[simp] theorem exec_clz (s : State) : ∀ o, exec (.clz o) s = execClz o s :=
  fun _ => rfl
@[simp] theorem exec_ctz (s : State) : ∀ o, exec (.ctz o) s = execCtz o s :=
  fun _ => rfl
@[simp] theorem exec_popc (s : State) : ∀ o, exec (.popc o) s = execPopc o s :=
  fun _ => rfl
@[simp] theorem exec_brev (s : State) : ∀ o, exec (.brev o) s = execBrev o s :=
  fun _ => rfl
@[simp] theorem exec_bswap (s : State) : ∀ o, exec (.bswap o) s = execBswap o s :=
  fun _ => rfl
@[simp] theorem exec_absR (s : State) : ∀ o, exec (.absR o) s = execAbsR o s :=
  fun _ => rfl
@[simp] theorem exec_ext (s : State) : ∀ o, exec (.ext o) s = execExt o s :=
  fun _ => rfl
@[simp] theorem exec_extu (s : State) : ∀ o, exec (.extu o) s = execExtu o s :=
  fun _ => rfl
@[simp] theorem exec_ins (s : State) : ∀ o, exec (.ins o) s = execIns o s :=
  fun _ => rfl
@[simp] theorem exec_addi (s : State) : ∀ o, exec (.addi o) s = execAddi o s :=
  fun _ => rfl
@[simp] theorem exec_andi (s : State) : ∀ o, exec (.andi o) s = execAndi o s :=
  fun _ => rfl
@[simp] theorem exec_ori (s : State) : ∀ o, exec (.ori o) s = execOri o s :=
  fun _ => rfl
@[simp] theorem exec_xori (s : State) : ∀ o, exec (.xori o) s = execXori o s :=
  fun _ => rfl
@[simp] theorem exec_slli (s : State) : ∀ o, exec (.slli o) s = execSlli o s :=
  fun _ => rfl
@[simp] theorem exec_srli (s : State) : ∀ o, exec (.srli o) s = execSrli o s :=
  fun _ => rfl
@[simp] theorem exec_srai (s : State) : ∀ o, exec (.srai o) s = execSrai o s :=
  fun _ => rfl
@[simp] theorem exec_slti (s : State) : ∀ o, exec (.slti o) s = execSlti o s :=
  fun _ => rfl
@[simp] theorem exec_sltui (s : State) : ∀ o, exec (.sltui o) s = execSltui o s :=
  fun _ => rfl
@[simp] theorem exec_addpc (s : State) : ∀ o, exec (.addpc o) s = execAddpc o s :=
  fun _ => rfl
@[simp] theorem exec_li (s : State) : ∀ o, exec (.li o) s = execLi o s :=
  fun _ => rfl
@[simp] theorem exec_lih (s : State) : ∀ o, exec (.lih o) s = execLih o s :=
  fun _ => rfl
@[simp] theorem exec_beq (s : State) : ∀ o, exec (.beq o) s = execBeq o s :=
  fun _ => rfl
@[simp] theorem exec_bne (s : State) : ∀ o, exec (.bne o) s = execBne o s :=
  fun _ => rfl
@[simp] theorem exec_blt (s : State) : ∀ o, exec (.blt o) s = execBlt o s :=
  fun _ => rfl
@[simp] theorem exec_bge (s : State) : ∀ o, exec (.bge o) s = execBge o s :=
  fun _ => rfl
@[simp] theorem exec_bltu (s : State) : ∀ o, exec (.bltu o) s = execBltu o s :=
  fun _ => rfl
@[simp] theorem exec_bgeu (s : State) : ∀ o, exec (.bgeu o) s = execBgeu o s :=
  fun _ => rfl
@[simp] theorem exec_beqi (s : State) : ∀ o, exec (.beqi o) s = execBeqi o s :=
  fun _ => rfl
@[simp] theorem exec_bnei (s : State) : ∀ o, exec (.bnei o) s = execBnei o s :=
  fun _ => rfl
@[simp] theorem exec_blti (s : State) : ∀ o, exec (.blti o) s = execBlti o s :=
  fun _ => rfl
@[simp] theorem exec_bgei (s : State) : ∀ o, exec (.bgei o) s = execBgei o s :=
  fun _ => rfl
@[simp] theorem exec_btR (s : State) : ∀ o, exec (.btR o) s = execBtR o s :=
  fun _ => rfl
@[simp] theorem exec_bsw (s : State) : ∀ o, exec (.bsw o) s = execBsw o s :=
  fun _ => rfl
@[simp] theorem exec_bdnz (s : State) : ∀ o, exec (.bdnz o) s = execBdnz o s :=
  fun _ => rfl
@[simp] theorem exec_jl (s : State) : ∀ o, exec (.jl o) s = execJl o s :=
  fun _ => rfl
@[simp] theorem exec_jlx (s : State) : ∀ o, exec (.jlx o) s = execJlx o s :=
  fun _ => rfl
@[simp] theorem exec_ldB (s : State) : ∀ o, exec (.ldB o) s = execLdB o s :=
  fun _ => rfl
@[simp] theorem exec_ldBu (s : State) : ∀ o, exec (.ldBu o) s = execLdBu o s :=
  fun _ => rfl
@[simp] theorem exec_ldH (s : State) : ∀ o, exec (.ldH o) s = execLdH o s :=
  fun _ => rfl
@[simp] theorem exec_ldHu (s : State) : ∀ o, exec (.ldHu o) s = execLdHu o s :=
  fun _ => rfl
@[simp] theorem exec_ldW (s : State) : ∀ o, exec (.ldW o) s = execLdW o s :=
  fun _ => rfl
@[simp] theorem exec_ldWu (s : State) : ∀ o, exec (.ldWu o) s = execLdWu o s :=
  fun _ => rfl
@[simp] theorem exec_ldD (s : State) : ∀ o, exec (.ldD o) s = execLdD o s :=
  fun _ => rfl
@[simp] theorem exec_stB (s : State) : ∀ o, exec (.stB o) s = execStB o s :=
  fun _ => rfl
@[simp] theorem exec_stH (s : State) : ∀ o, exec (.stH o) s = execStH o s :=
  fun _ => rfl
@[simp] theorem exec_stW (s : State) : ∀ o, exec (.stW o) s = execStW o s :=
  fun _ => rfl
@[simp] theorem exec_stD (s : State) : ∀ o, exec (.stD o) s = execStD o s :=
  fun _ => rfl
@[simp] theorem exec_ldsB (s : State) : ∀ o, exec (.ldsB o) s = execLdsB o s :=
  fun _ => rfl
@[simp] theorem exec_ldsBu (s : State) : ∀ o, exec (.ldsBu o) s = execLdsBu o s :=
  fun _ => rfl
@[simp] theorem exec_ldsH (s : State) : ∀ o, exec (.ldsH o) s = execLdsH o s :=
  fun _ => rfl
@[simp] theorem exec_ldsHu (s : State) : ∀ o, exec (.ldsHu o) s = execLdsHu o s :=
  fun _ => rfl
@[simp] theorem exec_ldsW (s : State) : ∀ o, exec (.ldsW o) s = execLdsW o s :=
  fun _ => rfl
@[simp] theorem exec_ldsWu (s : State) : ∀ o, exec (.ldsWu o) s = execLdsWu o s :=
  fun _ => rfl
@[simp] theorem exec_ldsD (s : State) : ∀ o, exec (.ldsD o) s = execLdsD o s :=
  fun _ => rfl
@[simp] theorem exec_stsB (s : State) : ∀ o, exec (.stsB o) s = execStsB o s :=
  fun _ => rfl
@[simp] theorem exec_stsH (s : State) : ∀ o, exec (.stsH o) s = execStsH o s :=
  fun _ => rfl
@[simp] theorem exec_stsW (s : State) : ∀ o, exec (.stsW o) s = execStsW o s :=
  fun _ => rfl
@[simp] theorem exec_stsD (s : State) : ∀ o, exec (.stsD o) s = execStsD o s :=
  fun _ => rfl
@[simp] theorem exec_aadd (s : State) : ∀ o, exec (.aadd o) s = execAadd o s :=
  fun _ => rfl
@[simp] theorem exec_amin (s : State) : ∀ o, exec (.amin o) s = execAmin o s :=
  fun _ => rfl
@[simp] theorem exec_amax (s : State) : ∀ o, exec (.amax o) s = execAmax o s :=
  fun _ => rfl
@[simp] theorem exec_aminu (s : State) : ∀ o, exec (.aminu o) s = execAminu o s :=
  fun _ => rfl
@[simp] theorem exec_amaxu (s : State) : ∀ o, exec (.amaxu o) s = execAmaxu o s :=
  fun _ => rfl
@[simp] theorem exec_aand (s : State) : ∀ o, exec (.aand o) s = execAand o s :=
  fun _ => rfl
@[simp] theorem exec_aor (s : State) : ∀ o, exec (.aor o) s = execAor o s :=
  fun _ => rfl
@[simp] theorem exec_axor (s : State) : ∀ o, exec (.axor o) s = execAxor o s :=
  fun _ => rfl
@[simp] theorem exec_aswp (s : State) : ∀ o, exec (.aswp o) s = execAswp o s :=
  fun _ => rfl
@[simp] theorem exec_acas (s : State) : ∀ o, exec (.acas o) s = execAcas o s :=
  fun _ => rfl
@[simp] theorem exec_afadd (s : State) : ∀ o, exec (.afadd o) s = execAfadd o s :=
  fun _ => rfl
@[simp] theorem exec_abadd (s : State) : ∀ o, exec (.abadd o) s = execAbadd o s :=
  fun _ => rfl
@[simp] theorem exec_xlate (s : State) : ∀ o, exec (.xlate o) s = execXlate o s :=
  fun _ => rfl
@[simp] theorem exec_handleWalkComplete (s : State) : ∀ strand, exec (.handleWalkComplete strand) s = execHandleWalkComplete strand s :=
  fun _ => rfl
@[simp] theorem exec_hrel (s : State) : ∀ o, exec (.hrel o) s = execHrel o s :=
  fun _ => rfl
@[simp] theorem exec_ldpW (s : State) : ∀ o, exec (.ldpW o) s = execLdpW o s :=
  fun _ => rfl
@[simp] theorem exec_ldpD (s : State) : ∀ o, exec (.ldpD o) s = execLdpD o s :=
  fun _ => rfl
@[simp] theorem exec_xget (s : State) : ∀ o, exec (.xget o) s = execXget o s :=
  fun _ => rfl
@[simp] theorem exec_xgetd (s : State) : ∀ o, exec (.xgetd o) s = execXgetd o s :=
  fun _ => rfl
@[simp] theorem exec_xput (s : State) : ∀ o, exec (.xput o) s = execXput o s :=
  fun _ => rfl
@[simp] theorem exec_xputd (s : State) : ∀ o, exec (.xputd o) s = execXputd o s :=
  fun _ => rfl
@[simp] theorem exec_xbcst (s : State) : ∀ o, exec (.xbcst o) s = execXbcst o s :=
  fun _ => rfl
@[simp] theorem exec_xxch (s : State) : ∀ o, exec (.xxch o) s = execXxch o s :=
  fun _ => rfl
@[simp] theorem exec_vadd (s : State) : ∀ o, exec (.vadd o) s = execVadd o s :=
  fun _ => rfl
@[simp] theorem exec_vsub (s : State) : ∀ o, exec (.vsub o) s = execVsub o s :=
  fun _ => rfl
@[simp] theorem exec_vmul (s : State) : ∀ o, exec (.vmul o) s = execVmul o s :=
  fun _ => rfl
@[simp] theorem exec_vfma (s : State) : ∀ o, exec (.vfma o) s = execVfma o s :=
  fun _ => rfl
@[simp] theorem exec_vfms (s : State) : ∀ o, exec (.vfms o) s = execVfms o s :=
  fun _ => rfl
@[simp] theorem exec_vfnma (s : State) : ∀ o, exec (.vfnma o) s = execVfnma o s :=
  fun _ => rfl
@[simp] theorem exec_vdiv (s : State) : ∀ o, exec (.vdiv o) s = execVdiv o s :=
  fun _ => rfl
@[simp] theorem exec_vsqrt (s : State) : ∀ o, exec (.vsqrt o) s = execVsqrt o s :=
  fun _ => rfl
@[simp] theorem exec_vmin (s : State) : ∀ o, exec (.vmin o) s = execVmin o s :=
  fun _ => rfl
@[simp] theorem exec_vmax (s : State) : ∀ o, exec (.vmax o) s = execVmax o s :=
  fun _ => rfl
@[simp] theorem exec_vabs (s : State) : ∀ o, exec (.vabs o) s = execVabs o s :=
  fun _ => rfl
@[simp] theorem exec_vneg (s : State) : ∀ o, exec (.vneg o) s = execVneg o s :=
  fun _ => rfl
@[simp] theorem exec_vceq (s : State) : ∀ o, exec (.vceq o) s = execVceq o s :=
  fun _ => rfl
@[simp] theorem exec_vclt (s : State) : ∀ o, exec (.vclt o) s = execVclt o s :=
  fun _ => rfl
@[simp] theorem exec_vcle (s : State) : ∀ o, exec (.vcle o) s = execVcle o s :=
  fun _ => rfl
@[simp] theorem exec_vcun (s : State) : ∀ o, exec (.vcun o) s = execVcun o s :=
  fun _ => rfl
@[simp] theorem exec_viadd (s : State) : ∀ o, exec (.viadd o) s = execViadd o s :=
  fun _ => rfl
@[simp] theorem exec_visub (s : State) : ∀ o, exec (.visub o) s = execVisub o s :=
  fun _ => rfl
@[simp] theorem exec_vimul (s : State) : ∀ o, exec (.vimul o) s = execVimul o s :=
  fun _ => rfl
@[simp] theorem exec_vimulh (s : State) : ∀ o, exec (.vimulh o) s = execVimulh o s :=
  fun _ => rfl
@[simp] theorem exec_vimin (s : State) : ∀ o, exec (.vimin o) s = execVimin o s :=
  fun _ => rfl
@[simp] theorem exec_vimax (s : State) : ∀ o, exec (.vimax o) s = execVimax o s :=
  fun _ => rfl
@[simp] theorem exec_viabs (s : State) : ∀ o, exec (.viabs o) s = execViabs o s :=
  fun _ => rfl
@[simp] theorem exec_vshl (s : State) : ∀ o, exec (.vshl o) s = execVshl o s :=
  fun _ => rfl
@[simp] theorem exec_vshr (s : State) : ∀ o, exec (.vshr o) s = execVshr o s :=
  fun _ => rfl
@[simp] theorem exec_viceq (s : State) : ∀ o, exec (.viceq o) s = execViceq o s :=
  fun _ => rfl
@[simp] theorem exec_viclt (s : State) : ∀ o, exec (.viclt o) s = execViclt o s :=
  fun _ => rfl
@[simp] theorem exec_vicle (s : State) : ∀ o, exec (.vicle o) s = execVicle o s :=
  fun _ => rfl
@[simp] theorem exec_vand (s : State) : ∀ o, exec (.vand o) s = execVand o s :=
  fun _ => rfl
@[simp] theorem exec_vor (s : State) : ∀ o, exec (.vor o) s = execVor o s :=
  fun _ => rfl
@[simp] theorem exec_vxor (s : State) : ∀ o, exec (.vxor o) s = execVxor o s :=
  fun _ => rfl
@[simp] theorem exec_vandn (s : State) : ∀ o, exec (.vandn o) s = execVandn o s :=
  fun _ => rfl
@[simp] theorem exec_vsel (s : State) : ∀ o, exec (.vsel o) s = execVsel o s :=
  fun _ => rfl
@[simp] theorem exec_vmov (s : State) : ∀ o, exec (.vmov o) s = execVmov o s :=
  fun _ => rfl
@[simp] theorem exec_vperm (s : State) : ∀ o, exec (.vperm o) s = execVperm o s :=
  fun _ => rfl
@[simp] theorem exec_vrot (s : State) : ∀ o, exec (.vrot o) s = execVrot o s :=
  fun _ => rfl
@[simp] theorem exec_vbcst (s : State) : ∀ o, exec (.vbcst o) s = execVbcst o s :=
  fun _ => rfl
@[simp] theorem exec_vcvtF32 (s : State) : ∀ o, exec (.vcvtF32 o) s = execVcvtF32 o s :=
  fun _ => rfl
@[simp] theorem exec_vcvtBf16 (s : State) : ∀ o, exec (.vcvtBf16 o) s = execVcvtBf16 o s :=
  fun _ => rfl
@[simp] theorem exec_vcvtFp16 (s : State) : ∀ o, exec (.vcvtFp16 o) s = execVcvtFp16 o s :=
  fun _ => rfl
@[simp] theorem exec_vcvtE4m3 (s : State) : ∀ o, exec (.vcvtE4m3 o) s = execVcvtE4m3 o s :=
  fun _ => rfl
@[simp] theorem exec_vcvtE5m2 (s : State) : ∀ o, exec (.vcvtE5m2 o) s = execVcvtE5m2 o s :=
  fun _ => rfl
@[simp] theorem exec_vcvtE2m1 (s : State) : ∀ o, exec (.vcvtE2m1 o) s = execVcvtE2m1 o s :=
  fun _ => rfl
@[simp] theorem exec_vcvtVq2 (s : State) : ∀ o, exec (.vcvtVq2 o) s = execVcvtVq2 o s :=
  fun _ => rfl
@[simp] theorem exec_vcvtI32 (s : State) : ∀ o, exec (.vcvtI32 o) s = execVcvtI32 o s :=
  fun _ => rfl
@[simp] theorem exec_vcvtI16 (s : State) : ∀ o, exec (.vcvtI16 o) s = execVcvtI16 o s :=
  fun _ => rfl
@[simp] theorem exec_vcvtI8 (s : State) : ∀ o, exec (.vcvtI8 o) s = execVcvtI8 o s :=
  fun _ => rfl
@[simp] theorem exec_vcvtI4 (s : State) : ∀ o, exec (.vcvtI4 o) s = execVcvtI4 o s :=
  fun _ => rfl
@[simp] theorem exec_vcvtN32 (s : State) : ∀ o, exec (.vcvtN32 o) s = execVcvtN32 o s :=
  fun _ => rfl
@[simp] theorem exec_vcvtN16 (s : State) : ∀ o, exec (.vcvtN16 o) s = execVcvtN16 o s :=
  fun _ => rfl
@[simp] theorem exec_vcvtN8 (s : State) : ∀ o, exec (.vcvtN8 o) s = execVcvtN8 o s :=
  fun _ => rfl
@[simp] theorem exec_vrsum (s : State) : ∀ o, exec (.vrsum o) s = execVrsum o s :=
  fun _ => rfl
@[simp] theorem exec_vrmin (s : State) : ∀ o, exec (.vrmin o) s = execVrmin o s :=
  fun _ => rfl
@[simp] theorem exec_vrmax (s : State) : ∀ o, exec (.vrmax o) s = execVrmax o s :=
  fun _ => rfl
@[simp] theorem exec_vrisum (s : State) : ∀ o, exec (.vrisum o) s = execVrisum o s :=
  fun _ => rfl
@[simp] theorem exec_vscan (s : State) : ∀ o, exec (.vscan o) s = execVscan o s :=
  fun _ => rfl
@[simp] theorem exec_viscan (s : State) : ∀ o, exec (.viscan o) s = execViscan o s :=
  fun _ => rfl
@[simp] theorem exec_vnzs (s : State) : ∀ o, exec (.vnzs o) s = execVnzs o s :=
  fun _ => rfl
@[simp] theorem exec_vnzc (s : State) : ∀ o, exec (.vnzc o) s = execVnzc o s :=
  fun _ => rfl
@[simp] theorem exec_vbop (s : State) : ∀ o, exec (.vbop o) s = execVbop o s :=
  fun _ => rfl
@[simp] theorem exec_vld (s : State) : ∀ o, exec (.vld o) s = execVld o s :=
  fun _ => rfl
@[simp] theorem exec_vst (s : State) : ∀ o, exec (.vst o) s = execVst o s :=
  fun _ => rfl
@[simp] theorem exec_vgath (s : State) : ∀ o, exec (.vgath o) s = execVgath o s :=
  fun _ => rfl
@[simp] theorem exec_vscat (s : State) : ∀ o, exec (.vscat o) s = execVscat o s :=
  fun _ => rfl
@[simp] theorem exec_vlda (s : State) : ∀ o, exec (.vlda o) s = execVlda o s :=
  fun _ => rfl
@[simp] theorem exec_vsta (s : State) : ∀ o, exec (.vsta o) s = execVsta o s :=
  fun _ => rfl
@[simp] theorem exec_vldc (s : State) : ∀ o, exec (.vldc o) s = execVldc o s :=
  fun _ => rfl
@[simp] theorem exec_vldh (s : State) : ∀ o, exec (.vldh o) s = execVldh o s :=
  fun _ => rfl
@[simp] theorem exec_vsth (s : State) : ∀ o, exec (.vsth o) s = execVsth o s :=
  fun _ => rfl
@[simp] theorem exec_vgathh (s : State) : ∀ o, exec (.vgathh o) s = execVgathh o s :=
  fun _ => rfl
@[simp] theorem exec_vscath (s : State) : ∀ o, exec (.vscath o) s = execVscath o s :=
  fun _ => rfl
@[simp] theorem exec_vldhPm4 (s : State) : ∀ o, exec (.vldhPm4 o) s = execVldhPm4 o s :=
  fun _ => rfl
@[simp] theorem exec_vsthPm4 (s : State) : ∀ o, exec (.vsthPm4 o) s = execVsthPm4 o s :=
  fun _ => rfl
@[simp] theorem exec_vgathhPm4 (s : State) : ∀ o, exec (.vgathhPm4 o) s = execVgathhPm4 o s :=
  fun _ => rfl
@[simp] theorem exec_vscathPm4 (s : State) : ∀ o, exec (.vscathPm4 o) s = execVscathPm4 o s :=
  fun _ => rfl
@[simp] theorem exec_resultLanding (s : State) : ∀ strand, exec (.resultLanding strand) s = execResultLanding strand s :=
  fun _ => rfl
@[simp] theorem exec_ldCompletion (s : State) : ∀ strand n lanes, exec (.ldCompletion strand n lanes) s = execLdCompletion strand n lanes s :=
  fun _ _ _ => rfl
@[simp] theorem exec_stCompletion (s : State) : ∀ strand n, exec (.stCompletion strand n) s = execStCompletion strand n s :=
  fun _ _ => rfl
@[simp] theorem exec_talloc (s : State) : ∀ o, exec (.talloc o) s = execTalloc o s :=
  fun _ => rfl
@[simp] theorem exec_tfree (s : State) : ∀ o, exec (.tfree o) s = execTfree o s :=
  fun _ => rfl
@[simp] theorem exec_tzero (s : State) : ∀ o, exec (.tzero o) s = execTzero o s :=
  fun _ => rfl
@[simp] theorem exec_tstat (s : State) : ∀ o, exec (.tstat o) s = execTstat o s :=
  fun _ => rfl
@[simp] theorem exec_twait (s : State) : ∀ o, exec (.twait o) s = execTwait o s :=
  fun _ => rfl
@[simp] theorem exec_mlatch (s : State) : ∀ o, exec (.mlatch o) s = execMlatch o s :=
  fun _ => rfl
@[simp] theorem exec_mma (s : State) : ∀ o, exec (.mma o) s = execMma o s :=
  fun _ => rfl
@[simp] theorem exec_mmas (s : State) : ∀ o, exec (.mmas o) s = execMmas o s :=
  fun _ => rfl
@[simp] theorem exec_mmaX (s : State) : ∀ o, exec (.mmaX o) s = execMmaX o s :=
  fun _ => rfl
@[simp] theorem exec_mmasX (s : State) : ∀ o, exec (.mmasX o) s = execMmasX o s :=
  fun _ => rfl
@[simp] theorem exec_matrixOperationStart (s : State) : ∀ cmd, exec (.matrixOperationStart cmd) s = execMatrixOperationStart cmd s :=
  fun _ => rfl
@[simp] theorem exec_streamFault (s : State) : ∀ cmd, exec (.streamFault cmd) s = execStreamFault cmd s :=
  fun _ => rfl
@[simp] theorem exec_trowp (s : State) : ∀ o, exec (.trowp o) s = execTrowp o s :=
  fun _ => rfl
@[simp] theorem exec_tcvt (s : State) : ∀ o, exec (.tcvt o) s = execTcvt o s :=
  fun _ => rfl
@[simp] theorem exec_tmov (s : State) : ∀ o, exec (.tmov o) s = execTmov o s :=
  fun _ => rfl
@[simp] theorem exec_txpose (s : State) : ∀ o, exec (.txpose o) s = execTxpose o s :=
  fun _ => rfl
@[simp] theorem exec_tdrain (s : State) : ∀ o, exec (.tdrain o) s = execTdrain o s :=
  fun _ => rfl
@[simp] theorem exec_tdraink (s : State) : ∀ o, exec (.tdraink o) s = execTdraink o s :=
  fun _ => rfl
@[simp] theorem exec_tileCommandCompletion (s : State) : ∀ cmd, exec (.tileCommandCompletion cmd) s = execTileCommandCompletion cmd s :=
  fun _ => rfl
@[simp] theorem exec_cpy (s : State) : ∀ o, exec (.cpy o) s = execCpy o s :=
  fun _ => rfl
@[simp] theorem exec_cpym (s : State) : ∀ o, exec (.cpym o) s = execCpym o s :=
  fun _ => rfl
@[simp] theorem exec_cpyi (s : State) : ∀ o, exec (.cpyi o) s = execCpyi o s :=
  fun _ => rfl
@[simp] theorem exec_cpysTo (s : State) : ∀ o, exec (.cpysTo o) s = execCpysTo o s :=
  fun _ => rfl
@[simp] theorem exec_cpysFrom (s : State) : ∀ o, exec (.cpysFrom o) s = execCpysFrom o s :=
  fun _ => rfl
@[simp] theorem exec_cpyf (s : State) : ∀ o, exec (.cpyf o) s = execCpyf o s :=
  fun _ => rfl
@[simp] theorem exec_cpyg (s : State) : ∀ o, exec (.cpyg o) s = execCpyg o s :=
  fun _ => rfl
@[simp] theorem exec_cpysc (s : State) : ∀ o, exec (.cpysc o) s = execCpysc o s :=
  fun _ => rfl
@[simp] theorem exec_cpyq (s : State) : ∀ o, exec (.cpyq o) s = execCpyq o s :=
  fun _ => rfl
@[simp] theorem exec_sqgo (s : State) : ∀ o, exec (.sqgo o) s = execSqgo o s :=
  fun _ => rfl
@[simp] theorem exec_sqwait (s : State) : ∀ o, exec (.sqwait o) s = execSqwait o s :=
  fun _ => rfl
@[simp] theorem exec_sqwaitPoll (s : State) : ∀ cmd, exec (.sqwaitPoll cmd) s = execSqwaitPoll cmd s :=
  fun _ => rfl
@[simp] theorem exec_sqkill (s : State) : ∀ o, exec (.sqkill o) s = execSqkill o s :=
  fun _ => rfl
@[simp] theorem exec_sqstat (s : State) : ∀ o, exec (.sqstat o) s = execSqstat o s :=
  fun _ => rfl
@[simp] theorem exec_commandStart (s : State) : ∀ engine queue, exec (.commandStart engine queue) s = execCommandStart engine queue s :=
  fun _ _ => rfl
@[simp] theorem exec_copyCommandCompletion (s : State) : ∀ cmd, exec (.copyCommandCompletion cmd) s = execCopyCommandCompletion cmd s :=
  fun _ => rfl
@[simp] theorem exec_engineTranslationFault (s : State) : ∀ cmd, exec (.engineTranslationFault cmd) s = execEngineTranslationFault cmd s :=
  fun _ => rfl
@[simp] theorem exec_sfpool (s : State) : ∀ o, exec (.sfpool o) s = execSfpool o s :=
  fun _ => rfl
@[simp] theorem exec_poolingCompletion (s : State) : ∀ cmd, exec (.poolingCompletion cmd) s = execPoolingCompletion cmd s :=
  fun _ => rfl
@[simp] theorem exec_sfplan (s : State) : ∀ o, exec (.sfplan o) s = execSfplan o s :=
  fun _ => rfl
@[simp] theorem exec_hotSegmentLoad (s : State) : ∀ part table, exec (.hotSegmentLoad part table) s = execHotSegmentLoad part table s :=
  fun _ _ => rfl
@[simp] theorem exec_sfstat (s : State) : ∀ o, exec (.sfstat o) s = execSfstat o s :=
  fun _ => rfl
@[simp] theorem exec_acq (s : State) : ∀ o, exec (.acq o) s = execAcq o s :=
  fun _ => rfl
@[simp] theorem exec_rel (s : State) : ∀ o, exec (.rel o) s = execRel o s :=
  fun _ => rfl
@[simp] theorem exec_fence (s : State) : ∀ o, exec (.fence o) s = execFence o s :=
  fun _ => rfl
@[simp] theorem exec_bar (s : State) : ∀ o, exec (.bar o) s = execBar o s :=
  fun _ => rfl
@[simp] theorem exec_bara (s : State) : ∀ o, exec (.bara o) s = execBara o s :=
  fun _ => rfl
@[simp] theorem exec_barw (s : State) : ∀ o, exec (.barw o) s = execBarw o s :=
  fun _ => rfl
@[simp] theorem exec_frd (s : State) : ∀ o, exec (.frd o) s = execFrd o s :=
  fun _ => rfl
@[simp] theorem exec_ffill (s : State) : ∀ o, exec (.ffill o) s = execFfill o s :=
  fun _ => rfl
@[simp] theorem exec_pwr (s : State) : ∀ o, exec (.pwr o) s = execPwr o s :=
  fun _ => rfl
@[simp] theorem exec_prd (s : State) : ∀ o, exec (.prd o) s = execPrd o s :=
  fun _ => rfl
@[simp] theorem exec_wait (s : State) : ∀ o, exec (.wait o) s = execWait o s :=
  fun _ => rfl
@[simp] theorem exec_yield (s : State) : ∀ o, exec (.yield o) s = execYield o s :=
  fun _ => rfl
@[simp] theorem exec_endR (s : State) : ∀ o, exec (.endR o) s = execEndR o s :=
  fun _ => rfl
@[simp] theorem exec_strandRetirement (s : State) : ∀ strand, exec (.strandRetirement strand) s = execStrandRetirement strand s :=
  fun _ => rfl
@[simp] theorem exec_batchCompletion (s : State) : ∀ batch, exec (.batchCompletion batch) s = execBatchCompletion batch s :=
  fun _ => rfl
@[simp] theorem exec_launch (s : State) : ∀ o, exec (.launch o) s = execLaunch o s :=
  fun _ => rfl
@[simp] theorem exec_trap (s : State) : ∀ o, exec (.trap o) s = execTrap o s :=
  fun _ => rfl
@[simp] theorem exec_rett (s : State) : ∀ o, exec (.rett o) s = execRett o s :=
  fun _ => rfl
@[simp] theorem exec_mfsr (s : State) : ∀ o, exec (.mfsr o) s = execMfsr o s :=
  fun _ => rfl
@[simp] theorem exec_mtsr (s : State) : ∀ o, exec (.mtsr o) s = execMtsr o s :=
  fun _ => rfl
@[simp] theorem exec_ifence (s : State) : ∀ o, exec (.ifence o) s = execIfence o s :=
  fun _ => rfl
@[simp] theorem exec_rdclk (s : State) : ∀ o, exec (.rdclk o) s = execRdclk o s :=
  fun _ => rfl
@[simp] theorem exec_rdid (s : State) : ∀ o, exec (.rdid o) s = execRdid o s :=
  fun _ => rfl
@[simp] theorem exec_setrm (s : State) : ∀ o, exec (.setrm o) s = execSetrm o s :=
  fun _ => rfl
@[simp] theorem exec_rdff (s : State) : ∀ o, exec (.rdff o) s = execRdff o s :=
  fun _ => rfl
@[simp] theorem exec_clrff (s : State) : ∀ o, exec (.clrff o) s = execClrff o s :=
  fun _ => rfl
@[simp] theorem exec_brk (s : State) : ∀ o, exec (.brk o) s = execBrk o s :=
  fun _ => rfl
@[simp] theorem exec_pwsz (s : State) : ∀ o, exec (.pwsz o) s = execPwsz o s :=
  fun _ => rfl
@[simp] theorem exec_bind (s : State) : ∀ o, exec (.bind o) s = execBind o s :=
  fun _ => rfl
@[simp] theorem exec_unbind (s : State) : ∀ o, exec (.unbind o) s = execUnbind o s :=
  fun _ => rfl
@[simp] theorem exec_bindq (s : State) : ∀ o, exec (.bindq o) s = execBindq o s :=
  fun _ => rfl
@[simp] theorem exec_csload (s : State) : ∀ o, exec (.csload o) s = execCsload o s :=
  fun _ => rfl
@[simp] theorem exec_controlStorePageLoaded (s : State) : ∀ core page, exec (.controlStorePageLoaded core page) s = execControlStorePageLoaded core page s :=
  fun _ _ => rfl
@[simp] theorem exec_csinv (s : State) : ∀ o, exec (.csinv o) s = execCsinv o s :=
  fun _ => rfl
@[simp] theorem exec_csfence (s : State) : ∀ o, exec (.csfence o) s = execCsfence o s :=
  fun _ => rfl
@[simp] theorem exec_nextblk (s : State) : ∀ o, exec (.nextblk o) s = execNextblk o s :=
  fun _ => rfl
@[simp] theorem exec_impr (s : State) : ∀ o, exec (.impr o) s = execImpr o s :=
  fun _ => rfl
@[simp] theorem exec_impw (s : State) : ∀ o, exec (.impw o) s = execImpw o s :=
  fun _ => rfl
@[simp] theorem exec_impwCommit (s : State) : ∀ o, exec (.impwCommit o) s = execImpwCommit o s :=
  fun _ => rfl
@[simp] theorem exec_gclaim (s : State) : ∀ o, exec (.gclaim o) s = execGclaim o s :=
  fun _ => rfl
@[simp] theorem exec_gdone (s : State) : ∀ o, exec (.gdone o) s = execGdone o s :=
  fun _ => rfl
@[simp] theorem exec_handov (s : State) : ∀ o, exec (.handov o) s = execHandov o s :=
  fun _ => rfl
@[simp] theorem exec_ebop (s : State) : ∀ o, exec (.ebop o) s = execEbop o s :=
  fun _ => rfl
@[simp] theorem exec_microNext (s : State) : ∀ m, exec (.microNext m) s = execMicroNext m s :=
  fun _ => rfl
@[simp] theorem exec_jump (s : State) : ∀ m, exec (.jump m) s = execJump m s :=
  fun _ => rfl
@[simp] theorem exec_brt (s : State) : ∀ m, exec (.brt m) s = execBrt m s :=
  fun _ => rfl
@[simp] theorem exec_brf (s : State) : ∀ m, exec (.brf m) s = execBrf m s :=
  fun _ => rfl
@[simp] theorem exec_loop0 (s : State) : ∀ m, exec (.loop0 m) s = execLoop0 m s :=
  fun _ => rfl
@[simp] theorem exec_loop1 (s : State) : ∀ m, exec (.loop1 m) s = execLoop1 m s :=
  fun _ => rfl
@[simp] theorem exec_microCall (s : State) : ∀ m, exec (.microCall m) s = execMicroCall m s :=
  fun _ => rfl
@[simp] theorem exec_microRet (s : State) : ∀ m, exec (.microRet m) s = execMicroRet m s :=
  fun _ => rfl
@[simp] theorem exec_microEnd (s : State) : ∀ m, exec (.microEnd m) s = execMicroEnd m s :=
  fun _ => rfl
@[simp] theorem exec_microTrap (s : State) : ∀ m, exec (.microTrap m) s = execMicroTrap m s :=
  fun _ => rfl
@[simp] theorem exec_poll (s : State) : ∀ m, exec (.poll m) s = execPoll m s :=
  fun _ => rfl
@[simp] theorem exec_laneUnitLanding (s : State) : ∀ strand, exec (.laneUnitLanding strand) s = execLaneUnitLanding strand s :=
  fun _ => rfl
@[simp] theorem exec_collectiveReceive (s : State) : ∀ die port data, exec (.collectiveReceive die port data) s = execCollectiveReceive die port data s :=
  fun _ _ _ => rfl
@[simp] theorem exec_instructionHalfFill (s : State) : ∀ strand half, exec (.instructionHalfFill strand half) s = execInstructionHalfFill strand half s :=
  fun _ _ => rfl
@[simp] theorem exec_schedulerPlacement (s : State) : ∀ part, exec (.schedulerPlacement part) s = execSchedulerPlacement part s :=
  fun _ => rfl
@[simp] theorem exec_startGateOpen (s : State) : ∀ gang, exec (.startGateOpen gang) s = execStartGateOpen gang s :=
  fun _ => rfl
@[simp] theorem exec_tokenRefill (s : State) : ∀ part, exec (.tokenRefill part) s = execTokenRefill part s :=
  fun _ => rfl
@[simp] theorem exec_candidateOverdue (s : State) : ∀ part queue, exec (.candidateOverdue part queue) s = execCandidateOverdue part queue s :=
  fun _ _ => rfl
@[simp] theorem exec_priorityPreemption (s : State) : ∀ part, exec (.priorityPreemption part) s = execPriorityPreemption part s :=
  fun _ => rfl
@[simp] theorem exec_preemptionRequest (s : State) : ∀ gang, exec (.preemptionRequest gang) s = execPreemptionRequest gang s :=
  fun _ => rfl
@[simp] theorem exec_graceTimeExpiry (s : State) : ∀ gang, exec (.graceTimeExpiry gang) s = execGraceTimeExpiry gang s :=
  fun _ => rfl
@[simp] theorem exec_killTimeExpiry (s : State) : ∀ gang, exec (.killTimeExpiry gang) s = execKillTimeExpiry gang s :=
  fun _ => rfl
@[simp] theorem exec_replayableRecordPost (s : State) : exec (.replayableRecordPost) s = execReplayableRecordPost s :=
  rfl
@[simp] theorem exec_recordConsumed (s : State) : ∀ fatal part seq, exec (.recordConsumed fatal part seq) s = execRecordConsumed fatal part seq s :=
  fun _ _ _ => rfl
@[simp] theorem exec_resume (s : State) : ∀ part seq, exec (.resume part seq) s = execResume part seq s :=
  fun _ _ => rfl
@[simp] theorem exec_vector (s : State) : ∀ part seq, exec (.vector part seq) s = execVector part seq s :=
  fun _ _ => rfl
@[simp] theorem exec_kill (s : State) : ∀ part seq, exec (.kill part seq) s = execKill part seq s :=
  fun _ _ => rfl
@[simp] theorem exec_unload (s : State) : ∀ part ig, exec (.unload part ig) s = execUnload part ig s :=
  fun _ _ => rfl
@[simp] theorem exec_regionAttributeWrite (s : State) : ∀ part n w, exec (.regionAttributeWrite part n w) s = execRegionAttributeWrite part n w s :=
  fun _ _ _ => rfl
@[simp] theorem exec_splinter (s : State) : ∀ c, exec (.splinter c) s = execSplinter c s :=
  fun _ => rfl
@[simp] theorem exec_invalidateMapping (s : State) : ∀ part va len, exec (.invalidateMapping part va len) s = execInvalidateMapping part va len s :=
  fun _ _ _ => rfl
@[simp] theorem exec_invalidationRetired (s : State) : ∀ n, exec (.invalidationRetired n) s = execInvalidationRetired n s :=
  fun _ => rfl
@[simp] theorem exec_bindingWrite (s : State) : ∀ part n act, exec (.bindingWrite part n act) s = execBindingWrite part n act s :=
  fun _ _ _ => rfl
@[simp] theorem exec_schedulingTableWrite (s : State) : ∀ part off w, exec (.schedulingTableWrite part off w) s = execSchedulingTableWrite part off w s :=
  fun _ _ _ => rfl
@[simp] theorem exec_bandwidthWindow (s : State) : exec (.bandwidthWindow) s = execBandwidthWindow s :=
  rfl
@[simp] theorem exec_arbiterServe (s : State) : ∀ resource, exec (.arbiterServe resource) s = execArbiterServe resource s :=
  fun _ => rfl
@[simp] theorem exec_partitionCreate (s : State) : ∀ part r, exec (.partitionCreate part r) s = execPartitionCreate part r s :=
  fun _ _ => rfl
@[simp] theorem exec_partitionGrow (s : State) : ∀ part r, exec (.partitionGrow part r) s = execPartitionGrow part r s :=
  fun _ _ => rfl
@[simp] theorem exec_partitionShrink (s : State) : ∀ part r, exec (.partitionShrink part r) s = execPartitionShrink part r s :=
  fun _ _ => rfl
@[simp] theorem exec_partitionDestroy (s : State) : ∀ part, exec (.partitionDestroy part) s = execPartitionDestroy part s :=
  fun _ => rfl
@[simp] theorem exec_sliceZeroed (s : State) : ∀ slice, exec (.sliceZeroed slice) s = execSliceZeroed slice s :=
  fun _ => rfl
@[simp] theorem exec_capabilityTableRewrite (s : State) : ∀ part doc, exec (.capabilityTableRewrite part doc) s = execCapabilityTableRewrite part doc s :=
  fun _ _ => rfl
@[simp] theorem exec_routeEntryWrite (s : State) : ∀ n w0 w1, exec (.routeEntryWrite n w0 w1) s = execRouteEntryWrite n w0 w1 s :=
  fun _ _ _ => rfl
@[simp] theorem exec_collectiveStoreWrite (s : State) : ∀ part die addr w, exec (.collectiveStoreWrite part die addr w) s = execCollectiveStoreWrite part die addr w s :=
  fun _ _ _ _ => rfl
@[simp] theorem exec_windowLengthSet (s : State) : ∀ us boundary, exec (.windowLengthSet us boundary) s = execWindowLengthSet us boundary s :=
  fun _ _ => rfl
@[simp] theorem exec_timerSet (s : State) : ∀ part graceUs killMs, exec (.timerSet part graceUs killMs) s = execTimerSet part graceUs killMs s :=
  fun _ _ _ => rfl
@[simp] theorem exec_tenantStop (s : State) : ∀ part tenant status, exec (.tenantStop part tenant status) s = execTenantStop part tenant status s :=
  fun _ _ _ => rfl
@[simp] theorem exec_stopFinalPoint (s : State) : ∀ part, exec (.stopFinalPoint part) s = execStopFinalPoint part s :=
  fun _ => rfl
@[simp] theorem exec_dirtyLogArm (s : State) : ∀ part tenant base size, exec (.dirtyLogArm part tenant base size) s = execDirtyLogArm part tenant base size s :=
  fun _ _ _ _ => rfl
@[simp] theorem exec_fabricWindowBoundary (s : State) : exec (.fabricWindowBoundary) s = execFabricWindowBoundary s :=
  rfl
@[simp] theorem exec_fabricAcknowledgement (s : State) : ∀ port unit window, exec (.fabricAcknowledgement port unit window) s = execFabricAcknowledgement port unit window s :=
  fun _ _ _ => rfl
@[simp] theorem exec_fabricUnitLost (s : State) : ∀ unit, exec (.fabricUnitLost unit) s = execFabricUnitLost unit s :=
  fun _ => rfl
@[simp] theorem exec_timeBaseLoss (s : State) : exec (.timeBaseLoss) s = execTimeBaseLoss s :=
  rfl
@[simp] theorem exec_landingFailed (s : State) : ∀ n, exec (.landingFailed n) s = execLandingFailed n s :=
  fun _ => rfl
@[simp] theorem exec_landingRetrain (s : State) : ∀ n, exec (.landingRetrain n) s = execLandingRetrain n s :=
  fun _ => rfl
@[simp] theorem exec_ceilingStepDown (s : State) : exec (.ceilingStepDown) s = execCeilingStepDown s :=
  rfl
@[simp] theorem exec_ceilingStepUp (s : State) : exec (.ceilingStepUp) s = execCeilingStepUp s :=
  rfl
@[simp] theorem exec_thermalThrottle (s : State) : ∀ die, exec (.thermalThrottle die) s = execThermalThrottle die s :=
  fun _ => rfl
@[simp] theorem exec_thermalStop (s : State) : ∀ die, exec (.thermalStop die) s = execThermalStop die s :=
  fun _ => rfl
@[simp] theorem exec_operatingPointChange (s : State) : ∀ island mV10 mhz, exec (.operatingPointChange island mV10 mhz) s = execOperatingPointChange island mV10 mhz s :=
  fun _ _ _ => rfl
@[simp] theorem exec_voltageSettled (s : State) : ∀ island, exec (.voltageSettled island) s = execVoltageSettled island s :=
  fun _ => rfl
@[simp] theorem exec_powerOn (s : State) : exec .powerOn s = execPowerOn s :=
  rfl
@[simp] theorem exec_powerOff (s : State) : exec .powerOff s = execPowerOff s :=
  rfl
@[simp] theorem exec_registerWrite (s : State) : ∀ t v, exec (.registerWrite t v) s = execRegisterWrite t v s :=
  fun _ _ => rfl
@[simp] theorem exec_remoteWriteArrival (s : State) : ∀ u, exec (.remoteWriteArrival u) s = execRemoteWriteArrival u s :=
  fun _ => rfl
@[simp] theorem exec_timeBaseRegained (s : State) : exec (.timeBaseRegained) s = execTimeBaseRegained s :=
  rfl
@[simp] theorem exec_packagePowerRestore (s : State) : exec .packagePowerRestore s = execPackagePowerRestore s :=
  rfl
@[simp] theorem exec_dirtyLogSlotFree (s : State) : ∀ part tenant, exec (.dirtyLogSlotFree part tenant) s = execDirtyLogSlotFree part tenant s :=
  fun _ _ => rfl

end Sys2Proof.Machine
end

