-- ==== Sys2Proof/Laws/State.lean ====
section
/-! SUPPORT. What each update of the machine leaves and what it writes, field by field. -/

namespace Sys2Proof.Machine

@[simp] theorem State.setMe_mem (s : State) (t : Strand) : (s.setMe t).mem = s.mem := rfl
@[simp] theorem State.setMe_gangs (s : State) (t : Strand) : (s.setMe t).gangs = s.gangs := rfl
@[simp] theorem State.setMe_batches (s : State) (t : Strand) : (s.setMe t).batches = s.batches := rfl
@[simp] theorem State.setMe_parts (s : State) (t : Strand) : (s.setMe t).parts = s.parts := rfl
@[simp] theorem State.setMe_cores (s : State) (t : Strand) : (s.setMe t).cores = s.cores := rfl
@[simp] theorem State.setMe_clusters (s : State) (t : Strand) : (s.setMe t).clusters = s.clusters := rfl
@[simp] theorem State.setMe_cmds (s : State) (t : Strand) : (s.setMe t).cmds = s.cmds := rfl
@[simp] theorem State.setMe_colls (s : State) (t : Strand) : (s.setMe t).colls = s.colls := rfl
@[simp] theorem State.setMe_dev (s : State) (t : Strand) : (s.setMe t).dev = s.dev := rfl
@[simp] theorem State.setMe_cur (s : State) (t : Strand) : (s.setMe t).cur = s.cur := rfl
@[simp] theorem State.setMe_curCore (s : State) (t : Strand) : (s.setMe t).curCore = s.curCore := rfl
@[simp] theorem State.setMe_agent (s : State) (t : Strand) : (s.setMe t).agent = s.agent := rfl
@[simp] theorem State.setMe_issue (s : State) (t : Strand) : (s.setMe t).issue = s.issue := rfl
@[simp] theorem State.setMe_now (s : State) (t : Strand) : (s.setMe t).now = s.now := rfl
@[simp] theorem State.setMe_agenda (s : State) (t : Strand) : (s.setMe t).agenda = s.agenda := rfl
@[simp] theorem State.setMe_free (s : State) (t : Strand) : (s.setMe t).free = s.free := rfl
@[simp] theorem State.setMe_nextId (s : State) (t : Strand) : (s.setMe t).nextId = s.nextId := rfl
@[simp] theorem State.setMe_sinceEvent (s : State) (t : Strand) : (s.setMe t).sinceEvent = s.sinceEvent := rfl
@[simp] theorem State.setMe_turn (s : State) (t : Strand) : (s.setMe t).turn = s.turn := rfl

@[simp] theorem State.onMe_mem (s : State) (f : Strand → Strand) : (s.onMe f).mem = s.mem := rfl
@[simp] theorem State.onMe_gangs (s : State) (f : Strand → Strand) : (s.onMe f).gangs = s.gangs := rfl
@[simp] theorem State.onMe_batches (s : State) (f : Strand → Strand) : (s.onMe f).batches = s.batches := rfl
@[simp] theorem State.onMe_parts (s : State) (f : Strand → Strand) : (s.onMe f).parts = s.parts := rfl
@[simp] theorem State.onMe_cores (s : State) (f : Strand → Strand) : (s.onMe f).cores = s.cores := rfl
@[simp] theorem State.onMe_clusters (s : State) (f : Strand → Strand) : (s.onMe f).clusters = s.clusters := rfl
@[simp] theorem State.onMe_cmds (s : State) (f : Strand → Strand) : (s.onMe f).cmds = s.cmds := rfl
@[simp] theorem State.onMe_colls (s : State) (f : Strand → Strand) : (s.onMe f).colls = s.colls := rfl
@[simp] theorem State.onMe_dev (s : State) (f : Strand → Strand) : (s.onMe f).dev = s.dev := rfl
@[simp] theorem State.onMe_cur (s : State) (f : Strand → Strand) : (s.onMe f).cur = s.cur := rfl
@[simp] theorem State.onMe_curCore (s : State) (f : Strand → Strand) : (s.onMe f).curCore = s.curCore := rfl
@[simp] theorem State.onMe_agent (s : State) (f : Strand → Strand) : (s.onMe f).agent = s.agent := rfl
@[simp] theorem State.onMe_issue (s : State) (f : Strand → Strand) : (s.onMe f).issue = s.issue := rfl
@[simp] theorem State.onMe_now (s : State) (f : Strand → Strand) : (s.onMe f).now = s.now := rfl
@[simp] theorem State.onMe_agenda (s : State) (f : Strand → Strand) : (s.onMe f).agenda = s.agenda := rfl
@[simp] theorem State.onMe_free (s : State) (f : Strand → Strand) : (s.onMe f).free = s.free := rfl
@[simp] theorem State.onMe_nextId (s : State) (f : Strand → Strand) : (s.onMe f).nextId = s.nextId := rfl
@[simp] theorem State.onMe_sinceEvent (s : State) (f : Strand → Strand) : (s.onMe f).sinceEvent = s.sinceEvent := rfl
@[simp] theorem State.onMe_turn (s : State) (f : Strand → Strand) : (s.onMe f).turn = s.turn := rfl

@[simp] theorem State.onStrand_mem (s : State) (k : Nat) (f : Strand → Strand) : (s.onStrand k f).mem = s.mem := rfl
@[simp] theorem State.onStrand_gangs (s : State) (k : Nat) (f : Strand → Strand) : (s.onStrand k f).gangs = s.gangs := rfl
@[simp] theorem State.onStrand_batches (s : State) (k : Nat) (f : Strand → Strand) : (s.onStrand k f).batches = s.batches := rfl
@[simp] theorem State.onStrand_parts (s : State) (k : Nat) (f : Strand → Strand) : (s.onStrand k f).parts = s.parts := rfl
@[simp] theorem State.onStrand_cores (s : State) (k : Nat) (f : Strand → Strand) : (s.onStrand k f).cores = s.cores := rfl
@[simp] theorem State.onStrand_clusters (s : State) (k : Nat) (f : Strand → Strand) : (s.onStrand k f).clusters = s.clusters := rfl
@[simp] theorem State.onStrand_cmds (s : State) (k : Nat) (f : Strand → Strand) : (s.onStrand k f).cmds = s.cmds := rfl
@[simp] theorem State.onStrand_colls (s : State) (k : Nat) (f : Strand → Strand) : (s.onStrand k f).colls = s.colls := rfl
@[simp] theorem State.onStrand_dev (s : State) (k : Nat) (f : Strand → Strand) : (s.onStrand k f).dev = s.dev := rfl
@[simp] theorem State.onStrand_cur (s : State) (k : Nat) (f : Strand → Strand) : (s.onStrand k f).cur = s.cur := rfl
@[simp] theorem State.onStrand_curCore (s : State) (k : Nat) (f : Strand → Strand) : (s.onStrand k f).curCore = s.curCore := rfl
@[simp] theorem State.onStrand_agent (s : State) (k : Nat) (f : Strand → Strand) : (s.onStrand k f).agent = s.agent := rfl
@[simp] theorem State.onStrand_issue (s : State) (k : Nat) (f : Strand → Strand) : (s.onStrand k f).issue = s.issue := rfl
@[simp] theorem State.onStrand_now (s : State) (k : Nat) (f : Strand → Strand) : (s.onStrand k f).now = s.now := rfl
@[simp] theorem State.onStrand_agenda (s : State) (k : Nat) (f : Strand → Strand) : (s.onStrand k f).agenda = s.agenda := rfl
@[simp] theorem State.onStrand_free (s : State) (k : Nat) (f : Strand → Strand) : (s.onStrand k f).free = s.free := rfl
@[simp] theorem State.onStrand_nextId (s : State) (k : Nat) (f : Strand → Strand) : (s.onStrand k f).nextId = s.nextId := rfl
@[simp] theorem State.onStrand_sinceEvent (s : State) (k : Nat) (f : Strand → Strand) : (s.onStrand k f).sinceEvent = s.sinceEvent := rfl
@[simp] theorem State.onStrand_turn (s : State) (k : Nat) (f : Strand → Strand) : (s.onStrand k f).turn = s.turn := rfl

@[simp] theorem State.onGang_mem (s : State) (k : Nat) (f : Gang → Gang) : (s.onGang k f).mem = s.mem := rfl
@[simp] theorem State.onGang_strands (s : State) (k : Nat) (f : Gang → Gang) : (s.onGang k f).strands = s.strands := rfl
@[simp] theorem State.onGang_batches (s : State) (k : Nat) (f : Gang → Gang) : (s.onGang k f).batches = s.batches := rfl
@[simp] theorem State.onGang_parts (s : State) (k : Nat) (f : Gang → Gang) : (s.onGang k f).parts = s.parts := rfl
@[simp] theorem State.onGang_cores (s : State) (k : Nat) (f : Gang → Gang) : (s.onGang k f).cores = s.cores := rfl
@[simp] theorem State.onGang_clusters (s : State) (k : Nat) (f : Gang → Gang) : (s.onGang k f).clusters = s.clusters := rfl
@[simp] theorem State.onGang_cmds (s : State) (k : Nat) (f : Gang → Gang) : (s.onGang k f).cmds = s.cmds := rfl
@[simp] theorem State.onGang_colls (s : State) (k : Nat) (f : Gang → Gang) : (s.onGang k f).colls = s.colls := rfl
@[simp] theorem State.onGang_dev (s : State) (k : Nat) (f : Gang → Gang) : (s.onGang k f).dev = s.dev := rfl
@[simp] theorem State.onGang_cur (s : State) (k : Nat) (f : Gang → Gang) : (s.onGang k f).cur = s.cur := rfl
@[simp] theorem State.onGang_curCore (s : State) (k : Nat) (f : Gang → Gang) : (s.onGang k f).curCore = s.curCore := rfl
@[simp] theorem State.onGang_agent (s : State) (k : Nat) (f : Gang → Gang) : (s.onGang k f).agent = s.agent := rfl
@[simp] theorem State.onGang_issue (s : State) (k : Nat) (f : Gang → Gang) : (s.onGang k f).issue = s.issue := rfl
@[simp] theorem State.onGang_now (s : State) (k : Nat) (f : Gang → Gang) : (s.onGang k f).now = s.now := rfl
@[simp] theorem State.onGang_agenda (s : State) (k : Nat) (f : Gang → Gang) : (s.onGang k f).agenda = s.agenda := rfl
@[simp] theorem State.onGang_free (s : State) (k : Nat) (f : Gang → Gang) : (s.onGang k f).free = s.free := rfl
@[simp] theorem State.onGang_nextId (s : State) (k : Nat) (f : Gang → Gang) : (s.onGang k f).nextId = s.nextId := rfl
@[simp] theorem State.onGang_sinceEvent (s : State) (k : Nat) (f : Gang → Gang) : (s.onGang k f).sinceEvent = s.sinceEvent := rfl
@[simp] theorem State.onGang_turn (s : State) (k : Nat) (f : Gang → Gang) : (s.onGang k f).turn = s.turn := rfl

@[simp] theorem State.onPart_mem (s : State) (k : Nat) (f : Partition → Partition) : (s.onPart k f).mem = s.mem := rfl
@[simp] theorem State.onPart_strands (s : State) (k : Nat) (f : Partition → Partition) : (s.onPart k f).strands = s.strands := rfl
@[simp] theorem State.onPart_gangs (s : State) (k : Nat) (f : Partition → Partition) : (s.onPart k f).gangs = s.gangs := rfl
@[simp] theorem State.onPart_batches (s : State) (k : Nat) (f : Partition → Partition) : (s.onPart k f).batches = s.batches := rfl
@[simp] theorem State.onPart_cores (s : State) (k : Nat) (f : Partition → Partition) : (s.onPart k f).cores = s.cores := rfl
@[simp] theorem State.onPart_clusters (s : State) (k : Nat) (f : Partition → Partition) : (s.onPart k f).clusters = s.clusters := rfl
@[simp] theorem State.onPart_cmds (s : State) (k : Nat) (f : Partition → Partition) : (s.onPart k f).cmds = s.cmds := rfl
@[simp] theorem State.onPart_colls (s : State) (k : Nat) (f : Partition → Partition) : (s.onPart k f).colls = s.colls := rfl
@[simp] theorem State.onPart_dev (s : State) (k : Nat) (f : Partition → Partition) : (s.onPart k f).dev = s.dev := rfl
@[simp] theorem State.onPart_cur (s : State) (k : Nat) (f : Partition → Partition) : (s.onPart k f).cur = s.cur := rfl
@[simp] theorem State.onPart_curCore (s : State) (k : Nat) (f : Partition → Partition) : (s.onPart k f).curCore = s.curCore := rfl
@[simp] theorem State.onPart_agent (s : State) (k : Nat) (f : Partition → Partition) : (s.onPart k f).agent = s.agent := rfl
@[simp] theorem State.onPart_issue (s : State) (k : Nat) (f : Partition → Partition) : (s.onPart k f).issue = s.issue := rfl
@[simp] theorem State.onPart_now (s : State) (k : Nat) (f : Partition → Partition) : (s.onPart k f).now = s.now := rfl
@[simp] theorem State.onPart_agenda (s : State) (k : Nat) (f : Partition → Partition) : (s.onPart k f).agenda = s.agenda := rfl
@[simp] theorem State.onPart_free (s : State) (k : Nat) (f : Partition → Partition) : (s.onPart k f).free = s.free := rfl
@[simp] theorem State.onPart_nextId (s : State) (k : Nat) (f : Partition → Partition) : (s.onPart k f).nextId = s.nextId := rfl
@[simp] theorem State.onPart_sinceEvent (s : State) (k : Nat) (f : Partition → Partition) : (s.onPart k f).sinceEvent = s.sinceEvent := rfl
@[simp] theorem State.onPart_turn (s : State) (k : Nat) (f : Partition → Partition) : (s.onPart k f).turn = s.turn := rfl

@[simp] theorem State.onCmd_mem (s : State) (k : Nat) (f : Cmd → Cmd) : (s.onCmd k f).mem = s.mem := rfl
@[simp] theorem State.onCmd_strands (s : State) (k : Nat) (f : Cmd → Cmd) : (s.onCmd k f).strands = s.strands := rfl
@[simp] theorem State.onCmd_gangs (s : State) (k : Nat) (f : Cmd → Cmd) : (s.onCmd k f).gangs = s.gangs := rfl
@[simp] theorem State.onCmd_batches (s : State) (k : Nat) (f : Cmd → Cmd) : (s.onCmd k f).batches = s.batches := rfl
@[simp] theorem State.onCmd_parts (s : State) (k : Nat) (f : Cmd → Cmd) : (s.onCmd k f).parts = s.parts := rfl
@[simp] theorem State.onCmd_cores (s : State) (k : Nat) (f : Cmd → Cmd) : (s.onCmd k f).cores = s.cores := rfl
@[simp] theorem State.onCmd_clusters (s : State) (k : Nat) (f : Cmd → Cmd) : (s.onCmd k f).clusters = s.clusters := rfl
@[simp] theorem State.onCmd_colls (s : State) (k : Nat) (f : Cmd → Cmd) : (s.onCmd k f).colls = s.colls := rfl
@[simp] theorem State.onCmd_dev (s : State) (k : Nat) (f : Cmd → Cmd) : (s.onCmd k f).dev = s.dev := rfl
@[simp] theorem State.onCmd_cur (s : State) (k : Nat) (f : Cmd → Cmd) : (s.onCmd k f).cur = s.cur := rfl
@[simp] theorem State.onCmd_curCore (s : State) (k : Nat) (f : Cmd → Cmd) : (s.onCmd k f).curCore = s.curCore := rfl
@[simp] theorem State.onCmd_agent (s : State) (k : Nat) (f : Cmd → Cmd) : (s.onCmd k f).agent = s.agent := rfl
@[simp] theorem State.onCmd_issue (s : State) (k : Nat) (f : Cmd → Cmd) : (s.onCmd k f).issue = s.issue := rfl
@[simp] theorem State.onCmd_now (s : State) (k : Nat) (f : Cmd → Cmd) : (s.onCmd k f).now = s.now := rfl
@[simp] theorem State.onCmd_agenda (s : State) (k : Nat) (f : Cmd → Cmd) : (s.onCmd k f).agenda = s.agenda := rfl
@[simp] theorem State.onCmd_free (s : State) (k : Nat) (f : Cmd → Cmd) : (s.onCmd k f).free = s.free := rfl
@[simp] theorem State.onCmd_nextId (s : State) (k : Nat) (f : Cmd → Cmd) : (s.onCmd k f).nextId = s.nextId := rfl
@[simp] theorem State.onCmd_sinceEvent (s : State) (k : Nat) (f : Cmd → Cmd) : (s.onCmd k f).sinceEvent = s.sinceEvent := rfl
@[simp] theorem State.onCmd_turn (s : State) (k : Nat) (f : Cmd → Cmd) : (s.onCmd k f).turn = s.turn := rfl

@[simp] theorem State.onCore_mem (s : State) (k : Nat) (f : Core → Core) : (s.onCore k f).mem = s.mem := rfl
@[simp] theorem State.onCore_strands (s : State) (k : Nat) (f : Core → Core) : (s.onCore k f).strands = s.strands := rfl
@[simp] theorem State.onCore_gangs (s : State) (k : Nat) (f : Core → Core) : (s.onCore k f).gangs = s.gangs := rfl
@[simp] theorem State.onCore_batches (s : State) (k : Nat) (f : Core → Core) : (s.onCore k f).batches = s.batches := rfl
@[simp] theorem State.onCore_parts (s : State) (k : Nat) (f : Core → Core) : (s.onCore k f).parts = s.parts := rfl
@[simp] theorem State.onCore_clusters (s : State) (k : Nat) (f : Core → Core) : (s.onCore k f).clusters = s.clusters := rfl
@[simp] theorem State.onCore_cmds (s : State) (k : Nat) (f : Core → Core) : (s.onCore k f).cmds = s.cmds := rfl
@[simp] theorem State.onCore_colls (s : State) (k : Nat) (f : Core → Core) : (s.onCore k f).colls = s.colls := rfl
@[simp] theorem State.onCore_dev (s : State) (k : Nat) (f : Core → Core) : (s.onCore k f).dev = s.dev := rfl
@[simp] theorem State.onCore_cur (s : State) (k : Nat) (f : Core → Core) : (s.onCore k f).cur = s.cur := rfl
@[simp] theorem State.onCore_curCore (s : State) (k : Nat) (f : Core → Core) : (s.onCore k f).curCore = s.curCore := rfl
@[simp] theorem State.onCore_agent (s : State) (k : Nat) (f : Core → Core) : (s.onCore k f).agent = s.agent := rfl
@[simp] theorem State.onCore_issue (s : State) (k : Nat) (f : Core → Core) : (s.onCore k f).issue = s.issue := rfl
@[simp] theorem State.onCore_now (s : State) (k : Nat) (f : Core → Core) : (s.onCore k f).now = s.now := rfl
@[simp] theorem State.onCore_agenda (s : State) (k : Nat) (f : Core → Core) : (s.onCore k f).agenda = s.agenda := rfl
@[simp] theorem State.onCore_free (s : State) (k : Nat) (f : Core → Core) : (s.onCore k f).free = s.free := rfl
@[simp] theorem State.onCore_nextId (s : State) (k : Nat) (f : Core → Core) : (s.onCore k f).nextId = s.nextId := rfl
@[simp] theorem State.onCore_sinceEvent (s : State) (k : Nat) (f : Core → Core) : (s.onCore k f).sinceEvent = s.sinceEvent := rfl
@[simp] theorem State.onCore_turn (s : State) (k : Nat) (f : Core → Core) : (s.onCore k f).turn = s.turn := rfl

@[simp] theorem State.onCluster_mem (s : State) (k : Nat) (f : Cluster → Cluster) : (s.onCluster k f).mem = s.mem := rfl
@[simp] theorem State.onCluster_strands (s : State) (k : Nat) (f : Cluster → Cluster) : (s.onCluster k f).strands = s.strands := rfl
@[simp] theorem State.onCluster_gangs (s : State) (k : Nat) (f : Cluster → Cluster) : (s.onCluster k f).gangs = s.gangs := rfl
@[simp] theorem State.onCluster_batches (s : State) (k : Nat) (f : Cluster → Cluster) : (s.onCluster k f).batches = s.batches := rfl
@[simp] theorem State.onCluster_parts (s : State) (k : Nat) (f : Cluster → Cluster) : (s.onCluster k f).parts = s.parts := rfl
@[simp] theorem State.onCluster_cores (s : State) (k : Nat) (f : Cluster → Cluster) : (s.onCluster k f).cores = s.cores := rfl
@[simp] theorem State.onCluster_cmds (s : State) (k : Nat) (f : Cluster → Cluster) : (s.onCluster k f).cmds = s.cmds := rfl
@[simp] theorem State.onCluster_colls (s : State) (k : Nat) (f : Cluster → Cluster) : (s.onCluster k f).colls = s.colls := rfl
@[simp] theorem State.onCluster_dev (s : State) (k : Nat) (f : Cluster → Cluster) : (s.onCluster k f).dev = s.dev := rfl
@[simp] theorem State.onCluster_cur (s : State) (k : Nat) (f : Cluster → Cluster) : (s.onCluster k f).cur = s.cur := rfl
@[simp] theorem State.onCluster_curCore (s : State) (k : Nat) (f : Cluster → Cluster) : (s.onCluster k f).curCore = s.curCore := rfl
@[simp] theorem State.onCluster_agent (s : State) (k : Nat) (f : Cluster → Cluster) : (s.onCluster k f).agent = s.agent := rfl
@[simp] theorem State.onCluster_issue (s : State) (k : Nat) (f : Cluster → Cluster) : (s.onCluster k f).issue = s.issue := rfl
@[simp] theorem State.onCluster_now (s : State) (k : Nat) (f : Cluster → Cluster) : (s.onCluster k f).now = s.now := rfl
@[simp] theorem State.onCluster_agenda (s : State) (k : Nat) (f : Cluster → Cluster) : (s.onCluster k f).agenda = s.agenda := rfl
@[simp] theorem State.onCluster_free (s : State) (k : Nat) (f : Cluster → Cluster) : (s.onCluster k f).free = s.free := rfl
@[simp] theorem State.onCluster_nextId (s : State) (k : Nat) (f : Cluster → Cluster) : (s.onCluster k f).nextId = s.nextId := rfl
@[simp] theorem State.onCluster_sinceEvent (s : State) (k : Nat) (f : Cluster → Cluster) : (s.onCluster k f).sinceEvent = s.sinceEvent := rfl
@[simp] theorem State.onCluster_turn (s : State) (k : Nat) (f : Cluster → Cluster) : (s.onCluster k f).turn = s.turn := rfl

@[simp] theorem State.onDev_mem (s : State) (f : Device → Device) : (s.onDev f).mem = s.mem := rfl
@[simp] theorem State.onDev_strands (s : State) (f : Device → Device) : (s.onDev f).strands = s.strands := rfl
@[simp] theorem State.onDev_gangs (s : State) (f : Device → Device) : (s.onDev f).gangs = s.gangs := rfl
@[simp] theorem State.onDev_batches (s : State) (f : Device → Device) : (s.onDev f).batches = s.batches := rfl
@[simp] theorem State.onDev_parts (s : State) (f : Device → Device) : (s.onDev f).parts = s.parts := rfl
@[simp] theorem State.onDev_cores (s : State) (f : Device → Device) : (s.onDev f).cores = s.cores := rfl
@[simp] theorem State.onDev_clusters (s : State) (f : Device → Device) : (s.onDev f).clusters = s.clusters := rfl
@[simp] theorem State.onDev_cmds (s : State) (f : Device → Device) : (s.onDev f).cmds = s.cmds := rfl
@[simp] theorem State.onDev_colls (s : State) (f : Device → Device) : (s.onDev f).colls = s.colls := rfl
@[simp] theorem State.onDev_cur (s : State) (f : Device → Device) : (s.onDev f).cur = s.cur := rfl
@[simp] theorem State.onDev_curCore (s : State) (f : Device → Device) : (s.onDev f).curCore = s.curCore := rfl
@[simp] theorem State.onDev_agent (s : State) (f : Device → Device) : (s.onDev f).agent = s.agent := rfl
@[simp] theorem State.onDev_issue (s : State) (f : Device → Device) : (s.onDev f).issue = s.issue := rfl
@[simp] theorem State.onDev_now (s : State) (f : Device → Device) : (s.onDev f).now = s.now := rfl
@[simp] theorem State.onDev_agenda (s : State) (f : Device → Device) : (s.onDev f).agenda = s.agenda := rfl
@[simp] theorem State.onDev_free (s : State) (f : Device → Device) : (s.onDev f).free = s.free := rfl
@[simp] theorem State.onDev_nextId (s : State) (f : Device → Device) : (s.onDev f).nextId = s.nextId := rfl
@[simp] theorem State.onDev_sinceEvent (s : State) (f : Device → Device) : (s.onDev f).sinceEvent = s.sinceEvent := rfl
@[simp] theorem State.onDev_turn (s : State) (f : Device → Device) : (s.onDev f).turn = s.turn := rfl

@[simp] theorem State.land_mem (s : State) (n : Nat) (d : Dest) (ff : BitVec 5) : (s.land n d ff).mem = s.mem := rfl
@[simp] theorem State.land_gangs (s : State) (n : Nat) (d : Dest) (ff : BitVec 5) : (s.land n d ff).gangs = s.gangs := rfl
@[simp] theorem State.land_batches (s : State) (n : Nat) (d : Dest) (ff : BitVec 5) : (s.land n d ff).batches = s.batches := rfl
@[simp] theorem State.land_parts (s : State) (n : Nat) (d : Dest) (ff : BitVec 5) : (s.land n d ff).parts = s.parts := rfl
@[simp] theorem State.land_cores (s : State) (n : Nat) (d : Dest) (ff : BitVec 5) : (s.land n d ff).cores = s.cores := rfl
@[simp] theorem State.land_clusters (s : State) (n : Nat) (d : Dest) (ff : BitVec 5) : (s.land n d ff).clusters = s.clusters := rfl
@[simp] theorem State.land_cmds (s : State) (n : Nat) (d : Dest) (ff : BitVec 5) : (s.land n d ff).cmds = s.cmds := rfl
@[simp] theorem State.land_colls (s : State) (n : Nat) (d : Dest) (ff : BitVec 5) : (s.land n d ff).colls = s.colls := rfl
@[simp] theorem State.land_dev (s : State) (n : Nat) (d : Dest) (ff : BitVec 5) : (s.land n d ff).dev = s.dev := rfl
@[simp] theorem State.land_cur (s : State) (n : Nat) (d : Dest) (ff : BitVec 5) : (s.land n d ff).cur = s.cur := rfl
@[simp] theorem State.land_curCore (s : State) (n : Nat) (d : Dest) (ff : BitVec 5) : (s.land n d ff).curCore = s.curCore := rfl
@[simp] theorem State.land_agent (s : State) (n : Nat) (d : Dest) (ff : BitVec 5) : (s.land n d ff).agent = s.agent := rfl
@[simp] theorem State.land_issue (s : State) (n : Nat) (d : Dest) (ff : BitVec 5) : (s.land n d ff).issue = s.issue := rfl
@[simp] theorem State.land_now (s : State) (n : Nat) (d : Dest) (ff : BitVec 5) : (s.land n d ff).now = s.now := rfl
@[simp] theorem State.land_agenda (s : State) (n : Nat) (d : Dest) (ff : BitVec 5) : (s.land n d ff).agenda = s.agenda := rfl
@[simp] theorem State.land_free (s : State) (n : Nat) (d : Dest) (ff : BitVec 5) : (s.land n d ff).free = s.free := rfl
@[simp] theorem State.land_nextId (s : State) (n : Nat) (d : Dest) (ff : BitVec 5) : (s.land n d ff).nextId = s.nextId := rfl
@[simp] theorem State.land_sinceEvent (s : State) (n : Nat) (d : Dest) (ff : BitVec 5) : (s.land n d ff).sinceEvent = s.sinceEvent := rfl
@[simp] theorem State.land_turn (s : State) (n : Nat) (d : Dest) (ff : BitVec 5) : (s.land n d ff).turn = s.turn := rfl

@[simp] theorem State.landS_mem (s : State) (n : Nat) (d : BitVec 6) (v : Word) : (s.landS n d v).mem = s.mem := rfl
@[simp] theorem State.landS_gangs (s : State) (n : Nat) (d : BitVec 6) (v : Word) : (s.landS n d v).gangs = s.gangs := rfl
@[simp] theorem State.landS_batches (s : State) (n : Nat) (d : BitVec 6) (v : Word) : (s.landS n d v).batches = s.batches := rfl
@[simp] theorem State.landS_parts (s : State) (n : Nat) (d : BitVec 6) (v : Word) : (s.landS n d v).parts = s.parts := rfl
@[simp] theorem State.landS_cores (s : State) (n : Nat) (d : BitVec 6) (v : Word) : (s.landS n d v).cores = s.cores := rfl
@[simp] theorem State.landS_clusters (s : State) (n : Nat) (d : BitVec 6) (v : Word) : (s.landS n d v).clusters = s.clusters := rfl
@[simp] theorem State.landS_cmds (s : State) (n : Nat) (d : BitVec 6) (v : Word) : (s.landS n d v).cmds = s.cmds := rfl
@[simp] theorem State.landS_colls (s : State) (n : Nat) (d : BitVec 6) (v : Word) : (s.landS n d v).colls = s.colls := rfl
@[simp] theorem State.landS_dev (s : State) (n : Nat) (d : BitVec 6) (v : Word) : (s.landS n d v).dev = s.dev := rfl
@[simp] theorem State.landS_cur (s : State) (n : Nat) (d : BitVec 6) (v : Word) : (s.landS n d v).cur = s.cur := rfl
@[simp] theorem State.landS_curCore (s : State) (n : Nat) (d : BitVec 6) (v : Word) : (s.landS n d v).curCore = s.curCore := rfl
@[simp] theorem State.landS_agent (s : State) (n : Nat) (d : BitVec 6) (v : Word) : (s.landS n d v).agent = s.agent := rfl
@[simp] theorem State.landS_issue (s : State) (n : Nat) (d : BitVec 6) (v : Word) : (s.landS n d v).issue = s.issue := rfl
@[simp] theorem State.landS_now (s : State) (n : Nat) (d : BitVec 6) (v : Word) : (s.landS n d v).now = s.now := rfl
@[simp] theorem State.landS_agenda (s : State) (n : Nat) (d : BitVec 6) (v : Word) : (s.landS n d v).agenda = s.agenda := rfl
@[simp] theorem State.landS_free (s : State) (n : Nat) (d : BitVec 6) (v : Word) : (s.landS n d v).free = s.free := rfl
@[simp] theorem State.landS_nextId (s : State) (n : Nat) (d : BitVec 6) (v : Word) : (s.landS n d v).nextId = s.nextId := rfl
@[simp] theorem State.landS_sinceEvent (s : State) (n : Nat) (d : BitVec 6) (v : Word) : (s.landS n d v).sinceEvent = s.sinceEvent := rfl
@[simp] theorem State.landS_turn (s : State) (n : Nat) (d : BitVec 6) (v : Word) : (s.landS n d v).turn = s.turn := rfl

@[simp] theorem State.pushLd_mem (s : State) (d : Dest) (wo : Bool) : (s.pushLd d wo).mem = s.mem := rfl
@[simp] theorem State.pushLd_gangs (s : State) (d : Dest) (wo : Bool) : (s.pushLd d wo).gangs = s.gangs := rfl
@[simp] theorem State.pushLd_batches (s : State) (d : Dest) (wo : Bool) : (s.pushLd d wo).batches = s.batches := rfl
@[simp] theorem State.pushLd_parts (s : State) (d : Dest) (wo : Bool) : (s.pushLd d wo).parts = s.parts := rfl
@[simp] theorem State.pushLd_cores (s : State) (d : Dest) (wo : Bool) : (s.pushLd d wo).cores = s.cores := rfl
@[simp] theorem State.pushLd_clusters (s : State) (d : Dest) (wo : Bool) : (s.pushLd d wo).clusters = s.clusters := rfl
@[simp] theorem State.pushLd_cmds (s : State) (d : Dest) (wo : Bool) : (s.pushLd d wo).cmds = s.cmds := rfl
@[simp] theorem State.pushLd_colls (s : State) (d : Dest) (wo : Bool) : (s.pushLd d wo).colls = s.colls := rfl
@[simp] theorem State.pushLd_dev (s : State) (d : Dest) (wo : Bool) : (s.pushLd d wo).dev = s.dev := rfl
@[simp] theorem State.pushLd_cur (s : State) (d : Dest) (wo : Bool) : (s.pushLd d wo).cur = s.cur := rfl
@[simp] theorem State.pushLd_curCore (s : State) (d : Dest) (wo : Bool) : (s.pushLd d wo).curCore = s.curCore := rfl
@[simp] theorem State.pushLd_agent (s : State) (d : Dest) (wo : Bool) : (s.pushLd d wo).agent = s.agent := rfl
@[simp] theorem State.pushLd_issue (s : State) (d : Dest) (wo : Bool) : (s.pushLd d wo).issue = s.issue := rfl
@[simp] theorem State.pushLd_now (s : State) (d : Dest) (wo : Bool) : (s.pushLd d wo).now = s.now := rfl
@[simp] theorem State.pushLd_agenda (s : State) (d : Dest) (wo : Bool) : (s.pushLd d wo).agenda = s.agenda := rfl
@[simp] theorem State.pushLd_free (s : State) (d : Dest) (wo : Bool) : (s.pushLd d wo).free = s.free := rfl
@[simp] theorem State.pushLd_nextId (s : State) (d : Dest) (wo : Bool) : (s.pushLd d wo).nextId = s.nextId := rfl
@[simp] theorem State.pushLd_sinceEvent (s : State) (d : Dest) (wo : Bool) : (s.pushLd d wo).sinceEvent = s.sinceEvent := rfl
@[simp] theorem State.pushLd_turn (s : State) (d : Dest) (wo : Bool) : (s.pushLd d wo).turn = s.turn := rfl

@[simp] theorem State.pushSt_mem (s : State) : (s.pushSt).mem = s.mem := rfl
@[simp] theorem State.pushSt_gangs (s : State) : (s.pushSt).gangs = s.gangs := rfl
@[simp] theorem State.pushSt_batches (s : State) : (s.pushSt).batches = s.batches := rfl
@[simp] theorem State.pushSt_parts (s : State) : (s.pushSt).parts = s.parts := rfl
@[simp] theorem State.pushSt_cores (s : State) : (s.pushSt).cores = s.cores := rfl
@[simp] theorem State.pushSt_clusters (s : State) : (s.pushSt).clusters = s.clusters := rfl
@[simp] theorem State.pushSt_cmds (s : State) : (s.pushSt).cmds = s.cmds := rfl
@[simp] theorem State.pushSt_colls (s : State) : (s.pushSt).colls = s.colls := rfl
@[simp] theorem State.pushSt_dev (s : State) : (s.pushSt).dev = s.dev := rfl
@[simp] theorem State.pushSt_cur (s : State) : (s.pushSt).cur = s.cur := rfl
@[simp] theorem State.pushSt_curCore (s : State) : (s.pushSt).curCore = s.curCore := rfl
@[simp] theorem State.pushSt_agent (s : State) : (s.pushSt).agent = s.agent := rfl
@[simp] theorem State.pushSt_issue (s : State) : (s.pushSt).issue = s.issue := rfl
@[simp] theorem State.pushSt_now (s : State) : (s.pushSt).now = s.now := rfl
@[simp] theorem State.pushSt_agenda (s : State) : (s.pushSt).agenda = s.agenda := rfl
@[simp] theorem State.pushSt_free (s : State) : (s.pushSt).free = s.free := rfl
@[simp] theorem State.pushSt_nextId (s : State) : (s.pushSt).nextId = s.nextId := rfl
@[simp] theorem State.pushSt_sinceEvent (s : State) : (s.pushSt).sinceEvent = s.sinceEvent := rfl
@[simp] theorem State.pushSt_turn (s : State) : (s.pushSt).turn = s.turn := rfl

@[simp] theorem State.writeMem_strands (s : State) (kind pa : Nat) (l : List Byte) : (s.writeMem kind pa l).strands = s.strands := rfl
@[simp] theorem State.writeMem_gangs (s : State) (kind pa : Nat) (l : List Byte) : (s.writeMem kind pa l).gangs = s.gangs := rfl
@[simp] theorem State.writeMem_batches (s : State) (kind pa : Nat) (l : List Byte) : (s.writeMem kind pa l).batches = s.batches := rfl
@[simp] theorem State.writeMem_parts (s : State) (kind pa : Nat) (l : List Byte) : (s.writeMem kind pa l).parts = s.parts := rfl
@[simp] theorem State.writeMem_cores (s : State) (kind pa : Nat) (l : List Byte) : (s.writeMem kind pa l).cores = s.cores := rfl
@[simp] theorem State.writeMem_clusters (s : State) (kind pa : Nat) (l : List Byte) : (s.writeMem kind pa l).clusters = s.clusters := rfl
@[simp] theorem State.writeMem_cmds (s : State) (kind pa : Nat) (l : List Byte) : (s.writeMem kind pa l).cmds = s.cmds := rfl
@[simp] theorem State.writeMem_colls (s : State) (kind pa : Nat) (l : List Byte) : (s.writeMem kind pa l).colls = s.colls := rfl
@[simp] theorem State.writeMem_dev (s : State) (kind pa : Nat) (l : List Byte) : (s.writeMem kind pa l).dev = s.dev := rfl
@[simp] theorem State.writeMem_cur (s : State) (kind pa : Nat) (l : List Byte) : (s.writeMem kind pa l).cur = s.cur := rfl
@[simp] theorem State.writeMem_curCore (s : State) (kind pa : Nat) (l : List Byte) : (s.writeMem kind pa l).curCore = s.curCore := rfl
@[simp] theorem State.writeMem_agent (s : State) (kind pa : Nat) (l : List Byte) : (s.writeMem kind pa l).agent = s.agent := rfl
@[simp] theorem State.writeMem_issue (s : State) (kind pa : Nat) (l : List Byte) : (s.writeMem kind pa l).issue = s.issue := rfl
@[simp] theorem State.writeMem_now (s : State) (kind pa : Nat) (l : List Byte) : (s.writeMem kind pa l).now = s.now := rfl
@[simp] theorem State.writeMem_agenda (s : State) (kind pa : Nat) (l : List Byte) : (s.writeMem kind pa l).agenda = s.agenda := rfl
@[simp] theorem State.writeMem_free (s : State) (kind pa : Nat) (l : List Byte) : (s.writeMem kind pa l).free = s.free := rfl
@[simp] theorem State.writeMem_nextId (s : State) (kind pa : Nat) (l : List Byte) : (s.writeMem kind pa l).nextId = s.nextId := rfl
@[simp] theorem State.writeMem_sinceEvent (s : State) (kind pa : Nat) (l : List Byte) : (s.writeMem kind pa l).sinceEvent = s.sinceEvent := rfl
@[simp] theorem State.writeMem_turn (s : State) (kind pa : Nat) (l : List Byte) : (s.writeMem kind pa l).turn = s.turn := rfl

/-- The current strand after a change to it. -/
@[simp] theorem State.setMe_me (s : State) (t : Strand) : (s.setMe t).me = t := by simp [State.me, State.setMe]
@[simp] theorem State.onMe_me (s : State) (f : Strand → Strand) : (s.onMe f).me = f s.me := by simp [State.onMe]
@[simp] theorem State.onMe_onMe (s : State) (f g : Strand → Strand) : ((s.onMe f).onMe g).me = g (f s.me) := by simp
theorem State.onMe_other (s : State) (f : Strand → Strand) {k : Nat} (h : k ≠ s.cur) :
    tfind (s.onMe f).strands k = tfind s.strands k := by simp [State.onMe, State.setMe, h]
@[simp] theorem State.onGang_me (s : State) (k : Nat) (f : Gang → Gang) : (s.onGang k f).me = s.me := rfl
@[simp] theorem State.onPart_me (s : State) (k : Nat) (f : Partition → Partition) : (s.onPart k f).me = s.me := rfl
@[simp] theorem State.onCmd_me (s : State) (k : Nat) (f : Cmd → Cmd) : (s.onCmd k f).me = s.me := rfl
@[simp] theorem State.onCore_me (s : State) (k : Nat) (f : Core → Core) : (s.onCore k f).me = s.me := rfl
@[simp] theorem State.onCluster_me (s : State) (k : Nat) (f : Cluster → Cluster) : (s.onCluster k f).me = s.me := rfl
@[simp] theorem State.onDev_me (s : State) (f : Device → Device) : (s.onDev f).me = s.me := rfl
@[simp] theorem State.writeMem_me (s : State) (kind pa : Nat) (l : List Byte) : (s.writeMem kind pa l).me = s.me := rfl

/-- A result in flight is appended to those in flight, and nothing else of the strand changes (R59). -/
theorem State.land_me (s : State) (n : Nat) (d : Dest) (ff : BitVec 5) :
    (s.land n d ff).me = { s.me with fly := s.me.fly ++
      [{ due := s.me.steps + n, origin := s.me.steps, slot := s.issue.slot, dest := d, ff := ff }] } := by
  simp [State.land]
theorem State.landS_me (s : State) (n : Nat) (d : BitVec 6) (v : Word) :
    (s.landS n d v).me = { s.me with fly := s.me.fly ++
      [{ due := s.me.steps + n, origin := s.me.steps, slot := s.issue.slot, dest := .scalar d v }] } :=
  State.land_me s n _ 0
theorem State.land_other (s : State) (n : Nat) (d : Dest) (ff : BitVec 5) {k : Nat} (h : k ≠ s.cur) :
    tfind (s.land n d ff).strands k = tfind s.strands k := State.onMe_other s _ h

/-- An outstanding load is appended to those outstanding (R72). -/
theorem State.pushLd_me (s : State) (d : Dest) (wo : Bool) :
    (s.pushLd d wo).me = { s.me with ldq := s.me.ldq ++ [{ dest := d, lanes := BitVec.allOnes 32, wo := wo }] } := by
  simp [State.pushLd]
theorem State.pushSt_me (s : State) : s.pushSt.me = { s.me with stq := s.me.stq ++ [{}] } := by simp [State.pushSt]

/-- s0 reads 0 and a write to it is discarded (R62). -/
@[simp] theorem Strand.reg_zero (t : Strand) : t.reg 0 = 0 := by simp [Strand.reg]
@[simp] theorem Strand.setReg_zero (t : Strand) (v : Word) : t.setReg 0 v = t := by simp [Strand.setReg]
theorem Strand.reg_setReg (t : Strand) (r q : BitVec 6) (v : Word) :
    (t.setReg r v).reg q = if q = r ∧ r ≠ 0 then v else t.reg q := by
  unfold Strand.setReg Strand.reg
  by_cases hr : r = 0
  · subst hr; by_cases hq : q = 0 <;> simp [hq]
  · have hr' : ¬r = 0#6 := hr
    by_cases hq : q = 0
    · subst hq
      have : ¬(0#6 = r) := fun e => hr e.symm
      simp [this]
    · have hq' : ¬q = 0#6 := hq
      simp only [if_neg hr, if_neg hq, cget_cset]
      by_cases h : q = r
      · subst h; simp [hq']
      · have : q.toNat ≠ r.toNat := fun e => h (BitVec.eq_of_toNat_eq e)
        simp [this, h]

/-- A system register written is the one read (R269). -/
@[simp] theorem Strand.sysreg_setSys (t : Strand) (n m : Nat) (v : Word) :
    (t.setSys n v).sysreg m = if m = n then v else t.sysreg m := by simp [Strand.sysreg, Strand.setSys]

end Sys2Proof.Machine
end

