-- ==== Sys2Proof/Laws/Memory.lean ====
section
/-! SUPPORT. What the shared memory operations do and what they leave: the cluster cache (R93), plain memory, the tallies
of the arbiters (R325) and the dirty-page log (R414); and that each keeps memory in its canonical form. -/

namespace Sys2Proof.Machine

theorem State.fillLine_mem (s : State) (c ln : Nat) : (s.fillLine c ln).mem = s.mem := by
  unfold State.fillLine; split <;> rfl
theorem State.fillLine_strands (s : State) (c ln : Nat) : (s.fillLine c ln).strands = s.strands := by
  unfold State.fillLine; split <;> rfl
theorem State.fillLine_cur (s : State) (c ln : Nat) : (s.fillLine c ln).cur = s.cur := by
  unfold State.fillLine; split <;> rfl

/-- A filled line is in the cache. -/
theorem State.fillLine_line (s : State) (c ln : Nat) : ∃ l, tfind (tget (s.fillLine c ln).clusters c).lines ln = some l := by
  unfold State.fillLine
  cases h : tfind (tget s.clusters c).lines ln with
  | some l => exact ⟨l, h⟩
  | none => exact ⟨_, by simp [State.onCluster, tfind_tset]; rfl⟩

/-- HBM is read as its cells stand. -/
theorem State.readMem_hbm (s : State) (pa n : Nat) : s.readMem 0 pa n = cread s.mem pa n := by simp [State.readMem, memKey]

/-- Bringing a line in changes no byte that any cluster sees (R93). -/
theorem State.fillLine_cacheByte (s : State) (c ln c' pa : Nat) : (s.fillLine c ln).cacheByte c' pa = s.cacheByte c' pa := by
  unfold State.fillLine
  cases h : tfind (tget s.clusters c).lines ln with
  | some l => rfl
  | none =>
    unfold State.cacheByte
    simp only [State.onCluster, tget_tset]
    by_cases hc : c' = c
    · subst hc
      simp only [if_true, tfind_tset]
      by_cases hl : pa / 64 = ln
      · subst hl
        simp only [if_true, h]
        rw [cget_cwrite]
        simp only [State.readMem_hbm, cread_length, Nat.zero_le, Nat.zero_add, true_and, Nat.sub_zero]
        have hm : pa % 64 < 64 := Nat.mod_lt _ (by decide)
        rw [if_pos hm]
        simp [List.getD, cread_getElem? _ _ _ _ hm]
        have : 64 * (pa / 64) + pa % 64 = pa := by omega
        rw [this]
      · simp only [if_neg hl]
    · simp only [if_neg hc]

/-- A relation that every step of a fold keeps holds of the whole fold. -/
theorem foldl_keeps {α β : Type} (r : α → α → Prop) (hr : ∀ a, r a a) (ht : ∀ a b c, r a b → r b c → r a c)
    (f : α → β → α) (hf : ∀ a b, r a (f a b)) (l : List β) : ∀ a, r a (l.foldl f a) := by
  induction l with
  | nil => exact hr
  | cons x r ih => intro a; exact ht _ _ _ (hf a x) (ih _)

/-- A property that every step of a fold keeps holds of the whole fold. -/
theorem foldl_inv {α β : Type} (p : α → Prop) (f : α → β → α) (hf : ∀ a b, p a → p (f a b)) (l : List β) (a : α) (h : p a) :
    p (l.foldl f a) := by
  induction l generalizing a with
  | nil => exact h
  | cons x r ih => exact ih _ (hf a x h)

/-- A handle read fills lines and changes nothing else that anyone sees. -/
theorem State.touch_same (s : State) (c kind pa n : Nat) :
    (s.touch c kind pa n).mem = s.mem ∧ (s.touch c kind pa n).strands = s.strands ∧ (s.touch c kind pa n).cur = s.cur ∧
      ∀ c' x, (s.touch c kind pa n).cacheByte c' x = s.cacheByte c' x := by
  unfold State.touch
  split
  · refine foldl_keeps (fun a b : State => b.mem = a.mem ∧ b.strands = a.strands ∧ b.cur = a.cur ∧ ∀ c' x, b.cacheByte c' x = a.cacheByte c' x)
      (fun a => ⟨rfl, rfl, rfl, fun _ _ => rfl⟩)
      (fun a b d h g => ⟨g.1.trans h.1, g.2.1.trans h.2.1, g.2.2.1.trans h.2.2.1, fun x y => (g.2.2.2 x y).trans (h.2.2.2 x y)⟩)
      _ (fun a ln => ?_) _ _
    exact ⟨a.fillLine_mem c ln, a.fillLine_strands c ln, a.fillLine_cur c ln, a.fillLine_cacheByte c ln⟩
  · exact ⟨rfl, rfl, rfl, fun _ _ => rfl⟩

/-- Counting bytes at a resource changes only its partition's tallies (R325, R326). -/
theorem State.chargeAt_same (s : State) (p : Nat) (t : BitVec 4) (res n : Nat) (inw : Bool) :
    (s.chargeAt p t res n inw).mem = s.mem ∧ (s.chargeAt p t res n inw).clusters = s.clusters ∧
      (s.chargeAt p t res n inw).strands = s.strands ∧ (s.chargeAt p t res n inw).cur = s.cur := by
  unfold State.chargeAt; dsimp only; split <;> exact ⟨rfl, rfl, rfl, rfl⟩

/-- Counting bytes of memory changes only its partition's tallies (R325). -/
theorem State.charge_same (s : State) (p : Nat) (t : BitVec 4) (kind pa n : Nat) :
    (s.charge p t kind pa n).mem = s.mem ∧ (s.charge p t kind pa n).clusters = s.clusters ∧
      (s.charge p t kind pa n).strands = s.strands ∧ (s.charge p t kind pa n).cur = s.cur := by
  unfold State.charge
  split
  · exact ⟨rfl, rfl, rfl, rfl⟩
  · exact s.chargeAt_same ..

/-- Logging a page changes only its partition's log (R414). -/
theorem State.logDirty_same (s x : State) (p : Nat) (t : BitVec 4) (kind va : Nat) (h : s.logDirty p t kind va = some x) :
    x.mem = s.mem ∧ x.clusters = s.clusters ∧ x.strands = s.strands ∧ x.cur = s.cur := by
  unfold State.logDirty at h
  split at h
  · cases h; exact ⟨rfl, rfl, rfl, rfl⟩
  · dsimp only at h
    split at h
    · cases h; exact ⟨rfl, rfl, rfl, rfl⟩
    · split at h
      · cases h
      · cases h; exact ⟨rfl, rfl, rfl, rfl⟩

/-- Logging pages changes only their partition's log (R414). -/
theorem State.logAll_same (p : Nat) (t : BitVec 4) (l : List (Nat × Nat)) : ∀ s : State,
    (s.logAll p t l).1.mem = s.mem ∧ (s.logAll p t l).1.clusters = s.clusters ∧ (s.logAll p t l).1.strands = s.strands ∧
      (s.logAll p t l).1.cur = s.cur := by
  induction l with
  | nil => intro s; exact ⟨rfl, rfl, rfl, rfl⟩
  | cons x r ih =>
    intro s
    rw [State.logAll]
    split
    · rename_i y hy
      obtain ⟨a, b, c, d⟩ := State.logDirty_same s y _ _ _ _ hy
      obtain ⟨a', b', c', d'⟩ := ih y
      exact ⟨a'.trans a, b'.trans b, c'.trans c, d'.trans d⟩
    · exact ⟨rfl, rfl, rfl, rfl⟩

/-- A plain write stores its bytes and leaves every other byte (R14). -/
theorem State.writeMem_byte (s : State) (kind pa : Nat) (l : List Byte) (k : Nat) :
    cget (s.writeMem kind pa l).mem k =
      if memKey kind pa ≤ k ∧ k < memKey kind pa + l.length then l.getD (k - memKey kind pa) 0 else cget s.mem k :=
  cget_cwrite _ _ _ _

/-- A write into the cache leaves memory, the strands and the agent as they were. -/
theorem State.cachePut_same (c : Nat) (l : List Byte) : ∀ (s : State) (pa : Nat),
    (s.cachePut c pa l).mem = s.mem ∧ (s.cachePut c pa l).strands = s.strands ∧ (s.cachePut c pa l).cur = s.cur := by
  induction l with
  | nil => intro s pa; exact ⟨rfl, rfl, rfl⟩
  | cons b r ih =>
    intro s pa
    rw [State.cachePut]
    obtain ⟨h1, h2, h3⟩ := ih ((s.fillLine c (pa / 64)).onCluster c (fun k =>
      { k with lines := tmod k.lines (pa / 64) (fun l => l.put (pa % 64) b) })) (pa + 1)
    exact ⟨h1.trans (s.fillLine_mem _ _), h2.trans (s.fillLine_strands _ _), h3.trans (s.fillLine_cur _ _)⟩

/-- One byte written into a cluster's cache: that byte and no other of what any cluster sees. -/
theorem State.cachePut_one (s : State) (c pa : Nat) (b : Byte) (c' x : Nat) :
    ((s.fillLine c (pa / 64)).onCluster c (fun k =>
      { k with lines := tmod k.lines (pa / 64) (fun l => l.put (pa % 64) b) })).cacheByte c' x =
      if c' = c ∧ x = pa then b else s.cacheByte c' x := by
  obtain ⟨l, hl⟩ := s.fillLine_line c (pa / 64)
  rw [← s.fillLine_cacheByte c (pa / 64) c' x]
  unfold State.cacheByte
  simp only [State.onCluster, tget_tset]
  by_cases hc : c' = c
  · subst hc
    simp only [if_true, true_and]
    by_cases hx : x / 64 = pa / 64
    · simp only [hx, tfind_tmod, hl, Option.map_some, CacheLine.put, cget_cset, if_true]
      by_cases hp : x = pa
      · subst hp; simp
      · have : ¬ x % 64 = pa % 64 := by omega
        simp [hp, this]
    · have hp : ¬ x = pa := fun e => hx (by rw [e])
      simp only [tfind_tmod, if_neg hx, if_neg hp]
  · simp only [hc, if_false, false_and]

/-- A write into the cache of a cluster: its bytes as that cluster sees them, and no other byte (R93). -/
theorem State.cachePut_cacheByte (c : Nat) (l : List Byte) : ∀ (s : State) (pa c' x : Nat),
    (s.cachePut c pa l).cacheByte c' x = if c' = c ∧ pa ≤ x ∧ x < pa + l.length then l.getD (x - pa) 0 else s.cacheByte c' x := by
  induction l with
  | nil => intro s pa c' x; rw [if_neg (by simp)]; rfl
  | cons b r ih =>
    intro s pa c' x
    rw [State.cachePut, ih, State.cachePut_one]
    by_cases hc : c' = c
    · by_cases h1 : x = pa
      · subst h1; rw [if_neg (fun h => by have := h.2.1; omega), if_pos ⟨hc, rfl⟩, if_pos ⟨hc, by omega, by simp⟩]; simp
      · by_cases h2 : pa + 1 ≤ x ∧ x < pa + 1 + r.length
        · have e : x - pa = (x - (pa + 1)) + 1 := by omega
          rw [if_pos ⟨hc, h2.1, h2.2⟩, if_pos ⟨hc, by omega, by simp; omega⟩, e]; simp
        · rw [if_neg (fun h => h2 h.2), if_neg (fun h => h1 h.2), if_neg (fun h => h2 ⟨by omega, by have := h.2.2; simp at this; omega⟩)]
    · rw [if_neg (fun h => hc h.1), if_neg (fun h => hc h.1), if_neg (fun h => hc h.1)]

/-! The canonical form of memory. -/

theorem State.writeMem_wf (s : State) (kind pa : Nat) (l : List Byte) (h : Cells.wf s.mem = true) :
    Cells.wf (s.writeMem kind pa l).mem = true := wf_cwrite _ _ _ h

theorem State.storeVia_wf (s : State) (c kind pa : Nat) (l : List Byte) (h : Cells.wf s.mem = true) :
    Cells.wf (s.storeVia c kind pa l).mem = true := by
  unfold State.storeVia
  split
  · rw [(State.cachePut_same c l s pa).1]; exact h
  · exact s.writeMem_wf _ _ _ h

theorem State.writeBack_wf (s : State) (c ln : Nat) (h : Cells.wf s.mem = true) : Cells.wf (s.writeBack c ln).mem = true := by
  unfold State.writeBack
  split
  · exact h
  · refine foldl_inv (fun m : Cells 8 => Cells.wf m = true) _ (fun m i hm => ?_) _ _ h
    dsimp only
    split
    · exact wf_cset _ _ _ hm
    · exact hm

theorem State.flush_wf (s : State) (c : Nat) (p : Nat → Bool) (inval : Bool) (h : Cells.wf s.mem = true) :
    Cells.wf (s.flush c p inval).mem = true := by
  unfold State.flush
  refine foldl_inv (fun x : State => Cells.wf x.mem = true) _ (fun x ln hx => ?_) _ _ h
  dsimp only
  split
  · exact x.writeBack_wf c ln hx
  · exact x.writeBack_wf c ln hx

theorem State.fitCache_wf (s : State) (c : Nat) (h : Cells.wf s.mem = true) : Cells.wf (s.fitCache c).mem = true := by
  unfold State.fitCache
  dsimp only
  split
  · exact h
  · exact s.flush_wf _ _ _ h

theorem State.evictTurn_wf (s : State) (h : Cells.wf s.mem = true) : Cells.wf s.evictTurn.mem = true := by
  unfold State.evictTurn
  split
  · exact h
  · show Cells.wf (State.mem (List.foldl _ s s.clusters)) = true
    exact foldl_inv (fun x : State => Cells.wf x.mem = true) _ (fun x k hx => State.fitCache_wf _ _ (x.flush_wf _ _ _ hx)) _ _ h

theorem State.devWrite_wf (s : State) (part va : Nat) (l : List Byte) (h : Cells.wf s.mem = true) :
    Cells.wf (s.devWrite part va l).mem = true := by
  unfold State.devWrite
  refine foldl_inv (fun x : State => Cells.wf x.mem = true) _ (fun x i hx => ?_) _ _ h
  dsimp only
  split
  · split
    · exact x.writeMem_wf _ _ _ hx
    · exact hx
  · exact hx

theorem State.writeBack_strands (s : State) (c ln : Nat) : (s.writeBack c ln).strands = s.strands := by
  unfold State.writeBack; split <;> rfl
theorem State.flush_strands (s : State) (c : Nat) (p : Nat → Bool) (inval : Bool) : (s.flush c p inval).strands = s.strands := by
  unfold State.flush
  refine foldl_inv (fun x : State => x.strands = s.strands) _ (fun x ln hx => ?_) _ _ rfl
  dsimp only
  split
  · exact (x.writeBack_strands c ln).trans hx
  · exact (x.writeBack_strands c ln).trans hx

end Sys2Proof.Machine
end

