-- ==== Sys2Proof/Laws/Operands.lean ====
section
/-! SUPPORT. What each operand form answers and when: checks, S addresses (R82, R84), accesses through handles (R103), source
lines (R151 to R153); and what a meaning's result becomes as an outcome. -/

namespace Sys2Proof.Machine

@[simp] theorem finish_ok (s x : State) : finish s (.ok x) = .next x := rfl
@[simp] theorem finish_wait (s : State) : finish s (.error .wait) = .next { s with issue := { s.issue with status := .wait } } := rfl
@[simp] theorem finish_fault (s : State) (f : Fault) : finish s (.error (.fault f)) = .fault f := rfl
theorem finish_trap (s : State) (t : Trap) (h : t.slot ≠ 7) :
    finish s (.error (.trap t)) = .next { s.deliver { t with slot := s.issue.slot } with
      issue := { (s.deliver { t with slot := s.issue.slot }).issue with status := .trapped { t with slot := s.issue.slot } } } := by
  simp only [finish, if_neg h]

/-- A meaning is never refused. -/
theorem finish_not_refused (s : State) (r : Res State) : (∃ t, finish s r = .next t) ∨ ∃ f, finish s r = .fault f := by
  unfold finish
  split
  · exact .inl ⟨_, rfl⟩
  · exact .inl ⟨_, rfl⟩
  · exact .inl ⟨_, rfl⟩
  · exact .inr ⟨_, rfl⟩

@[simp] theorem need_true (c : BitVec 16) (v : Word) : need true c v = .ok () := rfl
@[simp] theorem need_false (c : BitVec 16) (v : Word) : need false c v = .error (.trap { cause := c, val := v }) := rfl
@[simp] theorem needReady_true : needReady true = .ok () := rfl
@[simp] theorem needReady_false : needReady false = .error .wait := rfl
theorem need_ok {b : Bool} {c : BitVec 16} {v : Word} {u : Unit} : need b c v = .ok u ↔ b = true := by
  cases b <;> simp
theorem needPa_ok {kind pa n : Nat} {u : Unit} : needPa kind pa n = .ok u ↔ paExists kind pa n = true := by
  unfold needPa; cases paExists kind pa n <;> simp

/-- A first check and what follows it. -/
@[simp] theorem Res.bind_ok {α β : Type} (a : α) (f : α → Res β) : (Except.ok a : Res α) >>= f = f a := rfl
@[simp] theorem Res.bind_error {α β : Type} (e : Stop) (f : α → Res β) : (Except.error e : Res α) >>= f = .error e := rfl
theorem Res.bind_eq_ok {α β : Type} {x : Res α} {f : α → Res β} {b : β} : x >>= f = .ok b ↔ ∃ a, x = .ok a ∧ f a = .ok b := by
  cases x with
  | ok a => simp
  | error e => simp

/-- The rights that an access asks for and a handle grants (R103). -/
def Handle.allows (h : Handle) (rq : BitVec 3) : Bool :=
  (!bitAt rq 0 || h.pr) && (!bitAt rq 1 || h.pw) && (!bitAt rq 2 || h.pa)

/-- R103: an access through a handle reaches a place exactly when every check passes, and then that of its offset. -/
theorem State.hPlace_ok (s : State) (hd : BitVec 4) (off n align : Nat) (rq : BitVec 3) (p : Place) :
    s.hPlace hd off n align rq = .ok p ↔
      (s.me.handle hd).hs = 1 ∧ (s.me.handle hd).kd.toNat < 2 ∧ (s.me.handle hd).allows rq = true ∧
      off + n ≤ 2 ^ pageBits (s.me.handle hd).ps.toNat ∧ off % align = 0 ∧
      paExists (s.me.handle hd).kd.toNat ((s.me.handle hd).pb.toNat * 4096 + off) n = true ∧ p = (s.me.handle hd).place off := by
  unfold State.hPlace State.hOpen
  by_cases e : (s.me.handle hd).hs = 1
  · simp only [if_neg (fun n => n e : ¬ (s.me.handle hd).hs ≠ 1), Res.bind_eq_ok, need_ok, needPa_ok, Handle.allows, decide_eq_true_eq]
    constructor
    · rintro ⟨h, ⟨_, h0, _, h2, _, h3, h4⟩, _, h5, _, h6, _, h7, h8⟩
      cases h4; cases h8
      exact ⟨e, h2, h3, h5, h6, h7, rfl⟩
    · rintro ⟨_, h2, h3, h4, h5, h6, rfl⟩
      exact ⟨_, ⟨(), fun x => by rw [e] at x; exact absurd x (by decide), (), h2, (), h3, rfl⟩, (), h4, (), h5, (), h6, rfl⟩
  · simp only [if_pos (e : (s.me.handle hd).hs ≠ 1), Res.bind_eq_ok]
    constructor
    · rintro ⟨h, ⟨_, _, _, h1, _⟩, _⟩
      simp [pageFault] at h1
    · rintro ⟨h, _⟩; exact absurd h e

/-- R82, R84: an S access reaches a window exactly when every check passes. -/
theorem State.sPlace_ok (s : State) (x n : Nat) (p : SPlace) :
    s.sPlace x n = .ok p ↔ x < 2 ^ 24 ∧ ∃ k,
      (if x / 2 ^ 17 = 127 then k = s.cur else s.gang.strands[x / 2 ^ 17]? = some k ∧ (tget s.strands k).st ≠ 5) ∧
      x % 2 ^ 17 + n ≤ 4096 * (tget s.strands k).win.sb ∧ x % 2 ^ 17 % n = 0 ∧
      p = { strand := k, sof := x % 2 ^ 17, own := decide (x / 2 ^ 17 = 127) } := by
  unfold State.sPlace
  by_cases e : x / 2 ^ 17 = 127
  · simp only [if_pos e, Res.bind_eq_ok, need_ok, decide_eq_true_eq]
    constructor
    · rintro ⟨_, h0, k, hk, _, h1, _, h2, h3⟩
      cases h3; cases hk
      exact ⟨h0, _, rfl, h1, h2, rfl⟩
    · rintro ⟨h0, k, rfl, h1, h2, rfl⟩
      exact ⟨(), h0, _, rfl, (), h1, (), h2, rfl⟩
  · simp only [if_neg e]
    cases hs : s.gang.strands[x / 2 ^ 17]? with
    | none => simp [Res.bind_eq_ok, trapE]
    | some j =>
      by_cases he : (tget s.strands j).st = 5
      · simp only [he, if_true, Res.bind_eq_ok, trapE]
        constructor
        · rintro ⟨_, _, _, h, _⟩; cases h
        · rintro ⟨_, k, ⟨hk, h⟩, _⟩; cases hk; exact absurd he h
      · simp only [he, if_false, Res.bind_eq_ok, need_ok, decide_eq_true_eq]
        constructor
        · rintro ⟨_, h0, k, hk, _, h1, _, h2, h3⟩
          cases h3; cases hk
          exact ⟨h0, _, ⟨rfl, he⟩, h1, h2, rfl⟩
        · rintro ⟨h0, k, ⟨hk, _⟩, h1, h2, rfl⟩
          cases hk
          exact ⟨(), h0, _, rfl, (), h1, (), h2, rfl⟩

/-- R64: a plane check passes exactly inside the window. -/
theorem needPlane_ok (t : Strand) (p : BitVec 5) (u : Unit) : needPlane t p = .ok u ↔ p.toNat < t.win.pl := by
  simp [needPlane, need_ok]
/-- R66: a tag check passes exactly on a RAW plane or one of the tag. -/
theorem needTag_ok (t : Strand) (p : BitVec 5) (w : BitVec 4) (u : Unit) : needTag t p w = .ok u ↔ t.tagOf p = 0 ∨ t.tagOf p = w := by
  simp [needTag, need_ok]
/-- R88, R170: a tile check passes exactly inside the window. -/
theorem needTile_ok (t : Strand) (th : BitVec 5) (u : Unit) : needTile t th = .ok u ↔ th.toNat < t.win.th := by
  simp [needTile, need_ok]
/-- R88: a reader goes on exactly on a ready tile with no command waiting. -/
theorem needReady88_ok (t : Strand) (th : BitVec 5) (u : Unit) : needReady88 t th = .ok u ↔ (t.tile th).ts = 2 ∧ (t.tile th).qc = 0 := by
  unfold needReady88 tileTrap trapE waitE
  dsimp only
  split
  · rename_i h; simpa using h
  · rename_i h; split <;> simpa using h

/-- R153: a source position that names no latch is the line it names. -/
theorem State.source_line (s : State) (pos : Nat) (f : BitVec 11) (x : BitVec 1) (pm : BitVec 3)
    (h : s.me.cb = false ∨ f ≠ 0x7FF ∨ x ≠ 1) : s.source pos f x pm = .ok { line := lineOf f x, pm := pm } := by
  unfold State.source
  rw [if_neg]
  simp only [Bool.and_eq_true, decide_eq_true_eq]
  rintro ⟨⟨a, b⟩, c⟩
  rcases h with h | h | h
  · rw [h] at a; cases a
  · exact h b
  · exact h c

end Sys2Proof.Machine
end

