-- ==== Sys2Proof/Laws/PerInstr.lean ====
section
/-! SUPPORT. What each instruction's encoding says of it, one lemma per constructor: the opcode map gives back the
instruction from the opcode and the operand bits of its encoding (R155 to R168). -/

namespace Sys2Proof

/-- A field above the lower part of a concatenation is a field of the upper part. -/
theorem extractLsb'_append_hi {m n : Nat} (a : BitVec m) (b : BitVec n) (s l : Nat) (h : n ≤ s) :
    (a ++ b).extractLsb' s l = a.extractLsb' (s - n) l := by
  apply BitVec.eq_of_getLsbD_eq
  intro i hi
  simp [BitVec.getLsbD_append, hi]
  have : ¬ (s + i < n) := by omega
  rw [if_neg this]; congr 1; omega

/-- A field inside the lower part of a concatenation is a field of that part. -/
theorem extractLsb'_append_lo {m n : Nat} (a : BitVec m) (b : BitVec n) (s l : Nat) (h : s + l ≤ n) :
    (a ++ b).extractLsb' s l = b.extractLsb' s l := by
  apply BitVec.eq_of_getLsbD_eq
  intro i hi
  simp [BitVec.getLsbD_append, hi]
  intro; omega

theorem dec_encFmtSR (o : FmtSR) : decFmtSR (encFmtSR o) = o := by
  cases o
  simp only [decFmtSR, encFmtSR, FmtSR.mk.injEq]
  refine ⟨?_, ?_, ?_, ?_⟩ <;>
    repeat (first | exact BitVec.extractLsb'_eq_self | refine (extractLsb'_append_hi _ _ _ _ (by decide)).trans ?_ |
      refine (extractLsb'_append_lo _ _ _ _ (by decide)).trans ?_)

theorem dec_encFmtSF (o : FmtSF) : decFmtSF (encFmtSF o) = o := by
  cases o
  simp only [decFmtSF, encFmtSF, FmtSF.mk.injEq]
  refine ⟨?_, ?_, ?_, ?_, ?_⟩ <;>
    repeat (first | exact BitVec.extractLsb'_eq_self | refine (extractLsb'_append_hi _ _ _ _ (by decide)).trans ?_ |
      refine (extractLsb'_append_lo _ _ _ _ (by decide)).trans ?_)

theorem dec_encFmtSI (o : FmtSI) : decFmtSI (encFmtSI o) = o := by
  cases o
  simp only [decFmtSI, encFmtSI, FmtSI.mk.injEq]
  refine ⟨?_, ?_, ?_⟩ <;>
    repeat (first | exact BitVec.extractLsb'_eq_self | refine (extractLsb'_append_hi _ _ _ _ (by decide)).trans ?_ |
      refine (extractLsb'_append_lo _ _ _ _ (by decide)).trans ?_)

theorem dec_encFmtSW (o : FmtSW) : decFmtSW (encFmtSW o) = o := by
  cases o
  simp only [decFmtSW, encFmtSW, FmtSW.mk.injEq]
  refine ⟨?_, ?_⟩ <;>
    repeat (first | exact BitVec.extractLsb'_eq_self | refine (extractLsb'_append_hi _ _ _ _ (by decide)).trans ?_ |
      refine (extractLsb'_append_lo _ _ _ _ (by decide)).trans ?_)

theorem dec_encFmtBC (o : FmtBC) : decFmtBC (encFmtBC o) = o := by
  cases o
  simp only [decFmtBC, encFmtBC, FmtBC.mk.injEq]
  refine ⟨?_, ?_, ?_, ?_⟩ <;>
    repeat (first | exact BitVec.extractLsb'_eq_self | refine (extractLsb'_append_hi _ _ _ _ (by decide)).trans ?_ |
      refine (extractLsb'_append_lo _ _ _ _ (by decide)).trans ?_)

theorem dec_encFmtBK (o : FmtBK) : decFmtBK (encFmtBK o) = o := by
  cases o
  simp only [decFmtBK, encFmtBK, FmtBK.mk.injEq]
  refine ⟨?_, ?_, ?_, ?_⟩ <;>
    repeat (first | exact BitVec.extractLsb'_eq_self | refine (extractLsb'_append_hi _ _ _ _ (by decide)).trans ?_ |
      refine (extractLsb'_append_lo _ _ _ _ (by decide)).trans ?_)

theorem dec_encFmtBT (o : FmtBT) : decFmtBT (encFmtBT o) = o := by
  cases o
  simp only [decFmtBT, encFmtBT, FmtBT.mk.injEq]
  refine ⟨?_, ?_, ?_, ?_, ?_⟩ <;>
    repeat (first | exact BitVec.extractLsb'_eq_self | refine (extractLsb'_append_hi _ _ _ _ (by decide)).trans ?_ |
      refine (extractLsb'_append_lo _ _ _ _ (by decide)).trans ?_)

theorem dec_encFmtBL (o : FmtBL) : decFmtBL (encFmtBL o) = o := by
  cases o
  simp only [decFmtBL, encFmtBL, FmtBL.mk.injEq]
  refine ⟨?_, ?_, ?_, ?_⟩ <;>
    repeat (first | exact BitVec.extractLsb'_eq_self | refine (extractLsb'_append_hi _ _ _ _ (by decide)).trans ?_ |
      refine (extractLsb'_append_lo _ _ _ _ (by decide)).trans ?_)

theorem dec_encFmtLH (o : FmtLH) : decFmtLH (encFmtLH o) = o := by
  cases o
  simp only [decFmtLH, encFmtLH, FmtLH.mk.injEq]
  refine ⟨?_, ?_, ?_, ?_⟩ <;>
    repeat (first | exact BitVec.extractLsb'_eq_self | refine (extractLsb'_append_hi _ _ _ _ (by decide)).trans ?_ |
      refine (extractLsb'_append_lo _ _ _ _ (by decide)).trans ?_)

theorem dec_encFmtLS (o : FmtLS) : decFmtLS (encFmtLS o) = o := by
  cases o
  simp only [decFmtLS, encFmtLS, FmtLS.mk.injEq]
  refine ⟨?_, ?_, ?_⟩ <;>
    repeat (first | exact BitVec.extractLsb'_eq_self | refine (extractLsb'_append_hi _ _ _ _ (by decide)).trans ?_ |
      refine (extractLsb'_append_lo _ _ _ _ (by decide)).trans ?_)

theorem dec_encFmtLP (o : FmtLP) : decFmtLP (encFmtLP o) = o := by
  cases o
  simp only [decFmtLP, encFmtLP, FmtLP.mk.injEq]
  refine ⟨?_, ?_, ?_, ?_⟩ <;>
    repeat (first | exact BitVec.extractLsb'_eq_self | refine (extractLsb'_append_hi _ _ _ _ (by decide)).trans ?_ |
      refine (extractLsb'_append_lo _ _ _ _ (by decide)).trans ?_)

theorem dec_encFmtLA (o : FmtLA) : decFmtLA (encFmtLA o) = o := by
  cases o
  simp only [decFmtLA, encFmtLA, FmtLA.mk.injEq]
  refine ⟨?_, ?_, ?_, ?_, ?_, ?_, ?_, ?_, ?_⟩ <;>
    repeat (first | exact BitVec.extractLsb'_eq_self | refine (extractLsb'_append_hi _ _ _ _ (by decide)).trans ?_ |
      refine (extractLsb'_append_lo _ _ _ _ (by decide)).trans ?_)

theorem dec_encFmtLX (o : FmtLX) : decFmtLX (encFmtLX o) = o := by
  cases o
  simp only [decFmtLX, encFmtLX, FmtLX.mk.injEq]
  refine ⟨?_, ?_, ?_⟩ <;>
    repeat (first | exact BitVec.extractLsb'_eq_self | refine (extractLsb'_append_hi _ _ _ _ (by decide)).trans ?_ |
      refine (extractLsb'_append_lo _ _ _ _ (by decide)).trans ?_)

theorem dec_encFmtXF (o : FmtXF) : decFmtXF (encFmtXF o) = o := by
  cases o
  simp only [decFmtXF, encFmtXF, FmtXF.mk.injEq]
  refine ⟨?_, ?_, ?_, ?_, ?_, ?_⟩ <;>
    repeat (first | exact BitVec.extractLsb'_eq_self | refine (extractLsb'_append_hi _ _ _ _ (by decide)).trans ?_ |
      refine (extractLsb'_append_lo _ _ _ _ (by decide)).trans ?_)

theorem dec_encFmtV3 (o : FmtV3) : decFmtV3 (encFmtV3 o) = o := by
  cases o
  simp only [decFmtV3, encFmtV3, FmtV3.mk.injEq]
  refine ⟨?_, ?_, ?_, ?_, ?_, ?_, ?_, ?_⟩ <;>
    repeat (first | exact BitVec.extractLsb'_eq_self | refine (extractLsb'_append_hi _ _ _ _ (by decide)).trans ?_ |
      refine (extractLsb'_append_lo _ _ _ _ (by decide)).trans ?_)

theorem dec_encFmtVU (o : FmtVU) : decFmtVU (encFmtVU o) = o := by
  cases o
  simp only [decFmtVU, encFmtVU, FmtVU.mk.injEq]
  refine ⟨?_, ?_, ?_, ?_, ?_, ?_, ?_, ?_⟩ <;>
    repeat (first | exact BitVec.extractLsb'_eq_self | refine (extractLsb'_append_hi _ _ _ _ (by decide)).trans ?_ |
      refine (extractLsb'_append_lo _ _ _ _ (by decide)).trans ?_)

theorem dec_encFmtGS (o : FmtGS) : decFmtGS (encFmtGS o) = o := by
  cases o
  simp only [decFmtGS, encFmtGS, FmtGS.mk.injEq]
  refine ⟨?_, ?_, ?_, ?_, ?_, ?_, ?_⟩ <;>
    repeat (first | exact BitVec.extractLsb'_eq_self | refine (extractLsb'_append_hi _ _ _ _ (by decide)).trans ?_ |
      refine (extractLsb'_append_lo _ _ _ _ (by decide)).trans ?_)

theorem dec_encFmtGA (o : FmtGA) : decFmtGA (encFmtGA o) = o := by
  cases o
  simp only [decFmtGA, encFmtGA, FmtGA.mk.injEq]
  refine ⟨?_, ?_, ?_, ?_, ?_, ?_⟩ <;>
    repeat (first | exact BitVec.extractLsb'_eq_self | refine (extractLsb'_append_hi _ _ _ _ (by decide)).trans ?_ |
      refine (extractLsb'_append_lo _ _ _ _ (by decide)).trans ?_)

theorem dec_encFmtGH (o : FmtGH) : decFmtGH (encFmtGH o) = o := by
  cases o
  simp only [decFmtGH, encFmtGH, FmtGH.mk.injEq]
  refine ⟨?_, ?_, ?_, ?_, ?_, ?_, ?_, ?_⟩ <;>
    repeat (first | exact BitVec.extractLsb'_eq_self | refine (extractLsb'_append_hi _ _ _ _ (by decide)).trans ?_ |
      refine (extractLsb'_append_lo _ _ _ _ (by decide)).trans ?_)

theorem dec_encFmtEA (o : FmtEA) : decFmtEA (encFmtEA o) = o := by
  cases o
  simp only [decFmtEA, encFmtEA, FmtEA.mk.injEq]
  refine ⟨?_, ?_, ?_, ?_, ?_, ?_⟩ <;>
    repeat (first | exact BitVec.extractLsb'_eq_self | refine (extractLsb'_append_hi _ _ _ _ (by decide)).trans ?_ |
      refine (extractLsb'_append_lo _ _ _ _ (by decide)).trans ?_)

theorem dec_encFmtET (o : FmtET) : decFmtET (encFmtET o) = o := by
  cases o
  simp only [decFmtET, encFmtET, FmtET.mk.injEq]
  refine ⟨?_, ?_, ?_, ?_, ?_, ?_, ?_⟩ <;>
    repeat (first | exact BitVec.extractLsb'_eq_self | refine (extractLsb'_append_hi _ _ _ _ (by decide)).trans ?_ |
      refine (extractLsb'_append_lo _ _ _ _ (by decide)).trans ?_)

theorem dec_encFmtEC (o : FmtEC) : decFmtEC (encFmtEC o) = o := by
  cases o
  simp only [decFmtEC, encFmtEC, FmtEC.mk.injEq]
  refine ⟨?_, ?_, ?_, ?_, ?_, ?_⟩ <;>
    repeat (first | exact BitVec.extractLsb'_eq_self | refine (extractLsb'_append_hi _ _ _ _ (by decide)).trans ?_ |
      refine (extractLsb'_append_lo _ _ _ _ (by decide)).trans ?_)

/-- The bits of the operation code of a bindable opcode (R166). -/
theorem dec_encFmtOB (o : FmtOB) : decFmtOB (3#2 ++ o.opx) o.opd = o :=
  congrArg (fun x => FmtOB.mk x o.opd) ((extractLsb'_append_lo _ _ _ _ (by decide)).trans BitVec.extractLsb'_eq_self)

/-- Every vector opcode from 96 on is bindable (R166). -/
theorem opV_high (opc : BitVec 7) (x : BitVec 40) (h : 96 ≤ opc.toNat) : opV opc x = some (.vbop (decFmtOB opc x)) := by
  unfold opV; split <;> first | omega | exact if_pos h

/-- Every engine opcode from 96 on is bindable (R166). -/
theorem opE_high (opc : BitVec 7) (x : BitVec 40) (l : Lit) (h : 96 ≤ opc.toNat) :
    opE opc x l = some (.ebop (decFmtOB opc x)) := by
  unfold opE; split <;> first | omega | exact if_pos h

/-- The direction bit of a copy's operand bits is the one of its immediate (R253). -/
theorem encFmtEC_dir (o : FmtEC) : (encFmtEC o).extractLsb' 9 1 = o.imm.extractLsb' 9 1 :=
  extractLsb'_append_lo _ _ _ _ (by decide)

/-- The low operand bits of format EA are its immediate (R160). -/
theorem encFmtEA_imm (o : FmtEA) : (encFmtEA o).extractLsb' 0 11 = o.imm :=
  (extractLsb'_append_lo _ _ _ _ (by decide)).trans BitVec.extractLsb'_eq_self

/-- The family of the encodings: the opcode map reads each well-formed instruction back from its opcode, its operand
bits and its literal. -/
def Laws.EncFields.Statement (i : Instr) : Prop :=
  match i.enc with
  | none => True
  | some e => i.wf = true → opInstr e.slot e.opc e.opd (e.lit.getD 0) = some i

namespace Laws.EncFields

theorem add (o : FmtSR) : Statement (.add o) :=
  fun _ => congrArg (fun x => some (Instr.add x)) (dec_encFmtSR o)
theorem sub (o : FmtSR) : Statement (.sub o) :=
  fun _ => congrArg (fun x => some (Instr.sub x)) (dec_encFmtSR o)
theorem andR (o : FmtSR) : Statement (.andR o) :=
  fun _ => congrArg (fun x => some (Instr.andR x)) (dec_encFmtSR o)
theorem orR (o : FmtSR) : Statement (.orR o) :=
  fun _ => congrArg (fun x => some (Instr.orR x)) (dec_encFmtSR o)
theorem xorR (o : FmtSR) : Statement (.xorR o) :=
  fun _ => congrArg (fun x => some (Instr.xorR x)) (dec_encFmtSR o)
theorem andn (o : FmtSR) : Statement (.andn o) :=
  fun _ => congrArg (fun x => some (Instr.andn x)) (dec_encFmtSR o)
theorem orn (o : FmtSR) : Statement (.orn o) :=
  fun _ => congrArg (fun x => some (Instr.orn x)) (dec_encFmtSR o)
theorem xnor (o : FmtSR) : Statement (.xnor o) :=
  fun _ => congrArg (fun x => some (Instr.xnor x)) (dec_encFmtSR o)
theorem sll (o : FmtSR) : Statement (.sll o) :=
  fun _ => congrArg (fun x => some (Instr.sll x)) (dec_encFmtSR o)
theorem srl (o : FmtSR) : Statement (.srl o) :=
  fun _ => congrArg (fun x => some (Instr.srl x)) (dec_encFmtSR o)
theorem sra (o : FmtSR) : Statement (.sra o) :=
  fun _ => congrArg (fun x => some (Instr.sra x)) (dec_encFmtSR o)
theorem rol (o : FmtSR) : Statement (.rol o) :=
  fun _ => congrArg (fun x => some (Instr.rol x)) (dec_encFmtSR o)
theorem ror (o : FmtSR) : Statement (.ror o) :=
  fun _ => congrArg (fun x => some (Instr.ror x)) (dec_encFmtSR o)
theorem slt (o : FmtSR) : Statement (.slt o) :=
  fun _ => congrArg (fun x => some (Instr.slt x)) (dec_encFmtSR o)
theorem sltu (o : FmtSR) : Statement (.sltu o) :=
  fun _ => congrArg (fun x => some (Instr.sltu x)) (dec_encFmtSR o)
theorem seq (o : FmtSR) : Statement (.seq o) :=
  fun _ => congrArg (fun x => some (Instr.seq x)) (dec_encFmtSR o)
theorem sne (o : FmtSR) : Statement (.sne o) :=
  fun _ => congrArg (fun x => some (Instr.sne x)) (dec_encFmtSR o)
theorem min (o : FmtSR) : Statement (.min o) :=
  fun _ => congrArg (fun x => some (Instr.min x)) (dec_encFmtSR o)
theorem max (o : FmtSR) : Statement (.max o) :=
  fun _ => congrArg (fun x => some (Instr.max x)) (dec_encFmtSR o)
theorem minu (o : FmtSR) : Statement (.minu o) :=
  fun _ => congrArg (fun x => some (Instr.minu x)) (dec_encFmtSR o)
theorem maxu (o : FmtSR) : Statement (.maxu o) :=
  fun _ => congrArg (fun x => some (Instr.maxu x)) (dec_encFmtSR o)
theorem sel (o : FmtSR) : Statement (.sel o) :=
  fun _ => congrArg (fun x => some (Instr.sel x)) (dec_encFmtSR o)
theorem mul (o : FmtSR) : Statement (.mul o) :=
  fun _ => congrArg (fun x => some (Instr.mul x)) (dec_encFmtSR o)
theorem mulh (o : FmtSR) : Statement (.mulh o) :=
  fun _ => congrArg (fun x => some (Instr.mulh x)) (dec_encFmtSR o)
theorem mulhu (o : FmtSR) : Statement (.mulhu o) :=
  fun _ => congrArg (fun x => some (Instr.mulhu x)) (dec_encFmtSR o)
theorem divS (o : FmtSR) : Statement (.divS o) :=
  fun _ => congrArg (fun x => some (Instr.divS x)) (dec_encFmtSR o)
theorem divu (o : FmtSR) : Statement (.divu o) :=
  fun _ => congrArg (fun x => some (Instr.divu x)) (dec_encFmtSR o)
theorem remS (o : FmtSR) : Statement (.remS o) :=
  fun _ => congrArg (fun x => some (Instr.remS x)) (dec_encFmtSR o)
theorem remu (o : FmtSR) : Statement (.remu o) :=
  fun _ => congrArg (fun x => some (Instr.remu x)) (dec_encFmtSR o)
theorem addw (o : FmtSR) : Statement (.addw o) :=
  fun _ => congrArg (fun x => some (Instr.addw x)) (dec_encFmtSR o)
theorem subw (o : FmtSR) : Statement (.subw o) :=
  fun _ => congrArg (fun x => some (Instr.subw x)) (dec_encFmtSR o)
theorem mulw (o : FmtSR) : Statement (.mulw o) :=
  fun _ => congrArg (fun x => some (Instr.mulw x)) (dec_encFmtSR o)
theorem clz (o : FmtSR) : Statement (.clz o) :=
  fun _ => congrArg (fun x => some (Instr.clz x)) (dec_encFmtSR o)
theorem ctz (o : FmtSR) : Statement (.ctz o) :=
  fun _ => congrArg (fun x => some (Instr.ctz x)) (dec_encFmtSR o)
theorem popc (o : FmtSR) : Statement (.popc o) :=
  fun _ => congrArg (fun x => some (Instr.popc x)) (dec_encFmtSR o)
theorem brev (o : FmtSR) : Statement (.brev o) :=
  fun _ => congrArg (fun x => some (Instr.brev x)) (dec_encFmtSR o)
theorem bswap (o : FmtSR) : Statement (.bswap o) :=
  fun _ => congrArg (fun x => some (Instr.bswap x)) (dec_encFmtSR o)
theorem absR (o : FmtSR) : Statement (.absR o) :=
  fun _ => congrArg (fun x => some (Instr.absR x)) (dec_encFmtSR o)
theorem ext (o : FmtSF) : Statement (.ext o) :=
  fun _ => congrArg (fun x => some (Instr.ext x)) (dec_encFmtSF o)
theorem extu (o : FmtSF) : Statement (.extu o) :=
  fun _ => congrArg (fun x => some (Instr.extu x)) (dec_encFmtSF o)
theorem ins (o : FmtSF) : Statement (.ins o) :=
  fun _ => congrArg (fun x => some (Instr.ins x)) (dec_encFmtSF o)
theorem addi (o : FmtSI) : Statement (.addi o) :=
  fun _ => congrArg (fun x => some (Instr.addi x)) (dec_encFmtSI o)
theorem andi (o : FmtSI) : Statement (.andi o) :=
  fun _ => congrArg (fun x => some (Instr.andi x)) (dec_encFmtSI o)
theorem ori (o : FmtSI) : Statement (.ori o) :=
  fun _ => congrArg (fun x => some (Instr.ori x)) (dec_encFmtSI o)
theorem xori (o : FmtSI) : Statement (.xori o) :=
  fun _ => congrArg (fun x => some (Instr.xori x)) (dec_encFmtSI o)
theorem slli (o : FmtSI) : Statement (.slli o) :=
  fun _ => congrArg (fun x => some (Instr.slli x)) (dec_encFmtSI o)
theorem srli (o : FmtSI) : Statement (.srli o) :=
  fun _ => congrArg (fun x => some (Instr.srli x)) (dec_encFmtSI o)
theorem srai (o : FmtSI) : Statement (.srai o) :=
  fun _ => congrArg (fun x => some (Instr.srai x)) (dec_encFmtSI o)
theorem slti (o : FmtSI) : Statement (.slti o) :=
  fun _ => congrArg (fun x => some (Instr.slti x)) (dec_encFmtSI o)
theorem sltui (o : FmtSI) : Statement (.sltui o) :=
  fun _ => congrArg (fun x => some (Instr.sltui x)) (dec_encFmtSI o)
theorem addpc (o : FmtSI) : Statement (.addpc o) :=
  fun _ => congrArg (fun x => some (Instr.addpc x)) (dec_encFmtSI o)
theorem li (o : FmtSW) : Statement (.li o) :=
  fun _ => congrArg (fun x => some (Instr.li x)) (dec_encFmtSW o)
theorem lih (o : FmtSW) : Statement (.lih o) :=
  fun _ => congrArg (fun x => some (Instr.lih x)) (dec_encFmtSW o)
theorem beq (o : FmtBC) : Statement (.beq o) :=
  fun _ => congrArg (fun x => some (Instr.beq x)) (dec_encFmtBC o)
theorem bne (o : FmtBC) : Statement (.bne o) :=
  fun _ => congrArg (fun x => some (Instr.bne x)) (dec_encFmtBC o)
theorem blt (o : FmtBC) : Statement (.blt o) :=
  fun _ => congrArg (fun x => some (Instr.blt x)) (dec_encFmtBC o)
theorem bge (o : FmtBC) : Statement (.bge o) :=
  fun _ => congrArg (fun x => some (Instr.bge x)) (dec_encFmtBC o)
theorem bltu (o : FmtBC) : Statement (.bltu o) :=
  fun _ => congrArg (fun x => some (Instr.bltu x)) (dec_encFmtBC o)
theorem bgeu (o : FmtBC) : Statement (.bgeu o) :=
  fun _ => congrArg (fun x => some (Instr.bgeu x)) (dec_encFmtBC o)
theorem beqi (o : FmtBK) : Statement (.beqi o) :=
  fun _ => congrArg (fun x => some (Instr.beqi x)) (dec_encFmtBK o)
theorem bnei (o : FmtBK) : Statement (.bnei o) :=
  fun _ => congrArg (fun x => some (Instr.bnei x)) (dec_encFmtBK o)
theorem blti (o : FmtBK) : Statement (.blti o) :=
  fun _ => congrArg (fun x => some (Instr.blti x)) (dec_encFmtBK o)
theorem bgei (o : FmtBK) : Statement (.bgei o) :=
  fun _ => congrArg (fun x => some (Instr.bgei x)) (dec_encFmtBK o)
theorem btR (o : FmtBT) : Statement (.btR o) :=
  fun _ => congrArg (fun x => some (Instr.btR x)) (dec_encFmtBT o)
theorem bsw (o : FmtBT) : Statement (.bsw o) :=
  fun _ => congrArg (fun x => some (Instr.bsw x)) (dec_encFmtBT o)
theorem bdnz (o : FmtBC) : Statement (.bdnz o) :=
  fun _ => congrArg (fun x => some (Instr.bdnz x)) (dec_encFmtBC o)
theorem jl (o : FmtBL) : Statement (.jl o) :=
  fun _ => congrArg (fun x => some (Instr.jl x)) (dec_encFmtBL o)
theorem jlx (o : FmtBL) : Statement (.jlx o) :=
  fun _ => congrArg (fun x => some (Instr.jlx x)) (dec_encFmtBL o)
theorem ldB (o : FmtLH) : Statement (.ldB o) :=
  fun _ => congrArg (fun x => some (Instr.ldB x)) (dec_encFmtLH o)
theorem ldBu (o : FmtLH) : Statement (.ldBu o) :=
  fun _ => congrArg (fun x => some (Instr.ldBu x)) (dec_encFmtLH o)
theorem ldH (o : FmtLH) : Statement (.ldH o) :=
  fun _ => congrArg (fun x => some (Instr.ldH x)) (dec_encFmtLH o)
theorem ldHu (o : FmtLH) : Statement (.ldHu o) :=
  fun _ => congrArg (fun x => some (Instr.ldHu x)) (dec_encFmtLH o)
theorem ldW (o : FmtLH) : Statement (.ldW o) :=
  fun _ => congrArg (fun x => some (Instr.ldW x)) (dec_encFmtLH o)
theorem ldWu (o : FmtLH) : Statement (.ldWu o) :=
  fun _ => congrArg (fun x => some (Instr.ldWu x)) (dec_encFmtLH o)
theorem ldD (o : FmtLH) : Statement (.ldD o) :=
  fun _ => congrArg (fun x => some (Instr.ldD x)) (dec_encFmtLH o)
theorem stB (o : FmtLH) : Statement (.stB o) :=
  fun _ => congrArg (fun x => some (Instr.stB x)) (dec_encFmtLH o)
theorem stH (o : FmtLH) : Statement (.stH o) :=
  fun _ => congrArg (fun x => some (Instr.stH x)) (dec_encFmtLH o)
theorem stW (o : FmtLH) : Statement (.stW o) :=
  fun _ => congrArg (fun x => some (Instr.stW x)) (dec_encFmtLH o)
theorem stD (o : FmtLH) : Statement (.stD o) :=
  fun _ => congrArg (fun x => some (Instr.stD x)) (dec_encFmtLH o)
theorem ldsB (o : FmtLS) : Statement (.ldsB o) :=
  fun _ => congrArg (fun x => some (Instr.ldsB x)) (dec_encFmtLS o)
theorem ldsBu (o : FmtLS) : Statement (.ldsBu o) :=
  fun _ => congrArg (fun x => some (Instr.ldsBu x)) (dec_encFmtLS o)
theorem ldsH (o : FmtLS) : Statement (.ldsH o) :=
  fun _ => congrArg (fun x => some (Instr.ldsH x)) (dec_encFmtLS o)
theorem ldsHu (o : FmtLS) : Statement (.ldsHu o) :=
  fun _ => congrArg (fun x => some (Instr.ldsHu x)) (dec_encFmtLS o)
theorem ldsW (o : FmtLS) : Statement (.ldsW o) :=
  fun _ => congrArg (fun x => some (Instr.ldsW x)) (dec_encFmtLS o)
theorem ldsWu (o : FmtLS) : Statement (.ldsWu o) :=
  fun _ => congrArg (fun x => some (Instr.ldsWu x)) (dec_encFmtLS o)
theorem ldsD (o : FmtLS) : Statement (.ldsD o) :=
  fun _ => congrArg (fun x => some (Instr.ldsD x)) (dec_encFmtLS o)
theorem stsB (o : FmtLS) : Statement (.stsB o) :=
  fun _ => congrArg (fun x => some (Instr.stsB x)) (dec_encFmtLS o)
theorem stsH (o : FmtLS) : Statement (.stsH o) :=
  fun _ => congrArg (fun x => some (Instr.stsH x)) (dec_encFmtLS o)
theorem stsW (o : FmtLS) : Statement (.stsW o) :=
  fun _ => congrArg (fun x => some (Instr.stsW x)) (dec_encFmtLS o)
theorem stsD (o : FmtLS) : Statement (.stsD o) :=
  fun _ => congrArg (fun x => some (Instr.stsD x)) (dec_encFmtLS o)
theorem aadd (o : FmtLA) : Statement (.aadd o) :=
  fun _ => congrArg (fun x => some (Instr.aadd x)) (dec_encFmtLA o)
theorem amin (o : FmtLA) : Statement (.amin o) :=
  fun _ => congrArg (fun x => some (Instr.amin x)) (dec_encFmtLA o)
theorem amax (o : FmtLA) : Statement (.amax o) :=
  fun _ => congrArg (fun x => some (Instr.amax x)) (dec_encFmtLA o)
theorem aminu (o : FmtLA) : Statement (.aminu o) :=
  fun _ => congrArg (fun x => some (Instr.aminu x)) (dec_encFmtLA o)
theorem amaxu (o : FmtLA) : Statement (.amaxu o) :=
  fun _ => congrArg (fun x => some (Instr.amaxu x)) (dec_encFmtLA o)
theorem aand (o : FmtLA) : Statement (.aand o) :=
  fun _ => congrArg (fun x => some (Instr.aand x)) (dec_encFmtLA o)
theorem aor (o : FmtLA) : Statement (.aor o) :=
  fun _ => congrArg (fun x => some (Instr.aor x)) (dec_encFmtLA o)
theorem axor (o : FmtLA) : Statement (.axor o) :=
  fun _ => congrArg (fun x => some (Instr.axor x)) (dec_encFmtLA o)
theorem aswp (o : FmtLA) : Statement (.aswp o) :=
  fun _ => congrArg (fun x => some (Instr.aswp x)) (dec_encFmtLA o)
theorem acas (o : FmtLA) : Statement (.acas o) :=
  fun _ => congrArg (fun x => some (Instr.acas x)) (dec_encFmtLA o)
theorem afadd (o : FmtLA) : Statement (.afadd o) :=
  fun _ => congrArg (fun x => some (Instr.afadd x)) (dec_encFmtLA o)
theorem abadd (o : FmtLA) : Statement (.abadd o) :=
  fun _ => congrArg (fun x => some (Instr.abadd x)) (dec_encFmtLA o)
theorem xlate (o : FmtLX) : Statement (.xlate o) :=
  fun _ => congrArg (fun x => some (Instr.xlate x)) (dec_encFmtLX o)
theorem handleWalkComplete : ∀ a, Statement (.handleWalkComplete a) := fun _ => trivial
theorem hrel (o : FmtLX) : Statement (.hrel o) :=
  fun _ => congrArg (fun x => some (Instr.hrel x)) (dec_encFmtLX o)
theorem ldpW (o : FmtLP) : Statement (.ldpW o) :=
  fun _ => congrArg (fun x => some (Instr.ldpW x)) (dec_encFmtLP o)
theorem ldpD (o : FmtLP) : Statement (.ldpD o) :=
  fun _ => congrArg (fun x => some (Instr.ldpD x)) (dec_encFmtLP o)
theorem xget (o : FmtXF) : Statement (.xget o) :=
  fun _ => congrArg (fun x => some (Instr.xget x)) (dec_encFmtXF o)
theorem xgetd (o : FmtXF) : Statement (.xgetd o) :=
  fun _ => congrArg (fun x => some (Instr.xgetd x)) (dec_encFmtXF o)
theorem xput (o : FmtXF) : Statement (.xput o) :=
  fun _ => congrArg (fun x => some (Instr.xput x)) (dec_encFmtXF o)
theorem xputd (o : FmtXF) : Statement (.xputd o) :=
  fun _ => congrArg (fun x => some (Instr.xputd x)) (dec_encFmtXF o)
theorem xbcst (o : FmtXF) : Statement (.xbcst o) :=
  fun _ => congrArg (fun x => some (Instr.xbcst x)) (dec_encFmtXF o)
theorem xxch (o : FmtXF) : Statement (.xxch o) :=
  fun _ => congrArg (fun x => some (Instr.xxch x)) (dec_encFmtXF o)
theorem vadd (o : FmtV3) : Statement (.vadd o) :=
  fun _ => congrArg (fun x => some (Instr.vadd x)) (dec_encFmtV3 o)
theorem vsub (o : FmtV3) : Statement (.vsub o) :=
  fun _ => congrArg (fun x => some (Instr.vsub x)) (dec_encFmtV3 o)
theorem vmul (o : FmtV3) : Statement (.vmul o) :=
  fun _ => congrArg (fun x => some (Instr.vmul x)) (dec_encFmtV3 o)
theorem vfma (o : FmtV3) : Statement (.vfma o) :=
  fun _ => congrArg (fun x => some (Instr.vfma x)) (dec_encFmtV3 o)
theorem vfms (o : FmtV3) : Statement (.vfms o) :=
  fun _ => congrArg (fun x => some (Instr.vfms x)) (dec_encFmtV3 o)
theorem vfnma (o : FmtV3) : Statement (.vfnma o) :=
  fun _ => congrArg (fun x => some (Instr.vfnma x)) (dec_encFmtV3 o)
theorem vdiv (o : FmtV3) : Statement (.vdiv o) :=
  fun _ => congrArg (fun x => some (Instr.vdiv x)) (dec_encFmtV3 o)
theorem vsqrt (o : FmtV3) : Statement (.vsqrt o) :=
  fun _ => congrArg (fun x => some (Instr.vsqrt x)) (dec_encFmtV3 o)
theorem vmin (o : FmtV3) : Statement (.vmin o) :=
  fun _ => congrArg (fun x => some (Instr.vmin x)) (dec_encFmtV3 o)
theorem vmax (o : FmtV3) : Statement (.vmax o) :=
  fun _ => congrArg (fun x => some (Instr.vmax x)) (dec_encFmtV3 o)
theorem vabs (o : FmtV3) : Statement (.vabs o) :=
  fun _ => congrArg (fun x => some (Instr.vabs x)) (dec_encFmtV3 o)
theorem vneg (o : FmtV3) : Statement (.vneg o) :=
  fun _ => congrArg (fun x => some (Instr.vneg x)) (dec_encFmtV3 o)
theorem vceq (o : FmtV3) : Statement (.vceq o) :=
  fun _ => congrArg (fun x => some (Instr.vceq x)) (dec_encFmtV3 o)
theorem vclt (o : FmtV3) : Statement (.vclt o) :=
  fun _ => congrArg (fun x => some (Instr.vclt x)) (dec_encFmtV3 o)
theorem vcle (o : FmtV3) : Statement (.vcle o) :=
  fun _ => congrArg (fun x => some (Instr.vcle x)) (dec_encFmtV3 o)
theorem vcun (o : FmtV3) : Statement (.vcun o) :=
  fun _ => congrArg (fun x => some (Instr.vcun x)) (dec_encFmtV3 o)
theorem viadd (o : FmtV3) : Statement (.viadd o) :=
  fun _ => congrArg (fun x => some (Instr.viadd x)) (dec_encFmtV3 o)
theorem visub (o : FmtV3) : Statement (.visub o) :=
  fun _ => congrArg (fun x => some (Instr.visub x)) (dec_encFmtV3 o)
theorem vimul (o : FmtV3) : Statement (.vimul o) :=
  fun _ => congrArg (fun x => some (Instr.vimul x)) (dec_encFmtV3 o)
theorem vimulh (o : FmtV3) : Statement (.vimulh o) :=
  fun _ => congrArg (fun x => some (Instr.vimulh x)) (dec_encFmtV3 o)
theorem vimin (o : FmtV3) : Statement (.vimin o) :=
  fun _ => congrArg (fun x => some (Instr.vimin x)) (dec_encFmtV3 o)
theorem vimax (o : FmtV3) : Statement (.vimax o) :=
  fun _ => congrArg (fun x => some (Instr.vimax x)) (dec_encFmtV3 o)
theorem viabs (o : FmtV3) : Statement (.viabs o) :=
  fun _ => congrArg (fun x => some (Instr.viabs x)) (dec_encFmtV3 o)
theorem vshl (o : FmtV3) : Statement (.vshl o) :=
  fun _ => congrArg (fun x => some (Instr.vshl x)) (dec_encFmtV3 o)
theorem vshr (o : FmtV3) : Statement (.vshr o) :=
  fun _ => congrArg (fun x => some (Instr.vshr x)) (dec_encFmtV3 o)
theorem viceq (o : FmtV3) : Statement (.viceq o) :=
  fun _ => congrArg (fun x => some (Instr.viceq x)) (dec_encFmtV3 o)
theorem viclt (o : FmtV3) : Statement (.viclt o) :=
  fun _ => congrArg (fun x => some (Instr.viclt x)) (dec_encFmtV3 o)
theorem vicle (o : FmtV3) : Statement (.vicle o) :=
  fun _ => congrArg (fun x => some (Instr.vicle x)) (dec_encFmtV3 o)
theorem vand (o : FmtV3) : Statement (.vand o) :=
  fun _ => congrArg (fun x => some (Instr.vand x)) (dec_encFmtV3 o)
theorem vor (o : FmtV3) : Statement (.vor o) :=
  fun _ => congrArg (fun x => some (Instr.vor x)) (dec_encFmtV3 o)
theorem vxor (o : FmtV3) : Statement (.vxor o) :=
  fun _ => congrArg (fun x => some (Instr.vxor x)) (dec_encFmtV3 o)
theorem vandn (o : FmtV3) : Statement (.vandn o) :=
  fun _ => congrArg (fun x => some (Instr.vandn x)) (dec_encFmtV3 o)
theorem vsel (o : FmtV3) : Statement (.vsel o) :=
  fun _ => congrArg (fun x => some (Instr.vsel x)) (dec_encFmtV3 o)
theorem vmov (o : FmtV3) : Statement (.vmov o) :=
  fun _ => congrArg (fun x => some (Instr.vmov x)) (dec_encFmtV3 o)
theorem vperm (o : FmtV3) : Statement (.vperm o) :=
  fun _ => congrArg (fun x => some (Instr.vperm x)) (dec_encFmtV3 o)
theorem vrot (o : FmtVU) : Statement (.vrot o) :=
  fun _ => congrArg (fun x => some (Instr.vrot x)) (dec_encFmtVU o)
theorem vbcst (o : FmtVU) : Statement (.vbcst o) :=
  fun _ => congrArg (fun x => some (Instr.vbcst x)) (dec_encFmtVU o)
theorem vcvtF32 (o : FmtVU) : Statement (.vcvtF32 o) :=
  fun _ => congrArg (fun x => some (Instr.vcvtF32 x)) (dec_encFmtVU o)
theorem vcvtBf16 (o : FmtVU) : Statement (.vcvtBf16 o) :=
  fun _ => congrArg (fun x => some (Instr.vcvtBf16 x)) (dec_encFmtVU o)
theorem vcvtFp16 (o : FmtVU) : Statement (.vcvtFp16 o) :=
  fun _ => congrArg (fun x => some (Instr.vcvtFp16 x)) (dec_encFmtVU o)
theorem vcvtE4m3 (o : FmtVU) : Statement (.vcvtE4m3 o) :=
  fun _ => congrArg (fun x => some (Instr.vcvtE4m3 x)) (dec_encFmtVU o)
theorem vcvtE5m2 (o : FmtVU) : Statement (.vcvtE5m2 o) :=
  fun _ => congrArg (fun x => some (Instr.vcvtE5m2 x)) (dec_encFmtVU o)
theorem vcvtE2m1 (o : FmtVU) : Statement (.vcvtE2m1 o) :=
  fun _ => congrArg (fun x => some (Instr.vcvtE2m1 x)) (dec_encFmtVU o)
theorem vcvtVq2 (o : FmtVU) : Statement (.vcvtVq2 o) :=
  fun _ => congrArg (fun x => some (Instr.vcvtVq2 x)) (dec_encFmtVU o)
theorem vcvtI32 (o : FmtVU) : Statement (.vcvtI32 o) :=
  fun _ => congrArg (fun x => some (Instr.vcvtI32 x)) (dec_encFmtVU o)
theorem vcvtI16 (o : FmtVU) : Statement (.vcvtI16 o) :=
  fun _ => congrArg (fun x => some (Instr.vcvtI16 x)) (dec_encFmtVU o)
theorem vcvtI8 (o : FmtVU) : Statement (.vcvtI8 o) :=
  fun _ => congrArg (fun x => some (Instr.vcvtI8 x)) (dec_encFmtVU o)
theorem vcvtI4 (o : FmtVU) : Statement (.vcvtI4 o) :=
  fun _ => congrArg (fun x => some (Instr.vcvtI4 x)) (dec_encFmtVU o)
theorem vcvtN32 (o : FmtVU) : Statement (.vcvtN32 o) :=
  fun _ => congrArg (fun x => some (Instr.vcvtN32 x)) (dec_encFmtVU o)
theorem vcvtN16 (o : FmtVU) : Statement (.vcvtN16 o) :=
  fun _ => congrArg (fun x => some (Instr.vcvtN16 x)) (dec_encFmtVU o)
theorem vcvtN8 (o : FmtVU) : Statement (.vcvtN8 o) :=
  fun _ => congrArg (fun x => some (Instr.vcvtN8 x)) (dec_encFmtVU o)
theorem vrsum (o : FmtVU) : Statement (.vrsum o) :=
  fun _ => congrArg (fun x => some (Instr.vrsum x)) (dec_encFmtVU o)
theorem vrmin (o : FmtVU) : Statement (.vrmin o) :=
  fun _ => congrArg (fun x => some (Instr.vrmin x)) (dec_encFmtVU o)
theorem vrmax (o : FmtVU) : Statement (.vrmax o) :=
  fun _ => congrArg (fun x => some (Instr.vrmax x)) (dec_encFmtVU o)
theorem vrisum (o : FmtVU) : Statement (.vrisum o) :=
  fun _ => congrArg (fun x => some (Instr.vrisum x)) (dec_encFmtVU o)
theorem vscan (o : FmtVU) : Statement (.vscan o) :=
  fun _ => congrArg (fun x => some (Instr.vscan x)) (dec_encFmtVU o)
theorem viscan (o : FmtVU) : Statement (.viscan o) :=
  fun _ => congrArg (fun x => some (Instr.viscan x)) (dec_encFmtVU o)
theorem vnzs (o : FmtVU) : Statement (.vnzs o) :=
  fun _ => congrArg (fun x => some (Instr.vnzs x)) (dec_encFmtVU o)
theorem vnzc (o : FmtVU) : Statement (.vnzc o) :=
  fun _ => congrArg (fun x => some (Instr.vnzc x)) (dec_encFmtVU o)
theorem vbop (o : FmtOB) : Statement (.vbop o) := fun _ => by
  have h : ∀ x : BitVec 5, 96 ≤ (3#2 ++ x).toNat := by decide
  show opV (3#2 ++ o.opx) o.opd = _
  rw [opV_high _ _ (h _), dec_encFmtOB]
theorem vld (o : FmtGS) : Statement (.vld o) :=
  fun _ => congrArg (fun x => some (Instr.vld x)) (dec_encFmtGS o)
theorem vst (o : FmtGS) : Statement (.vst o) :=
  fun _ => congrArg (fun x => some (Instr.vst x)) (dec_encFmtGS o)
theorem vgath (o : FmtGS) : Statement (.vgath o) :=
  fun _ => congrArg (fun x => some (Instr.vgath x)) (dec_encFmtGS o)
theorem vscat (o : FmtGS) : Statement (.vscat o) :=
  fun _ => congrArg (fun x => some (Instr.vscat x)) (dec_encFmtGS o)
theorem vlda (o : FmtGA) : Statement (.vlda o) :=
  fun _ => congrArg (fun x => some (Instr.vlda x)) (dec_encFmtGA o)
theorem vsta (o : FmtGA) : Statement (.vsta o) :=
  fun _ => congrArg (fun x => some (Instr.vsta x)) (dec_encFmtGA o)
theorem vldc (o : FmtGA) : Statement (.vldc o) :=
  fun _ => congrArg (fun x => some (Instr.vldc x)) (dec_encFmtGA o)
theorem vldh (o : FmtGH) : Statement (.vldh o) :=
  fun _ => congrArg (fun x => some (Instr.vldh x)) (dec_encFmtGH o)
theorem vsth (o : FmtGH) : Statement (.vsth o) :=
  fun _ => congrArg (fun x => some (Instr.vsth x)) (dec_encFmtGH o)
theorem vgathh (o : FmtGH) : Statement (.vgathh o) :=
  fun _ => congrArg (fun x => some (Instr.vgathh x)) (dec_encFmtGH o)
theorem vscath (o : FmtGH) : Statement (.vscath o) :=
  fun _ => congrArg (fun x => some (Instr.vscath x)) (dec_encFmtGH o)
theorem vldhPm4 (o : FmtGH) : Statement (.vldhPm4 o) :=
  fun _ => congrArg (fun x => some (Instr.vldhPm4 x)) (dec_encFmtGH o)
theorem vsthPm4 (o : FmtGH) : Statement (.vsthPm4 o) :=
  fun _ => congrArg (fun x => some (Instr.vsthPm4 x)) (dec_encFmtGH o)
theorem vgathhPm4 (o : FmtGH) : Statement (.vgathhPm4 o) :=
  fun _ => congrArg (fun x => some (Instr.vgathhPm4 x)) (dec_encFmtGH o)
theorem vscathPm4 (o : FmtGH) : Statement (.vscathPm4 o) :=
  fun _ => congrArg (fun x => some (Instr.vscathPm4 x)) (dec_encFmtGH o)
theorem resultLanding : ∀ a, Statement (.resultLanding a) := fun _ => trivial
theorem ldCompletion : ∀ a b c, Statement (.ldCompletion a b c) := fun _ _ _ => trivial
theorem stCompletion : ∀ a b, Statement (.stCompletion a b) := fun _ _ => trivial
theorem talloc (o : FmtET) : Statement (.talloc o) :=
  fun _ => congrArg (fun x => some (Instr.talloc x)) (dec_encFmtET o)
theorem tfree (o : FmtET) : Statement (.tfree o) :=
  fun _ => congrArg (fun x => some (Instr.tfree x)) (dec_encFmtET o)
theorem tzero (o : FmtET) : Statement (.tzero o) :=
  fun _ => congrArg (fun x => some (Instr.tzero x)) (dec_encFmtET o)
theorem tstat (o : FmtET) : Statement (.tstat o) :=
  fun _ => congrArg (fun x => some (Instr.tstat x)) (dec_encFmtET o)
theorem twait (o : FmtET) : Statement (.twait o) :=
  fun _ => congrArg (fun x => some (Instr.twait x)) (dec_encFmtET o)
theorem mlatch (o : FmtET) : Statement (.mlatch o) :=
  fun _ => congrArg (fun x => some (Instr.mlatch x)) (dec_encFmtET o)
theorem mma (o : FmtET) : Statement (.mma o) :=
  fun _ => congrArg (fun x => some (Instr.mma x)) (dec_encFmtET o)
theorem mmas (o : FmtET) : Statement (.mmas o) :=
  fun _ => congrArg (fun x => some (Instr.mmas x)) (dec_encFmtET o)
theorem mmaX (o : FmtETL) : Statement (.mmaX o) :=
  fun _ => congrArg (fun x => some (Instr.mmaX ⟨x, o.lit⟩)) (dec_encFmtET o.o)
theorem mmasX (o : FmtETL) : Statement (.mmasX o) :=
  fun _ => congrArg (fun x => some (Instr.mmasX ⟨x, o.lit⟩)) (dec_encFmtET o.o)
theorem matrixOperationStart : ∀ a, Statement (.matrixOperationStart a) := fun _ => trivial
theorem streamFault : ∀ a, Statement (.streamFault a) := fun _ => trivial
theorem trowp (o : FmtET) : Statement (.trowp o) :=
  fun _ => congrArg (fun x => some (Instr.trowp x)) (dec_encFmtET o)
theorem tcvt (o : FmtET) : Statement (.tcvt o) :=
  fun _ => congrArg (fun x => some (Instr.tcvt x)) (dec_encFmtET o)
theorem tmov (o : FmtET) : Statement (.tmov o) :=
  fun _ => congrArg (fun x => some (Instr.tmov x)) (dec_encFmtET o)
theorem txpose (o : FmtET) : Statement (.txpose o) :=
  fun _ => congrArg (fun x => some (Instr.txpose x)) (dec_encFmtET o)
theorem tdrain (o : FmtECL) : Statement (.tdrain o) :=
  fun _ => congrArg (fun x => some (Instr.tdrain ⟨x, o.lit⟩)) (dec_encFmtEC o.o)
theorem tdraink (o : FmtECL) : Statement (.tdraink o) :=
  fun _ => congrArg (fun x => some (Instr.tdraink ⟨x, o.lit⟩)) (dec_encFmtEC o.o)
theorem tileCommandCompletion : ∀ a, Statement (.tileCommandCompletion a) := fun _ => trivial
theorem cpy (o : FmtECL) : Statement (.cpy o) :=
  fun _ => congrArg (fun x => some (Instr.cpy ⟨x, o.lit⟩)) (dec_encFmtEC o.o)
theorem cpym (o : FmtECL) : Statement (.cpym o) :=
  fun _ => congrArg (fun x => some (Instr.cpym ⟨x, o.lit⟩)) (dec_encFmtEC o.o)
theorem cpyi (o : FmtECL) : Statement (.cpyi o) :=
  fun _ => congrArg (fun x => some (Instr.cpyi ⟨x, o.lit⟩)) (dec_encFmtEC o.o)
theorem cpysTo (o : FmtECL) : Statement (.cpysTo o) := fun w => by
  have w : Machine.limCPYS 0 o = true := w
  have h : (encFmtEC o.o).extractLsb' 9 1 = 0 := by
    rw [encFmtEC_dir]; simp only [Machine.limCPYS, Bool.and_eq_true, decide_eq_true_eq] at w; simp [w]
  show (if (encFmtEC o.o).extractLsb' 9 1 = 0 then some (Instr.cpysTo ⟨_, o.lit⟩) else _) = _
  rw [if_pos h, dec_encFmtEC]
theorem cpysFrom (o : FmtECL) : Statement (.cpysFrom o) := fun w => by
  have w : Machine.limCPYS 1 o = true := w
  have h : ¬ (encFmtEC o.o).extractLsb' 9 1 = 0 := by
    rw [encFmtEC_dir]; simp only [Machine.limCPYS, Bool.and_eq_true, decide_eq_true_eq] at w; simp [w]
  show (if (encFmtEC o.o).extractLsb' 9 1 = 0 then _ else some (Instr.cpysFrom ⟨_, o.lit⟩)) = _
  rw [if_neg h, dec_encFmtEC]
theorem cpyf (o : FmtECL) : Statement (.cpyf o) :=
  fun _ => congrArg (fun x => some (Instr.cpyf ⟨x, o.lit⟩)) (dec_encFmtEC o.o)
theorem cpyg (o : FmtECL) : Statement (.cpyg o) :=
  fun _ => congrArg (fun x => some (Instr.cpyg ⟨x, o.lit⟩)) (dec_encFmtEC o.o)
theorem cpysc (o : FmtECL) : Statement (.cpysc o) :=
  fun _ => congrArg (fun x => some (Instr.cpysc ⟨x, o.lit⟩)) (dec_encFmtEC o.o)
theorem cpyq (o : FmtEA) : Statement (.cpyq o) :=
  fun _ => congrArg (fun x => some (Instr.cpyq x)) (dec_encFmtEA o)
theorem sqgo (o : FmtEA) : Statement (.sqgo o) :=
  fun _ => congrArg (fun x => some (Instr.sqgo x)) (dec_encFmtEA o)
theorem sqwait (o : FmtEA) : Statement (.sqwait o) :=
  fun _ => congrArg (fun x => some (Instr.sqwait x)) (dec_encFmtEA o)
theorem sqwaitPoll : ∀ a, Statement (.sqwaitPoll a) := fun _ => trivial
theorem sqkill (o : FmtEA) : Statement (.sqkill o) :=
  fun _ => congrArg (fun x => some (Instr.sqkill x)) (dec_encFmtEA o)
theorem sqstat (o : FmtEA) : Statement (.sqstat o) :=
  fun _ => congrArg (fun x => some (Instr.sqstat x)) (dec_encFmtEA o)
theorem commandStart : ∀ a b, Statement (.commandStart a b) := fun _ _ => trivial
theorem copyCommandCompletion : ∀ a, Statement (.copyCommandCompletion a) := fun _ => trivial
theorem engineTranslationFault : ∀ a, Statement (.engineTranslationFault a) := fun _ => trivial
theorem sfpool (o : FmtECL) : Statement (.sfpool o) :=
  fun _ => congrArg (fun x => some (Instr.sfpool ⟨x, o.lit⟩)) (dec_encFmtEC o.o)
theorem poolingCompletion : ∀ a, Statement (.poolingCompletion a) := fun _ => trivial
theorem sfplan (o : FmtEA) : Statement (.sfplan o) :=
  fun _ => congrArg (fun x => some (Instr.sfplan x)) (dec_encFmtEA o)
theorem hotSegmentLoad : ∀ a b, Statement (.hotSegmentLoad a b) := fun _ _ => trivial
theorem sfstat (o : FmtEA) : Statement (.sfstat o) :=
  fun _ => congrArg (fun x => some (Instr.sfstat x)) (dec_encFmtEA o)
theorem acq (o : FmtEA) : Statement (.acq o) :=
  fun _ => congrArg (fun x => some (Instr.acq x)) (dec_encFmtEA o)
theorem rel (o : FmtEA) : Statement (.rel o) :=
  fun _ => congrArg (fun x => some (Instr.rel x)) (dec_encFmtEA o)
theorem fence (o : FmtEA) : Statement (.fence o) :=
  fun _ => congrArg (fun x => some (Instr.fence x)) (dec_encFmtEA o)
theorem bar (o : FmtEA) : Statement (.bar o) :=
  fun _ => congrArg (fun x => some (Instr.bar x)) (dec_encFmtEA o)
theorem bara (o : FmtEA) : Statement (.bara o) :=
  fun _ => congrArg (fun x => some (Instr.bara x)) (dec_encFmtEA o)
theorem barw (o : FmtEA) : Statement (.barw o) :=
  fun _ => congrArg (fun x => some (Instr.barw x)) (dec_encFmtEA o)
theorem frd (o : FmtEA) : Statement (.frd o) :=
  fun _ => congrArg (fun x => some (Instr.frd x)) (dec_encFmtEA o)
theorem ffill (o : FmtEA) : Statement (.ffill o) :=
  fun _ => congrArg (fun x => some (Instr.ffill x)) (dec_encFmtEA o)
theorem pwr (o : FmtEA) : Statement (.pwr o) :=
  fun _ => congrArg (fun x => some (Instr.pwr x)) (dec_encFmtEA o)
theorem prd (o : FmtEA) : Statement (.prd o) :=
  fun _ => congrArg (fun x => some (Instr.prd x)) (dec_encFmtEA o)
theorem wait (o : FmtEA) : Statement (.wait o) :=
  fun _ => congrArg (fun x => some (Instr.wait x)) (dec_encFmtEA o)
theorem yield (o : FmtEA) : Statement (.yield o) :=
  fun _ => congrArg (fun x => some (Instr.yield x)) (dec_encFmtEA o)
theorem endR (o : FmtEA) : Statement (.endR o) :=
  fun _ => congrArg (fun x => some (Instr.endR x)) (dec_encFmtEA o)
theorem strandRetirement : ∀ a, Statement (.strandRetirement a) := fun _ => trivial
theorem batchCompletion : ∀ a, Statement (.batchCompletion a) := fun _ => trivial
theorem launch (o : FmtEA) : Statement (.launch o) :=
  fun _ => congrArg (fun x => some (Instr.launch x)) (dec_encFmtEA o)
theorem trap (o : FmtEA) : Statement (.trap o) :=
  fun _ => congrArg (fun x => some (Instr.trap x)) (dec_encFmtEA o)
theorem rett (o : FmtEA) : Statement (.rett o) :=
  fun _ => congrArg (fun x => some (Instr.rett x)) (dec_encFmtEA o)
theorem mfsr (o : FmtEA) : Statement (.mfsr o) :=
  fun _ => congrArg (fun x => some (Instr.mfsr x)) (dec_encFmtEA o)
theorem mtsr (o : FmtEA) : Statement (.mtsr o) :=
  fun _ => congrArg (fun x => some (Instr.mtsr x)) (dec_encFmtEA o)
theorem ifence (o : FmtEA) : Statement (.ifence o) :=
  fun _ => congrArg (fun x => some (Instr.ifence x)) (dec_encFmtEA o)
theorem rdclk (o : FmtEA) : Statement (.rdclk o) :=
  fun _ => congrArg (fun x => some (Instr.rdclk x)) (dec_encFmtEA o)
theorem rdid (o : FmtEA) : Statement (.rdid o) :=
  fun _ => congrArg (fun x => some (Instr.rdid x)) (dec_encFmtEA o)
theorem setrm (o : FmtEA) : Statement (.setrm o) :=
  fun _ => congrArg (fun x => some (Instr.setrm x)) (dec_encFmtEA o)
theorem rdff (o : FmtEA) : Statement (.rdff o) :=
  fun _ => congrArg (fun x => some (Instr.rdff x)) (dec_encFmtEA o)
theorem clrff (o : FmtEA) : Statement (.clrff o) :=
  fun _ => congrArg (fun x => some (Instr.clrff x)) (dec_encFmtEA o)
theorem brk (o : FmtEA) : Statement (.brk o) :=
  fun _ => congrArg (fun x => some (Instr.brk x)) (dec_encFmtEA o)
theorem pwsz (o : FmtEA) : Statement (.pwsz o) :=
  fun _ => congrArg (fun x => some (Instr.pwsz x)) (dec_encFmtEA o)
theorem bind (o : FmtEA) : Statement (.bind o) :=
  fun _ => congrArg (fun x => some (Instr.bind x)) (dec_encFmtEA o)
theorem unbind (o : FmtEA) : Statement (.unbind o) :=
  fun _ => congrArg (fun x => some (Instr.unbind x)) (dec_encFmtEA o)
theorem bindq (o : FmtEA) : Statement (.bindq o) :=
  fun _ => congrArg (fun x => some (Instr.bindq x)) (dec_encFmtEA o)
theorem csload (o : FmtEA) : Statement (.csload o) :=
  fun _ => congrArg (fun x => some (Instr.csload x)) (dec_encFmtEA o)
theorem controlStorePageLoaded : ∀ a b, Statement (.controlStorePageLoaded a b) := fun _ _ => trivial
theorem csinv (o : FmtEA) : Statement (.csinv o) :=
  fun _ => congrArg (fun x => some (Instr.csinv x)) (dec_encFmtEA o)
theorem csfence (o : FmtEA) : Statement (.csfence o) :=
  fun _ => congrArg (fun x => some (Instr.csfence x)) (dec_encFmtEA o)
theorem nextblk (o : FmtEA) : Statement (.nextblk o) :=
  fun _ => congrArg (fun x => some (Instr.nextblk x)) (dec_encFmtEA o)
theorem impr (o : FmtEA) : Statement (.impr o) :=
  fun _ => congrArg (fun x => some (Instr.impr x)) (dec_encFmtEA o)
theorem impw (o : FmtEA) : Statement (.impw o) := fun w => by
  have w : Machine.limEA false true false (fun i => i.toNat < 16 && i ≠ 0) o = true := w
  have h : ¬ (encFmtEA o).extractLsb' 0 11 = 0 := by
    rw [encFmtEA_imm]; simp only [Machine.limEA, Bool.and_eq_true, decide_eq_true_eq] at w; exact w.2.2
  show (if (encFmtEA o).extractLsb' 0 11 = 0 then _ else some (Instr.impw _)) = _
  rw [if_neg h, dec_encFmtEA]
theorem impwCommit (o : FmtEA) : Statement (.impwCommit o) := fun w => by
  have w : Machine.limEA false true false (fun i => i = 0) o = true := w
  have h : (encFmtEA o).extractLsb' 0 11 = 0 := by
    rw [encFmtEA_imm]; simp only [Machine.limEA, Bool.and_eq_true, decide_eq_true_eq] at w; simp [w]
  show (if (encFmtEA o).extractLsb' 0 11 = 0 then some (Instr.impwCommit _) else _) = _
  rw [if_pos h, dec_encFmtEA]
theorem gclaim (o : FmtEA) : Statement (.gclaim o) :=
  fun _ => congrArg (fun x => some (Instr.gclaim x)) (dec_encFmtEA o)
theorem gdone (o : FmtEA) : Statement (.gdone o) :=
  fun _ => congrArg (fun x => some (Instr.gdone x)) (dec_encFmtEA o)
theorem handov (o : FmtEA) : Statement (.handov o) :=
  fun _ => congrArg (fun x => some (Instr.handov x)) (dec_encFmtEA o)
theorem ebop (o : FmtOB) : Statement (.ebop o) := fun _ => by
  have h : ∀ x : BitVec 5, 96 ≤ (3#2 ++ x).toNat := by decide
  show opE (3#2 ++ o.opx) o.opd 0 = _
  rw [opE_high _ _ _ (h _), dec_encFmtOB]
theorem microNext : ∀ a, Statement (.microNext a) := fun _ => trivial
theorem jump : ∀ a, Statement (.jump a) := fun _ => trivial
theorem brt : ∀ a, Statement (.brt a) := fun _ => trivial
theorem brf : ∀ a, Statement (.brf a) := fun _ => trivial
theorem loop0 : ∀ a, Statement (.loop0 a) := fun _ => trivial
theorem loop1 : ∀ a, Statement (.loop1 a) := fun _ => trivial
theorem microCall : ∀ a, Statement (.microCall a) := fun _ => trivial
theorem microRet : ∀ a, Statement (.microRet a) := fun _ => trivial
theorem microEnd : ∀ a, Statement (.microEnd a) := fun _ => trivial
theorem microTrap : ∀ a, Statement (.microTrap a) := fun _ => trivial
theorem poll : ∀ a, Statement (.poll a) := fun _ => trivial
theorem laneUnitLanding : ∀ a, Statement (.laneUnitLanding a) := fun _ => trivial
theorem collectiveReceive : ∀ a b c, Statement (.collectiveReceive a b c) := fun _ _ _ => trivial
theorem instructionHalfFill : ∀ a b, Statement (.instructionHalfFill a b) := fun _ _ => trivial
theorem schedulerPlacement : ∀ a, Statement (.schedulerPlacement a) := fun _ => trivial
theorem startGateOpen : ∀ a, Statement (.startGateOpen a) := fun _ => trivial
theorem tokenRefill : ∀ a, Statement (.tokenRefill a) := fun _ => trivial
theorem candidateOverdue : ∀ a b, Statement (.candidateOverdue a b) := fun _ _ => trivial
theorem priorityPreemption : ∀ a, Statement (.priorityPreemption a) := fun _ => trivial
theorem preemptionRequest : ∀ a, Statement (.preemptionRequest a) := fun _ => trivial
theorem graceTimeExpiry : ∀ a, Statement (.graceTimeExpiry a) := fun _ => trivial
theorem killTimeExpiry : ∀ a, Statement (.killTimeExpiry a) := fun _ => trivial
theorem replayableRecordPost : Statement .replayableRecordPost := trivial
theorem recordConsumed : ∀ a b c, Statement (.recordConsumed a b c) := fun _ _ _ => trivial
theorem resume : ∀ a b, Statement (.resume a b) := fun _ _ => trivial
theorem vector : ∀ a b, Statement (.vector a b) := fun _ _ => trivial
theorem kill : ∀ a b, Statement (.kill a b) := fun _ _ => trivial
theorem unload : ∀ a b, Statement (.unload a b) := fun _ _ => trivial
theorem regionAttributeWrite : ∀ a b c, Statement (.regionAttributeWrite a b c) := fun _ _ _ => trivial
theorem splinter : ∀ a, Statement (.splinter a) := fun _ => trivial
theorem invalidateMapping : ∀ a b c, Statement (.invalidateMapping a b c) := fun _ _ _ => trivial
theorem invalidationRetired : ∀ a, Statement (.invalidationRetired a) := fun _ => trivial
theorem bindingWrite : ∀ a b c, Statement (.bindingWrite a b c) := fun _ _ _ => trivial
theorem schedulingTableWrite : ∀ a b c, Statement (.schedulingTableWrite a b c) := fun _ _ _ => trivial
theorem bandwidthWindow : Statement .bandwidthWindow := trivial
theorem arbiterServe : ∀ a, Statement (.arbiterServe a) := fun _ => trivial
theorem partitionCreate : ∀ a b, Statement (.partitionCreate a b) := fun _ _ => trivial
theorem partitionGrow : ∀ a b, Statement (.partitionGrow a b) := fun _ _ => trivial
theorem partitionShrink : ∀ a b, Statement (.partitionShrink a b) := fun _ _ => trivial
theorem partitionDestroy : ∀ a, Statement (.partitionDestroy a) := fun _ => trivial
theorem sliceZeroed : ∀ a, Statement (.sliceZeroed a) := fun _ => trivial
theorem capabilityTableRewrite : ∀ a b, Statement (.capabilityTableRewrite a b) := fun _ _ => trivial
theorem routeEntryWrite : ∀ a b c, Statement (.routeEntryWrite a b c) := fun _ _ _ => trivial
theorem collectiveStoreWrite : ∀ a b c d, Statement (.collectiveStoreWrite a b c d) := fun _ _ _ _ => trivial
theorem windowLengthSet : ∀ a b, Statement (.windowLengthSet a b) := fun _ _ => trivial
theorem timerSet : ∀ a b c, Statement (.timerSet a b c) := fun _ _ _ => trivial
theorem tenantStop : ∀ a b c, Statement (.tenantStop a b c) := fun _ _ _ => trivial
theorem stopFinalPoint : ∀ a, Statement (.stopFinalPoint a) := fun _ => trivial
theorem dirtyLogArm : ∀ a b c d, Statement (.dirtyLogArm a b c d) := fun _ _ _ _ => trivial
theorem fabricWindowBoundary : Statement .fabricWindowBoundary := trivial
theorem fabricAcknowledgement : ∀ a b c, Statement (.fabricAcknowledgement a b c) := fun _ _ _ => trivial
theorem fabricUnitLost : ∀ a, Statement (.fabricUnitLost a) := fun _ => trivial
theorem timeBaseLoss : Statement .timeBaseLoss := trivial
theorem landingFailed : ∀ a, Statement (.landingFailed a) := fun _ => trivial
theorem landingRetrain : ∀ a, Statement (.landingRetrain a) := fun _ => trivial
theorem ceilingStepDown : Statement .ceilingStepDown := trivial
theorem ceilingStepUp : Statement .ceilingStepUp := trivial
theorem thermalThrottle : ∀ a, Statement (.thermalThrottle a) := fun _ => trivial
theorem thermalStop : ∀ a, Statement (.thermalStop a) := fun _ => trivial
theorem operatingPointChange : ∀ a b c, Statement (.operatingPointChange a b c) := fun _ _ _ => trivial
theorem voltageSettled : ∀ a, Statement (.voltageSettled a) := fun _ => trivial
theorem powerOn : Statement .powerOn := trivial
theorem powerOff : Statement .powerOff := trivial
theorem registerWrite : ∀ a b, Statement (.registerWrite a b) := fun _ _ => trivial
theorem remoteWriteArrival : ∀ a, Statement (.remoteWriteArrival a) := fun _ => trivial
theorem timeBaseRegained : Statement .timeBaseRegained := trivial
theorem packagePowerRestore : Statement .packagePowerRestore := trivial
theorem dirtyLogSlotFree : ∀ a b, Statement (.dirtyLogSlotFree a b) := fun _ _ => trivial

end Laws.EncFields

end Sys2Proof
end

