-- ==== Sys2Proof/Laws/Records.lean ====
section
/-! SUPPORT. What posting a record leaves: all but the lanes and their counters (R380, R381), with the records of units in
error (R406). -/

namespace Sys2Proof.Machine

/-- Two states differ at most in the device part and in partitions. -/
structure State.SameButLanes (s t : State) : Prop where
  mem : t.mem = s.mem
  strands : t.strands = s.strands
  gangs : t.gangs = s.gangs
  batches : t.batches = s.batches
  cores : t.cores = s.cores
  clusters : t.clusters = s.clusters
  cmds : t.cmds = s.cmds
  colls : t.colls = s.colls
  cur : t.cur = s.cur
  issue : t.issue = s.issue
  agent : t.agent = s.agent
  now : t.now = s.now
  agenda : t.agenda = s.agenda
  free : t.free = s.free
  nextId : t.nextId = s.nextId

theorem State.SameButLanes.refl (s : State) : s.SameButLanes s := by constructor <;> rfl

theorem State.SameButLanes.trans {s t u : State} (h : s.SameButLanes t) (k : t.SameButLanes u) : s.SameButLanes u where
  mem := k.mem.trans h.mem
  strands := k.strands.trans h.strands
  gangs := k.gangs.trans h.gangs
  batches := k.batches.trans h.batches
  cores := k.cores.trans h.cores
  clusters := k.clusters.trans h.clusters
  cmds := k.cmds.trans h.cmds
  colls := k.colls.trans h.colls
  cur := k.cur.trans h.cur
  issue := k.issue.trans h.issue
  agent := k.agent.trans h.agent
  now := k.now.trans h.now
  agenda := k.agenda.trans h.agenda
  free := k.free.trans h.free
  nextId := k.nextId.trans h.nextId

theorem State.postFatal_same (s : State) (r : Record) : s.SameButLanes (s.postFatal r) := by
  unfold State.postFatal State.onDev State.onPart
  dsimp only
  split <;> split <;> constructor <;> rfl

theorem State.noteAs_same (s : State) (q : Record) (l : List ArrayRun) : s.SameButLanes (s.noteAs q l) := by
  unfold State.noteAs
  refine foldl_inv (fun x : State => s.SameButLanes x) _ (fun x u hx => ?_) _ _ (.refl s)
  split
  · exact hx.trans (x.postFatal_same _)
  · exact hx

theorem State.noteErrors_same (s : State) (k : Nat) (l : List ArrayRun) : s.SameButLanes (s.noteErrors k l) := s.noteAs_same _ l

/-- Where no unit is in error, reading posts nothing. -/
theorem State.noteAs_none (s : State) (q : Record) (l : List ArrayRun) (h : s.dev.uncorrectable = []) : s.noteAs q l = s := by
  simp [State.noteAs, h]

theorem State.noteErrors_none (s : State) (k : Nat) (l : List ArrayRun) (h : s.dev.uncorrectable = []) : s.noteErrors k l = s :=
  s.noteAs_none _ l h

/-- The views of the binding tables change memory alone, and keep its canonical form (R134). -/
theorem State.mirror_same (s t : State) :
    (∃ m, s.mirror t = { t with mem := m }) ∧ (Cells.wf t.mem = true → Cells.wf (s.mirror t).mem = true) := by
  unfold State.mirror
  refine foldl_inv (fun x : State => (∃ m, x = { t with mem := m }) ∧ (Cells.wf t.mem = true → Cells.wf x.mem = true))
    _ (fun x p hx => ?_) _ _ ⟨⟨t.mem, rfl⟩, id⟩
  refine foldl_inv (fun x : State => (∃ m, x = { t with mem := m }) ∧ (Cells.wf t.mem = true → Cells.wf x.mem = true))
    _ (fun x n hx => ?_) _ _ hx
  dsimp only
  split
  · exact hx
  · obtain ⟨m, rfl⟩ := hx.1
    exact ⟨⟨_, rfl⟩, fun h => State.writeMem_wf _ _ _ _ (hx.2 h)⟩

end Sys2Proof.Machine
end

