-- ==== Sys2Proof/Tests/Slice0.lean ====
section
/-! SUPPORT. The author's own tests: an ill-formed term for each check of WellFormed, words written out from the spec's
encodings, the spec's worked examples, and for every statement a machine and operands that meet its hypotheses. -/

set_option maxRecDepth 100000

namespace Sys2Proof.Tests
open Sys2Proof.Machine Sys2Proof.Claims

/-- R180 to R184: reserved fields, POS + LEN + 1 above 64, shift amounts above 63. -/
theorem test_illformed_scalar : ([
    .add { sc := 1 }, .sub { sd := 1, sc := 63 }, .mul { sc := 1 }, .divu { sc := 1 }, .addw { sc := 2 },
    .clz { sc := 1 }, .clz { sb := 1 }, .absR { sb := 63 },
    .ext { pos := 1, len := 63 }, .extu { pos := 63, len := 1 }, .ins { pos := 32, len := 32 }, .ext { sb := 1 }, .extu { sb := 1 },
    .slli { imm := 64 }, .srli { imm := 0xFFFFFFF }, .srai { imm := 64 }, .addpc { sa := 1 }] : List Instr).all (fun i => !i.wf) = true := by
  decide

/-- R155, R187 to R189: BF 3, status fields above 7, BDNZ on s0, reserved fields of JL. -/
theorem test_illformed_branch : ([
    .beq { bf := 3 }, .bgeu { bf := 3 }, .beqi { bf := 3 }, .btR { bf := 3 }, .bsw { bf := 3 }, .bsw { bn := 8 },
    .bdnz { bf := 3, sa := 1 }, .bdnz { sa := 1, sb := 1 }, .bdnz { sa := 0 }, .jl { bf := 3 }, .jl { sa := 1 },
    .jlx { bf := 3 }] : List Instr).all (fun i => !i.wf) = true := by
  decide

/-- R194, R198, R199, R203: the limits of atomics, XLATE, HREL and the transfers. -/
theorem test_illformed_memory : ([
    .aadd { sp := 1, hd := 1 }, .aadd { sb := 1 }, .abadd { ord := 5 }, .acas { sp := 1, hd := 2 }, .acas { ord := 7 },
    .xlate { rq := 0 }, .hrel { sa := 1 }, .hrel { rq := 1 },
    .xget { sa := 1 }, .xget { ft := 1 }, .xgetd { sa := 1 }, .xgetd { ft := 2 }, .xgetd { ei := 1 },
    .xput { sd := 1 }, .xput { ft := 15 }, .xputd { sd := 1 }, .xputd { ft := 15 }, .xputd { ei := 31 },
    .xbcst { sd := 1 }, .xbcst { ft := 15 }, .xbcst { ei := 1 }, .xxch { ft := 15 }] : List Instr).all (fun i => !i.wf) = true := by
  decide

/-- R165, R208 to R223: TY 3 and MS where they are illegal, reserved second sources, formats, modifiers and rounding
fields of the vector instructions. -/
theorem test_illformed_vector : ([
    .vadd { ty := 3 }, .vsqrt { ty := 3 }, .vsqrt { pb := 1 }, .vneg { xb := 1 }, .vceq { ty := 3 }, .vcun { ms := 1 },
    .vimin { ty := 3, ms := 1 }, .vshl { ty := 3, ms := 1 }, .viabs { ms := 1 }, .viabs { pb := 1 }, .viabs { xb := 1 },
    .vand { ty := 1 }, .vperm { ms := 1 }, .vsel { ty := 3 }, .vmov { ty := 1 }, .vmov { ms := 1 }, .vmov { pb := 1 }, .vmov { xb := 1 },
    .vcvtF32 { df := 0 }, .vcvtF32 { df := 7 }, .vcvtI8 { df := 15 }, .vcvtF32 { df := 2, rm := 5 }, .vcvtF32 { df := 2, rm := 6 },
    .vcvtF32 { df := 1, pm := 1 }, .vcvtBf16 { df := 1, pm := 2 }, .vcvtF32 { df := 4, pm := 4 }, .vcvtF32 { df := 2, pm := 2 },
    .vcvtVq2 { df := 2 }, .vcvtVq2 { df := 1, pm := 2 },
    .vrsum { df := 4 }, .vrsum { df := 1, pm := 1 }, .vrsum { df := 1, rm := 4 }, .vrmin { df := 15 }, .vrmax { df := 4 },
    .vrmin { df := 8, pm := 1 }, .vrmax { df := 1, rm := 1 }, .vrisum { df := 1 }, .vrisum { df := 8, pm := 1 }, .viscan { df := 8, rm := 1 },
    .vscan { df := 8 }, .vscan { df := 1, pm := 1 }, .vscan { df := 1, rm := 5 },
    .vnzs { df := 7 }, .vnzc { df := 15 }, .vnzs { df := 8, pm := 1 }, .vnzc { df := 8, rm := 1 },
    .vrot { pm := 1 }, .vrot { rm := 1 }, .vrot { df := 1 }, .vbcst { df := 15 }, .vbcst { rm := 1 }, .vbcst { df := 10, pm := 4 }]
      : List Instr).all (fun i => !i.wf) = true := by
  decide

/-- R224, R227, R229, R230: the limits of the vector memory instructions. -/
theorem test_illformed_vector_memory : ([
    .vld { pi := 1 }, .vld { xi := 1 }, .vld { ft := 15 }, .vld { ft := 1, pm := 1 }, .vst { pi := 1 }, .vst { xi := 1 }, .vst { ft := 1 },
    .vgath { ft := 15 }, .vgath { ft := 2, pm := 2 }, .vscat { ft := 1 }, .vlda { ft := 15 }, .vsta { ft := 1 }, .vldc { ft := 15 },
    .vldc { qw := 1 }, .vldh { pi := 1 }, .vldh { xi := 1 }, .vldh { ft := 15 }, .vldh { ft := 1, pml := 1 }, .vsth { pi := 1 },
    .vsth { xi := 1 }, .vsth { ft := 1 }, .vgathh { ft := 15 }, .vgathh { ft := 2, pml := 2 }, .vscath { ft := 2 },
    .vldhPm4 { ft := 4, pml := 0 }, .vgathhPm4 { ft := 2 }, .vsthPm4 { ft := 6 }, .vscathPm4 { ft := 6 }] : List Instr).all (fun i => !i.wf) = true := by
  decide

/-- R237, R238, R245, R246, R161: the limits of the tile and matrix instructions. -/
theorem test_illformed_tile : ([
    .talloc { ta := 1 }, .talloc { tb := 1 }, .talloc { sa := 1 }, .talloc { ord := 1 }, .talloc { fmt := 16 }, .talloc { fmt := 15 },
    .talloc { imm := 3 }, .talloc { imm := 128 }, .tfree { ta := 1 }, .tfree { tb := 1 }, .tfree { sa := 1 }, .tfree { ord := 1 },
    .tfree { fmt := 1 }, .twait { imm := 1 }, .tzero { ta := 1 }, .tzero { fmt := 31 }, .tzero { fmt := 15 }, .tzero { imm := 1 },
    .tstat { ta := 1 }, .tstat { tb := 1 }, .tstat { ord := 1 }, .trowp { fmt := 1 }, .trowp { imm := 1 },
    .mlatch { td := 1 }, .mlatch { ta := 1 }, .mlatch { sa := 1 }, .mlatch { ord := 1 }, .mlatch { fmt := 1 }, .mlatch { imm := 4 },
    .mma { fmt := 1 }, .mma { fmt := 2, ord := 1 }, .mma { fmt := 2, imm := 256 }, .mma { fmt := 2, imm := 4 }, .mma { fmt := 2, imm := 1 },
    .mma { fmt := 2, imm := 8 }, .mmas { fmt := 8 }, .mmas { fmt := 18 }, .mmas { fmt := 2, ta := 1 }, .mmas { fmt := 2, tb := 1 },
    .mmas { fmt := 2, ord := 1 }, .mmas { fmt := 2, imm := 1 }, .mmaX { o := { fmt := 1 } }, .mmaX { o := { fmt := 7 } },
    .mmaX { o := { fmt := 18 } }, .mmaX { o := { fmt := 2, ord := 1 } }, .mmaX { o := { fmt := 2, imm := 1 } },
    .mmaX { o := { fmt := 2 }, lit := 70 }, .mmaX { o := { fmt := 2 }, lit := 0x100000000000000 }, .mmasX { o := { fmt := 7 } },
    .mmasX { o := { fmt := 2, imm := 1 } }, .mmasX { o := { fmt := 2 }, lit := 127 },
    .tcvt { fmt := 2 }, .tcvt { td := 1, tb := 1, fmt := 2 }, .tcvt { td := 1, ord := 1, fmt := 2 }, .tcvt { td := 1, fmt := 18 },
    .tcvt { td := 1, fmt := 7 }, .tcvt { td := 1, fmt := 2, imm := 8 }, .tcvt { td := 1, fmt := 2, imm := 160 },
    .tcvt { td := 1, fmt := 2, imm := 256 }, .tmov { }, .tmov { td := 1, tb := 1 }, .tmov { td := 1, ord := 1 }, .txpose { td := 1, fmt := 1 },
    .txpose { td := 1, sa := 1 }, .txpose { td := 1, imm := 1 }] : List Instr).all (fun i => !i.wf) = true := by
  decide

/-- R236, R247 to R258: the limits of drains, copies and sequencer commands. -/
theorem test_illformed_copy : ([
    .tdrain { o := { ord := 5 } }, .tdrain { o := { imm := 1024 } }, .tdrain { lit := 0x8000000000 }, .tdraink { lit := 7 }, .tdraink { lit := 15 },
    .tdraink { lit := 0x50 }, .cpy { o := { ord := 6 } }, .cpy { o := { th := 1 } }, .cpy { o := { imm := 2048 } }, .cpy { lit := 1 },
    .cpy { lit := 0x300000000000000 }, .cpym { o := { ord := 5 }, lit := 0x800 }, .cpym { o := { imm := 512 }, lit := 0x800 },
    .cpym { o := { imm := 2048 }, lit := 0x800 }, .cpym { lit := 0x20800 }, .cpym { lit := 0xF00000000000800 }, .cpym { lit := 0 },
    .cpym { lit := 0x8800 }, .cpyi { o := { ord := 5 } }, .cpyi { o := { th := 1 } }, .cpyi { o := { imm := 1024 } }, .cpyi { lit := 1 },
    .cpyi { lit := 0x100000000000000 }, .cpysTo { o := { ord := 7 } }, .cpysTo { o := { th := 1 } }, .cpysTo { o := { imm := 512 } },
    .cpysTo { o := { imm := 2048 } }, .cpysFrom { }, .cpysFrom { o := { imm := 512 }, lit := 4 }, .cpysFrom { o := { imm := 512 }, lit := 0x100000000000000 },
    .cpyf { o := { ord := 5 } }, .cpyf { o := { sc := 1 } }, .cpyf { o := { imm := 512 } }, .cpyf { o := { imm := 2048 } }, .cpyf { lit := 2 },
    .cpyf { lit := 0xF00000000000000 }, .cpyg { o := { ord := 5 } }, .cpyg { o := { imm := 1024 } }, .cpyg { lit := 1 },
    .cpyg { lit := 0xF00000000000000 }, .cpyg { o := { imm := 512 } }, .cpysc { o := { ord := 5 } }, .cpysc { o := { th := 1 } },
    .cpysc { o := { imm := 1536 } }, .cpysc { o := { imm := 2048 } }, .cpysc { lit := 1 }, .cpysc { lit := 0x100000000000000 },
    .cpyq { sa := 1 }, .cpyq { imm := 32 }, .sqgo { sb := 1 }, .sqgo { sd := 1 }, .sqgo { sc := 1 }, .sqgo { ord := 5 }, .sqgo { imm := 512 },
    .sqwait { sd := 1 }, .sqkill { sa := 1 }, .sqkill { ord := 1 }, .sqstat { imm := 512 }, .sfpool { o := { ord := 5 } }, .sfpool { lit := 1 },
    .sfpool { lit := 0x100000000000000 }, .sfplan { imm := 1 }, .sfstat { sb := 1 }] : List Instr).all (fun i => !i.wf) = true := by
  decide

/-- R139, R260 to R272, R329 to R344: unused fields and immediate ranges of the E instructions. -/
theorem test_illformed_engine : ([
    .acq { imm := 1024 }, .acq { sb := 1 }, .rel { sd := 1 }, .rel { imm := 512 }, .fence { imm := 5 }, .fence { ord := 1 }, .bar { imm := 256 },
    .bara { sa := 1 }, .barw { imm := 16 }, .frd { imm := 1 }, .ffill { sd := 1 }, .pwr { imm := 16 }, .prd { sa := 1 }, .wait { sd := 1 },
    .wait { ord := 1 }, .wait { imm := 64 }, .yield { imm := 1 }, .endR { sc := 1 }, .launch { imm := 16 }, .trap { imm := 256 }, .rett { sd := 1 },
    .mfsr { imm := 8 }, .mfsr { imm := 18 }, .mtsr { imm := 2 }, .mtsr { imm := 3 }, .mtsr { imm := 16 }, .ifence { imm := 1 }, .rdclk { imm := 1 },
    .rdid { imm := 9 }, .setrm { imm := 5 }, .rdff { sa := 1 }, .clrff { imm := 64 }, .brk { imm := 256 }, .pwsz { imm := 8 }, .bind { imm := 64 },
    .unbind { sa := 1 }, .bindq { imm := 64 }, .csload { sc := 1 }, .csinv { sb := 1 }, .csfence { imm := 1 }, .nextblk { sa := 1 },
    .impr { imm := 16 }, .impw { imm := 0 }, .impw { imm := 16 }, .impwCommit { imm := 1 }, .gclaim { imm := 0 }, .gclaim { imm := 65 },
    .gdone { sd := 1 }, .handov { imm := 32 }] : List Instr).all (fun i => !i.wf) = true := by
  decide
/-- R155, R162: words laid out from the tables of the spec, field by field, and the instructions they stand for. -/
theorem test_words_scalar_1 : ([
    (0x0CA20057D2800000, 0, .add { sd := 0x15, sa := 0x3d, sb := 0xa }),
    (0x030301A841400000, 0, .sub { sd := 0x2a, sa := 4, sb := 5 }),
    (0x06DE826261000000, 0, .andR { sd := 0x18, sa := 0x26, sb := 4 }),
    (0x0D61830C67000000, 0, .orR { sd := 3, sa := 6, sb := 0x1c }),
    (0x0D95841501800000, 0, .xorR { sd := 5, sa := 0x10, sb := 6 }),
    (0x03F6051359400000, 0, .andn { sd := 4, sa := 0x35, sb := 0x25 }),
    (0x01FA86F4FA400000, 0, .orn { sd := 0x3d, sa := 0xf, sb := 0x29 }),
    (0x0196079666800000, 0, .xnor { sd := 0x25, sa := 0x26, sb := 0x1a }),
    (0x044288FCF0C00000, 0, .sll { sd := 0x3f, sa := 0xf, sb := 3 }),
    (0x03C4894DB2800000, 0, .srl { sd := 0x13, sa := 0x1b, sb := 0xa }),
    (0x05C88A9549000000, 0, .sra { sd := 0x25, sa := 0x14, sb := 0x24 }),
    (0x06030B1E69400000, 0, .rol { sd := 7, sa := 0x26, sb := 0x25 }),
    (0x02020C6079000000, 0, .ror { sd := 0x18, sa := 7, sb := 0x24 }),
    (0x06970D944A000000, 0, .slt { sd := 0x25, sa := 4, sb := 0x28 }),
    (0x0DAE8E82C8C00000, 0, .sltu { sd := 0x20, sa := 0x2c, sb := 0x23 }),
    (0x0E800FC957800000, 0, .seq { sd := 0x32, sa := 0x15, sb := 0x1e }),
    (0x05C0906144000000, 0, .sne { sd := 0x18, sa := 0x14, sb := 0x10 }),
    (0x029E91B724000000, 0, .min { sd := 0x2d, sa := 0x32, sb := 0x10 }),
    (0x0FD7929548800000, 0, .max { sd := 0x25, sa := 0x14, sb := 0x22 }),
    (0x0E5C93E56BC00000, 0, .minu { sd := 0x39, sa := 0x16, sb := 0x2f }),
    (0x0257944E7FC00000, 0, .maxu { sd := 0x13, sa := 0x27, sb := 0x3f }),
    (0x0AF2152216CB0000, 0, .sel { sd := 8, sa := 0x21, sb := 0x1b, sc := 0xb }),
    (0x0D7E962BC8000000, 0, .mul { sd := 0xa, sa := 0x3c, sb := 0x20 }),
    (0x027B970FEAC00000, 0, .mulh { sd := 3, sa := 0x3e, sb := 0x2b }),
    (0x0A0A18C649400000, 0, .mulhu { sd := 0x31, sa := 0x24, sb := 0x25 }),
    (0x0FE4995AD5C00000, 0, .divS { sd := 0x16, sa := 0x2d, sb := 0x17 }),
    (0x02331A9B47800000, 0, .divu { sd := 0x26, sa := 0x34, sb := 0x1e }),
    (0x08A31BD86F400000, 0, .remS { sd := 0x36, sa := 6, sb := 0x3d }),
    (0x02141C7EDAC00000, 0, .remu { sd := 0x1f, sa := 0x2d, sb := 0x2b }),
    (0x09E81D12FB400000, 0, .addw { sd := 4, sa := 0x2f, sb := 0x2d }),
    (0x0E429EAA5B000000, 0, .subw { sd := 0x2a, sa := 0x25, sb := 0x2c }),
    (0x0B1A9F4EE6400000, 0, .mulw { sd := 0x13, sa := 0x2e, sb := 0x19 }),
    (0x0EC6200BD0000000, 0, .clz { sd := 2, sa := 0x3d }),
    (0x03BF215CB0000000, 0, .ctz { sd := 0x17, sa := 0xb }),
    (0x06FBA28040000000, 0, .popc { sd := 0x20, sa := 4 }),
    (0x0423A3C930000000, 0, .brev { sd := 0x32, sa := 0x13 }),
    (0x0CBBA4C100000000, 0, .bswap { sd := 0x30, sa := 0x10 }),
    (0x0FE3256BB0000000, 0, .absR { sd := 0x1a, sa := 0x3b }),
    (0x0E5FA618B011B800, 0, .ext { sd := 6, sa := 0xb, pos := 0x11, len := 0x2e }),
    (0x08E4276A4011B800, 0, .extu { sd := 0x1a, sa := 0x24, pos := 0x11, len := 0x2e })
  ] : List (Syll × Lit × Instr)).all (fun x => (decodeSyll x.1 x.2.1).toOption = some x.2.2) = true := by decide

/-- R155, R162: words laid out from the tables of the spec, field by field, and the instructions they stand for. -/
theorem test_words_scalar_2 : ([
    (0x0DC6A8E49D51B800, 0, .ins { sd := 0x39, sa := 9, sb := 0x35, pos := 0x11, len := 0x2e }),
    (0x0D4A29E2447469A5, 0, .addi { sd := 0x38, sa := 0x24, imm := 0x47469a5 }),
    (0x0C2CAA5ECE25A761, 0, .andi { sd := 0x17, sa := 0x2c, imm := 0xe25a761 }),
    (0x02A7ABF8F26A2C0C, 0, .ori { sd := 0x3e, sa := 0xf, imm := 0x26a2c0c }),
    (0x07772C30A3B61868, 0, .xori { sd := 0xc, sa := 0xa, imm := 0x3b61868 }),
    (0x05D5AD060000003F, 0, .slli { sd := 1, sa := 0x20, imm := 0x3f }),
    (0x0021AE453000003F, 0, .srli { sd := 0x11, sa := 0x13, imm := 0x3f }),
    (0x0BD0AF29B000003F, 0, .srai { sd := 0xa, sa := 0x1b, imm := 0x3f }),
    (0x040430A255190890, 0, .slti { sd := 0x28, sa := 0x25, imm := 0x5190890 }),
    (0x01BA31B7783F73F2, 0, .sltui { sd := 0x2d, sa := 0x37, imm := 0x83f73f2 }),
    (0x0C8E32780E647CB9, 0, .addpc { sd := 0x1e, imm := 0xe647cb9 }),
    (0x0C9CB36866237A05, 0, .li { sd := 0x1a, imm := 0x66237a05 }),
    (0x0CD0341C7B45145D, 0, .lih { sd := 7, imm := 0x7b45145d }),
    (0x16AE40443444F6C6, 0, .beq { bf := 1, sa := 4, sb := 0xd, disp := 0x44f6c6 }),
    (0x1AE1C15D2C70910C, 0, .bne { bf := 1, sa := 0x1d, sb := 0xb, disp := 0x70910c }),
    (0x1001C2671068D633, 0, .blt { bf := 1, sa := 0x27, sb := 4, disp := 0x68d633 }),
    (0x133F43652A257F5F, 0, .bge { bf := 1, sa := 0x25, sb := 0xa, disp := 0x2257f5f }),
    (0x10D0C47D6274778B, 0, .bltu { bf := 1, sa := 0x3d, sb := 0x18, disp := 0x274778b }),
    (0x1C0A4545E0D4F18D, 0, .bgeu { bf := 1, sa := 5, sb := 0x38, disp := 0xd4f18d }),
    (0x1B1DC64AA5024FDC, 0, .beqi { bf := 1, sa := 0xa, imm := 0x29, disp := 0x1024fdc }),
    (0x13EE476761E587F7, 0, .bnei { bf := 1, sa := 0x27, imm := 0x18, disp := 0x1e587f7 }),
    (0x1EE94848DDF3C81D, 0, .blti { bf := 1, sa := 8, imm := 0x37, disp := 0x1f3c81d }),
    (0x12BFC95F7D3F5637, 0, .bgei { bf := 1, sa := 0x1f, imm := 0x1f, disp := 0x13f5637 }),
    (0x1878CA4A1F7B0F51, 0, .btR { bf := 1, sa := 0xa, bn := 7, bs := 1, disp := 0x17b0f51 }),
    (0x10BD4B5F1F085D00, 0, .bsw { bf := 1, sa := 0x1f, bn := 7, bs := 1, disp := 0x1085d00 }),
    (0x1B934C4E03CDCF2A, 0, .bdnz { bf := 1, sa := 0xe, disp := 0x3cdcf2a }),
    (0x10DDCD4A02C2A114, 0, .jl { bf := 1, sd := 0xa, disp := 0x2c2a114 }),
    (0x12E9CE7189313E6D, 0, .jlx { bf := 1, sd := 0x31, sa := 0x22, disp := 0x1313e6d })
  ] : List (Syll × Lit × Instr)).all (fun x => (decodeSyll x.1 x.2.1).toOption = some x.2.2) = true := by decide

/-- R156, R163: words laid out from the tables of the spec, field by field, and the instructions they stand for. -/
theorem test_words_memory : ([
    (0x2BBC00B79184B5A9, 0, .ldB { sd := 0x2d, hd := 0xe, sa := 0x11, imm := 0x84b5a9 }),
    (0x272101ECD7C59DBA, 0, .ldBu { sd := 0x3b, hd := 3, sa := 0x17, imm := 0xc59dba }),
    (0x2A8C828E7280B0C1, 0, .ldH { sd := 0x23, hd := 9, sa := 0x32, imm := 0x80b0c1 }),
    (0x263E83A528CFBF34, 0, .ldHu { sd := 0x29, hd := 4, sa := 0x28, imm := 0xcfbf34 }),
    (0x274104D135669341, 0, .ldW { sd := 0x34, hd := 4, sa := 0x35, imm := 0x669341 }),
    (0x20ED0536605B0626, 0, .ldWu { sd := 0xd, hd := 9, sa := 0x20, imm := 0x5b0626 }),
    (0x284B060B5278E4BA, 0, .ldD { sd := 2, hd := 0xd, sa := 0x12, imm := 0x78e4ba }),
    (0x2B04083727F4DE2D, 0, .stB { sd := 0xd, hd := 0xc, sa := 0x27, imm := 0xf4de2d }),
    (0x2B2F09777CB91EEA, 0, .stH { sd := 0x1d, hd := 0xd, sa := 0x3c, imm := 0xb91eea }),
    (0x23448AF986387039, 0, .stW { sd := 0x3e, hd := 6, sa := 6, imm := 0x387039 }),
    (0x268A0B3E0D5675F7, 0, .stD { sd := 0xf, hd := 8, sa := 0xd, imm := 0x5675f7 }),
    (0x200F907E8FC39480, 0, .ldsB { sd := 0x1f, sa := 0x28, imm := 0xfc3948 }),
    (0x2B02117FBA729920, 0, .ldsBu { sd := 0x1f, sa := 0x3b, imm := 0xa72992 }),
    (0x23D612D2A15B40B0, 0, .ldsH { sd := 0x34, sa := 0x2a, imm := 0x15b40b }),
    (0x266093ED9C845010, 0, .ldsHu { sd := 0x3b, sa := 0x19, imm := 0xc84501 }),
    (0x2DE2947F92DB39A0, 0, .ldsW { sd := 0x1f, sa := 0x39, imm := 0x2db39a }),
    (0x22C695CE9551FD90, 0, .ldsWu { sd := 0x33, sa := 0x29, imm := 0x551fd9 }),
    (0x2CAA96D3DF8BE890, 0, .ldsD { sd := 0x34, sa := 0x3d, imm := 0xf8be89 }),
    (0x22B79879ABE4C5D0, 0, .stsB { sd := 0x1e, sa := 0x1a, imm := 0xbe4c5d }),
    (0x241099BCB2B855D0, 0, .stsH { sd := 0x2f, sa := 0xb, imm := 0x2b855d }),
    (0x2EE41A08A973F7A0, 0, .stsW { sd := 2, sa := 0xa, imm := 0x973f7a }),
    (0x2F2D9BD2A256BAE0, 0, .stsD { sd := 0x34, sa := 0x2a, imm := 0x256bae }),
    (0x20AF20AFD700A93B, 0, .aadd { sd := 0x2b, hd := 0xf, sa := 0x17, sc := 0xa, imm := 0x12, sz := 1, ord := 0x1b }),
    (0x2474A1077F02FABB, 0, .amin { sd := 1, hd := 0xd, sa := 0x3f, sc := 0x2f, imm := 0x15, sz := 1, ord := 0x1b }),
    (0x20E522738D035E3B, 0, .amax { sd := 0x1c, hd := 0xe, sa := 0xd, sc := 0x35, imm := 0x1c, sz := 1, ord := 0x1b }),
    (0x284CA3451302143B, 0, .aminu { sd := 0x11, hd := 4, sa := 0x13, sc := 0x21, imm := 8, sz := 1, ord := 0x1b }),
    (0x2EA9248DF600913B, 0, .amaxu { sd := 0x23, hd := 7, sa := 0x36, sc := 9, imm := 2, sz := 1, ord := 0x1b }),
    (0x242F25AEB503A8BB, 0, .aand { sd := 0x2b, hd := 0xa, sa := 0x35, sc := 0x3a, imm := 0x11, sz := 1, ord := 0x1b }),
    (0x25DC268CE20210BB, 0, .aor { sd := 0x23, hd := 3, sa := 0x22, sc := 0x21, imm := 1, sz := 1, ord := 0x1b }),
    (0x2487A79C720342BB, 0, .axor { sd := 0x27, hd := 1, sa := 0x32, sc := 0x34, imm := 5, sz := 1, ord := 0x1b }),
    (0x2A6E287EAF00893B, 0, .aswp { sd := 0x1f, hd := 0xa, sa := 0x2f, sc := 8, imm := 0x12, sz := 1, ord := 0x1b }),
    (0x21D129B26291FD3B, 0, .acas { sd := 0x2c, hd := 9, sa := 0x22, sb := 0x24, sc := 0x1f, imm := 0x1a, sz := 1, ord := 0x1b }),
    (0x2E782A4112003CBB, 0, .afadd { sd := 0x10, hd := 4, sa := 0x12, sc := 3, imm := 0x19, sz := 1, ord := 0x1b }),
    (0x2E2F2B907103AF3B, 0, .abadd { sd := 0x24, hd := 1, sa := 0x31, sc := 0x3a, imm := 0x1e, sz := 1, ord := 0x1b }),
    (0x2661B06A28000000, 0, .xlate { hd := 6, sa := 0x28, rq := 5 }),
    (0x28DEB1C000000000, 0, .hrel { hd := 0xc }),
    (0x2F4C3476C79D6000, 0, .ldpW { sd := 0x1d, pw := 5, sa := 0x23, imm := 0xceb0 }),
    (0x284EB5855B0BE400, 0, .ldpD { sd := 0x21, pw := 2, sa := 0x2d, imm := 0x85f2 })
  ] : List (Syll × Lit × Instr)).all (fun x => (decodeSyll x.1 x.2.1).toOption = some x.2.2) = true := by decide

/-- R157, R164: words laid out from the tables of the spec, field by field, and the instructions they stand for. -/
theorem test_words_transfer : ([
    (0x6E5200F008F5D800, 0, .xget { sd := 0x3c, pl := 0x47a, xl := 1, ei := 0x1b }),
    (0x6C8E012406ADF000, 0, .xgetd { sd := 9, pl := 0x356, xl := 1, ei := 0x1e }),
    (0x67B30201D511B700, 0, .xput { sa := 0x1d, pl := 0x288, xl := 1, ei := 0x16, ft := 0xe }),
    (0x69B00301C12DF700, 0, .xputd { sa := 0x1c, pl := 0x96, xl := 1, ei := 0x1e, ft := 0xe }),
    (0x6BB7840331F70700, 0, .xbcst { sa := 0x33, pl := 0xfb, xl := 1, ft := 0xe }),
    (0x6EF785291E23FF00, 0, .xxch { sd := 0xa, sa := 0x11, pl := 0x711, xl := 1, ei := 0x1f, ft := 0xe })
  ] : List (Syll × Lit × Instr)).all (fun x => (decodeSyll x.1 x.2.1).toOption = some x.2.2) = true := by decide

/-- R158, R165: words laid out from the tables of the spec, field by field, and the instructions they stand for. -/
theorem test_words_vector_1 : ([
    (0x3728803857EBCFDE, 0, .vadd { pd := 0x1c2, pa := 0x5fa, pb := 0x79f, ty := 2, ms := 1, xd := 1, xa := 1, xb := 1 }),
    (0x3B690129769DBA5E, 0, .vsub { pd := 0x14b, pa := 0x5a7, pb := 0x374, ty := 2, ms := 1, xd := 1, xa := 1, xb := 1 }),
    (0x3E180251A2F6E3DE, 0, .vmul { pd := 0x28d, pa := 0xbd, pb := 0x5c7, ty := 2, ms := 1, xd := 1, xa := 1, xb := 1 }),
    (0x375003B420998A5E, 0, .vfma { pd := 0x5a1, pa := 0x26, pb := 0x314, ty := 2, ms := 1, xd := 1, xa := 1, xb := 1 }),
    (0x35CF04F8FC0C6BDE, 0, .vfms { pd := 0x7c7, pa := 0x703, pb := 0xd7, ty := 2, ms := 1, xd := 1, xa := 1, xb := 1 }),
    (0x3FD385455830855E, 0, .vfnma { pd := 0x22a, pa := 0x60c, pb := 0x10a, ty := 2, ms := 1, xd := 1, xa := 1, xb := 1 }),
    (0x325106B36A785C5E, 0, .vdiv { pd := 0x59b, pa := 0x29e, pb := 0xb8, ty := 2, ms := 1, xd := 1, xa := 1, xb := 1 }),
    (0x32AE0744FE08005C, 0, .vsqrt { pd := 0x227, pa := 0x782, ty := 2, ms := 1, xd := 1, xa := 1 }),
    (0x305E889BDB68E45E, 0, .vmin { pd := 0x4de, pa := 0x6da, pb := 0x1c8, ty := 2, ms := 1, xd := 1, xa := 1, xb := 1 }),
    (0x37A10956FFD636DE, 0, .vmax { pd := 0x2b7, pa := 0x7f5, pb := 0x46d, ty := 2, ms := 1, xd := 1, xa := 1, xb := 1 }),
    (0x35CB8AF04384005C, 0, .vabs { pd := 0x782, pa := 0xe1, ty := 2, ms := 1, xd := 1, xa := 1 }),
    (0x39470B33DDD8005C, 0, .vneg { pd := 0x19e, pa := 0x776, ty := 2, ms := 1, xd := 1, xa := 1 }),
    (0x30948C723006B0CE, 0, .vceq { pd := 0x391, pa := 0x401, pb := 0x561, ty := 2, xd := 1, xa := 1, xb := 1 }),
    (0x3F310DFEA804264E, 0, .vclt { pd := 0x7f5, pa := 0x201, pb := 0x4c, ty := 2, xd := 1, xa := 1, xb := 1 }),
    (0x3C940E3F1DEDCA4E, 0, .vcle { pd := 0x1f8, pa := 0x77b, pb := 0x394, ty := 2, xd := 1, xa := 1, xb := 1 }),
    (0x365B0FF890393BCE, 0, .vcun { pd := 0x7c4, pa := 0x40e, pb := 0x277, ty := 2, xd := 1, xa := 1, xb := 1 }),
    (0x342710D53C3ED45E, 0, .viadd { pd := 0x6a9, pa := 0x70f, pb := 0x5a8, ty := 2, ms := 1, xd := 1, xa := 1, xb := 1 }),
    (0x32B41103C24680DE, 0, .visub { pd := 0x1e, pa := 0x91, pb := 0x501, ty := 2, ms := 1, xd := 1, xa := 1, xb := 1 }),
    (0x3EB392AA7AED86DE, 0, .vimul { pd := 0x553, pa := 0x6bb, pb := 0x30d, ty := 2, ms := 1, xd := 1, xa := 1, xb := 1 }),
    (0x3A86932F850D13DE, 0, .vimulh { pd := 0x17c, pa := 0x143, pb := 0x227, ty := 2, ms := 1, xd := 1, xa := 1, xb := 1 }),
    (0x36F894F91F8A30DE, 0, .vimin { pd := 0x7c8, pa := 0x7e2, pb := 0x461, ty := 2, ms := 1, xd := 1, xa := 1, xb := 1 }),
    (0x38EC955B65DC01DE, 0, .vimax { pd := 0x2db, pa := 0x177, pb := 3, ty := 2, ms := 1, xd := 1, xa := 1, xb := 1 }),
    (0x30289680D500004C, 0, .viabs { pd := 0x406, pa := 0x540, ty := 2, xd := 1, xa := 1 }),
    (0x3C9B1717687B455E, 0, .vshl { pd := 0xbb, pa := 0x21e, pb := 0x68a, ty := 2, ms := 1, xd := 1, xa := 1, xb := 1 }),
    (0x3A6F9805E999385E, 0, .vshr { pd := 0x2f, pa := 0x266, pb := 0x270, ty := 2, ms := 1, xd := 1, xa := 1, xb := 1 }),
    (0x3DBC19B89F85FADE, 0, .viceq { pd := 0x5c4, pa := 0x7e1, pb := 0x3f5, ty := 2, ms := 1, xd := 1, xa := 1, xb := 1 }),
    (0x30FF1ABBF673405E, 0, .viclt { pd := 0x5df, pa := 0x59c, pb := 0x680, ty := 2, ms := 1, xd := 1, xa := 1, xb := 1 }),
    (0x319F9B0AC4468CDE, 0, .vicle { pd := 0x56, pa := 0x111, pb := 0x519, ty := 2, ms := 1, xd := 1, xa := 1, xb := 1 }),
    (0x301B1CA0C09E818E, 0, .vand { pd := 0x506, pa := 0x27, pb := 0x503, xd := 1, xa := 1, xb := 1 }),
    (0x38119D751988480E, 0, .vor { pd := 0x3a8, pa := 0x662, pb := 0x90, xd := 1, xa := 1, xb := 1 }),
    (0x37621ECF4267628E, 0, .vxor { pd := 0x67a, pa := 0x99, pb := 0x6c5, xd := 1, xa := 1, xb := 1 }),
    (0x32749FBD94D3E78E, 0, .vandn { pd := 0x5ec, pa := 0x534, pb := 0x7cf, xd := 1, xa := 1, xb := 1 }),
    (0x327AA07ADD26BC8E, 0, .vsel { pd := 0x3d6, pa := 0x749, pb := 0x579, xd := 1, xa := 1, xb := 1 }),
    (0x39BDA199A4B8000C, 0, .vmov { pd := 0x4cd, pa := 0x12e, xd := 1, xa := 1 }),
    (0x31F0A89F322DC42E, 0, .vcvtF32 { pd := 0x4f9, pa := 0x48b, pm := 3, rm := 4, df := 4, sl := 5, xd := 1, xa := 1 }),
    (0x3FAAA97C689FF6B6, 0, .vcvtBf16 { pd := 0x3e3, pa := 0x227, pm := 7, rm := 7, df := 6, sl := 0x16, xd := 1, xa := 1 }),
    (0x3EE8AA4A96B3F68E, 0, .vcvtFp16 { pd := 0x254, pa := 0x5ac, pm := 7, rm := 7, df := 6, sl := 0x11, xd := 1, xa := 1 }),
    (0x32BF2B7798933126, 0, .vcvtE4m3 { pd := 0x3bc, pa := 0x624, pm := 6, rm := 3, df := 1, sl := 4, xd := 1, xa := 1 }),
    (0x32722CEFCF27310E, 0, .vcvtE5m2 { pd := 0x77e, pa := 0x3c9, pm := 6, rm := 3, df := 1, sl := 1, xd := 1, xa := 1 }),
    (0x3C612DD2103BA2FE, 0, .vcvtE2m1 { pd := 0x690, pa := 0x40e, pm := 7, rm := 2, df := 2, sl := 0x1f, xd := 1, xa := 1 })
  ] : List (Syll × Lit × Instr)).all (fun x => (decodeSyll x.1 x.2.1).toOption = some x.2.2) = true := by decide

/-- R158, R165: words laid out from the tables of the spec, field by field, and the instructions they stand for. -/
theorem test_words_vector_2 : ([
    (0x3860AE35DD58A11E, 0, .vcvtVq2 { pd := 0x1ae, pa := 0x756, pm := 1, rm := 2, df := 1, sl := 3, xd := 1, xa := 1 }),
    (0x3BAFAFF40B84932E, 0, .vcvtI32 { pd := 0x7a0, pa := 0x2e1, pm := 1, rm := 1, df := 3, sl := 5, xd := 1, xa := 1 }),
    (0x30CB303B4FF088EE, 0, .vcvtI16 { pd := 0x1da, pa := 0x3fc, pm := 1, df := 8, sl := 0x1d, xd := 1, xa := 1 }),
    (0x3CF93128C0228EFE, 0, .vcvtI8 { pd := 0x146, pa := 8, pm := 5, df := 0xe, sl := 0x1f, xd := 1, xa := 1 }),
    (0x3C09324D774BA22E, 0, .vcvtI4 { pd := 0x26b, pa := 0x5d2, pm := 7, rm := 2, df := 2, sl := 5, xd := 1, xa := 1 }),
    (0x3A62B35103E093DE, 0, .vcvtN32 { pd := 0x288, pa := 0xf8, pm := 1, rm := 1, df := 3, sl := 0x1b, xd := 1, xa := 1 }),
    (0x3643B4C04AD488DE, 0, .vcvtN16 { pd := 0x602, pa := 0x2b5, pm := 1, df := 8, sl := 0x1b, xd := 1, xa := 1 }),
    (0x3BE935B6A0668EEE, 0, .vcvtN8 { pd := 0x5b5, pa := 0x19, pm := 5, df := 0xe, sl := 0x1d, xd := 1, xa := 1 }),
    (0x3DB2B810CC94726E, 0, .vrsum { pd := 0x86, pa := 0x325, rm := 7, df := 2, sl := 0xd, xd := 1, xa := 1 }),
    (0x334139C188D00EE6, 0, .vrmin { pd := 0x60c, pa := 0x234, df := 0xe, sl := 0x1c, xd := 1, xa := 1 }),
    (0x37FA3A0D5AB80EB6, 0, .vrmax { pd := 0x6a, pa := 0x6ae, df := 0xe, sl := 0x16, xd := 1, xa := 1 }),
    (0x3BF23BF8A8840976, 0, .vrisum { pd := 0x7c5, pa := 0x221, df := 9, sl := 0xe, xd := 1, xa := 1 }),
    (0x3682BCC91E9C4376, 0, .vscan { pd := 0x648, pa := 0x7a7, rm := 4, df := 3, sl := 0xe, xd := 1, xa := 1 }),
    (0x346F3DB842980916, 0, .viscan { pd := 0x5c2, pa := 0xa6, df := 9, sl := 2, xd := 1, xa := 1 }),
    (0x3412BEA51BD58A56, 0, .vnzs { pd := 0x528, pa := 0x6f5, pm := 3, df := 0xa, sl := 0xa, xd := 1, xa := 1 }),
    (0x39873F2BCF218A76, 0, .vnzc { pd := 0x15e, pa := 0x3c8, pm := 3, df := 0xa, sl := 0xe, xd := 1, xa := 1 }),
    (0x39A0404197AAF48E, 0, .vperm { pd := 0x20c, pa := 0x5ea, pb := 0x5e9, xd := 1, xa := 1, xb := 1 }),
    (0x355AC17BD1D800B6, 0, .vrot { pd := 0x3de, pa := 0x476, sl := 0x16, xd := 1, xa := 1 }),
    (0x370A42A4C533861E, 0, .vbcst { pd := 0x526, pa := 0x14c, pm := 7, df := 6, sl := 3, xd := 1, xa := 1 }),
    (0x391A605A5A5A5A5A, 0, .vbop { opx := 0, opd := 0x5a5a5a5a5a }),
    (0x391A7F5A5A5A5A5A, 0, .vbop { opx := 31, opd := 0x5a5a5a5a5a })
  ] : List (Syll × Lit × Instr)).all (fun x => (decodeSyll x.1 x.2.1).toOption = some x.2.2) = true := by decide

/-- R159, R167: words laid out from the tables of the spec, field by field, and the instructions they stand for. -/
theorem test_words_vector_memory : ([
    (0x5E66007415880020, 0, .vld { pl := 0x3a0, xl := 1, pm := 2, sa := 0x31, ft := 4 }),
    (0x57CF816D9A680000, 0, .vst { pl := 0x36c, xl := 1, pm := 5, sa := 0xd }),
    (0x5A3782175AB473D8, 0, .vgath { pl := 0xba, xl := 1, pm := 5, sa := 0x16, pi := 0x473, xi := 1, ft := 0xb }),
    (0x50A4833D57A48F80, 0, .vscat { pl := 0x1ea, xl := 1, pm := 3, sa := 0x34, pi := 0x48f, xi := 1 }),
    (0x56B808C016BB9000, 0, .vlda { pl := 0x600, xl := 1, th := 0xd, row := 0xe, qw := 3, ft := 9 }),
    (0x5FF0896095E50000, 0, .vsta { pl := 0x304, xl := 1, th := 0xb, row := 0x19, qw := 1 }),
    (0x56E90A4732D88000, 0, .vldc { pl := 0x239, xl := 1, th := 5, row := 0x16, ft := 8 }),
    (0x5C4E1017DF40002B, 0, .vldh { pl := 0xbe, xl := 1, hd := 0xf, sa := 0x10, ft := 0xa, pml := 3 }),
    (0x50B2916677F80002, 0, .vsth { pl := 0x333, xl := 1, hd := 7, sa := 0x3e, pml := 2 }),
    (0x5FAC9220B7BB0EC9, 0, .vgathh { pl := 0x105, xl := 1, hd := 7, sa := 0x2e, pi := 0x61d, xi := 1, ft := 2, pml := 1 }),
    (0x57F3130037F3B5C2, 0, .vscath { pl := 1, xl := 1, hd := 7, sa := 0x3c, pi := 0x76b, xi := 1, pml := 2 }),
    (0x54DD94C89428001B, 0, .vldhPm4 { pl := 0x644, xl := 1, hd := 4, sa := 0xa, ft := 6, pml := 3 }),
    (0x5EA21585DEBC0003, 0, .vsthPm4 { pl := 0x42e, xl := 1, hd := 0xe, sa := 0x2f, pml := 3 }),
    (0x51339615F1CC816E, 0, .vgathhPm4 { pl := 0xaf, xl := 1, hd := 1, sa := 0x33, pi := 0x102, xi := 1, ft := 0xb, pml := 2 }),
    (0x539697A553A50243, 0, .vscathPm4 { pl := 0x52a, xl := 1, hd := 3, sa := 0x29, pi := 0x204, xi := 1, pml := 3 })
  ] : List (Syll × Lit × Instr)).all (fun x => (decodeSyll x.1 x.2.1).toOption = some x.2.2) = true := by decide

/-- R160, R161, R168: words laid out from the tables of the spec, field by field, and the instructions they stand for. -/
theorem test_words_engine_1 : ([
    (0x7240002000E0007E, 0, .talloc { td := 4, fmt := 0xe, imm := 0x7e }),
    (0x7622015000000000, 0, .tfree { td := 0xa }),
    (0x7859026800100000, 0, .tzero { td := 0xd, fmt := 1 }),
    (0x70090340000B4000, 0, .tstat { td := 8, sa := 0x2d }),
    (0x7055840026000003, 0, .mlatch { tb := 0x13, imm := 3 }),
    (0x7A1F85929F7480FB, 0, .mma { td := 0x12, ta := 0xa, tb := 0xf, fmt := 0x17, sa := 0x12, imm := 0xfb }),
    (0x77C106A800AD8000, 0, .mmas { td := 0x15, fmt := 0xa, sa := 0x36 }),
    (0x77E7878450590004, 0x1515d2f4864703, .mmaX ⟨{ td := 0x10, ta := 0x11, tb := 8, fmt := 5, sa := 0x24, imm := 4 }, 0x1515d2f4864703⟩),
    (0x7D2D8808002F8000, 0x1515d2f4864703, .mmasX ⟨{ td := 1, fmt := 2, sa := 0x3e }, 0x1515d2f4864703⟩),
    (0x70B209BAA505C3FF, 0x7fffffff7e, .tdrain ⟨{ sa := 0x2e, sb := 0x2a, sc := 0x14, th := 2, ord := 0x1c, imm := 0x3ff }, 0x7fffffff7e⟩),
    (0x7D708A360E6DC3FF, 0x1234567a4, .tdraink ⟨{ sa := 0xd, sb := 0x20, sc := 0x39, th := 0x16, ord := 0x1c, imm := 0x3ff }, 0x1234567a4⟩),
    (0x783B0B0F804180EF, 0, .tcvt { td := 1, ta := 0x1e, fmt := 4, sa := 6, imm := 0xef }),
    (0x774A0C1F00000000, 0, .tmov { td := 3, ta := 0x1c }),
    (0x7D940D1F00000000, 0, .txpose { td := 3, ta := 0x1c }),
    (0x7BD88EF0000B4000, 0, .trowp { td := 0x1e, sa := 0x2d }),
    (0x7FC60F4000000000, 0, .twait { td := 8 }),
    (0x7D75100ED580B7FF, 0x2fedcba98765438, .cpy ⟨{ sa := 3, sb := 0x2d, sc := 0x16, ord := 0xb, imm := 0x7ff }, 0x2fedcba98765438⟩),
    (0x70371162C68F45FF, 0x6000000000169be, .cpym ⟨{ sa := 0x18, sb := 0x2c, sc := 0x1a, th := 7, ord := 0x14, imm := 0x5ff }, 0x6000000000169be⟩),
    (0x722812D13C0013FF, 0xa5a5a5a5a5a5a8, .cpyi ⟨{ sa := 0x34, sb := 0x13, sc := 0x30, ord := 1, imm := 0x3ff }, 0xa5a5a5a5a5a5a8⟩),
    (0x7669933A0FC025FF, 0xa5a5a5a5a5a5a8, .cpysTo ⟨{ sa := 0xe, sb := 0x20, sc := 0x3f, ord := 2, imm := 0x5ff }, 0xa5a5a5a5a5a5a8⟩),
    (0x763493532D4037FF, 0xa5a5a5a5a5a5a8, .cpysFrom ⟨{ sa := 0x14, sb := 0x32, sc := 0x35, ord := 3, imm := 0x7ff }, 0xa5a5a5a5a5a5a8⟩),
    (0x787B143DE01045FF, 0xe0000000abcdef8, .cpyf ⟨{ sa := 0xf, sb := 0x1e, th := 8, ord := 4, imm := 0x5ff }, 0xe0000000abcdef8⟩),
    (0x7FDD15C794C883FF, 0x40000000f00ba10, .cpyg ⟨{ sa := 0x31, sb := 0x39, sc := 0x13, th := 4, ord := 8, imm := 0x3ff }, 0x40000000f00ba10⟩),
    (0x772516A0CE8105FF, 0xa5a5a5a5a5a5a8, .cpysc ⟨{ sa := 0x28, sb := 0xc, sc := 0x3a, ord := 0x10, imm := 0x5ff }, 0xa5a5a5a5a5a5a8⟩),
    (0x7D5817800000001F, 0, .cpyq { sd := 0x20, imm := 0x1f }),
    (0x71CE1803B00099FF, 0, .sqgo { sa := 0x3b, ord := 0x13, imm := 0x1ff }),
    (0x74AF1903D9C09901, 0, .sqwait { sa := 0x3d, sb := 0x27, ord := 0x13, imm := 0x101 }),
    (0x7C971A000000012C, 0, .sqkill { imm := 0x12c }),
    (0x76D01B10000001E0, 0, .sqstat { sd := 4, imm := 0x1e0 }),
    (0x71A89C0BF9CBA6A6, 0xa5a5a5a5a5a5a8, .sfpool ⟨{ sa := 2, sb := 0x3f, sc := 0x27, th := 5, ord := 0x1a, imm := 0x6a6 }, 0xa5a5a5a5a5a5a8⟩),
    (0x75E41DB840000000, 0, .sfplan { sd := 0x2e, sa := 4 }),
    (0x7A0D9E69D0000000, 0, .sfstat { sd := 0x1a, sa := 0x1d }),
    (0x728A20BC800003FF, 0, .acq { sd := 0x2f, sa := 8, imm := 0x3ff }),
    (0x754CA103C00001FF, 0, .rel { sa := 0x3c, imm := 0x1ff }),
    (0x7A89220000000004, 0, .fence { imm := 4 }),
    (0x761A2300000000FF, 0, .bar { imm := 0xff }),
    (0x7EF6A43000000022, 0, .bara { sd := 0xc, imm := 0x22 }),
    (0x79FA25003000000F, 0, .barw { sa := 3, imm := 0xf }),
    (0x7C1DA6AEF0000000, 0, .frd { sd := 0x2b, sa := 0x2f }),
    (0x7A9D270366000000, 0, .ffill { sa := 0x36, sb := 0x18 })
  ] : List (Syll × Lit × Instr)).all (fun x => (decodeSyll x.1 x.2.1).toOption = some x.2.2) = true := by decide

/-- R160, R161, R168: words laid out from the tables of the spec, field by field, and the instructions they stand for. -/
theorem test_words_engine_2 : ([
    (0x756AA801D000000F, 0, .pwr { sa := 0x1d, imm := 0xf }),
    (0x7017A91C00000009, 0, .prd { sd := 7, imm := 9 }),
    (0x7B3F2A006486003F, 0, .wait { sa := 6, sb := 0x12, sc := 6, imm := 0x3f }),
    (0x7D722B0000000000, 0, .yield { }),
    (0x73F52C0000000000, 0, .endR { }),
    (0x76A32D93E000000F, 0, .launch { sd := 0x24, sa := 0x3e, imm := 0xf }),
    (0x7C2A3000000000FF, 0, .trap { imm := 0xff }),
    (0x7B69B10000000000, 0, .rett { }),
    (0x79E0B2C800000011, 0, .mfsr { sd := 0x32, imm := 0x11 }),
    (0x7DD6B30350000007, 0, .mtsr { sa := 0x35, imm := 7 }),
    (0x72CEB40000000000, 0, .ifence { }),
    (0x7F26B51000000000, 0, .rdclk { sd := 4 }),
    (0x7BED363400000008, 0, .rdid { sd := 0xd, imm := 8 }),
    (0x7E48370000000004, 0, .setrm { imm := 4 }),
    (0x7A58B83400000000, 0, .rdff { sd := 0xd }),
    (0x7BA7B9000000003F, 0, .clrff { imm := 0x3f }),
    (0x7F2F3A00000000AA, 0, .brk { imm := 0xaa }),
    (0x7D253B0800000007, 0, .pwsz { sd := 2, imm := 7 }),
    (0x7CF3C0010D00003F, 0, .bind { sa := 0x10, sb := 0x34, imm := 0x3f }),
    (0x714D410000000021, 0, .unbind { imm := 0x21 }),
    (0x711DC2640000003E, 0, .bindq { sd := 0x19, imm := 0x3e }),
    (0x71FBC3785D000000, 0, .csload { sd := 0x1e, sa := 5, sb := 0x34 }),
    (0x763CC40110000000, 0, .csinv { sa := 0x11 }),
    (0x7202C50000000000, 0, .csfence { }),
    (0x7AD9C8E800000000, 0, .nextblk { sd := 0x3a }),
    (0x78B6C9600000000F, 0, .impr { sd := 0x18, imm := 0xf }),
    (0x71654A016000000F, 0, .impw { sa := 0x16, imm := 0xf }),
    (0x7A20CA0110000000, 0, .impwCommit { sa := 0x11 }),
    (0x79844BF120000040, 0, .gclaim { sd := 0x3c, sa := 0x12, imm := 0x40 }),
    (0x72174C0010000000, 0, .gdone { sa := 1 }),
    (0x777BCD0B5000001F, 0, .handov { sd := 2, sa := 0x35, imm := 0x1f }),
    (0x791A605A5A5A5A5A, 0, .ebop { opx := 0, opd := 0x5a5a5a5a5a }),
    (0x791A7F5A5A5A5A5A, 0, .ebop { opx := 31, opd := 0x5a5a5a5a5a })
  ] : List (Syll × Lit × Instr)).all (fun x => (decodeSyll x.1 x.2.1).toOption = some x.2.2) = true := by decide
/-- R275, R278: SEQ, TGT, CND and the four transport fields of micro-words. -/
theorem test_words_micro : ([
    (0x00000000_00000000_00000000_00000001, some (.microNext { tf0 := 1 })),
    (0x1FFFC000_00000000_00000000_00000000, some (.jump { tgt := 0x3FFF })),
    (0x20007F00_00000000_00000000_00000000, some (.brt { tgt := 1, cnd := 0x3F })),
    (0x30004100_00000000_00000000_00000000, some (.brf { tgt := 1, cnd := 1 })),
    (0x40008000_00000000_00000000_00000000, some (.loop0 { tgt := 2 })),
    (0x5000C000_00000000_00000000_00000000, some (.loop1 { tgt := 3 })),
    (0x62000000_00000000_00000000_00000000, some (.microCall { tgt := 0x800 })),
    (0x70000000_00000000_00000000_00000000, some (.microRet { })),
    (0x80000000_00003FFF_FFF00000_00000000, some (.microEnd { tf2 := 0x3FFFFFF })),
    (0x90004000_00000000_000FFFFF_FC000000, some (.microTrap { tgt := 1, tf1 := 0x3FFFFFF })),
    (0xA00000FF_FFFFC000_00000000_00000000, some (.poll { tf3 := 0x3FFFFFF })),
    (0xB0000000_00000000_00000000_00000000, none), (0xF0000000_00000000_00000000_00000000, none)]
      : List (BitVec 128 × Option Instr)).all (fun x => (decodeMicro x.1).toOption = x.2) = true := by decide

/-- R169: what is not an instruction is refused, and by its reason. -/
noncomputable def refused (w : Syll) (r : Reject) : Bool := match decodeSyll w 0 with
  | .error e => e = r
  | .ok _ => false

/-- R162 to R169: opcodes of no instruction, a branch in A0, a value outside its limits, a reserved bit set. -/
theorem test_refused_words : ([
    (0x0000_3500_0000_0000, .illegalOpcode), (0x0000_4F00_0000_0000, .illegalOpcode), (0x2000_0700_0000_0000, .illegalOpcode),
    (0x6000_0600_0000_0000, .illegalOpcode), (0x3000_2200_0000_0000, .illegalOpcode), (0x5000_1800_0000_0000, .illegalOpcode),
    (0x7000_1F00_0000_0000, .illegalOpcode), (0x7000_5F00_0000_0000, .illegalOpcode), (0x0000_4000_0000_0000, .branchInA0),
    (0x0000_0000_0001_0000, .limits), (0x1000_40C0_0000_0000, .limits), (0x0000_0000_0000_0001, .reservedBits),
    (0x0000_3301_0000_0000, .reservedBits), (0x6000_0500_0000_0001, .reservedBits)]
      : List (Syll × Reject)).all (fun x => refused x.1 x.2) = true := by decide

/-- R54, R55, R169: slots that do not rise, no stop bit, a missing literal, nine syllables and two bindable opcodes are
no bundle; the first syllable is named, or the second bindable one. -/
theorem test_refused_bundles :
    (match decodeBundle [0x1000_0000_0000_0000, 0x8000_0000_0000_0000] with | .error (.bundleForm, w) => w = 0x1000_0000_0000_0000 | _ => False) ∧
    (match decodeBundle [0x0000_0000_0000_0000] with | .error (.bundleForm, _) => True | _ => False) ∧
    (match decodeBundle [0xF000_1000_0000_0000] with | .error (.bundleForm, _) => True | _ => False) ∧
    (match decodeBundle [0x7000_1000_0000_0000, 0x8000_0000_0000_0000] with | .error (.bundleForm, _) => True | _ => False) ∧
    (match decodeBundle [] with | .error (.bundleForm, _) => True | _ => False) ∧
    (match decodeBundle [0x3000_6000_0000_0000, 0xC000_6100_0000_0000] with | .error (.twoBindable, w) => w = 0xC000_6100_0000_0000 | _ => False) := by
  refine ⟨rfl, trivial, trivial, trivial, trivial, rfl⟩

/-- R189, R223, R252, R262, R269, R271, R344: the syllables that the spec's worked examples give. -/
theorem test_words_examples : ([
    (0x9000_4C01_0000_0000, 0, .bdnz { sa := 1 }), (0xA000_1418_5FE0_0000, 0, .ldsW { sd := 6, sa := 5, imm := 0xFE0000 }),
    (0xB000_3E48_0400_0300, 0, .vnzs { pd := 0x240, pa := 0x100, df := 3 }),
    (0x7000_1230_D380_0220, 0, .cpyi ⟨{ sa := 12, sb := 13, sc := 14, imm := 0x220 }, 0⟩),
    (0xF000_3300_3000_0005, 0, .mtsr { sa := 3, imm := 5 }), (0xF000_3100_0000_0000, 0, .rett { }),
    (0xF240_CD7C_2000_0002, 0, .handov { sd := 31, sa := 2, imm := 2 }), (0xF000_2418_0000_0022, 0, .bara { sd := 6, imm := 0x22 })]
      : List (Syll × Lit × Instr)).all (fun x => (decodeSyll x.1 x.2.1).toOption = some x.2.2) = true := by decide

/-! For every statement with hypotheses, a machine and operands that meet them together. -/

/-- A strand alone in its gang, about to issue on a machine right after reset. -/
def base : State := State.reset.placed []

/-- That machine with its strand changed. -/
def withMe (f : Strand → Strand) : State := base.onMe f

/-- General registers given values. -/
def regs (l : List (Nat × BitVec 64)) : State := withMe (fun t => { t with s := l })

theorem witness_ScalarResults : scalarRule (regs [(1, 5), (2, 0)]) (.divS { sd := 3, sa := 1, sb := 2 }) = some (3, 18, -1) ∧
    scalarRule (regs [(1, 1 <<< 63), (2, 0xFFFFFFFFFFFFFFFF)]) (.divS { sd := 0, sa := 1, sb := 2 }) = some (0, 18, 0x8000000000000000) := by decide
theorem witness_ScalarBitResults : clz64 0 = 64 ∧ clz64 1 = 63 ∧ ctz64 (1 <<< 63) = 63 := by decide
theorem witness_ResultsLand : ∃ (t : Strand) (l : Landing), l.dest = .scalar 0 7 ∧ l.pre = false ∧ t.fly = l :: [{ due := 4 }] ∧
    (∀ x ∈ [({ due := 4 } : Landing)], t.steps < x.due) ∧ l.due ≤ t.steps :=
  ⟨{ steps := 3, fly := [{ due := 3, dest := .scalar 0 7 }, { due := 4 }] }, { due := 3, dest := .scalar 0 7 }, by decide⟩
theorem witness_ResultsLand_early : ∃ (t : Strand) (l : Landing), l.dest = .scalar 5 7 ∧ l.pre = false ∧ t.fly = l :: [] ∧ t.steps < l.due :=
  ⟨{ steps := 3, fly := [{ due := 4, dest := .scalar 5 7 }] }, { due := 4, dest := .scalar 5 7 }, by decide⟩
theorem witness_BranchResults : branchRule base (.beq { disp := 1 }) = some (true, 0, 0x100008, none) ∧ goodTarget 0x100008 := by
  unfold goodTarget; decide
theorem witness_BranchResults_not_taken : branchRule base (.bne { bf := 1, disp := 1 }) = some (false, 1, 0x100008, none) := by decide
theorem witness_BranchResults_link : branchRule (regs [(1, 0xFFFFFFFFFFFFF8)]) (.jlx { sd := 61, sa := 1, disp := 0 }) =
    some (true, 0, 0xFFFFFFFFFFFFF8, some (61, BitVec.ofNat 64 (base.linkOf base.me base.me.pc.toNat))) ∧ goodTarget 0xFFFFFFFFFFFFF8 :=
  ⟨rfl, by unfold goodTarget; decide⟩
theorem witness_BranchResults_traps : branchRule (regs [(1, 0)]) (.jlx { sa := 1 }) = some (true, 0, 0, some (0, BitVec.ofNat 64
      (base.linkOf base.me base.me.pc.toNat))) ∧ ¬goodTarget 0 ∧ ¬goodTarget 4 ∧ ¬goodTarget 0x100000000000000 :=
  ⟨rfl, by unfold goodTarget; decide, by unfold goodTarget; decide, by unfold goodTarget; decide⟩
theorem witness_DelaySlots : ∃ (t : Strand) (e f : Redirect), t.rq = [] ∧ e.rd = 2 ∧ e.ra1 = e.ra2 ∧ e.rt ≠ 0 ∧ f.rd = 2 ∧ f.ra1 = true ∧ f.ra2 = true ∧ f.rt = 0 :=
  ⟨{}, { rd := 2, rt := 8 }, { rd := 2, ra1 := true, ra2 := true }, by decide⟩
/-- Branches in both delay slots of a taken one: not taken under BF 1, and taken under BF 2. -/
theorem witness_DelaySlots_branches : ∀ r ∈ ([{ rd := 2, rt := 0x100100 }, { rd := 2, ra1 := true, ra2 := true }, { rd := 2, ra1 := true, ra2 := true, rt := 0x100200 }] : List Redirect),
    r.rd = 2 ∧ r.ra1 = r.ra2 := by decide

/-- Handle 1 of page 5 of HBM, 4 KiB, with every right. -/
def onPage : State := withMe (fun t => { t with hd := [(1, { hs := 1, pr := true, pw := true, pa := true, pb := 5, vb := 7 })] })

theorem handleReady (off n : Nat) (right : Handle → Bool) (h : right (onPage.me.handle 1) = true) (hb : off + n ≤ 4096) (ha : off % n = 0) :
    HandleReady onPage 1 off n right where
  valid := by decide
  kind := by decide
  granted := h
  bounds := hb
  aligned := ha
  backed := by
    show decide (5 * 4096 + off + n ≤ 2 ^ 39) = true
    simp only [decide_eq_true_eq]; omega
  free := by rfl
theorem witness_HandleLoads : loadRule (.ldD { sd := 2, hd := 1, imm := 4088 }) = some ({ sd := 2, hd := 1, imm := 4088 }, false, 8) ∧
    HandleReady onPage 1 (offsetOf onPage { sd := 2, hd := 1, imm := 4088 }) 8 Handle.pr ∧ onPage.me.ldq.length < 63 :=
  ⟨rfl, handleReady 4088 8 _ rfl (by decide) (by decide), by decide⟩
theorem witness_HandleStores : storeRule (.stB { sd := 2, hd := 1, imm := 4095 }) = some ({ sd := 2, hd := 1, imm := 4095 }, 1) ∧
    HandleReady onPage 1 (offsetOf onPage { sd := 2, hd := 1, imm := 4095 }) 1 Handle.pw ∧ onPage.me.stq.length < 63 ∧
    Writable (onPage.me.handle 1).kd.toNat (physOf onPage 1 4095) 1 ∧ (onPage.logAll 0 0 (pagesOf 0 (7 * 4096 + 4095) 1)).2 = true :=
  ⟨rfl, handleReady 4095 1 _ rfl (by decide) (by decide), by decide, fun h => absurd h (by decide), by rfl⟩
/-- A page to be logged, with no slot free for it. -/
theorem witness_HandleStores_full : ∃ s : State, s.me = onPage.me ∧ (s.logAll 0 0 (pagesOf 0 (7 * 4096) 1)).2 = false :=
  ⟨{ onPage with parts := tmod onPage.parts 0 (fun p => { p with dirty := [(0, { size := 1, armed := true, ring := [1] })] }) }, rfl, by rfl⟩
theorem cap_none : ∀ (l : Cells 32) (k : Nat), l.all (fun e => e.2.extractLsb' 16 8 == 0) = true → (cget l k).extractLsb' 16 8 = 0
  | [], _, _ => (by decide : (0 : BitVec 32).extractLsb' 16 8 = 0)
  | (a, x) :: r, k, h => by
    rw [List.all_cons, Bool.and_eq_true] at h
    unfold cget
    split
    · exact beq_iff_eq.mp h.1
    · exact cap_none r k h.2
/-- A machine without caps, in which nothing waits at an arbiter, serves every access. -/
theorem served_idle (s : State) (hb : (tget s.parts s.me.part).bw.all (fun e => e.2.extractLsb' 16 8 == 0) = true)
    (hs : s.strands.all (fun e => e.2.asks.isNone && (tget s.strands e.1).held.isEmpty) = true) (l : List (Nat × Nat)) : Served s l := by
  intro p _ x _
  constructor
  · have hc : s.cap2 s.me.part (s.tenantOf s.me) x = 0 := by
      unfold State.cap2 State.bwEntry
      by_cases h : ownsRes (tget s.parts s.me.part).res x = true
      · rw [if_pos h]; exact if_pos (cap_none _ _ hb)
      · rw [if_neg h]
    simp [State.capped, hc]
  · unfold State.firstAt State.askedFirst
    simp only [Bool.and_eq_true, Bool.not_eq_true', List.any_eq_false]
    rw [List.all_eq_true] at hs
    refine ⟨fun e he => ?_, fun e he => ?_⟩
    · have h := (Bool.and_eq_true _ _ ▸ hs e he).1
      rw [Option.isNone_iff_eq_none] at h
      simp [h]
    · have h := (Bool.and_eq_true _ _ ▸ hs e he).2
      rw [List.isEmpty_iff] at h
      simp [State.heldReady, Strand.heldAt, h]
/-- The machine with a cap of 14,062.5 bytes at channel group 0 for tenant 0, which has been served 14,063 there. -/
def atCap (s : State) : State := { s with
  parts := tmod s.parts 0 (fun p => { p with res := { p.res with hbm := [(0, 1)] }, bw := [(0, 0x00010000)], served := [(0, 14063)] }) }
theorem witness_HandleLoads_served : Served onPage [(0, 5 * 4096 + 4088)] ∧ Capped (atCap onPage) [(0, 5 * 4096)] ∧
    HandleReady (atCap onPage) 1 0 8 Handle.pr ∧ HandleReady (atCap onPage) 1 0 8 Handle.pw ∧ (atCap onPage).me.ldq.length < 63 ∧ (atCap onPage).me.stq.length < 63 :=
  ⟨served_idle _ (by decide) (by decide) _, ⟨_, List.mem_singleton.mpr rfl, 0, rfl, by decide⟩,
    ⟨by decide, by decide, by decide, by decide, by decide, by rfl, by rfl⟩, ⟨by decide, by decide, by decide, by decide, by decide, by rfl, by rfl⟩, by decide, by decide⟩
theorem witness_HandleTraps : handleTrap onPage 2 0 4 Handle.pr = some (0x000A, 2) ∧ handleTrap onPage 1 4093 4 Handle.pr = some (0x0007, 4093) ∧
    handleTrap onPage 1 4090 4 Handle.pw = some (0x0006, 4090) ∧
    handleTrap (withMe (fun t => { t with hd := [(1, { hs := 1, kd := 2 })] })) 1 0 4 Handle.pr = some (0x0009, 0) ∧
    handleTrap (withMe (fun t => { t with hd := [(1, { hs := 1 })] })) 1 0 4 Handle.pr = some (0x0008, 0) := by decide
theorem witness_HandleTraps_others : (∃ o f, atomicRule (.aadd o) = some (o, f) ∧ o.sp = 0 ∧
      handleTrap onPage o.hd ((onPage.reg o.sc).toNat + o.imm.toNat * atomSize o) (atomSize o) Handle.pa = some (0x000A, 15)) ∧
    GLines onPage.me (lineOf 0x7C0 1) none ∧ lanesTrap onPage none 1 3969 Handle.pr = some (0x0007, 4093) ∧
    lanesTrap onPage none 1 2 Handle.pw = some (0x0006, 2) ∧ lanesTrap onPage none 2 0 Handle.pr = some (0x000A, 2) ∧
    lanesTrap (withMe (fun t => { t with hd := [(1, { hs := 1, kd := 2 })] })) none 1 0 Handle.pr = some (0x0009, 0) ∧
    lanesTrap (withMe (fun t => { t with hd := [(1, { hs := 1, vb := 7 })] })) none 1 8 Handle.pr = some (0x0008, 7 * 4096 + 8) ∧
    2 ≤ ((withMe (fun t => { t with hd := [(1, { hs := 2 }), (2, { hs := 3 })] })).me.handle 1).hs.toNat ∧
    pmDstOk (tagWidth (onPage.me.tagOf 31)) (pmOf false { }) = true :=
  ⟨⟨{ hd := 15 }, _, rfl, rfl, by decide⟩, ⟨by decide, fun _ h => by cases h⟩, by decide, by decide, by decide, by decide, by decide, by decide, by decide⟩

/-- Two strands of one gang, the second with a window of 4 KiB. -/
def pair : State := { base with
  strands := tset base.strands 9 { gang := 2, batch := 3, rank := 1, resident := true, core := 1, win := { sb := 1 } },
  gangs := tmod base.gangs 2 (fun g => { g with strands := [1, 9] }) }

/-- The same with general registers given values. -/
def pairRegs (l : List (Nat × BitVec 64)) : State := pair.onMe (fun t => { t with s := l })

theorem witness_ScratchReads : loadSRule (.ldsD { sd := 2, sa := 1 }) = some ({ sd := 2, sa := 1 }, false, 8) ∧
    SReady (regs [(1, 0xFFFFF8)]) ((regs [(1, 0xFFFFF8)]).reg 1).toNat 8 1 :=
  ⟨rfl, by decide, by decide, by decide, by decide⟩
theorem witness_ScratchReads_sibling : loadSRule (.ldsH { sd := 2, imm := 0x20FFE }) = some ({ sd := 2, imm := 0x20FFE }, true, 2) ∧
    SReady pair ((pair.reg 0).toNat + 0x20FFE) 2 9 ∧ (0x20FFE : Nat) / 2 ^ 17 ≠ 127 ∧ pair.me.ldq.length < 63 :=
  ⟨rfl, ⟨by decide, by decide, by decide, by decide⟩, by decide, by decide⟩
theorem witness_ScratchStores : storeSRule (.stsB { sd := 2, imm := 0xFFFFFF }) = some ({ sd := 2, imm := 0xFFFFFF }, 1) ∧
    SReady base ((base.reg 0).toNat + 0xFFFFFF) 1 1 ∧ (tfind base.strands 1).isSome = true ∧
    SReady pair 0x20FFC 4 9 ∧ (tfind pair.strands 9).isSome = true ∧ pair.me.stq.length < 63 :=
  ⟨rfl, ⟨by decide, by decide, by decide, by decide⟩, by decide, ⟨by decide, by decide, by decide, by decide⟩, by decide, by decide⟩
/-- An address beyond the space, one of no sibling, one beyond the window and a misaligned one. -/
theorem witness_ScratchTraps : scratchTrap base 0x1000000 4 = some 0x0003 ∧ scratchTrap base 0x20000 4 = some 0x0003 ∧ scratchTrap base 0xFFFFFD 4 = some 0x0003 ∧
    scratchTrap base 0xFE0002 4 = some 0x0006 ∧ scratchTrap pair 0x20FFD 4 = some 0x0003 ∧ scratchTrap base 0xFFFFF8 8 = none := by decide
theorem witness_HandleAtomics : ∃ o f, atomicRule (.aadd o) = some (o, f) ∧ o.sp = 0 ∧ (∀ e ∈ (tget onPage.clusters onPage.cl).lines, e.1 < 2 ^ 33) ∧
    HandleReady onPage o.hd ((onPage.reg o.sc).toNat + o.imm.toNat * atomSize o) (atomSize o) Handle.pa ∧ o.sd = 0 ∧ onPage.me.stq.length < 63 ∧
    anyHeld onPage.me = false ∧ (onPage.logAll 0 0 (pagesOf 0 (7 * 4096) 8)).2 = true ∧ Writable 0 (5 * 4096) 8 ∧ onPage.atomicFree 0 0 ((resourceOf 0 (5 * 4096)).getD 0) = true :=
  ⟨{ hd := 1, sz := 1, ord := 0x18 }, _, rfl, rfl, by decide, handleReady 0 8 _ rfl (by decide) (by decide), rfl, by decide, by decide, by rfl, fun h => absurd h (by decide), by decide⟩
theorem witness_HandleAtomics_returning : ∃ o f, atomicRule (.acas o) = some (o, f) ∧ o.sp = 0 ∧
    HandleReady onPage o.hd ((onPage.reg o.sc).toNat + o.imm.toNat * atomSize o) (atomSize o) Handle.pa ∧ o.sd ≠ 0 ∧ onPage.me.ldq.length < 63 ∧
    bitAt o.ord 3 = false :=
  ⟨{ sd := 4, hd := 1, imm := 31 }, _, rfl, rfl, handleReady 124 4 _ rfl (by decide) (by decide), by decide, by decide, by decide⟩
/-- The page with an earlier atomic of the strand held at another place. -/
theorem witness_HandleAtomics_held : ∃ s : State, anyHeld s.me = true ∧ HandleReady s 1 0 8 Handle.pa ∧ bitAt (0x10 : BitVec 5) 4 = true ∧ bitAt (0x10 : BitVec 5) 3 = false :=
  ⟨onPage.onMe (fun t => { t with ldq := [{ lanes := 1, held := some { kind := 0, pa := 4096 } }] }), by decide,
    ⟨by decide, by decide, by decide, by decide, by decide, by rfl, by rfl⟩, by decide, by decide⟩
theorem witness_ScratchAtomics : ∃ o f, atomicRule (.abadd o) = some (o, f) ∧ o.sp = 1 ∧
    SReady (pairRegs [(1, 0x20FF0)]) (((pairRegs [(1, 0x20FF0)]).reg o.sc).toNat + o.imm.toNat * atomSize o) (atomSize o) 9 ∧
    (tfind (pairRegs [(1, 0x20FF0)]).strands 9).isSome = true ∧ (pairRegs [(1, 0x20FF0)]).me.ldq.length < 63 ∧ bitAt o.ord 3 = false :=
  ⟨{ sd := 4, sc := 1, sp := 1, imm := 3 }, _, rfl, rfl, ⟨by decide, by decide, by decide, by decide⟩, by decide, by decide, by decide⟩

/-- A page table entry of R97 and R98 and where it stands. -/
def entries (l : List (Nat × BitVec 64)) : List Host.Cell := l.foldl (fun m p => cwrite m p.1 (dwBytes p.2)) []

/-- Pages of 1 GiB in region 0: the first is HBM from 1 GiB on with every right, the second withholds all rights, the
third is staging memory, the fourth the capacity tier, the fifth is absent. -/
def mapped : State := { base with
  mem := entries [(0x1000, 0x8000000000002000), (0x2000, 0x8000000000003000), (0x3000, 0xB800000040000000), (0x3008, 0x8000000040000000),
    (0x3010, 0xB900000000000000), (0x3018, 0xBA00000000000000)],
  parts := tmod base.parts 0 (fun p => { p with regions := [(0, 0xC000000000001000)] }) }

/-- The leaf of its first page. -/
def firstLeaf : Leaf := { ps := 4, kd := 0, pr := true, pw := true, pa := true, base := 0x40000000, vbase := 0 }

theorem mapped_first : mapped.walk 0 0 = .leaf firstLeaf := by decide

/-- The mapped machine with registers of the strand given values. -/
def mappedMe (f : Strand → Strand) : State := mapped.onMe f

theorem witness_Translations : (base.reg 0).toNat < 2 ^ 56 ∧ mapped.routeOf mapped.me.part 0 = none ∧ mapped.walk 0 ((mapped.reg 0).setWidth 56) = .leaf firstLeaf ∧
    firstLeaf.grants 7 = true ∧ mapped.walk 0 0x100000000 = .absent := ⟨by decide, by decide, by rfl, by decide, by rfl⟩
theorem witness_WindowReads : ∃ (s : State) (o : FmtLP) (ps : List (Place × Nat)), (cget s.me.pw o.pw.toNat).getLsbD 63 = true ∧
    ((s.reg o.sa).toNat + o.imm.toNat) % 4 = 0 ∧ s.me.ldq.length < 63 ∧
    s.vPlaces ((cget s.me.pw o.pw.toNat).toNat % 2 ^ 50 * 64 + ((s.reg o.sa).toNat + o.imm.toNat))
      (min 4 (64 * ((cget s.me.pw o.pw.toNat).toNat / 2 ^ 50 % 2 ^ 11 + 1) - ((s.reg o.sa).toNat + o.imm.toNat))) 1 1 = .ok ps :=
  ⟨mappedMe (fun t => { t with pw := [(3, 0x8000000000000001)] }), { sd := 1, pw := 3, imm := 60 },
    [({ kind := 0, pa := 0x40000000 + 124, va := 124 }, 4)], by decide, by decide, by decide, by rfl⟩
theorem witness_WindowReads_served : Served mapped [(0, 0x40000000 + 124)] ∧ Capped (atCap mapped) [(0, 0x40000000 + 124)] ∧
    (∃ s : State, s.parts = (atCap mapped).parts ∧ (cget s.me.pw 3).getLsbD 63 = true ∧ s.me.ldq.length < 63 ∧
      s.vPlaces 124 4 1 1 = .ok [({ kind := 0, pa := 0x40000000 + 124, va := 124 }, 4)] ∧ s.me.heldClash 0 (0x40000000 + 124) 4 = false) :=
  ⟨served_idle _ (by decide) (by decide) _, ⟨_, List.mem_singleton.mpr rfl, 0, rfl, by decide⟩,
    (atCap mapped).onMe (fun t => { t with pw := [(3, 0x8000000000000001)] }), rfl, by decide, by decide, by rfl, by decide⟩
theorem witness_WindowTraps : (cget base.me.pw 3).getLsbD 63 = false ∧
    (cget (mappedMe (fun t => { t with pw := [(3, 0x8000000000000001)] })).me.pw 3).getLsbD 63 = true ∧ (0 + 62) % 4 ≠ 0 := by decide
theorem witness_StrandCompletions_walk : ∃ (s : State) (l : Landing) (pre post : List Landing), (tget s.strands 1).fly = pre ++ l :: post ∧
    (∀ x ∈ pre, x.walk = false) ∧ l.walk = true ∧ (tfind s.strands 1).isSome = true :=
  ⟨withMe (fun t => { t with fly := [{ due := 3 }, { due := 24, walk := true }] }), { due := 24, walk := true }, [{ due := 3 }], [], by decide⟩
theorem witness_StrandCompletions_landing : (tfind base.strands 1).isSome = true ∧ (tget base.strands 1).walkHeld = false := by decide
theorem witness_StrandCompletions_ld : ∃ (s : State) (o : LdOp), (tfind s.strands 1).isSome = true ∧ (tget s.strands 1).ldq = [o, { lanes := 1 }] ∧
    o.dest = .scalar 2 5 ∧ o.held = none ∧ o.pre = false ∧ o.lanes &&& 1 ≠ 0 ∧ (∀ x ∈ [({ lanes := 1 } : LdOp)], x.lanes ≠ 0) ∧
    (tget s.gangs (tget s.strands 1).gang).halt = none :=
  ⟨withMe (fun t => { t with ldq := [{ dest := .scalar 2 5, lanes := 0xFFFFFFFF }, { lanes := 1 }] }),
    { dest := .scalar 2 5, lanes := 0xFFFFFFFF }, by decide⟩
theorem witness_StrandCompletions_st : ∃ (s : State) (o : StOp), (tfind s.strands 1).isSome = true ∧ (tget s.strands 1).stq = [o, {}] ∧ o.held = none ∧
    (∀ x ∈ [({} : StOp)], x.done = false) ∧ (tget s.gangs (tget s.strands 1).gang).halt = none :=
  ⟨withMe (fun t => { t with stq := [{}, {}] }), {}, by decide⟩
/-- A line load of two lanes, of which the first arrives. -/
theorem witness_StrandCompletions_lanes : ∃ (s : State) (o : LdOp), (tfind s.strands 1).isSome = true ∧ (tget s.strands 1).ldq = o :: [] ∧
    o.dest = .line (lineOf 0x40 0) 0 (List.replicate 32 5) (List.replicate 32 0xFFFFFFFF) 8 ∧ o.held = none ∧ o.pre = false ∧ o.wo = false ∧
    o.lanes &&& 1 ≠ 0 ∧ o.lanes &&& ~~~ 1 ≠ 0 ∧ (tget s.gangs (tget s.strands 1).gang).halt = none :=
  ⟨withMe (fun t => { t with ldq := [{ dest := .line (lineOf 0x40 0) 0 (List.replicate 32 5) (List.replicate 32 0xFFFFFFFF) 8, lanes := 3 }] }), _, rfl, rfl, rfl, by decide⟩
theorem witness_Transfers : (transferRule base (.xxch { sd := 1, sa := 2, pl := 0x7FF, xl := 1, ei := 31, ft := 14 })).isSome = true ∧
    (lineOf 0x7FF 1).pn.toNat < base.me.win.pl ∧ (withMe (fun t => { t with win := { pl := 31 } })).me.win.pl ≤ (lineOf 0x7FF 1).pn.toNat := by decide

/-- The strand with the planes of `l` tagged. -/
def tagged (l : List (Nat × BitVec 4)) : State := withMe (fun t => { t with ptag := l })

theorem witness_VectorFloat : ∃ (o : FmtV3) (a b : LineRef), (vecFRule (.vfma o)).isSome = true ∧ o.ty ≠ 3 ∧
    V3Ready (tagged [(1, 2), (2, 2), (3, 2)]) o false true 16 [o.ty.setWidth 4 + 1] a b :=
  ⟨{ pd := 0x40, pa := 0x80, pb := 0xC0, ty := 1, ms := 1 }, _, _, rfl, by decide,
    ⟨rfl, rfl, by decide, ⟨by decide, by decide⟩, fun _ => ⟨by decide, by decide⟩, fun _ => ⟨by decide, by decide⟩, by decide, fun _ => by decide⟩⟩
theorem witness_VectorFloat_latched : ∃ (s : State) (o : FmtV3) (a : LineRef), (vecFRule (.vsqrt o)).isSome = true ∧ o.ty ≠ 3 ∧
    V3Ready s o true false 32 [o.ty.setWidth 4 + 1] a a ∧ s.me.cb = true ∧ o.pa = 0x7FF ∧ o.xa = 1 :=
  ⟨withMe (fun t => { t with cb := true, latches := [(0, { hv := true, hf := 0x41 })] }), { pd := 0x40, pa := 0x7FF, xa := 1 }, lineOf 0x41 0, rfl, by decide,
    ⟨rfl, rfl, by decide, ⟨by decide, by decide⟩, fun h => (by cases h), fun h => (by cases h), by decide, fun h => (by cases h)⟩, rfl, rfl, rfl⟩
theorem witness_VectorInteger : ∃ (o : FmtV3) (a b : LineRef), (vecIRule (.vimulh o)).isSome = true ∧
    V3Ready (tagged [(2, 13), (3, 9)]) o false false 16 [8 + o.ty.setWidth 4, 12 + o.ty.setWidth 4] a b ∧
    V3Ready (tagged [(2, 11)]) { o with ty := 3 } false false 4 [11] a b :=
  ⟨{ pd := 0x40, pa := 0x80, pb := 0xC0, ty := 1, ms := 1 }, _, _, rfl,
    ⟨rfl, rfl, by decide, ⟨by decide, by decide⟩, fun _ => ⟨by decide, by decide⟩, fun h => (by cases h), by decide, fun _ => by decide⟩,
    ⟨rfl, rfl, by decide, ⟨by decide, by decide⟩, fun _ => ⟨by decide, by decide⟩, fun h => (by cases h), by decide, fun _ => by decide⟩⟩
theorem witness_LineBitwise : ∃ (o : FmtV3) (a b : LineRef), (vecBRule (.vsel o)).isSome = true ∧ V3Ready (tagged [(2, 13), (3, 7)]) o false false 32 [] a b :=
  ⟨{ pd := 0x40, pa := 0x80, pb := 0xC0 }, _, _, rfl,
    ⟨rfl, rfl, by decide, ⟨by decide, by decide⟩, fun _ => ⟨by decide, by decide⟩, fun h => (by cases h), by decide, fun _ => by decide⟩⟩
theorem witness_RoundsOnce : Small (.fin true 0xFFFFFF 104) ∧ Small (.fin false 1 (-149)) ∧ Small (.fin false 0 0) :=
  ⟨⟨_, _, _, rfl, by decide⟩, ⟨_, _, _, rfl, by decide⟩, ⟨_, _, _, rfl, by decide⟩⟩
/-- A plane beyond the window, a tag that is not accepted, and an empty latch. -/
theorem witness_LineTraps : lineTrap (withMe (fun t => { t with win := { pl := 31 } })) (lineOf 0x7C0 0) [some (lineOf 0 0)] [] [] [] = some (0x0003, 31) ∧
    lineTrap (tagged [(2, 13)]) (lineOf 0x40 0) [some (lineOf 0x80 0)] [] [] [1] = some (0x0004, 0x1D02) ∧
    lineTrap base (lineOf 0x40 0) [none] [] [] [1] = some (0x0001, base.issue.word) ∧ (v3Form (.vperm {})).isSome = true ∧ (vuForm (.vrisum {})).isSome = true ∧
    sourceLine (withMe (fun t => { t with cb := true })) 0 0x7FF 1 = none := by decide
theorem witness_VectorMoves : ∃ (o : FmtVU) (a : LineRef), VUReady base { o with df := 0, pm := 0 } [] a ∧
    VUReady (tagged [(2, 10)]) o (if o.df = 0 then [] else [o.df]) a ∧ pmDstOk (tagWidth o.df) (sourcePm (tagged [(2, 10)]) 0 o.pa o.xa o.pm) = true :=
  ⟨{ pd := 0x40, pa := 0x80, df := 10, pm := 3 }, lineOf 0x80 0, ⟨rfl, by decide, ⟨by decide, by decide⟩⟩, ⟨rfl, by decide, ⟨by decide, by decide⟩⟩, by decide⟩
theorem witness_VectorConversions : ∃ (o : FmtVU) (a : LineRef), cvtRule (.vcvtE2m1 o) = some (o, 6) ∧ VUReady (tagged [(2, 6)]) o [6] a ∧
    pmSrcOk (tagWidth 6) (if tagWidth o.df < tagWidth 6 then heldPm (tagged [(2, 6)]) 0 o.pa o.xa
      else sourcePm (tagged [(2, 6)]) 0 o.pa o.xa o.pm) = true ∧
    cvtRule (.vcvtF32 { o with df := 4 }) = some ({ o with df := 4 }, 1) ∧ VUReady base { o with df := 4 } [1] a ∧ tagWidth 4 < tagWidth 1 :=
  ⟨{ pd := 0x40, pa := 0x80, df := 1, pm := 3 }, lineOf 0x80 0, rfl, ⟨rfl, by decide, ⟨by decide, by decide⟩⟩, by decide, rfl,
    ⟨rfl, by decide, ⟨by decide, by decide⟩⟩, by decide⟩
theorem witness_VectorLattice : ∃ (o : FmtVU) (a : LineRef), VUReady (tagged [(2, 7)]) o [7] a ∧ o.sl.toNat < (tagged [(2, 7)]).me.win.pl ∧
    pmSrcOk 16 (sourcePm (tagged [(2, 7)]) 0 o.pa o.xa o.pm) = true :=
  ⟨{ pd := 0x40, pa := 0x80, df := 1, pm := 1, sl := 31, rm := 7 }, lineOf 0x80 0, ⟨rfl, by decide, ⟨by decide, by decide⟩⟩, by decide, by decide⟩
theorem witness_VectorLattice_traps : VUReady (withMe (fun t => { t with win := { pl := 31 } })) { pd := 0x40, pa := 0x80, df := 1, sl := 31 } [7] (lineOf 0x80 0) ∧
    (withMe (fun t => { t with win := { pl := 31 } })).me.win.pl ≤ (31 : BitVec 5).toNat := ⟨⟨rfl, by decide, ⟨by decide, by decide⟩⟩, by decide⟩
theorem witness_Reductions : ∃ (o : FmtVU) (a : LineRef), VUReady base { o with df := 1 } [1] a ∧ VUReady base { o with df := 3 } [3] a ∧
    VUReady base { o with df := 8 } [8] a ∧ VUReady base { o with df := 14 } [14] a :=
  ⟨{ pd := 0x40, pa := 0x80 }, lineOf 0x80 0, ⟨rfl, by decide, ⟨by decide, by decide⟩⟩, ⟨rfl, by decide, ⟨by decide, by decide⟩⟩,
    ⟨rfl, by decide, ⟨by decide, by decide⟩⟩, ⟨rfl, by decide, ⟨by decide, by decide⟩⟩⟩
/-- A latch of a packed modifier: held reads of widths for which it is legal, and of one for which it is not. -/
def latched (pm : BitVec 3) : State := withMe (fun t => { t with cb := true, ptag := [(1, 9)], latches := [(0, { hv := true, pm := pm, hf := 0x41 })] })
theorem witness_HeldModifiers_read : V3Ready (latched 1) { pd := 0x80, pa := 0x7FF, xa := 1, pb := 0x40, ty := 1 } false false 16 [9, 13] (lineOf 0x41 0) (lineOf 0x40 0) ∧
    heldPm (latched 1) 0 0x7FF 1 = 1 ∧ VUReady (latched 1) { pd := 0x80, pa := 0x7FF, xa := 1, df := 9 } [9] (lineOf 0x41 0) ∧ pmSrcOk (tagWidth 9) 1 = true :=
  ⟨⟨by decide, by decide, by decide, ⟨by decide, by decide⟩, fun _ => ⟨by decide, by decide⟩, fun h => (by cases h), by decide, fun _ => by decide⟩, by decide,
    ⟨by decide, by decide, ⟨by decide, by decide⟩⟩, by decide⟩
theorem witness_HeldModifiers : v3Form (.vand { pa := 0x7FF, xa := 1 }) = some ({ pa := 0x7FF, xa := 1 }, false, false, []) ∧
    lineTrap (latched 1) (lineOf 0 0) [sourceLine (latched 1) 0 0x7FF 1, sourceLine (latched 1) 1 0 0] [] [] [] = none ∧
    pmSrcOk (v3Width (.vand { pa := 0x7FF, xa := 1 }) { pa := 0x7FF, xa := 1 }) (heldPm (latched 1) 0 0x7FF 1) = false ∧
    vuForm (.vscan { pa := 0x7FF, xa := 1, df := 1 }) = some ({ pa := 0x7FF, xa := 1, df := 1 }, [1], []) ∧
    lineTrap { latched 1 with strands := tset base.strands 1 { (latched 1).me with ptag := [] } } (lineOf 0 0)
      [sourceLine (latched 1) 0 0x7FF 1] [] [] [1] = none ∧
    heldLegal (latched 1) (.vscan { pa := 0x7FF, xa := 1, df := 1 }) { pa := 0x7FF, xa := 1, df := 1 } = false := by decide
/-- R152, R153: item 1 of each lane, held, in every place of the lane. -/
theorem test_heldLine : heldLine 16 1 [0xAAAA5555, 1] = [0xAAAAAAAA, 0] ++ List.replicate 30 0 := by decide
theorem witness_NonzeroScan : ∃ (o : FmtVU) (a : LineRef), VUReady base o (if o.df = 0 then [] else [o.df]) a ∧ o.df ≠ 7 ∧ o.df ≠ 15 ∧
    pmDstOk (tagWidth o.df) (sourcePm base 0 o.pa o.xa o.pm) = true :=
  ⟨{ pd := 0x40, pa := 0x80, df := 11, pm := 7 }, lineOf 0x80 0, ⟨rfl, by decide, ⟨by decide, by decide⟩⟩, by decide, by decide, by decide⟩

theorem gsReady_all (s : State) (d : LineRef) (x k : Nat) (hd : d.pn.toNat < s.me.win.pl) (hx : x < 2 ^ 24) (ha : x % 4 = 0)
    (ht : if x / 2 ^ 17 = 127 then k = s.cur else s.gang.strands[x / 2 ^ 17]? = some k ∧ (tget s.strands k).st ≠ 5)
    (hb : x % 2 ^ 17 + 128 ≤ 4096 * (tget s.strands k).win.sb) : GSReady s d none x k where
  lines := ⟨hd, fun _ h => by cases h⟩
  inside := hx
  aligned := ha
  target := by
    intro j n hj hn
    cases hn
    exact ⟨ht, by omega⟩
theorem witness_ScratchVectorReads : ∃ (s : State) (o : FmtGS), GSReady s (lineOf o.pl o.xl) none (s.reg o.sa).toNat 1 ∧
    pmDstOk (tagWidth o.ft) o.pm = true ∧ (s.reg o.sa).toNat / 2 ^ 17 = 127 :=
  ⟨regs [(1, 0xFFFF80)], { pl := 0x7C0, sa := 1, ft := 10, pm := 3 }, gsReady_all _ _ _ _ (by decide) (by decide) (by decide) (by decide) (by decide),
    by decide, by decide⟩
theorem witness_ScratchVectorReads_sibling : ∃ (s : State) (o : FmtGS), GSReady s (lineOf o.pl o.xl) none (s.reg o.sa).toNat 9 ∧
    pmDstOk (tagWidth o.ft) o.pm = true ∧ (s.reg o.sa).toNat / 2 ^ 17 ≠ 127 ∧ s.me.ldq.length < 63 ∧ s.me.stq.length < 63 ∧ (tfind s.strands 9).isSome = true :=
  ⟨pairRegs [(1, 0x20F80)], { pl := 0x7C0, sa := 1, ft := 1 }, gsReady_all _ _ _ _ (by decide) (by decide) (by decide) (by decide) (by decide),
    by decide, by decide, by decide, by decide, by decide⟩
/-- A gather none of whose lanes is active, and one whose every lane names word 2. -/
theorem witness_ScratchVectorReads_indexed : ∃ (s : State) (o : FmtGS), (lineOf o.pi o.xi).pn.toNat < s.me.win.pl ∧
    (∀ j, j < 32 → laneWord s.me (some (lineOf o.pi o.xi)) j = none) ∧ GSReady s (lineOf o.pl o.xl) (some (lineOf o.pi o.xi)) (s.reg o.sa).toNat 1 ∧
    pmDstOk (tagWidth o.ft) o.pm = true := by
  have h : ∀ j, j < 32 → laneWord (withMe (fun t => { t with planes := (List.range 32).map (fun i => (1024 + i, 0xFFFFFFFF)), s := [(1, 0xFFFF80)] })).me
      (some (lineOf 0x40 0)) j = none := by decide
  exact ⟨_, { pl := 0x7C0, pi := 0x40, sa := 1, ft := 1 }, by decide, h,
    ⟨⟨by decide, fun l e => by cases e; decide⟩, by decide, by decide, fun j n hj hn => by rw [h j hj] at hn; cases hn⟩, by decide⟩
theorem witness_ScratchVectorStores : ∃ (s : State) (o : FmtGS), GSReady s (lineOf o.pl o.xl) none (s.reg o.sa).toNat 1 ∧ (tfind s.strands 1).isSome = true ∧
    pmDstOk (tagWidth (s.me.tagOf (lineOf o.pl o.xl).pn)) o.pm = true ∧ highest s.me none 31 31 :=
  ⟨regs [(1, 0xFE0000)], { pl := 0x7C0, sa := 1 }, gsReady_all _ _ _ _ (by decide) (by decide) (by decide) (by decide) (by decide), by decide, by decide,
    rfl, fun i h1 h2 => by omega⟩

/-- The word of the last lanes lies beyond the window; the other checks of an address; a plane beyond the window. -/
theorem witness_ScratchVectorTraps : gsTrap base (lineOf 0x7C0 0) none 0xFFFFF0 = some (0x0003, 0x1000000) ∧ gsTrap base (lineOf 0x7C0 0) none 0x1000000 = some (0x0003, 0x1000000) ∧
    gsTrap base (lineOf 0x7C0 0) none 0xFE0002 = some (0x0006, 0xFE0002) ∧ gsTrap base (lineOf 0x7C0 0) none 0x20000 = some (0x0003, 0x20000) ∧
    gsTrap (withMe (fun t => { t with win := { pl := 31 } })) (lineOf 0x7C0 0) none 0 = some (0x0003, 31) := by decide
/-- A ready A-tile 1, a ready C-tile 2 of FP32, a ready W-tile 3 of BF16, a ready A-tile 4 of BF16, an empty tile 5, a C-tile 6. -/
def tiles : State := withMe (fun t => { t with tiles := [(1, { ts := 2, tk := 1, bi := 15, ft := 8 }), (2, { ts := 2, tk := 2, bi := 31, ft := 1 }),
  (3, { ts := 2, tk := 0, bi := 3, ft := 2 }), (4, { ts := 2, tk := 1, bi := 4, ft := 2 }), (5, { tk := 1 }), (6, { ts := 2, tk := 2, bi := 6, ft := 1 })] })

theorem witness_TileVectors : TileReady tiles (lineOf 0x7C0 1) 1 1 8 ∧ TileReady tiles (lineOf 0x7C0 1) 2 2 1 ∧
    TileReady tiles (lineOf 0x7C0 1) 4 1 (tiles.me.tagOf 31) ∧ (tiles.me.tile 4).rc = 0 :=
  ⟨⟨by decide, by decide, by decide, by decide, by decide⟩, ⟨by decide, by decide, by decide, by decide, by decide⟩,
    ⟨by decide, by decide, by decide, by decide, by decide⟩, rfl⟩
theorem witness_TileVectors_traps : (lineOf 0x7C0 1).pn.toNat < tiles.me.win.pl ∧ (5 : BitVec 5).toNat < tiles.me.win.th ∧ (tiles.me.tile 2).tk ≠ 1 ∧
    (tiles.me.tile 1).tk ≠ 2 ∧ (tiles.me.tile 5).ts = 0 ∧ (tiles.me.tile 5).dc = 0 ∧ (tiles.me.tile 5).qc = 0 ∧ (tiles.me.tile 5).ft = 0 ∧
    (tiles.me.tile 5).tk = 1 ∧ ((tiles.onMe (fun t => { t with tiles := [(5, { tk := 2 })] })).me.tile 5).tk = 2 := by decide

theorem ghReady_all (d : LineRef) (base : Nat) (right : Handle → Bool) (h : right (onPage.me.handle 1) = true) (hd : d.pn.toNat < 32)
    (hb : base + 128 ≤ 4096) (ha : base % 4 = 0) : GHReady onPage d none 1 base right where
  lines := ⟨hd, fun _ h => by cases h⟩
  valid := by decide
  kind := by decide
  granted := h
  lanes := by
    intro j n hj hn
    cases hn
    exact handleReady _ 4 right h (by omega) (by omega)
theorem witness_HandleVectorReads : GHReady onPage (lineOf 0x7C0 1) none 1 3968 Handle.pr ∧ pmDstOk (tagWidth 6) (pmOf true { ft := 6, pml := 3 }) = true ∧
    onPage.me.ldq.length < 63 :=
  ⟨ghReady_all _ _ _ rfl (by decide) (by decide) (by decide), by decide, by decide⟩
theorem witness_HandleVectorStores : GHReady onPage (lineOf 0x7C0 1) none 1 3968 Handle.pw ∧
    pmDstOk (tagWidth (onPage.me.tagOf 31)) (pmOf false { }) = true ∧ onPage.me.stq.length < 63 ∧
    (onPage.logAll 0 0 (((List.range 32).filterMap (laneWord onPage.me none)).map (fun n => (0, 7 * 4096 + (3968 + 4 * n))))).2 = true ∧
    highest onPage.me none 31 31 :=
  ⟨ghReady_all _ _ _ rfl (by decide) (by decide) (by decide), by decide, by decide, by rfl, rfl, fun i h1 h2 => by omega⟩

theorem witness_HandleVectors_served : Served onPage (lanePlaces onPage none 1 3968) ∧ Capped (atCap onPage) (lanePlaces (atCap onPage) none 1 3968) ∧
    GHReady (atCap onPage) (lineOf 0x7C0 1) none 1 3968 Handle.pr ∧ GHReady (atCap onPage) (lineOf 0x7C0 1) none 1 3968 Handle.pw := by
  have g (r : Handle → Bool) (h : r (onPage.me.handle 1) = true) : GHReady (atCap onPage) (lineOf 0x7C0 1) none 1 3968 r :=
    have x := ghReady_all (lineOf 0x7C0 1) 3968 r h (by decide) (by decide) (by decide)
    ⟨x.lines, x.valid, x.kind, x.granted, fun j n hj hn => have y := x.lanes j n hj hn; ⟨y.1, y.2, y.3, y.4, y.5, y.6, y.7⟩⟩
  exact ⟨served_idle _ (by decide) (by decide) _, ⟨(0, 5 * 4096 + 3968), by decide, 0, rfl, by decide⟩, g _ rfl, g _ rfl⟩

/-- The condition that a rule names for an instruction. -/
def holds (r : Option (Cmd × Prop)) : Prop := ∃ c p, r = some (c, p) ∧ p

theorem witness_TileIssues_moves : holds (tileRule tiles (.tfree { td := 31 })) ∧ holds (tileRule tiles (.tzero { td := 5, fmt := 9 })) ∧
    holds (tileRule tiles (.mlatch { tb := 3, imm := 3 })) ∧ holds (tileRule tiles (.tcvt { td := 4, ta := 2, fmt := 2, imm := 0xE7 })) ∧
    holds (tileRule tiles (.tmov { td := 4, ta := 1 })) ∧ holds (tileRule tiles (.txpose { td := 6, ta := 2 })) :=
  ⟨⟨_, _, rfl, by decide⟩, ⟨_, _, rfl, by decide⟩,
    ⟨_, _, rfl, ⟨by decide, by decide, by decide⟩, by unfold Readable; decide, by decide⟩,
    ⟨_, _, rfl, ⟨by decide, by decide, by decide⟩, ⟨by decide, by decide, by decide⟩, by unfold Readable; decide, by decide⟩,
    ⟨_, _, rfl, by decide, by decide, by decide, by unfold Readable; decide, by decide⟩,
    ⟨_, _, rfl, ⟨by decide, by decide, by decide⟩, ⟨by decide, by decide, by decide⟩, by unfold Readable; decide, by decide⟩⟩
theorem witness_TileIssues_matrix : holds (tileRule tiles (.mma { td := 6, ta := 4, tb := 3, fmt := 0x12, imm := 3 })) ∧
    holds (tileRule tiles (.mmaX ⟨{ td := 6, ta := 4, tb := 3, fmt := 2, imm := 4 }, 5⟩)) :=
  ⟨⟨_, _, rfl, ⟨⟨by decide, by decide, by decide⟩, ⟨by decide, by decide, by decide⟩, by unfold Readable; decide, (fun _ h => by cases h), by decide, by decide⟩,
      ⟨by decide, by decide, by decide⟩, by unfold Readable; decide, by decide⟩,
    ⟨_, _, rfl, ⟨⟨by decide, by decide, by decide⟩, ⟨by decide, by decide, by decide⟩, by unfold Readable; decide, (fun _ h => by cases h), by decide, by decide⟩,
      ⟨by decide, by decide, by decide⟩, by unfold Readable; decide, by decide⟩⟩
/-- A VQ2 operation with two A-tiles of E2M1 and its scale word. -/
theorem witness_TileIssues_lattice : ∃ s : State, holds (tileRule s (.mma { td := 6, ta := 4, tb := 3, fmt := 7, sa := 1, imm := 8 })) :=
  ⟨withMe (fun t => { t with s := [(1, 0x8000000000000000)], tiles := [(1, { ts := 2, tk := 1, ft := 6 }), (3, { ts := 2, tk := 0, ft := 7 }),
      (4, { ts := 2, tk := 1, ft := 6 }), (6, { ts := 2, tk := 2, ft := 1 })] }),
    ⟨_, _, rfl, ⟨⟨by decide, by decide, by decide⟩, ⟨by decide, by decide, by decide⟩, by unfold Readable; decide,
      (fun a h => by cases h; exact ⟨⟨by decide, by decide, by decide⟩, by unfold Readable; decide⟩), by decide, by decide⟩,
      ⟨by decide, by decide, by decide⟩, by unfold Readable; decide, by decide⟩⟩
/-- A stream descriptor at offset 0x100 of the own window: one slab of stride 64. -/
def streaming : State := tiles.onMe (fun t => { t with s := [(1, 0xFE0100)], smem := [(0x110, 64), (0x128, 1)] })
theorem witness_TileIssues_streams : holds (tileRule streaming (.mmas { td := 6, fmt := 2, sa := 1 })) ∧ holds (tileRule streaming (.mmasX ⟨{ td := 6, fmt := 2, sa := 1 }, 0⟩)) :=
  ⟨⟨_, _, rfl, ⟨by decide, by decide, by decide⟩, by unfold OwnBytes; decide, by unfold streamOk; decide, by decide, by decide⟩,
    ⟨_, _, rfl, ⟨by decide, by decide, by decide⟩, by unfold OwnBytes; decide, by unfold streamOk; decide, by decide, by decide⟩⟩
theorem witness_TileIssues_talloc : (7 : BitVec 5).toNat < tiles.me.win.th ∧ (tiles.me.tile 7).ts = 0 ∧ tiles.me.tlq.length < 63 ∧
    (15 : Nat) < tiles.me.win.at_ ∧ (31 : Nat) < tiles.me.win.ct ∧ (31 : Nat) < tiles.me.win.wt ∧
    (∀ e ∈ tiles.me.tiles, e.1 ≠ 7 → e.2.ts ≠ 0 → ¬(e.2.tk = 1 ∧ e.2.bi = 14)) := by decide

theorem tiles_turn : DrainTurn tiles 2 ∧ DrainTurn tiles 1 := by
  constructor <;> exact ⟨by decide, fun _ h => (nomatch h), fun _ h => absurd h (by decide)⟩
theorem witness_CopyIssues_drains : holds (copyRule tiles 0 (.tdrain ⟨{ th := 2 }, 6⟩)) ∧ holds (copyRule tiles 0 (.tdraink ⟨{ th := 1, imm := 31 }, 0⟩)) :=
  ⟨⟨_, _, rfl, by decide, by decide, by decide, tiles_turn.1, by decide, by decide, by decide, by decide⟩,
    ⟨_, _, rfl, by decide, by decide, by decide, tiles_turn.2, by decide, by decide, by decide, by decide⟩⟩
/-- A releasing drain at work on tile 1. -/
def releasing : State := { tiles.onMe (fun t => { t with tiles := [(1, { ts := 3, tk := 1 }), (2, { ts := 2, tk := 1, pend := [7] })] }) with
  cmds := [(6, { op := .tdrain, strand := tiles.cur, td := some 1, active := true }), (7, { op := .tfree, strand := tiles.cur, td := some 2 })] }
theorem witness_CopyIssues_empty : (5 : BitVec 5).toNat < tiles.me.win.th ∧ (tiles.me.tile 5).ts = 0 ∧ (tiles.me.tile 5).pend = [] ∧
    (releasing.me.tile 1).ts = 3 ∧ (releasing.me.tile 1).pend = [] ∧ (releasing.me.tile 2).pend.getLast? = some 7 ∧
    (tget releasing.cmds 7).op = .tfree ∧ (tget releasing.cmds 6).active = true ∧ (1 : BitVec 5).toNat < releasing.me.win.th := by decide
theorem witness_CopyIssues_copies : holds (copyRule tiles 0 (.cpy ⟨{ imm := 31 }, 0⟩)) ∧ holds (copyRule tiles 0 (.cpyf ⟨{ th := 4 }, 8⟩)) ∧
    holds (copyRule tiles 0 (.cpyi ⟨{ imm := 512 }, 0⟩)) :=
  ⟨⟨_, _, rfl, by decide, by decide, by decide⟩, ⟨_, _, rfl, ⟨by decide, by decide, by decide⟩, by decide, by decide, by decide⟩,
    ⟨_, _, rfl, by decide, by decide, by decide, by decide, by decide, by decide⟩⟩
/-- s1 = 4096 bytes, s2 = the last 4 KiB of the own window, s3 = the sibling's window. -/
def copying : State := pairRegs [(1, 4096), (2, 0xFFF000), (3, 0x20000)]
theorem witness_CopyIssues_windows : holds (copyRule copying 1 (.cpysTo ⟨{ sb := 2, sc := 1 }, 0⟩)) ∧ holds (copyRule copying 9 (.cpysFrom ⟨{ sb := 3, sc := 1, imm := 512 }, 0⟩)) :=
  ⟨⟨_, _, rfl, by decide, by decide, by unfold WindowOf; decide, by decide, by decide, by decide, by decide⟩,
    ⟨_, _, rfl, by decide, by decide, by unfold WindowOf; decide, by decide, by decide, by decide, by decide⟩⟩
/-- s1 = 0 rows of 8 bytes, s2 = offset 0 of the own window, s3 = 1,024 rows of 16 bytes, s4 = 256 rows of 64. -/
def gathering : State := tiles.onMe (fun t => { t with s := [(1, 8), (2, 0xFE0000), (3, 0x4000010), (4, 0x1000040)] })
theorem witness_CopyIssues_gathers : holds (copyRule gathering 0 (.cpyg ⟨{ sb := 2, sc := 3, th := 1 }, 0⟩)) ∧
    holds (copyRule gathering 0 (.cpyg ⟨{ sb := 2, sc := 4, th := 1, imm := 512 }, 0x200000000000000⟩)) ∧
    holds (copyRule gathering 0 (.cpysc ⟨{ sb := 2, sc := 1, imm := 512 }, 0⟩)) :=
  ⟨⟨_, _, rfl, ⟨by decide, by decide, by decide⟩, by decide, by unfold OwnBytes; decide, by unfold CopyReady; decide⟩,
    ⟨_, _, rfl, ⟨by decide, by decide, by decide⟩, by decide, by unfold OwnBytes; decide, by unfold CopyReady; decide⟩,
    ⟨_, _, rfl, by decide, by decide, by decide, by decide, by unfold OwnBytes; decide, by unfold CopyReady; decide⟩⟩
/-- A sequencer descriptor at offset 0 of the own window, ready to run once, and a polled address. -/
def sequencing : State := withMe (fun t => { t with s := [(1, 0xFE0000), (2, 8)], smem := [(0x14, 1), (0x16, 1)] })
theorem witness_CopyIssues_sequencer : holds (copyRule sequencing 0 (.sqgo { sa := 1 })) ∧ holds (copyRule sequencing 0 (.sqwait { sa := 2 })) :=
  ⟨⟨_, _, rfl, by unfold OwnBytes; decide, by decide, by decide, by decide, by decide, by decide, by decide, by unfold CopyReady; decide⟩,
    ⟨_, _, rfl, by decide, by unfold CopyReady; decide⟩⟩
/-- One bag of one index over 128 elements, its descriptor at offset 0x400 of the own window. -/
def pooling : State := tiles.onMe (fun t => { t with s := [(1, 0xFE0400), (3, 0x2000201)], smem := [(0x400, 1)] })
theorem witness_CopyIssues_pooling : holds (copyRule pooling 0 (.sfpool ⟨{ sa := 1, sc := 3, th := 1 }, 0⟩)) :=
  ⟨_, _, rfl, ⟨by decide, by decide, by decide⟩, by decide, by decide, by decide, by decide, by decide, by decide, by decide,
    by unfold OwnBytes; decide, by decide, fun g h => absurd (show g + 1 < 1 from h) (by omega),
    by decide, by decide⟩
/-- A queued command in queue 2 of engine 1, before an SQKILL of that queue. -/
theorem witness_QueueKill : ∃ s : State, ∃ c, CopyReady s (issuedEA s .sqkill { imm := 65 }) ∧ tfind s.cmds s.nextId = none ∧ tfind s.cmds 2 = some c ∧
    c.op = .cpy ∧ c.engine = 1 ∧ c.queue = 2 ∧ c.state = .queued :=
  ⟨{ base with cmds := [(2, { op := .cpy, engine := 1, queue := 2 })] }, { op := .cpy, engine := 1, queue := 2 }, by unfold CopyReady; decide, by decide⟩
theorem witness_FillAndMultiply : ∃ o : FmtECL, TileIs tiles.me o.o.th [1] [] ∧ o.lit.extractLsb' 56 4 = aFormat (o.lit.extractLsb' 10 4) ∧
    MatReady tiles (o.lit.extractLsb' 0 5) (o.lit.extractLsb' 5 5) none (o.lit.extractLsb' 10 4) ∧
    (scaleRule tiles (o.lit.extractLsb' 10 4) (tiles.reg o.o.sc)).isSome = true ∧ (tiles.reg o.o.sb).toNat % 64 = 0 ∧ CopyReady tiles (issuedEC tiles .cpym o) :=
  ⟨⟨{ th := 1 }, (2 <<< 56) ||| (2 <<< 10) ||| (3 <<< 5) ||| 6⟩, ⟨by decide, by decide, by decide⟩, by decide,
    ⟨⟨by decide, by decide, by decide⟩, ⟨by decide, by decide, by decide⟩, by unfold Readable; decide, (fun _ h => by cases h), by decide, by decide⟩,
    by decide, by decide, by unfold CopyReady; decide⟩
theorem witness_EngineQueries_tiles : (1 : BitVec 5).toNat < tiles.me.win.th ∧ (tiles.me.tile 1).ts = 2 ∧ (tiles.me.tile 5).ts = 0 ∧
    ((withMe (fun t => { t with tiles := [(0, { ts := 1 })] })).me.tile 0).ts = 1 ∧ ((withMe (fun t => { t with tiles := [(0, { ts := 3 })] })).me.tile 0).ts = 3 ∧
    (∀ x ∈ tiles.cmds, ¬(x.2.strand = tiles.cur ∧ x.2.op = .mmas ∧ x.2.td = some 1)) := by decide
theorem witness_EngineQueries_rows : ∃ (s : State) (c : Cmd), (2, c) ∈ s.cmds ∧ c.strand = s.cur ∧ c.op = .mmas ∧ c.td = some 6 ∧ (6 : BitVec 5).toNat < s.me.win.th ∧
    (∀ x ∈ s.cmds, x.2.strand = s.cur → x.2.op = .mmas → x.2.td = some 6 → x.2 = c) :=
  ⟨{ tiles with cmds := [(2, { op := .mmas, strand := 1, td := some 6, prog := 3 })] }, { op := .mmas, strand := 1, td := some 6, prog := 3 }, by decide⟩
theorem witness_EngineQueries_engines : (tget base.parts base.me.part).res.engines.contains 31 = true ∧
    (tget ({ base with parts := [] } : State).parts 0).res.engines.contains 0 = false := by decide
theorem witness_EngineQueries_pools : ∃ s : State, tfind (tget s.parts s.me.part).pools 0 = some 5 ∧ tfind (tget base.parts base.me.part).pools 0 = none :=
  ⟨{ base with parts := tmod base.parts 0 (fun p => { p with pools := [(0, 5)], plans := [(5, { segs := [{ ld := 15 }] })] }) }, by decide⟩

/-- The plan record at virtual address 0 of the mapped machine, its header words and its first entry given. -/
def planning (h0 h1 h2 : BitVec 64) (entry : List (BitVec 64)) : State :=
  { mapped with mem := cwrite mapped.mem 0x40000000 (([h0, h1, h2, 0, 0, 0, 0, 0] ++ entry).flatMap dwBytes) }

/-- Its header as the strand reads it at address 0. -/
theorem witness_PlacementPlans_header : ∃ ps, (planning 0 0 0 []).vPlaces 0 64 2 1 = .ok ps ∧
    ¬HeaderFits ((planning 0 0 0 []).readPlaces ps) ∧ ((planning 0 0 0 []).reg 0).toNat = 0 :=
  ⟨_, rfl, by unfold HeaderFits; decide, by decide⟩
theorem witness_PlacementPlans_served : (∀ l, Served (planning 0 0 0 []) l) ∧ ∃ ps, (atCap (planning 0 0 0 [])).vPlaces 0 64 2 1 = .ok ps ∧
    Capped (atCap (planning 0 0 0 [])) (ps.map (fun p => (p.1.kind, p.1.pa))) :=
  ⟨served_idle _ (by decide) (by decide), _, rfl, ⟨(0, 0x40000000), List.mem_singleton.mpr rfl, 0, rfl, by decide⟩⟩
/-- A record of OP 1 for table 7, which is held and which is not. -/
theorem witness_PlacementPlans_delete : ∃ (s : State) (ps : List (Place × Nat)), s.vPlaces 0 64 2 1 = .ok ps ∧
    HeaderFits (s.readPlaces ps) ∧ fld (dwAt (s.readPlaces ps) 0) 32 2 = 1 ∧ fld (dwAt (s.readPlaces ps) 0x10) 0 11 = 0 ∧
    fld (dwAt (s.readPlaces ps) 0) 48 16 = 7 ∧ (tfind (tget s.parts s.me.part).pools 7).isSome = true :=
  ⟨(fun x : State => { x with parts := tmod x.parts 0 (fun p => { p with pools := [(7, 5)] }) })
      (planning (7 <<< 48 ||| 1 <<< 44 ||| 1 <<< 34 ||| 1 <<< 32) 0 0 []), _, rfl, by unfold HeaderFits; decide, by decide, by decide, by decide, by decide⟩
theorem witness_PlacementPlans_absent : ∃ (s : State) (ps : List (Place × Nat)), s.vPlaces 0 64 2 1 = .ok ps ∧
    HeaderFits (s.readPlaces ps) ∧ fld (dwAt (s.readPlaces ps) 0) 32 2 = 1 ∧ fld (dwAt (s.readPlaces ps) 0x10) 0 11 = 0 ∧
    tfind (tget s.parts s.me.part).pools 65535 = none ∧ fld (dwAt (s.readPlaces ps) 0) 48 16 = 65535 :=
  ⟨planning (0xFFFF <<< 48 ||| 4 <<< 44 ||| 512 <<< 34 ||| 1 <<< 32) 0 0 [], _, rfl, by unfold HeaderFits; decide, by decide, by decide, by decide, by decide⟩
/-- A table of one row in a segment of this tier at landing 0: a cold one is accepted where the partition holds the landing, refused where
it does not. -/
def oneRow (tr : BitVec 64) : State := planning (7 <<< 48 ||| 1 <<< 44 ||| 1 <<< 34) 1 1 [1, 3 <<< 30, tr <<< 58, 0]
def cold : State := oneRow 2
def oneEntry (tr : BitVec 64) : List Byte := ([1, 3 <<< 30, tr <<< 58, 0] : List (BitVec 64)).flatMap dwBytes
/-- Landing 0 is the partition's, with this share of its SRAM. -/
def withSram (n : Nat) (s : State) : State := { s with parts := tmod s.parts 0 (fun p => { p with res := { p.res with landings := [{ landing := 0, sram := n }] } }) }
theorem oneRow_mapped (tr : BitVec 64) (ht : tr = 0 ∨ tr = 2) (f : State → State) (hw : (f (oneRow tr)).walk 0 0xC0000000 = (oneRow tr).walk 0 0xC0000000)
    (hl : (tget (f (oneRow tr)).parts 0).res.landings = [{ landing := 0, sram := (tget (f (oneRow tr)).parts 0).res.landings.head!.sram }]) :
    SegmentsMapped (f (oneRow tr)) 0 64 (oneEntry tr) 1 := by
  intro i hi
  obtain rfl : i = 0 := by omega
  have hd : segLd (oneEntry tr) 0 = 0 := by rcases ht with rfl | rfl <;> decide
  have hv : segVa (oneEntry tr) 0 = 0xC0000000 := by rcases ht with rfl | rfl <;> decide
  have hn : segSn (oneEntry tr) 0 = 1 := by rcases ht with rfl | rfl <;> decide
  refine ⟨⟨_, by rw [hl]; exact List.mem_singleton.mpr rfl, hd.symm⟩, ?_⟩
  rw [hv, hn, hd]
  intro a h1 h2 h3
  obtain rfl : a = 0xC0000000 := by omega
  refine ⟨by decide, ?_⟩
  have h : ∃ l, (oneRow tr).walk 0 0xC0000000 = .leaf l ∧ l.kd = 2 ∧ l.pr = true ∧ l.at 0xC0000000 / 2 ^ 38 = 0 := by
    rcases ht with rfl | rfl <;> exact ⟨_, rfl, by decide, by decide, by decide⟩
  obtain ⟨l, a, b⟩ := h
  exact ⟨l, hw.trans a, b⟩
theorem witness_PlacementPlans_create : ∃ (s : State) (ps qs : List (Place × Nat)), s.vPlaces 0 64 2 1 = .ok ps ∧
    HeaderFits (s.readPlaces ps) ∧ fld (dwAt (s.readPlaces ps) 0) 32 2 = 0 ∧ fld (dwAt (s.readPlaces ps) 0x10) 0 11 = 1 ∧
    s.vPlaces 64 32 2 1 = .ok qs ∧ s.readPlaces qs = oneEntry 2 ∧ SegmentsFit (oneEntry 2) 1 1 ∧ SegmentsMapped s s.me.part 64 (oneEntry 2) 1 ∧
    strideOf 1 1 = 64 ∧ ¬SramExceeded s s.me.part 7 64 (oneEntry 2) 1 ∧ (¬∃ i, i < 1 ∧ segLd (oneEntry 2) i ∈ s.dev.failed) ∧
    (tget s.parts s.me.part).pools.length < 1024 ∧ (tfind s.parts s.me.part).isSome = true :=
  ⟨withSram 0 cold, _, _, rfl, by unfold HeaderFits; decide, by decide, by decide, rfl, by decide, by unfold SegmentsFit; decide,
    oneRow_mapped 2 (.inr rfl) (withSram 0) rfl rfl, by decide, by unfold SramExceeded; decide, by decide, by decide, by decide⟩
theorem witness_PlacementPlans_refused : ¬SegmentsFit (([0, 3 <<< 30, 0, 0] : List (BitVec 64)).flatMap dwBytes) 1 1 ∧ ¬SegmentsMapped cold 0 64 (oneEntry 2) 1 ∧
    (SegmentsMapped (withSram 63 (oneRow 0)) 0 64 (oneEntry 0) 1 ∧ SramExceeded (withSram 63 (oneRow 0)) 0 7 64 (oneEntry 0) 1) ∧
    (let s : State := { withSram 64 (oneRow 0) with dev := { base.dev with failed := [0] } }
    SegmentsMapped s 0 64 (oneEntry 0) 1 ∧ ¬SramExceeded s 0 7 64 (oneEntry 0) 1 ∧ segLd (oneEntry 0) 0 ∈ s.dev.failed) :=
  ⟨by unfold SegmentsFit; decide, fun h => absurd (h 0 (by decide)).1 (by decide),
    ⟨oneRow_mapped 0 (.inl rfl) (withSram 63) rfl rfl, by unfold SramExceeded; decide⟩,
    oneRow_mapped 0 (.inl rfl) (fun s => { withSram 64 s with dev := { base.dev with failed := [0] } }) rfl rfl, by unfold SramExceeded; decide, by decide⟩
/-- A partition of 1,024 tables, table 7 not among them. -/
def allTables (s : State) : State := { s with parts := tmod s.parts 0 (fun p => { p with pools := (List.range 1024).map (fun i => (i + 8, 0)) }) }
theorem witness_PlacementPlans_full : SegmentsMapped (allTables (withSram 0 cold)) 0 64 (oneEntry 2) 1 ∧
    tfind (tget (allTables (withSram 0 cold)).parts 0).pools 7 = none ∧ 1024 ≤ (tget (allTables (withSram 0 cold)).parts 0).pools.length :=
  ⟨oneRow_mapped 2 (.inr rfl) (fun y => allTables (withSram 0 y)) rfl rfl, by decide +kernel, by decide +kernel⟩

/-- Two commands of queue 0 of engine 0, the first at work, the second waiting with an acquire of cluster scope. -/
theorem witness_StartedCommands : ∃ (s : State) (c d : Cmd), queueList s 0 0 = [(2, d)] ++ (3, c) :: [] ∧ d.state = .started ∧ tfind s.cmds 3 = some c ∧
    c.state = .queued ∧ c.op ≠ .sqwait ∧ c.op ≠ .sqkill ∧ s.tileFree 3 = true ∧ s.halfBusy c = false ∧ s.acquired 3 c = true ∧
    c.ord.getLsbD 4 = true ∧ 2 ≤ (c.ord.extractLsb' 0 3).toNat ∧ (∀ x ∈ (tget s.clusters (clusterOf c.core)).lines, x.1 < 2 ^ 33) :=
  ⟨{ base with cmds := [(2, { op := .cpy, strand := 1, queue := 0, state := .started }), (3, { op := .cpy, strand := 1, queue := 0, ord := 0x12 })] },
    { op := .cpy, strand := 1, queue := 0, ord := 0x12 }, { op := .cpy, strand := 1, queue := 0, state := .started }, by decide⟩
/-- One command at work on C-tile 6 or A-tile 7, its operands in tiles 2, 3 and 4. -/
def working (c : Cmd) : State := { tiles with
  strands := tmod tiles.strands 1 (fun t => { t with tiles := [(2, { ts := 2, tk := 2, bi := 31, ft := 1, rc := 1 }), (3, { ts := 2, tk := 0, bi := 3, ft := 2, rc := 1 }),
    (4, { ts := 2, tk := 1, bi := 4, ft := 2, rc := 1 }), (6, { ts := 1, tk := 2, bi := 6, ft := 1, dc := 1 }), (7, { ts := 1, tk := 1, bi := 7, ft := 2, dc := 1 })] }),
  cmds := [(2, { c with strand := 1, active := true })] }
/-- A stationary matrix operation, its B in tile 3; latch 3 holds nothing. -/
def stationary : Cmd := { op := .mma, td := some 6, ta := some 4, tb := some 3, fmt := 0x12, imm := 3 }
theorem witness_MatrixStarts : ∃ c : Cmd, tfind (working stationary).cmds 2 = some c ∧ c.op = .mma ∧ c.fmt.getLsbD 4 = true ∧ c.state = .queued ∧
    (working stationary).tileFree 2 = true ∧ c.after = none ∧ (∀ x ∈ (working stationary).cmds, ¬x.1 < 2) ∧
    (∀ x ∈ (working stationary).cmds, x.2.state ≠ .started ∧ x.1 = 2) ∧ ¬((tget (tget (working stationary).cores c.core).latches 3).ctx = some c.strand) :=
  ⟨_, rfl, by decide⟩
theorem witness_MatrixStarts_held : ∃ (s : State) (c : Cmd), tfind s.cmds 2 = some c ∧ c.op = .mma ∧ c.fmt.getLsbD 4 = true ∧ c.state = .queued ∧
    s.tileFree 2 = true ∧ c.after = none ∧ (∀ x ∈ s.cmds, ¬x.1 < 2) ∧ (∀ x ∈ s.cmds, x.2.state ≠ .started) ∧
    (let l := tget (tget s.cores c.core).latches 3
    l.ctx = some c.strand ∧ l.th = 3 ∧ l.bi = 3 ∧ l.wc = tget (tget s.cores c.core).wcount 3) :=
  ⟨{ working stationary with cores := tset base.cores 0 { latches := [(3, { ctx := some 1, th := 3, bi := 3 })] } }, _, rfl, by decide⟩
theorem witness_MatrixStarts_streaming : ∃ (s : State) (c : Cmd), tfind s.cmds 2 = some c ∧ c.op = .mmas ∧ c.state = .queued ∧ s.tileFree 2 = true ∧
    c.after = none ∧ (∀ x ∈ s.cmds, ¬x.1 < 2) ∧ (∀ x ∈ s.cmds, x.2.state ≠ .started) :=
  ⟨working { op := .mmas, td := some 6 }, _, rfl, by decide⟩
/-- A pooling command at the head of its partition's, under a draw of the tier of 401 W and of 400 W. -/
theorem witness_PoolingStarts : ∃ (s t : State) (c : Cmd), s.cmds.filter (fun x => x.2.op = .sfpool && x.2.part = 0) = [] ++ (2, c) :: [] ∧ tfind s.cmds 2 = some c ∧ c.state = .queued ∧
    400 * 1000000 < s.share Device.tierLog ∧ t.cmds = s.cmds ∧ t.share Device.tierLog ≤ 400 * 1000000 ∧ (∀ x ∈ (tget t.parts 0).plans, x.1 < 2 → x.2.loaded = true) ∧
    t.tileFree 2 = true ∧ t.acquired 2 c = true ∧ (∀ x ∈ (tget t.clusters (clusterOf c.core)).lines, x.1 < 2 ^ 33) :=
  ⟨{ working { op := .sfpool, td := some 6 } with dev := { base.dev with tierLog := [(0, 401)] }, now := 1000000 },
    { working { op := .sfpool, td := some 6 } with dev := { base.dev with tierLog := [(0, 400)] }, now := 1000000 },
    { op := .sfpool, td := some 6, strand := 1, active := true }, by decide⟩
/-- An SQWAIT at the head of its queue that polls the doubleword at virtual address 8, which holds 5. -/
def polling (b : Word) : State := { mapped with
  mem := cwrite mapped.mem 0x40000008 (dwBytes 5), cmds := [(2, { op := .sqwait, strand := 1, a := 8, b := b })] }
theorem witness_QueueWaits : ∃ c, tfind (polling 5).cmds 2 = some c ∧ c.op = .sqwait ∧ c.state = .queued ∧ (polling 5).atTurn 2 = true ∧ c.ord.getLsbD 4 = false ∧
    (polling 5).routeOf c.part c.a.toNat = none ∧ (polling 5).cmdWalk c c.a.toNat = .leaf firstLeaf ∧ paExists 0 (firstLeaf.at c.a.toNat) 8 = true ∧
    (tfind (polling 5).strands c.strand).isSome = true ∧ c.b.toNat = cnum (polling 5).mem (memKey 0 (firstLeaf.at c.a.toNat)) 8 ∧
    (polling 5).routeBarred c.part c.a.toNat = false ∧ firstLeaf.pa = true ∧ Writable firstLeaf.kd (firstLeaf.at c.a.toNat) 8 ∧
    (polling 5).atomicFree c.part c.tenant ((resourceOf 0 (firstLeaf.at c.a.toNat)).getD 0) = true :=
  ⟨_, rfl, rfl, rfl, by decide, rfl, by decide, by decide, by decide, by decide, by decide, by decide, by decide, fun h => absurd h (by decide), by decide⟩
theorem witness_QueueWaits_below : cnum (polling 6).mem (memKey 0 (firstLeaf.at 8)) 8 < (6 : Word).toNat ∧ (polling 6).atTurn 2 = true := by decide
theorem witness_Calm : (∀ th, ((tget mapped.strands 1).tile th).pend = []) ∧ (tget mapped.gangs (tget mapped.strands 1).gang).halt = none := by decide

theorem writing (c : Cmd) (th : BitVec 5) (ht : c.td = some th) (h : th = 6 ∨ th = 7) (hs : c.ta ≠ some th ∧ c.ta2 ≠ some th ∧ c.tb ≠ some th) :
    Writing (working c) 2 { c with strand := 1, active := true } th where
  known := rfl
  tile := ht
  active := rfl
  first := by
    simp only [State.behindOnTile, working, List.any_cons, List.any_nil]
    simp
  state := by rcases h with rfl | rfl <;> rfl
  alone := by rcases h with rfl | rfl <;> rfl
  unread := by
    intro x hx hn
    obtain rfl := List.mem_singleton.mp hx
    exact absurd hn (Nat.lt_irrefl 2)
  sources := hs
theorem calm (c : Cmd) : Calm (working c) 1 := ⟨rfl, (by show ∀ th, ((tget (working {}).strands 1).tile th).pend = []; decide), rfl⟩

theorem witness_TilesCompleted : Writing (working { op := .tzero, td := some 6, fmt := 1 }) 2 { op := .tzero, td := some 6, fmt := 1, strand := 1, active := true } 6 ∧
    Writing (working { op := .tmov, td := some 7, ta := some 4 }) 2 { op := .tmov, td := some 7, ta := some 4, strand := 1, active := true } 7 ∧
    Writing (working { op := .txpose, td := some 6, ta := some 2 }) 2 { op := .txpose, td := some 6, ta := some 2, strand := 1, active := true } 6 ∧
    ((tget (working { op := .txpose }).strands 1).tile 6).tk = 2 :=
  ⟨writing _ 6 rfl (.inl rfl) (by decide), writing _ 7 rfl (.inr rfl) (by decide), writing _ 6 rfl (.inl rfl) (by decide), rfl⟩
theorem witness_TilesCompleted_convert : ∃ c : Cmd, Writing (working c) 2 { c with strand := 1, active := true } 7 ∧ c.op = .tcvt ∧
    ((tget (working c).strands 1).tile 7).tk ≠ 2 ∧ (let w := tagWidth (c.fmt.setWidth 4); 32 * w * (c.imm.toNat % 32) + 32 * w = 4096) :=
  ⟨{ op := .tcvt, td := some 7, ta := some 2, fmt := 2, imm := 7 }, writing _ 7 rfl (.inr rfl) (by decide), rfl, by decide, by decide⟩
theorem witness_TilesCompleted_matrix : ∃ c : Cmd, Writing (working c) 2 { c with strand := 1, active := true } 6 ∧ c.op = .mma ∧ c.state = .started ∧
    ((tget (working c).strands 1).tile 6).tk = 2 :=
  ⟨{ op := .mma, td := some 6, ta := some 4, tb := some 3, fmt := 2, state := .started }, writing _ 6 rfl (.inl rfl) (by decide), rfl, rfl, rfl⟩
/-- A streaming operation of two slabs of I8, A and B in the first page of the mapped machine. -/
def slabs (c : Cmd) : State := { working c with mem := mapped.mem, parts := mapped.parts }
def slabbed (r : Nat) : Cmd := {
  op := .mmas, td := some 6, fmt := 10, state := .started, prog := r, strand := 1, active := true,
  cap := [0x1000, 0x5000, 0x40000000400, 0, 0, 2, 0, 0].flatMap dwBytes }
/-- Did it find its operands? -/
def found : Except UnitErr MatIn → Bool
  | .ok _ => true
  | .error _ => false
theorem found_ok : ∀ r : Except UnitErr MatIn, found r = true → ∃ m, r = .ok m
  | .ok m, _ => ⟨m, rfl⟩
  | .error _, h => by cases h
theorem witness_TilesCompleted_slabs : ∃ m n, (slabs (slabbed 0)).slabOperands (slabbed 0) 0 = .ok m ∧ (slabs (slabbed 1)).slabOperands (slabbed 1) 1 = .ok n ∧
    0 + 1 < descNR (slabbed 0).cap ∧ descNR (slabbed 1).cap ≤ 1 + 1 ∧ (slabs (slabbed 0)).slabHeld (slabbed 0) = false := by
  obtain ⟨m, hm⟩ := found_ok ((slabs (slabbed 0)).slabOperands (slabbed 0) 0) (by rfl)
  obtain ⟨n, hn⟩ := found_ok ((slabs (slabbed 1)).slabOperands (slabbed 1) 1) (by rfl)
  exact ⟨m, n, hm, hn, by decide, by decide, by rfl⟩
theorem witness_TilesCompleted_ends : (∃ c, tfind (working { op := .tfree, td := some 6 }).cmds 2 = some c ∧ c.op = .tfree ∧ c.td = some 6 ∧ c.active = true ∧
      (working { op := .tfree, td := some 6 }).behindOnTile 2 = false ∧ (working { op := .tfree, td := some 6 }).readEarlier 2 = false) ∧
    (∃ c, tfind (working { op := .talloc, td := some 6 }).cmds 2 = some c ∧ c.op = .talloc) ∧
    (∃ c, tfind (working { op := .mlatch, tb := some 3 }).cmds 2 = some c ∧ c.op = .mlatch ∧ c.tb = some 3 ∧
      ((tget (working { op := .mlatch, tb := some 3 }).strands c.strand).tile 3).tk = 0 ∧ c.td = none ∧ c.ta = none ∧ c.ta2 = none) :=
  ⟨⟨_, rfl, rfl, rfl, rfl, by decide, by decide⟩, ⟨_, rfl, rfl⟩, ⟨_, rfl, rfl, rfl, by decide, rfl, rfl, rfl⟩⟩
theorem witness_StreamFaults : ∃ c : Cmd, tfind (working (slabbed 0)).cmds 2 = some c ∧ c.op = .mmas ∧ c.state = .started ∧ (working (slabbed 0)).slabFault c = some 0x1000 ∧
    (tfind (working (slabbed 0)).strands c.strand).isSome = true ∧ (tget (working (slabbed 0)).gangs (tget (working (slabbed 0)).strands c.strand).gang).halt = none ∧
    c.prog < 2 ^ 16 :=
  ⟨_, rfl, rfl, rfl, by rfl, by decide, by decide, by decide⟩
theorem witness_StreamFaults_tile : Writing (working (slabbed 1)) 2 { slabbed 1 with strand := 1, active := true } 6 ∧
    (∀ u, ((tget (working (slabbed 1)).strands 1).tile u).pend = []) ∧
    ∃ va, (working (slabbed 1)).slabFault { slabbed 1 with strand := 1, active := true } = some va :=
  ⟨writing _ 6 rfl (.inl rfl) (by decide), (calm (slabbed 1)).2.1, _, by rfl⟩
theorem witness_StreamFaults_killed : ∃ s : State, (tget s.gangs 2).killed = true ∧ tfind s.cmds 2 = some { slabbed 0 with strand := 1, active := true } ∧
    s.slabFault { slabbed 0 with strand := 1, active := true } = some 0x1000 ∧ (tget s.strands 1).gang = 2 ∧ (tget s.gangs 2).halt = none :=
  ⟨{ working (slabbed 0) with gangs := tmod base.gangs 2 (fun g => { g with killed := true }) }, by decide, by decide, by rfl, by decide, by decide⟩

/-- A copy of `n` bytes from virtual address 0x3000 - n to the end of the page at 0x1000. -/
def plain (n : Nat) : Cmd := { op := .cpy, strand := 1, state := .started, a := BitVec.ofNat 64 (0x2000 - n), b := BitVec.ofNat 64 (0x3000 - n), c := BitVec.ofNat 64 n }
theorem tableEntry_same (m n : List Host.Cell) (a : Nat) (h : ∀ k, a ≤ k → k < a + 8 → cget m k = cget n k) : tableEntry m a = tableEntry n a := by
  unfold tableEntry cnum cread
  rw [List.map_congr_left (fun i hi => h (a + i) (by omega) (by have := List.mem_range.mp hi; omega))]
theorem walkFrom_next (m : List Host.Cell) (ps va lo len t t' : Nat) (r : Nat × Nat) (l : List (Nat × Nat)) (e : Word) (h0 : va / 2 ^ lo = 0) (h : tableEntry m t = e)
    (hv : bitAt e 63 = true) (hr : entryReserved e = false) (hs : (decide (ps = 0) && bitAt e 62) = false) (ht : fld e 12 40 * 4096 = t') :
    walkFrom m ps va ((lo, len) :: r :: l) t = walkFrom m ps va (r :: l) t' := by
  rw [walkFrom, h0, Nat.zero_mod, Nat.mul_zero, Nat.add_zero]
  simp only [h, hv, hr, hs, ht, Bool.not_true, Bool.false_or, Bool.false_eq_true, if_false]
/-- The first GiB of the mapped machine walks to its first leaf as long as the three entries stand. -/
theorem first_walk (s : State) (va : Nat) (hv : va < 2 ^ 30) (hr : (tget s.parts 0).regions = [(0, 0xC000000000001000)])
    (h1 : tableEntry s.mem 0x1000 = 0x8000000000002000) (h2 : tableEntry s.mem 0x2000 = 0x8000000000003000)
    (h3 : tableEntry s.mem 0x3000 = 0xB800000040000000) : s.walk 0 (BitVec.ofNat 56 va) = .leaf firstLeaf := by
  have hw : (BitVec.ofNat 56 va).toNat = va := Nat.mod_eq_of_lt (by omega)
  have e (k : Nat) (hk : 30 ≤ k) : va / 2 ^ k = 0 := Nat.div_eq_of_lt (Nat.lt_of_lt_of_le hv (Nat.pow_le_pow_right (by decide) hk))
  have hl : s.reservedLeaf 0 va = none := by
    unfold State.reservedLeaf
    rw [e 52 (by decide)]; rfl
  have hg : cget ([(0, 0xC000000000001000)] : Cells 64) 0 = 0xC000000000001000 := rfl
  unfold State.walk State.walkBy
  rw [hw, hl]
  simp only [walkIn, hw, hr, e 52 (by decide), hg]
  rw [if_neg (by decide), show fld 0xC000000000001000 60 3 = 4 from by decide, show fld 0xC000000000001000 12 40 * 4096 = 0x1000 from by decide,
    show walkGroups 4 = [(48, 4), (39, 9), (30, 9)] from rfl,
    walkFrom_next _ _ _ _ _ _ _ _ _ _ (e 48 (by decide)) h1 (by decide) (by decide) (by decide) (by decide : _ = 0x2000),
    walkFrom_next _ _ _ _ _ _ _ _ _ _ (e 39 (by decide)) h2 (by decide) (by decide) (by decide) (by decide : _ = 0x3000),
    walkFrom, e 30 (by decide), Nat.zero_mod, Nat.mul_zero, Nat.add_zero, h3]
  unfold leafOf
  rw [show pageBits 4 = 30 from rfl, e 30 (by decide)]
  rfl
/-- A machine with the mapped machine's memory and partition, no route in the way. -/
structure First (s : State) : Prop where
  mem : s.mem = mapped.mem
  regions : (tget s.parts 0).regions = [(0, 0xC000000000001000)]
  before : (tget s.parts 0).before = []
  routes : ∀ v, s.routeOf 0 v = none ∧ s.routeBarred 0 v = false
theorem first (l : List (Nat × Cmd)) : First { mapped with cmds := l } := ⟨rfl, rfl, rfl, fun _ => ⟨rfl, rfl⟩⟩
/-- A command of the mapped machine reaches every byte of its first page, whatever else than the tables it writes. -/
theorem reaches (s : State) (h0 : First s) (c : Cmd) (D : Nat → Prop) (rq : BitVec 3) (top va n : Nat) (hg : firstLeaf.grants rq = true)
    (hp : c.part = 0) (ho : c.old = []) (hv : va + n ≤ 2 ^ 30) (hD : ∀ k, D k → 0x40000000 ≤ k) : Reaches s c D rq top false va n (fun _ => 0) (fun j => 0x40000000 + va + j) where
  slices := fun h => by cases h
  pages := fun _ => by
    refine ⟨fun _ => firstLeaf, fun j hj => ⟨fun m h => ?_, hg, Nat.zero_le _, fun h => (by cases h), ?_, rfl, ?_, hp ▸ (h0.routes _).1, hp ▸ (h0.routes _).2⟩⟩
    · have t (a : Nat) (ha : a + 8 ≤ 0x40000000) : tableEntry m a = tableEntry mapped.mem a :=
        tableEntry_same _ _ _ (fun k _ q => (h k (fun d => absurd (hD k d) (by omega))).trans (by rw [h0.mem]))
      unfold State.cmdWalk State.walkInForce
      rw [if_neg (by omega), ho, hp, show (tget ({ s with mem := m } : State).parts 0).before = [] from h0.before]
      exact first_walk _ _ (by omega) h0.regions (by rw [t _ (by decide)]; rfl) (by rw [t _ (by decide)]; rfl) (by rw [t _ (by decide)]; rfl)
    · show decide (0x40000000 + (va + j - 0) + 1 ≤ 2 ^ 39) = true
      simp only [decide_eq_true_eq]; omega
    · simp [firstLeaf, Leaf.at]; omega
/-- And reads its bytes, whatever it writes elsewhere. -/
theorem sources (s : State) (h0 : First s) (c : Cmd) (D : Nat → Prop) (va n : Nat) (hp : c.part = 0) (ho : c.old = []) (hv : va + n ≤ 2 ^ 30)
    (hD : ∀ k, D k → 0x40000000 ≤ k ∧ ¬(0x40000000 + va ≤ k ∧ k < 0x40000000 + va + n)) :
    Source s c D false va n (fun j => engineByte s 0 (0x40000000 + va + j)) :=
  ⟨fun _ => 0, fun j => 0x40000000 + va + j, reaches s h0 c D 1 2 va n rfl hp ho hv (fun k d => (hD k d).1),
    fun j hj => ⟨fun d => (hD _ d).2 (by simp only [memKey]; omega), rfl⟩⟩
/-- No command of a partition without bandwidth entries is held back. -/
theorem unhindered (s : State) (c : Cmd) (h : (tget s.parts c.part).bw = []) : Unhindered s c 0 := by
  refine ⟨fun h => absurd rfl h, fun x e he => ?_⟩
  have : e = 0 := by
    unfold State.bwEntry at he
    rw [h] at he
    split at he
    · exact (Option.some_inj.mp he).symm
    · cases he
  subst this
  exact ⟨by decide, fun h => absurd rfl h⟩
theorem witness_MemoryCommands : ∃ (s : State) (kind pa : Nat → Nat → Nat) (f : Nat → Nat → Byte), Runs s 2 (plain 4096) ∧ Calm s 1 ∧
    targetRuns s (plain 4096) = (1, fun _ => (false, 0x1000, 4096)) ∧
    (let D (k : Nat) : Prop := ∃ r j, r < 1 ∧ j < 4096 ∧ k = memKey (kind r j) (pa r j)
    (∀ r, r < 1 → Reaches s (plain 4096) D 2 2 false 0x1000 4096 (kind r) (pa r) ∧ ∀ j, j < 4096 → Writable (kind r j) (pa r j) 1) ∧
    DataOf s (plain 4096) D f) ∧ LogRoom s (plain 4096) 1 (fun _ => 4096) ∧ Unhindered s (plain 4096) 0 := by
  refine ⟨{ mapped with cmds := [(2, plain 4096)] }, fun _ _ => 0, fun _ j => 0x40000000 + 0x1000 + j,
    fun _ j => engineByte mapped 0 (0x40000000 + 0x2000 + j), ⟨rfl, by decide, rfl, by decide⟩,
    ⟨rfl, (by show ∀ th, ((tget mapped.strands 1).tile th).pend = []; decide), rfl⟩, rfl, ⟨fun r hr => ⟨reaches _ (first _) _ _ 2 2 0x1000 4096 rfl rfl rfl (by decide) ?_,
      fun j _ h => by cases h⟩, ?_⟩, fun d h => (by cases h), unhindered _ _ rfl⟩
  · rintro k ⟨r, j, -, -, rfl⟩
    simp only [memKey]; omega
  · refine sources _ (first _) _ _ 0x2000 4096 rfl rfl (by decide) ?_
    rintro k ⟨r, j, -, hj, rfl⟩
    simp only [memKey]; omega
/-- A fill, a gather of one null row and a spread gather of one, each into A-tile 7. -/
def filling (op : CmdOp) (im : BitVec 12) (w : Word) : Cmd := { op := op, td := some 7, state := .started, fmt := 2, a := 0x1000, b := 512, c := w, imm := im, cap := [255, 255, 255, 255] }
theorem first_slabs (c : Cmd) : First (slabs c) := ⟨rfl, rfl, rfl, fun _ => ⟨rfl, rfl⟩⟩
theorem witness_TileFills : ∃ f : Nat → Nat → Byte, Runs (slabs (filling .cpyf 0 0)) 2 { filling .cpyf 0 0 with strand := 1, active := true } ∧
    Writing (working (filling .cpyf 0 0)) 2 { filling .cpyf 0 0 with strand := 1, active := true } 7 ∧ Calm (slabs (filling .cpyf 0 0)) 1 ∧
    ((tget (working (filling .cpyf 0 0)).strands 1).tile 7).tk ≠ 2 ∧
    ∀ i, i < 32 → Source (slabs (filling .cpyf 0 0)) { filling .cpyf 0 0 with strand := 1, active := true } (fun _ => False) false
      ((0x1000 : Word) + BitVec.ofNat 64 i * 512).toNat 512 (f i) := by
  refine ⟨fun i j => engineByte (slabs (filling .cpyf 0 0)) 0 (0x40000000 + ((0x1000 : Word) + BitVec.ofNat 64 i * 512).toNat + j), ⟨rfl, by decide, rfl, by decide⟩,
    writing _ 7 rfl (.inr rfl) (by decide), calm (filling .cpyf 0 0), by decide, fun i hi => sources _ (first_slabs _) _ _ _ 512 rfl rfl ?_ (fun _ h => False.elim h)⟩
  have : ((0x1000 : Word) + BitVec.ofNat 64 i * 512).toNat = 0x1000 + 512 * i := by
    simp; omega
  omega
theorem witness_TileFills_gathers : let c := filling .cpyg 0 0x10008; let d := filling .cpyg 512 0x10040
    Writing (working c) 2 { c with strand := 1, active := true } 7 ∧ Writing (working d) 2 { d with strand := 1, active := true } 7 ∧
    (wAt c.cap 0).toNat = 0xFFFFFFFF ∧ c.imm.getLsbD 9 = false ∧ d.imm.getLsbD 9 = true ∧ c.c.toNat % 2 ^ 16 = 8 ∧ c.c.toNat / 2 ^ 16 % 2 ^ 13 = 1 ∧
    d.c.toNat % 2 ^ 16 = 4 * tagWidth (d.fmt.setWidth 4) ∧ d.c.toNat / 2 ^ 16 % 2 ^ 13 = 1 :=
  ⟨writing _ 7 rfl (.inr rfl) (by decide), writing _ 7 rfl (.inr rfl) (by decide), by decide⟩
/-- A copy of the last 4 KiB of a window, and one of the last 64 bytes of half 1, from the first page. -/
def inward (op : CmdOp) (n b : Nat) : Cmd := { op := op, state := .started, strand := 1, a := 0x1000, b := BitVec.ofNat 64 b, c := BitVec.ofNat 64 n, imm := 512, after := some 1 }
theorem witness_ChipCopies : ∃ (s : State) (f : Nat → Byte), Runs s 2 (inward .cpysTo 4096 0xFFF000) ∧ Runs s 3 (inward .cpyi 64 0x20FFC0) ∧ Calm s 1 ∧
    (tfind s.strands 1).isSome = true ∧ (tfind s.cores 0).isSome = true ∧ s.halfBusy (inward .cpyi 64 0x20FFC0) = false ∧ 0x20FFC0 % 2 ^ 16 + 64 = 65536 ∧
    Source s (inward .cpysTo 4096 0xFFF000) (fun _ => False) false 0x1000 4096 f ∧ Source s (inward .cpyi 64 0x20FFC0) (fun _ => False) false 0x1000 64 f :=
  ⟨{ mapped with cmds := [(2, inward .cpysTo 4096 0xFFF000), (3, inward .cpyi 64 0x20FFC0)] }, _, ⟨rfl, by decide, rfl, by decide⟩, ⟨rfl, by decide, rfl, by decide⟩,
    ⟨rfl, (by show ∀ th, ((tget mapped.strands 1).tile th).pend = []; decide), rfl⟩, rfl, rfl, by decide, rfl,
    sources _ (first _) _ _ _ _ rfl rfl (by decide) (fun _ h => False.elim h),
    sources _ (first _) _ _ _ _ rfl rfl (by decide) (fun _ h => False.elim h)⟩
/-- A copy of which the completion word is left, at address 0x1000. -/
def worded : Cmd := { plain 5 with lit := 0x1000, wordLeft := true }
theorem witness_CompletionWords : ∃ s : State, tfind s.cmds 2 = some worded ∧ worded.cwa = 0x1000 ∧ underTl worded.op = false ∧ worded.units = [] ∧ worded.wordSent = false ∧
    s.halfBusy worded = false ∧ Calm s worded.strand ∧ Unhindered s worded 0 ∧ LogRoom s worded 1 (fun _ => 8) ∧
    Reaches s worded (fun k => ∃ j, j < 8 ∧ k = memKey 0 (0x40000000 + 0x1000 + j)) 2 1 false 0x1000 8 (fun _ => 0) (fun j => 0x40000000 + 0x1000 + j) ∧
    ∀ j, j < 8 → Writable 0 (0x40000000 + 0x1000 + j) 1 := by
  refine ⟨{ mapped with cmds := [(2, worded)] }, rfl, rfl, rfl, rfl, rfl, by decide, ⟨rfl, (by show ∀ th, ((tget mapped.strands 1).tile th).pend = []; decide), rfl⟩,
    unhindered _ _ rfl, fun d h => (by cases h), reaches _ (first _) _ _ 2 1 0x1000 8 rfl rfl rfl (by decide) ?_, fun j _ h => by cases h⟩
  rintro k ⟨j, -, rfl⟩
  simp only [memKey]; omega
/-- A copy whose source lies in the window of route 5, which the partition does not own. -/
theorem witness_QueueEnds_barred : ∃ s : State, Runs s 2 (plain 5) ∧ Calm s 1 ∧ s.routeOf 0 (plain 5).b.toNat = none ∧ s.routeBarred 0 (plain 5).b.toNat = true ∧
    s.dev.fatal.length < 64 ∧ (plain 5).imm.getLsbD 10 = false :=
  ⟨{ mapped with cmds := [(2, plain 5)], dev := { base.dev with routes := [(5, (0x40 : BitVec 64) ++ (0x8000000000000000 : BitVec 64))] } }, ⟨rfl, by decide, rfl, by decide⟩,
    ⟨rfl, (by show ∀ th, ((tget mapped.strands 1).tile th).pend = []; decide), rfl⟩, by decide, by decide, by decide, by decide⟩
/-- A copy whose source is the absent page and one whose source withholds the right to read. -/
theorem witness_CopyCompletions_stalls : ∃ (s : State) (c d : Cmd), s.cmds = [(2, c), (3, d)] ∧ c.op = .cpy ∧ c.state = .started ∧ c.wordLeft = false ∧ c.prog = 0 ∧
    0 < c.c.toNat ∧ c.imm.getLsbD 10 = false ∧ c.queue < 16 ∧ s.routeOf c.part c.b.toNat = none ∧ s.routeBarred c.part c.b.toNat = false ∧ c.units = [] ∧ (∀ l, s.cmdWalk c c.b.toNat = .leaf l → l.pr = false) ∧
    d.op = .cpy ∧ 0 < d.c.toNat ∧ s.routeOf d.part d.b.toNat = none ∧ (∀ l, s.cmdWalk d d.b.toNat = .leaf l → l.pr = false) := by
  have h : ∀ l, mapped.cmdWalk { plain 1 with b := 0x100000000 } 0x100000000 = .leaf l → l.pr = false := by
    intro l e; rw [show mapped.cmdWalk { plain 1 with b := 0x100000000 } 0x100000000 = .absent from rfl] at e; cases e
  have h' : ∀ l, mapped.cmdWalk { plain 1 with b := 0x40000000 } 0x40000000 = .leaf l → l.pr = false := by
    intro l e
    rw [show mapped.cmdWalk { plain 1 with b := 0x40000000 } 0x40000000 =
      .leaf { ps := 4, kd := 0, pr := false, pw := false, pa := false, base := 0x40000000, vbase := 0x40000000 } from rfl] at e
    cases e; rfl
  exact ⟨{ mapped with cmds := [(2, { plain 1 with b := 0x100000000 }), (3, { plain 1 with b := 0x40000000 })] }, _, _, rfl, rfl, rfl, rfl, rfl, by decide, rfl,
    by decide, by decide, by decide, rfl, h, rfl, by decide, by decide, h'⟩
theorem witness_CopyCompletions_kill : ∃ (s : State) (c : Cmd), tfind s.cmds 2 = some c ∧ c.op = .sqkill ∧ (∀ x ∈ queueList s c.engine c.queue, 2 ≤ x.1) ∧
    c.td = none ∧ c.ta = none ∧ c.ta2 = none ∧ c.tb = none ∧ Calm s 1 :=
  ⟨{ base with cmds := [(2, { op := .sqkill, strand := 1 }), (3, { op := .cpy, strand := 1 })] }, _, rfl, rfl, by decide, rfl, rfl, rfl, rfl,
    ⟨rfl, (by show ∀ th, ((tget base.strands 1).tile th).pend = []; decide), rfl⟩⟩

/-- A pooling command of one bag of one element, its table's plan loaded. -/
def pooled : Cmd := { op := .sfpool, td := some 6, state := .started, c := 0x40201, plan := some 9 }
theorem witness_PoolingEvents : ∃ (s : State) (c : Cmd), Writing s 2 c 6 ∧ Calm s c.strand ∧ c.op = .sfpool ∧ c.state = .started ∧ c.wordLeft = false ∧ c.wordSent = false ∧ c.cwa = 0 ∧
    c.units = [] ∧ c.window = none ∧ (∀ x ∈ (tget s.parts c.part).plans, x.1 < 2 → x.2.loaded = true) ∧
    poolB c.c * ((poolL c.c + 127) / 128) ≤ 16 ∧ poolB c.c ≤ 256 ∧ poolB c.c = 1 ∧ poolL c.c = 1 :=
  ⟨working pooled, { pooled with strand := 1, active := true }, writing _ 6 rfl (.inl rfl) (by decide), calm pooled, rfl, rfl, rfl, rfl, rfl, rfl, rfl,
    by decide, by decide, by decide, by decide, by decide⟩
/-- The worked example of R357: table 7 with rows 0 to 99 hot on landing 0, 100 to 599 warm on landing 1, 600 to 999 cold on landing 5; and its
request. -/
def tableSeven : Plan := {
  tid := 7, fmt := 2, dim := 4, nr := 1000, hot := cwrite [] (64 * 3) [0x80, 0x4B, 0, 0x3F], regs := [(0, 0xC000000000001000)]
  segs := [{ fr := 0, sn := 100, va := 3 <<< 30 }, { fr := 100, sn := 500, va := 4 <<< 30, ld := 1, tr := 1 }, { fr := 600, sn := 400, va := 5 <<< 30, ld := 5, tr := 2 }],
  tables := cwrite (cwrite mapped.mem 0x3020 (dwBytes 0xBA00004000000000)) 0x3028 (dwBytes 0xBA00014000000000) }
def requestSeven : Cmd := {
  op := .sfpool, td := some 7, state := .started, b := 7, c := 0x100406, imm := 31, plan := some 9,
  cap := padTo 0x400 (wBytes 3 ++ wBytes 6) ++ [3, 150, 700, 620, 0xFFFFFFFF, 1200].flatMap wBytes }
def poolingSeven : State := { working requestSeven with
  mem := cwrite (cwrite (cwrite [] (memKey 2 (2 ^ 38 + 64 * 50)) [0x80, 0x3F, 0, 0x3F]) (memKey 2 (5 * 2 ^ 38 + 64 * 20)) [0x80, 0x3F, 0x80, 0x3F, 0x80, 0x3F, 0x80, 0x3F])
    (memKey 2 (5 * 2 ^ 38 + 64 * 100)) [0x80, 0x3F, 0, 0x3F],
  parts := tmod base.parts 0 (fun p => { p with plans := [(9, tableSeven)], res := { p.res with landings := [{ landing := 0, sram := 6400 }, { landing := 1 }, { landing := 5 }] } }) }
/-- R357: the lines, the mask, CE, NB and FT of the worked example. -/
theorem test_pooling_example : (let s := poolingSeven.doPool 2 { requestSeven with strand := 1 }
    let t := tget s.strands 1
    t.tileBytes (t.tile 7) 0 1024 = padTo 1024 (wBytes 0x4B800000 ++ wBytes 0x3FC00000) ∧ cread t.smem 0x3E0 32 = padTo 32 [2] ∧ (t.tile 7).ft = 1 ∧
    (tget s.cmds 2).error = 0 ∧ (tget s.cmds 2).bytes = 1024) := by decide +kernel
/-- A plan still to be loaded: one hot segment of one row in the capacity tier, and one whose pages are absent. -/
def unloaded : Plan := {
  tid := 7, fmt := 1, dim := 1, nr := 2, segs := [{ fr := 0, sn := 1, va := 3 <<< 30 }, { fr := 1, sn := 1, va := 4 <<< 30 }], loaded := false }
theorem witness_PoolingEvents_load : ∃ s : State, (tfind s.parts 0).isSome = true ∧
    (tget s.parts 0).plans.find? (fun e => e.2.tid = 7 && !e.2.loaded) = some (9, unloaded) ∧ segmentsChain unloaded.nr 0 unloaded.segs = true ∧
    unloaded.segs.all (fun g => g.tr = 0) = true :=
  ⟨{ mapped with parts := tmod mapped.parts 0 (fun q => { q with plans := [(9, unloaded)] }) }, rfl, rfl, by decide, by decide⟩

/-- A future cell at virtual address 16 in the first page, its two doublewords given. -/
def future (v st : Word) : State := { mapped with mem := cwrite mapped.mem 0x40000010 (dwBytes v ++ dwBytes st) }
/-- The place of the cell. -/
def cellPlace : Place := { kind := 0, pa := 0x40000010, va := 0x10 }
theorem witness_FencesAndFutures_full : CellAt (future 5 0x4000000000000000) 16 1 cellPlace ∧ CellAt (future 5 0x4000000000000000) 16 6 cellPlace ∧
    fld (homeWord (future 5 0x4000000000000000) cellPlace 8) 62 2 = 1 ∧ (∀ x ∈ (tget (future 5 0).clusters (future 5 0).cl).lines, x.1 < 2 ^ 33) :=
  ⟨⟨by decide, by rfl⟩, ⟨by decide, by rfl⟩, by decide, by decide⟩
/-- The same once the prefix of the gang is over, the strand with fold number 1. -/
def unfilled : State := { future 0 0 with
  strands := tmod base.strands 1 (fun t => { t with fol := 1 }), gangs := tmod base.gangs 2 (fun g => { g with prefixOver := true }) }
theorem witness_FencesAndFutures_empty : CellAt unfilled 16 1 cellPlace ∧ fld (homeWord unfilled cellPlace 8) 62 2 ≠ 1 ∧ unfilled.gang.prefixOver = true :=
  ⟨⟨by decide, by rfl⟩, by decide, by decide⟩
theorem witness_FencesAndFutures_fill : CellAt unfilled 16 6 cellPlace ∧ fld (homeWord unfilled cellPlace 8) 62 2 ≠ 1 ∧
    fld (homeWord unfilled cellPlace 8) 0 56 / 64 = 0 ∧ anyHeld unfilled.me = false ∧
    (unfilled.logAll unfilled.me.part (unfilled.tenantOf unfilled.me) (pagesOf 0 16 16)).2 = true ∧ CellFree unfilled cellPlace ∧ Writable 0 cellPlace.pa 16 ∧ cellPlace.pa % 16 = 0 ∧ cellPlace.pa + 16 ≤ 2 ^ 52 ∧
    (∀ x ∈ unfilled.strands, x.2.fol ≠ 0) ∧ (∀ x ∈ (tget unfilled.clusters unfilled.cl).lines, x.1 < 2 ^ 33) :=
  ⟨⟨by decide, by rfl⟩, by decide, by decide, by decide, by rfl, by unfold CellFree; decide, (fun h => absurd h (by decide)), by decide, by decide, by decide, by decide⟩

/-- The empty cell read in the prefix by a strand with a load outstanding, its folio in another line of the page. -/
def squashing (l : List LdOp) : State := { future 0 0x40 with strands := tmod base.strands 1 (fun t => { t with fb := 0x1000, ldq := l, s := [(1, 16)] }) }
theorem witness_SquashBegins : let s := squashing [{}]
    CellAt s (s.reg 1) 1 cellPlace ∧ fld (homeWord s cellPlace 8) 62 2 ≠ 1 ∧ s.gang.prefixOver = false ∧ CellFree s cellPlace ∧ (tfind s.gangs s.me.gang).isSome = true ∧
    s.gang.halt = none ∧ s.cur ∈ s.gang.strands ∧ s.gang.strands.Nodup ∧ (∀ k ∈ s.gang.strands, (tfind s.strands k).isSome = true ∧ (tget s.strands k).drained = false ∧
      (tget s.strands k).written = false ∧ (tget s.strands k).ended = false) ∧ s.me.fb.toNat % 8 = 0 :=
  ⟨⟨by decide, by rfl⟩, by decide, by decide, by unfold CellFree; decide, by decide⟩
/-- The same while the gang is already halting for the squash that a sibling's read began. -/
theorem witness_SquashBegins_second : let s : State := { squashing [{}] with
      strands := tset (tmod (squashing [{}]).strands 1 (fun t => { t with halted := true, fol := 0x80 })) 9 { gang := 2, halted := true, fol := 0x40, wc := 1, stq := [{}] }
      gangs := tmod base.gangs 2 (fun g => { g with strands := [1, 9], halt := some { st := 2 } }) }
    CellAt s (s.reg 1) 1 cellPlace ∧ s.gang.halt = some { st := 2 } ∧ CellFree s cellPlace ∧ s.me.wc = 0 ∧ s.gang.strands.Nodup ∧
    (∀ k ∈ s.gang.strands, (tfind s.strands k).isSome = true ∧ (tget s.strands k).drained = false ∧ (tget s.strands k).written = false ∧
      (tget s.strands k).ended = false) :=
  ⟨⟨by decide, by rfl⟩, by decide, by unfold CellFree; decide, by decide, by decide, by decide⟩
theorem witness_SquashBegins_folio : let s := squashing [{}]
    ∀ m l, (∀ k, k / 64 ≠ memKey 0 cellPlace.pa / 64 → cget m k = cget s.mem k) →
      ({ s with mem := m } : State).walk s.me.part (BitVec.ofNat 56 s.me.fb.toNat) = .leaf l → memKey l.kd (l.at s.me.fb.toNat) / 64 ≠ memKey 0 cellPlace.pa / 64 := by
  intro s m l hm hw
  have t (a : Nat) (ha : a + 8 ≤ 0x40000000) : tableEntry m a = tableEntry s.mem a :=
    tableEntry_same _ _ _ (fun k _ q => hm k (by show k / 64 ≠ 0x40000010 / 64; omega))
  have := first_walk ({ s with mem := m } : State) 0x1000 (by decide) rfl ((t _ (by decide)).trans (by decide)) ((t _ (by decide)).trans (by decide))
    ((t _ (by decide)).trans (by decide))
  obtain rfl := Walk.leaf.inj (this.symm.trans hw)
  decide
theorem witness_SquashEnds : let s := squashing []
    CellAt s (s.reg 1) 1 cellPlace ∧ (tfind s.gangs s.me.gang).isSome = true ∧ (tfind s.strands s.cur).isSome = true ∧ s.gang.halt = none ∧ s.gang.strands = [s.cur] ∧
    s.gang.bars = [] ∧ s.me.drained = true ∧ s.me.written = false ∧ s.me.halted = false ∧ s.me.ended = false ∧ s.grantWaits s.me.part s.cur = false ∧ s.me.wc ≠ -1 :=
  ⟨⟨by decide, by rfl⟩, by decide⟩
/-- Strand 9, squashed alone in gang 8, waits on the cell with folio 0x40. -/
def waiting (wc : BitVec 8) : State := { squashing [] with
  strands := tset (tmod (squashing []).strands 1 (fun t => { t with fol := 0x80 })) 9 { gang := 8, batch := 3, fol := 0x40, st := 2, wc := wc },
  gangs := tset base.gangs 8 { batch := 3, strands := [9] } }
theorem witness_FillsWake : let s := waiting 1; let x := tget s.strands 9
    CellAt s (s.reg 1) 6 cellPlace ∧ fld (homeWord s cellPlace 8) 62 2 ≠ 1 ∧ anyHeld s.me = false ∧ CellFree s cellPlace ∧
    (s.logAll s.me.part (s.tenantOf s.me) (pagesOf 0 16 16)).2 = true ∧ x.part = s.me.part ∧
    x.fol.setWidth 64 = homeWord s cellPlace 8 &&& 0x00FF_FFFF_FFFF_FFC0 ∧ 0 < x.wc.toNat ∧ x.link = 0 ∧ (∀ e ∈ s.strands, e.2.fol ≠ 0 ∧ (e.1 = 9 ∨ e.2.fol ≠ x.fol)) ∧
    x.st = 2 ∧ (tget s.gangs x.gang).halt = none ∧ (tget s.gangs x.gang).placed = false ∧ (tfind s.parts (tget s.gangs x.gang).part).isSome = true ∧
    (∀ j ∈ (tget s.gangs x.gang).strands, (if j = 9 then x.wc - 1 else (tget s.strands j).wc) = 0) ∧ (tget (waiting 2).strands 9).wc ≠ 1 :=
  ⟨⟨by decide, by rfl⟩, by decide, by decide, by unfold CellFree; decide, by rfl, by decide⟩

/-- Binding 4095 of the partition, over the first page of the mapped machine and shared by its cluster. -/
def syncing (b : Binding) (l : List (Nat × BitVec 64)) : State := { mapped.onMe (fun t => { t with s := l, fol := 7 }) with
  parts := tmod mapped.parts 0 (fun p => { p with bindings := [(4095, { b with bv := true, hsc := 2 })] }) }
theorem witness_SyncObjects : ∀ md : BitVec 2, let s := syncing { md := md, sh := 1, own := 7 } [(1, 4095)]
    (s.reg 1).toNat + (0 : BitVec 10).toNat % 512 < 4096 ∧
    (tget (tget s.parts s.me.part).bindings 4095).bv = true ∧ (tfind s.parts s.me.part).isSome = true ∧ (tget (tget s.parts s.me.part).bindings 4095).waiters = [] ∧
    (tget (tget s.parts s.me.part).bindings 4095).md = md ∧ (tget (tget s.parts s.me.part).bindings 4095).own = s.me.fol ∧ anyHeld s.me = false ∧
    (∀ x ∈ (tget s.clusters s.cl).lines, x.1 < 2 ^ 33) := by decide
theorem witness_SyncObjects_other : (tget (tget (syncing { md := 1, own := 8 } []).parts 0).bindings 4095).own ≠ (syncing { md := 1, own := 8 } []).me.fol := by decide
theorem witness_SyncObjects_unbound : 4096 ≤ ((syncing {} [(1, 4096)]).reg 1).toNat + 0 ∧ 4096 ≤ ((syncing {} [(1, 4000)]).reg 1).toNat + 96 ∧
    (tget (tget (syncing {} []).parts (syncing {} []).me.part).bindings 4094).bv = false := by decide

theorem witness_SyncHandOver : let s := syncing { md := 1, own := 7, waiters := [{ strand := 9, excl := true }, { strand := 8 }] } [(1, 4095)]
    let b := tget (tget s.parts s.me.part).bindings 4095
    b.bv = true ∧ b.md = 1 ∧ b.own = s.me.fol ∧ anyHeld s.me = false ∧ (tfind s.parts s.me.part).isSome = true ∧
    b.waiters = { strand := 9, excl := true } :: [{ strand := 8 }] ∧ ∀ q ∈ b.waiters, q.granted = false := by decide
theorem witness_SyncHandOver_taken : let s := syncing { md := 1, own := 7, waiters := [{ strand := 1, excl := true, granted := true, value := 6 }] } [(1, 4095)]
    (tget (tget s.parts s.me.part).bindings 4095).waiters.find? (fun q => q.strand = s.cur) = some { strand := 1, excl := true, granted := true, value := 6 } := by decide

/-- Barrier 15 of the pair of strands, as given. -/
def barred (b : Barrier) : State := { pair with gangs := tmod pair.gangs 2 (fun g => { g with bars := [(15, b)] }) }
theorem witness_Barriers_completes : Arrives (barred { arrived := [1], mask := 0 }) 15 0 True ∧ (barred {}).me.rank ∉ ([] : List Nat) ∧
    Arrives base 0 1 True :=
  ⟨⟨by decide, by decide, by decide, by decide, by decide⟩, by decide, ⟨by decide, by decide, by decide, by decide, by decide⟩⟩
theorem witness_Barriers_first : Arrives (barred {}) 15 0 False ∧ Arrives (barred { arrived := [0] }) 15 0 False :=
  ⟨⟨by decide, by decide, by decide, by decide, by decide⟩, ⟨by decide, by decide, by decide, by decide, by decide⟩⟩
theorem witness_Barriers_released : let s := barred { released := [0], phase := 0xFFFF }
    s.me.rank ∈ (tget s.gang.bars 15).released ∧ (tfind s.gangs s.me.gang).isSome = true ∧ (tget s.gang.bars 15).phase ≠ (s.reg 1).extractLsb' 0 16 ∧
    (tget s.gang.bars 14).phase = (s.reg 1).extractLsb' 0 16 := by decide
theorem witness_Barriers_held : let s := (barred {}).onMe (fun t => { t with stq := [{ held := some {} }] })
    s.me.rank ∈ partRanks s 0 ∧ (tget s.gang.bars 15).arrived = [] ∧ anyHeld s.me = true ∧ s.me.rank ∉ (tget s.gang.bars 15).released := by decide
theorem witness_Barriers_traps : (barred {}).me.rank ∉ partRanks (barred {}) 8 ∧
    (let x := tget (barred { arrived := [1], mask := 1 }).gang.bars 15; x.arrived ≠ [] ∧ x.mask ≠ 3) := by decide

/-- The gang with pipe 3 as given and a limit of 1 value in each of 4 pipes. -/
def piped (l : List Word) : State := { base with
  gangs := tmod base.gangs 2 (fun g => { g with pipes := [(3, l)] }), batches := tmod base.batches 3 (fun b => { b with pn := 4, pd := 0 }) }
theorem witness_PipesAndWaits : (tfind (piped []).gangs (piped []).me.gang).isSome = true ∧ 3 < (tget (piped []).batches (piped []).gang.batch).pn ∧
    (tget (piped []).gang.pipes 3).length < (tget (piped []).batches (piped []).gang.batch).pd + 1 ∧ tget (piped []).gang.pipes 3 = [] ∧
    (tget (piped [5]).batches (piped [5]).gang.batch).pd + 1 ≤ (tget (piped [5]).gang.pipes 3).length ∧ tget (piped [5]).gang.pipes 3 = 5 :: [] ∧
    (tget (piped []).batches (piped []).gang.batch).pn ≤ 4 := by decide
theorem witness_PipesAndWaits_waits : (let t := (withMe (fun t => { t with ldq := [{}] })).me; t.ldq.length ≤ (1 : BitVec 6).toNat ∧ ¬t.ldq.length ≤ (0 : BitVec 6).toNat ∧
    t.stq.length ≤ 0 ∧ t.cpq.length ≤ 0 ∧ t.tlq.length ≤ 0) := by decide
/-- A load that the bundle of the WAIT itself has issued does not count. -/
theorem witness_PipesAndWaits_own : let s : State := { withMe (fun t => { t with ldq := [{}] }) with issue := { base.issue with ownLd := 1 } }
    s.me.ldq.length - s.issue.ownLd ≤ (0 : BitVec 6).toNat ∧ s.me.stq.length - s.issue.ownSt ≤ 0 := by decide

theorem witness_Ends : base.issue.bound = none ∧ base.gang.pre = none := by decide
theorem witness_Ends_retires : let s := withMe (fun t => { t with ended := true }); let x := tget s.strands 1
    (tfind s.strands 1).isSome = true ∧ x.ended = true ∧ x.resident = true ∧ x.ldq = [] ∧ x.stq = [] ∧ x.cpq = [] ∧ x.tlq = [] ∧ x.micro.mv = false ∧
    (tget s.gangs x.gang).halt = none ∧ (tfind s.gangs x.gang).isSome = true ∧ (tfind s.batches (tget s.gangs x.gang).batch).isSome = true ∧
    (∀ j ∈ (tget s.gangs x.gang).strands, j = 1 ∨ (tget s.strands j).st = 5) := by decide
/-- A batch whose one gang is over, its completion word at address 8. -/
def ending : Batch := { gc := 1, gangsEnded := 1, cwa := 8 }
/-- The mapped machine with that batch. -/
def batched : State := { mapped with batches := [(3, ending)] }
theorem witness_Ends_batch : tfind batched.batches 3 = some ending ∧ ending.complete = false ∧ ending.gc ≤ ending.gangsEnded ∧
    (∀ x ∈ batched.cmds, (tget batched.strands x.2.strand).batch ≠ 3) ∧ (∀ w ∈ ending.suc, w = 0) ∧ (∀ c ∈ batched.clusters, c.2.lines = []) ∧ ending.cwa = 8 ∧
    batched.walk 0 8 = .leaf firstLeaf ∧ paExists 0 (firstLeaf.at 8) 8 = true :=
  ⟨rfl, rfl, by decide, by decide, fun _ h => (by cases h), by decide, rfl, by rfl, by decide⟩

/-- A batch record at virtual address 0 of the mapped machine: one strand of role 0, entry 0x100000, no windows, a frame of 4,095 pages, folios and routing
in the first page, 1 gang; and queue 1 as given. -/
def launching (q : PQueue) : State := { mapped with
  mem := cwrite mapped.mem 0x40000000 ([0x100000, 0, 0, 0, 0x100000001, 0, 0x100, 0x1000, 0x1000, 0x1FFF, 0, 0, 0, 0, 0, 0].flatMap dwBytes)
  parts := tmod mapped.parts 0 (fun p => { p with queues := [(1, q)] }) }
theorem witness_Launches : anyHeld base.me = false ∧ (tget base.clusters base.cl).lines = [] ∧
    (tget (tget (launching { qe := true, shut := true }).parts 0).queues 1).shut = true ∧ (tget (tget (launching {}).parts 0).queues 1).qe = false ∧
    1024 ≤ (tget (tget (launching { qe := true, batches := List.replicate 1024 5 }).parts 0).queues 1).batches.length :=
  ⟨by decide, by decide, by decide, by decide, Nat.le_of_eq (List.length_replicate (n := 1024) (a := 5)).symm⟩
theorem witness_Launches_served : (∀ l, Served base l) ∧ (∀ l, Served (launching { qe := true }) l) :=
  ⟨served_idle _ (by decide) (by decide), served_idle _ (by decide) (by decide)⟩
theorem witness_Launches_enters : ∃ (s : State) (ps qs : List (Place × Nat)), (tget (tget s.parts s.me.part).queues 1).qe = true ∧
    (tget (tget s.parts s.me.part).queues 1).shut = false ∧ (tget (tget s.parts s.me.part).queues 1).batches.length < 1024 ∧ (tfind s.parts s.me.part).isSome = true ∧
    s.vPlaces 0 128 2 1 = .ok ps ∧ fld (dwAt (s.readPlaces ps) 0x70) 6 50 = 0 ∧ recordOk (s.readPlaces ps) = true ∧
    (let b := launched s 1 (s.readPlaces ps)
    s.vPlaces (b.pwt.toNat / 64 % 2 ^ 50 * 64) 64 2 1 = .ok qs ∧ (∀ i, i < 8 → descriptorOk (dwAt (s.readPlaces qs) (8 * i)) = true) ∧
    (tget s.parts s.me.part).unloaded.contains b.ig = false ∧ (fitGang s.me.part b.ig (List.replicate 12 Room.empty) b.needs).isSome = true) :=
  ⟨launching { qe := true }, _, _, by decide, by decide, by decide, by decide, rfl, by decide, by rfl, rfl, by decide, by rfl, by rfl⟩
/-- Launches turned away or trapping on the mapped machine: a misaligned record, one in the page of the capacity tier, one in a page without
rights and one beyond the regions; and an atomic held. -/
theorem witness_Launches_traps : anyHeld (launching { qe := true }).me = false ∧ (∀ e ∈ (tget (launching {}).clusters (launching {}).cl).lines, e.1 < 2 ^ 33) ∧
    (regs [(1, 32)]).reg 1 = 32 ∧ (∃ l, mapped.walk 0 0xC0000000 = .leaf l ∧ l.kd = 2) ∧ (∃ l, mapped.walk 0 0x40000000 = .leaf l ∧ l.kd ≠ 2 ∧ l.pr = false) ∧
    (∀ l, mapped.walk 0 0x100000000 ≠ .leaf l) ∧ anyHeld (withMe (fun t => { t with ldq := [{ held := some {} }] })).me = true :=
  ⟨by decide, by decide, by decide, ⟨_, rfl, by decide⟩, ⟨_, rfl, by decide⟩, (fun l h => nomatch (show Walk.absent = Walk.leaf l from h)), by decide⟩
/-- That record with a count of strands, windows, an image generation and a binding list of one group of one page at 0x4000 and one entry with the given mask
of roles; and generation 5 unloaded. -/
def listing (n0 win ig rmk : Nat) : State := { launching { qe := true } with
  mem := cwrite (cwrite mapped.mem 0x40000000 ([0x100000, 0, 0, 0, BitVec.ofNat 64 (2 ^ 32 + n0), BitVec.ofNat 64 win, 0x100, 0x1000, 0x1000,
      BitVec.ofNat 64 (ig * 2 ^ 32 + 0x1FFF), 0, 0, 0, 0, 0x200, 0].flatMap dwBytes))
    0x40000200 ([0x101, 0, 0x4000, 1, BitVec.ofNat 64 (rmk * 2 ^ 60 + 7 * 2 ^ 37)].flatMap dwBytes)
  parts := tmod (launching { qe := true }).parts 0 (fun p => { p with unloaded := [5] }) }
/-- What LAUNCH reads of it. -/
def listed (s : State) (f : List Byte → Batch → Bool) : Prop := ∃ ps hs bs qs, s.vPlaces 0 128 2 1 = .ok ps ∧ s.vPlaces 0x200 16 2 1 = .ok hs ∧
  s.vPlaces 0x210 24 2 1 = .ok bs ∧ s.vPlaces 0x100 64 2 1 = .ok qs ∧ fld (dwAt (s.readPlaces ps) 0x70) 6 50 * 64 = 0x200 ∧
  fld (dwAt (s.readPlaces hs) 0) 0 8 = 1 ∧ fld (dwAt (s.readPlaces hs) 0) 8 8 = 1 ∧ (∀ i, i < 8 → descriptorOk (dwAt (s.readPlaces qs) (8 * i)) = true) ∧
  f (s.readPlaces ps) { launched s 0 (s.readPlaces ps) with
    groups := [dwAt (s.readPlaces bs) 8 ++ dwAt (s.readPlaces bs) 0], binds := [dwAt (s.readPlaces bs) 16] } = true
/-- A list that is taken, one that names a role without strands, a batch of an unloaded image, and one whose windows fit no cluster. -/
theorem witness_Launches_list_served (ig : Nat) (h : ig = 0 ∨ ig = 5) : ∀ l, Served (listing 1 0 ig 1) l := by
  rcases h with rfl | rfl <;> exact served_idle _ (by decide) (by decide)
theorem witness_Launches_list : listed (listing 1 0 0 1) (fun d b => recordOk d && bindingsOk (dwBytes 0x101 ++ dwBytes 0) b && (fitGang 0 b.ig (List.replicate 12 Room.empty) b.needs).isSome && !(b.ig == 5)) :=
  ⟨_, _, _, _, rfl, rfl, rfl, rfl, by decide, by decide, by decide, by decide, by decide⟩
theorem witness_Launches_malformed : listed (listing 1 0 0 2) (fun d b => recordOk d && !bindingsOk (dwBytes 0x101 ++ dwBytes 0) b) :=
  ⟨_, _, _, _, rfl, rfl, rfl, rfl, by decide, by decide, by decide, by decide, by decide⟩
theorem witness_Launches_unloaded : listed (listing 1 0 5 1) (fun d b => recordOk d && bindingsOk (dwBytes 0x101 ++ dwBytes 0) b && (tget (listing 1 0 5 1).parts 0).unloaded.contains b.ig) :=
  ⟨_, _, _, _, rfl, rfl, rfl, rfl, by decide, by decide, by decide, by decide, by decide⟩
theorem witness_Launches_large : listed (listing 13 32 0 1) (fun d b => recordOk d && bindingsOk (dwBytes 0x101 ++ dwBytes 0) b && !(fitGang 0 b.ig (List.replicate 12 Room.empty) b.needs).isSome) :=
  ⟨_, _, _, _, rfl, rfl, rfl, rfl, by decide, by decide, by decide, by decide, by decide⟩

theorem witness_SystemRegisters : systemRule base (.rdid { sd := 1, imm := 8 }) = some (1, 0x00040001) ∧
    (systemWrite base (.mtsr { sa := 1, imm := 4 })).isSome = true := by decide

/-- The strand with a vector, outside its handler. -/
def vectored : State := withMe (fun t => { t with sys := [(0, 0x200007)] })
theorem witness_TrapEntry : vectored.me.ha = false ∧ (vectored.me.sysreg 0).toNat % 2 ^ 56 / 8 ≠ 0 ∧ deliveryOf 0x0007 = .vector ∧ vectored.issue.bound = none := by decide
theorem witness_UndeliverableTraps : (withMe (fun t => { t with ha := true, sys := [(0, 0x200000)] })).me.ha = true ∧ (base.me.sysreg 0).toNat % 2 ^ 56 / 8 = 0 ∧
    deliveryOf 0x8000 = .vector ∧ (base.dev.fatal.filter (fun q => !q.mod && q.part = base.me.part)).length < 64 ∧ base.issue.bound = none := by decide
theorem witness_TrapStops : Undeliverable base { cause := 0x0007 } ∧ ({ cause := 0x0001 } : Trap).delivery = .fatal ∧ LiveGang base ∧
    Leaves base base.gang 1 ∧ base.gang.strands = [base.cur] ∧ base.me.written = false ∧ base.me.ended = false ∧
    (tget base.clusters base.gang.cluster).lines = [] ∧ base.gang.halt = none ∧ ¬hasVector base.me :=
  ⟨⟨rfl, by decide, .inr (by unfold hasVector; decide)⟩, by decide, ⟨by decide, by decide, by decide, by decide⟩,
    ⟨by decide, by decide, by decide, by decide⟩, by decide, by decide, by decide, by decide, by decide, by unfold hasVector; decide⟩
theorem witness_FolioBytes : ∃ t : Strand, t.fol = 0x1000 ∧ t.rq.length = 2 ∧ mapped.walk t.part t.fol = .leaf firstLeaf ∧
    paExists firstLeaf.kd (firstLeaf.at 0x1000) 64 = true :=
  ⟨{ fol := 0x1000, rq := [{}, {}] }, rfl, rfl, by rfl, by decide⟩
theorem witness_FrameBytes : ∃ (t : Strand) (l m : Landing), t.fly = [l, m] ∧ t.steps ≤ l.due ∧ l.due < t.steps + 32 ∧ l.origin < t.steps ∧
    t.steps ≤ l.origin + 32 ∧ l.due = t.steps ∧ m.due = t.steps + 31 ∧ m.origin + 32 = t.steps ∧ t.win.pl < 64 ∧ tget t.tiles 0 ≠ {} :=
  ⟨{ steps := 40, fly := [{ due := 40, origin := 39, dest := .scalar 5 7 }, { due := 71, origin := 8 }], tiles := [(0, { ts := 2 })] }, _, _, rfl, by decide⟩

/-- A strand in its handler with its saved registers as given: TEPC, TSTS, TRQ0, TRQ1. -/
def returning (pc st r0 r1 : Word) : State := withMe (fun t => { t with ha := true, sys := [(0, 0x200000), (1, pc), (4, st), (5, r0), (6, r1)] })
theorem witness_TrapReturn : let s := returning 0xFFFFFFFFFFFFF8 0x8F80 0xD80000000010_0008 0
    s.me.ha = true ∧ fld (s.me.sysreg 4) 36 28 = 0 ∧ fld (s.me.sysreg 4) 28 4 = 0 ∧ fld (s.me.sysreg 4) 13 3 < 5 ∧ s.issue.bound = none ∧ base.me.ha = false := by decide
theorem witness_TrapReturn_saved : savedOk ((returning 0 0 0xC000000000100008 0xFFFFFFFF).me.sysreg 5) ∧ savedOk 0 ∧ goodTarget 0xFFFFFFFFFFFFF8 := by
  unfold savedOk goodTarget; decide
theorem witness_TrapReturn_traps : ¬(fld ((returning 8 0xA000 0 0).me.sysreg 4) 13 3 < 5) ∧ ¬savedOk ((returning 8 0 0x6000000000000000 0).me.sysreg 5) ∧
    ¬savedOk ((returning 8 0 0 0x8000000000000000).me.sysreg 6) ∧ ¬goodTarget ((returning 0 0 0 0).me.sysreg 1) := by
  unfold savedOk goodTarget; decide
theorem witness_TrapReturn_vectorless : let s := withMe (fun t => { t with ha := true })
    s.me.ha = true ∧ ¬hasVector s.me ∧ fld (s.me.sysreg 4) 13 3 < 5 ∧ ¬goodTarget (s.me.sysreg 1) := by
  unfold hasVector goodTarget; decide

theorem witness_Bindings : ∃ s : State, 1 ≤ (s.reg 2).toNat ∧ (s.reg 2).toNat ≤ 4096 ∧ mayReach s ((s.reg 1).toNat % 2 ^ 14) ∧
    s.me.bind.countP (fun e => e.2.getLsbD 63) < 32 ∧ (∀ e ∈ (tget s.cores s.me.core).pages, ¬(e.2.loading = true ∧ e.2.owner = some s.cur)) :=
  ⟨{ regs [(1, 0x1FFF), (2, 4096)] with cores := tset base.cores 0 { pages := [(31, { owner := some 1 })] } }, by decide, by decide, by unfold mayReach; decide,
    by decide, by decide⟩
theorem witness_Bindings_traps : ¬mayReach base 0x0800 ∧ ¬mayReach base 0x2000 ∧ (base.reg 0).toNat = 0 ∧
    (let t := (withMe (fun t => { t with bind := (List.range 32).map (fun i => (i, 1 <<< 63)) })).me
    32 ≤ t.bind.countP (fun e => e.2.getLsbD 63) ∧ (cget t.bind 63).getLsbD 63 = false ∧ (cget t.bind 31).getLsbD 63 = true) := by
  unfold mayReach; decide
theorem witness_Bindings_loading : ∃ s : State, ∃ e ∈ (tget s.cores s.me.core).pages, e.2.loading = true ∧ e.2.owner = some s.cur :=
  ⟨{ base with cores := tset base.cores 0 { pages := [(8, { owner := some 1, loading := true })] } }, by decide⟩
/-- CSLOAD of 24 pages from the first page of the mapped machine. -/
theorem witness_Bindings_fenced : ∃ s : State, s.me.csFenced = true ∧ ∃ e ∈ (tget s.cores s.me.core).pages, e.2.loading = true ∧ e.2.owner = some s.cur :=
  ⟨{ withMe (fun t => { t with csFenced := true }) with cores := tset base.cores 0 { pages := [(8, { owner := some 1, loading := true })] } }, by decide⟩
theorem witness_Bindings_load : ∃ (s : State) (ps : List (Place × Nat)), (s.reg 2).toNat = 24 ∧ (s.reg 1).toNat % 4096 = 0 ∧
    s.vPlaces (s.reg 1).toNat (4096 * 24) 3 1 = .ok ps ∧ s.me.freeGroup = some 0 ∧
    csAlloc (tget s.cores s.me.core).pages s.me.part s.me.ig (s.reg 1).toNat 24 = some (8, false) ∧ (tfind s.strands s.cur).isSome = true :=
  ⟨mappedMe (fun t => { t with s := [(1, 0x1000), (2, 24)] }), _, by decide, by decide, rfl, by decide, by decide, by decide⟩
/-- Two readable images of the last 8 KiB of the first page, then one in a page without rights; one in the capacity tier, one absent. -/
theorem witness_Bindings_images : (∀ i, i < 2 → ImageReadable mapped (0x3FFFE000 + 4096 * i)) ∧ (0x3FFFE000 : Nat) % 4096 = 0 ∧
    (∃ l, mapped.walk mapped.me.part 0x40000000 = .leaf l ∧ l.kd ≠ 2 ∧ l.pr = false) ∧ (∃ l, mapped.walk mapped.me.part 0xC0000000 = .leaf l ∧ l.kd = 2) ∧
    (∀ l, mapped.walk mapped.me.part 0x100000000 ≠ .leaf l) := by
  refine ⟨fun i hi => ?_, by decide, ⟨_, rfl, by decide⟩, ⟨_, rfl, by decide⟩, fun l h => nomatch (show Walk.absent = Walk.leaf l from h)⟩
  obtain rfl | rfl : i = 0 ∨ i = 1 := by omega
  all_goals exact ⟨by decide, _, rfl, by decide, by decide, by decide⟩
theorem witness_Bindings_none : ∃ s : State, csAlloc (tget s.cores s.me.core).pages s.me.part s.me.ig 0x1000 24 = none ∧
    (withMe (fun t => { t with groups := (List.range 24).map (fun i => (i, { gv := true })) })).me.freeGroup = none :=
  ⟨{ base with cores := tset base.cores 0 { pages := [(20, { owner := some 9 })] } }, by decide⟩
theorem witness_Bindings_loaded : ∃ s : State, let c := tget s.cores 0; let p := tget c.pages 31
    p.loading = true ∧ 0x0800 ≤ p.base ∧ (∀ e ∈ c.pages, e.2.loading = true → p.order ≤ e.2.order) ∧ s.walk p.part p.image = .leaf firstLeaf ∧
    paExists 0 (firstLeaf.at p.image.toNat) 4096 = true :=
  ⟨{ mapped with cores := tset mapped.cores 0 { pages := [(31, { owner := some 1, loading := true, base := 0x1F00, image := 0x1000 })] } }, by decide⟩
theorem witness_Bindings_drop : (∀ e ∈ base.me.groups, ¬(e.2.gv = true ∧ e.2.gma.toNat = (base.reg 1).toNat)) ∧
    (let s := withMe (fun t => { t with s := [(1, 0x800)], groups := [(3, { gv := true, gma := 0x800, gn := 23 })] })
    s.me.groups.find? (fun e => e.2.gv && e.2.gma.toNat = (s.reg 1).toNat) = some (3, { gv := true, gma := 0x800, gn := 23 })) := by decide
/-- Slot 0 bound to entry 0x10 of the base region, where the machine's own page stands. -/
def boundAt (e : Nat) (p : List (Nat × CsPage)) (c : Core) : State := { withMe (fun t => { t with bind := [(0, BitVec.ofNat 64 (2 ^ 63 + e))] }) with
  cores := tset base.cores 0 { c with pages := p } }
theorem witness_Bindings_opcode : (cget base.me.bind 63).getLsbD 63 = false ∧
    (let s := boundAt 0x1000 [(16, { owner := some 1, valid := true, base := 0x1000, words := [(0, 8 <<< 124)] })] {}
    (cget s.me.bind 0).getLsbD 63 = true ∧ (∀ x ∈ (tget s.cores s.me.core).pages, ¬(x.2.owner = some s.cur ∧ x.2.base = 0x1000 ∧ x.2.loading = true)) ∧
    (tget s.cores s.me.core).sequencer = none ∧ (tget s.cores s.me.core).seqWait.head? = none) ∧
    (tget (boundAt 0x1000 [] { sequencer := some 9 }).cores 0).sequencer ≠ none := by decide
theorem witness_Bindings_first : FirstStep (boundAt 0x1000 [(16, { owner := some 1, valid := true, base := 0x1000, words := [(0, 8 <<< 124)] })] {}) 0 {} :=
  ⟨by decide, .inr ⟨_, rfl⟩⟩

/-- Slot 0 bound to entry `e`, page 16 the strand's with this word, page 17 another's. -/
def boundTo (e : Nat) (w : BitVec 128) : State :=
  boundAt e [(17, { owner := some 9, valid := true, base := 0x1100 }), (16, { owner := some 1, valid := true, base := 0x1000, words := [(0, w)] })] {}
/-- A first step at a pool word, in another's page, with a reserved SEQ, on scratchpad beyond the window, and a TRAP op that holds. -/
theorem witness_Bindings_first_fails : FirstStepFails (boundTo 0x10FC 0) 0 {} 0x0013 ∧ FirstStepFails (boundTo 0x1100 0) 0 {} 0x0015 ∧
    FirstStepFails (boundTo 0x1000 (11 <<< 124)) 0 {} 0x0013 ∧ FirstStepFails (boundTo 0x1000 (0x20 <<< 16)) 0 {} 0x0015 ∧
    FirstStepFails (boundTo 0x1000 (9 <<< 124)) 0 {} 0x0004 := by
  unfold FirstStepFails mayReach
  exact ⟨.inl (by decide), .inr (.inl (by decide)), .inr (.inr (.inl (by decide))), .inr (.inr (.inr (.inl (by decide)))),
    .inr (.inr (.inr (.inr ⟨by decide, by decide, rfl⟩)))⟩

/-- The strand alone in its gang, in the middle of a routine at micro-address 8. -/
def inRoutine (f : Micro → Micro) : State := withMe (fun t => { t with micro := f { mv := true, mpc := 8 } })
theorem witness_MicroOps : (sequenced (inRoutine id) (.brt { cnd := 7 })).isSome = true ∧ moveless {} ∧ (inRoutine id).stepFault 2 {} = none ∧
    (inRoutine id).stepWaits 2 {} = false ∧ (inRoutine id).agent = .strand ∧ (inRoutine id).stepFault 8 {} = none ∧ (inRoutine id).stepWaits 8 {} = false := by
  unfold moveless; decide
theorem witness_MicroOps_waits : let s := inRoutine (fun m => { m with pend := [{ mt := 3 }] })
    s.stepFault 2 { cnd := 32 } = none ∧ s.stepWaits 2 { cnd := 32 } = true := by decide
/-- A word of one transport. -/
def carrying (src dst xf : Nat) : MicroFields := { tf0 := BitVec.ofNat 26 (src * 2 ^ 16 + dst * 2 ^ 6 + xf) }
/-- A routine with address generator 1 on its own window, generator 2 on latch 3. -/
def generating : State := inRoutine (fun m => { m with ag := [(1, 0x0080_00FE0000), (2, 0x6300_0000_0000_3F80)] })
/-- From a scalar register, a pool value or a generator to a temporary, a line, a line pointer, a data port that advances, the data port of a latch,
a loop count, the condition flags and a scalar register. -/
theorem witness_Transports : [(0x41, 7, 1), (0x3FF, 0x0F, 0), (0x200, 0x17, 0x24), (0x41, 0x25, 0), (0x25, 0x26, 0), (0x40, 0x35, 5), (0x27F, 0x37, 6), (0x34, 0x7F, 0)].all
    (fun x => let f := carrying x.1 x.2.1 x.2.2
      (generating.stepFault 4 { f with tgt := 9 }).isNone && !generating.stepWaits 4 f && f.tf0 != 0 && dstOf f.tf0 == x.2.1 && srcOf f.tf0 == x.1) = true := by
  decide +kernel
theorem witness_Transports_data : generating.agent = .strand ∧ fld (cget generating.micro.ag 1) 61 3 = 0 ∧ fld (cget generating.micro.ag 2) 61 3 = 3 ∧
    (∀ f, (sequenced generating (.loop0 f)).isSome = true) :=
  ⟨by decide +kernel, by decide +kernel, by decide +kernel, fun _ => by simp only [sequenced, sequencedFrom, Option.isSome]⟩
/-- A fused multiply-add to mt7 and an IU.SEL to LN7 with both latches written, 2^v and a sum without. -/
theorem witness_LaneUnits : [(0x088, 0x089, 0x08A, 7), (0x0A0, 0x0A1, 0x0A6, 15), (0, 0, 0x08F, 0), (0, 0, 0x094, 3), (0x098, 0, 0x09C, 1)].all (fun x =>
    let tf (d : Nat) : BitVec 26 := if d = 0 then 0 else BitVec.ofNat 26 (0x10 * 2 ^ 16 + d * 2 ^ 6)
    let f : MicroFields := { tf0 := tf x.1, tf1 := tf x.2.1, tf2 := BitVec.ofNat 26 (0x11 * 2 ^ 16 + x.2.2.1 * 2 ^ 6 + x.2.2.2) }
    let p := operandPorts x.2.2.1
    let m := (inRoutine id).micro
    ((inRoutine id).stepFault 0 f).isNone && !(inRoutine id).stepWaits 0 f && f.tf2 != 0 && dstOf f.tf2 == x.2.2.1 && xfOf f.tf2 == x.2.2.2 &&
    (f.tf0 == 0 || (p.1 != 0 && dstOf f.tf0 == p.1)) && (f.tf1 == 0 || (p.2 != 0 && dstOf f.tf1 == p.2)) &&
    [f.tf0, f.tf1, f.tf2].all (fun t => decide (srcOf t < 0x20)) &&
    (x.2.2.2 < 8 || (m.lineTag (x.2.2.2 - 8) != 15 && (m.line (x.2.2.2 - 8)).pn.toNat < (inRoutine id).me.win.pl))) = true := by
  decide +kernel
/-- R285: a trigger of each unit has a rule. -/
theorem witness_LaneUnits_rule : [0x081, 0x082, 0x085, 0x08A, 0x08D, 0x08E, 0x090, 0x099, 0x09A, 0x09B, 0x09C, 0x0A2, 0x0A3, 0x0A4, 0x0A5, 0x0A6, 0x0A7].all
    (fun p => (unitRule p 0 0x3F800000 0x3F800000 0x40000000).isSome) = true := by decide
theorem witness_MicroOps_traps : (inRoutine id).mpcFault = none ∧ (inRoutine id).encOk 9 { tgt := 0x3FFF } = true ∧ (inRoutine id).portsOk 9 { tgt := 0x3FFF } = true ∧
    (inRoutine id).cndHolds 0 = true := by decide
theorem witness_MicroOps_raises : (inRoutine id).stepFault 9 { tgt := 0x3FFF } = none ∧ (inRoutine id).stepWaits 9 { tgt := 0x3FFF } = false ∧
    ∃ x, (inRoutine id).doStep 0 { tgt := 0x3FFF } = .ok x := ⟨by decide, by decide, _, rfl⟩
theorem witness_MicroOps_lands : ∃ (s : State) (l m : LaneLanding), (tget s.strands 1).micro.pend = l :: [m] ∧ l.vals.length = 32 ∧ l.temp = true ∧
    (tget base.strands 1).micro.pend = [] ∧ m.temp = false :=
  ⟨inRoutine (fun m => { m with pend := [{ mt := 7, vals := List.replicate 32 5 }, { temp := false, line := lineOf 0x7C0 1 }] }), _, _, rfl, by decide⟩
theorem witness_MicroOps_fills : let x := tget base.strands 1
    x.resident = true ∧ x.ended = false ∧ base.halfUsed x.core 1 = false ∧
    (tget (withMe (fun t => { t with pc := 0x110000 })).strands 1).resident = true ∧
    ((tget (withMe (fun t => { t with pc := 0x110000 })).cores 0).halfOf x.ig 0x110000) = none := by decide

/-- One loop of 8 grains in blocks of `be`, the area at 0 and the map at 0x80000 of slice 0. -/
def loops (be : Nat) : Cells 64 := [(0, 1 <<< 27), (1, BitVec.ofNat 64 (2 ^ 35 + 2 ^ 16 + 2 ^ 8 * be)), (7, 0x80000)]
/-- A gang with such an imposition written and in force. -/
def imposed (be : Nat) (f : Gang → Gang) : State := { tiles with
  gangs := tmod base.gangs 2 (fun g => f { g with im := loops be, imf := loops be, gen := 2 }),
  parts := tmod base.parts 0 (fun p => { p with bw := [(32, 8)] }) }
theorem witness_Impositions : let s := imposed 4 id
    (tfind s.gangs s.me.gang).isSome = true ∧ s.me.rank = (if s.gang.gen = 0 then 0 else imTR s.gang.imf) ∧
    s.commitOk s.me.part s.me.gang (cset s.gang.im 0 ((0 : BitVec 16) ++ (0x8000000 : BitVec 48))) = true ∧
    s.commitOk s.me.part s.me.gang (cset s.gang.im 0 0) = false ∧
    ¬(pair.onMe (fun t => { t with rank := 1 })).me.rank = 0 := by decide
theorem witness_Impositions_claims : let s := imposed 4 id
    s.gang.gen ≠ 0 ∧ 0 + 8 ≤ imNG s.gang.imf ∧ mapReachable s s.gang.imf [0, 1, 2, 3, 4, 5, 6, 7] ∧ mapFree s s.gang.imf ∧ base.gang.gen = 0 ∧ imNG s.gang.imf < 1 + 8 := by
  unfold mapReachable mapFree; decide
theorem witness_Impositions_served : ∀ l, Served (imposed 4 id) l := served_idle _ (by decide) (by decide)
theorem witness_Impositions_done : let s := imposed 4 (fun g => { g with blocks := [{ word := 1 }] })
    s.gang.blocks.find? (fun b => b.rank = s.me.rank && b.word = noSub 0x500000001) = some { word := 1 } ∧
    (∀ b ∈ s.gang.blocks, ¬(b.rank = s.me.rank ∧ b.word = noSub 2)) := by decide
theorem witness_Impositions_grants : let s := imposed 4 (fun g => { g with cursors := [(0, 1)] })
    s.gang.gen ≠ 0 ∧ firstIdx (fun x => x = s.me.rank) (s.participants s.me.gang (imWM s.gang.imf)) = some 0 ∧ (s.gang.blocks.filter (fun b => b.rank = 0)).length < 4 ∧
    1 < imBlocks s.gang.imf ∧ imGrains s.gang.imf 1 = [4, 5, 6, 7] ∧ mapReachable s s.gang.imf [4, 5, 6, 7] ∧ freeGrain s s.gang.imf 4 = true ∧
    s.inSlice s.me.part (imIAB s.gang.imf) 16 = true ∧ imIAB s.gang.imf + 16 ≤ imCMB s.gang.imf ∧ imBlocks s.gang.imf ≤ 2 := by
  unfold mapReachable; decide
/-- A block of the generation before, of blocks of 4 grains where those in force hold 2. -/
def superseded (f : State → State) : State := f (imposed 2 (fun g => { g with blocks := [{ word := 0x1000000000000, granted := 15, im := loops 4 }] }))
theorem witness_Impositions_handover : let s := superseded id; let b : LiveBlock := { word := 0x1000000000000, granted := 15, im := loops 4 }
    s.gang.blocks.find? (fun b => b.rank = s.me.rank && b.word = noSub 0x1000300000000) = some b ∧ 3 < (imGrains b.im 0).length ∧
    TileIs s.me 2 [2] [] ∧ Readable s.me 2 ∧ (s.me.tile 2).rc = 0 ∧ ¬b.word.extractLsb' 48 16 = s.gang.gen ∧ ¬(imGrains s.gang.imf 1).length = (imGrains b.im 0).length ∧
    s.inSlice s.me.part (imIAB s.gang.imf) 0x41000 = true ∧ (cget s.mem (memKey 1 0x607)).getLsbD 7 = false ∧ anyHeld s.me = false ∧
    s.atomicFree s.me.part (s.tenantOf s.me) (32 + imIAB s.gang.imf / 2 ^ 26) = true := by
  exact ⟨by decide, by decide, ⟨by decide, by decide, by decide⟩, by unfold Readable; decide, by decide, by decide, by decide, by decide, by decide, by decide, by decide⟩
theorem witness_Impositions_kept : let s := imposed 4 (fun g => { g with blocks := [{ word := 0x2000000000000, im := loops 4 }] })
    s.gang.blocks.find? (fun b => b.rank = s.me.rank && b.word = noSub 0x2000000000000) = some { word := 0x2000000000000, im := loops 4 } ∧
    (0x2000000000000 : Word).extractLsb' 48 16 = s.gang.gen := by decide
theorem witness_Impositions_full : ∃ s : State, (∀ n, n < 64 → (cget s.mem (memKey 1 (0x600 + 32 * n + 7))).getLsbD 7 = true) ∧
    s.inSlice s.me.part (imIAB s.gang.imf) 0x41000 = true :=
  ⟨superseded (fun s => { s with mem := (List.range 64).map (fun n => (memKey 1 (0x600 + 32 * n + 7), 0x80)) }), by decide, by decide⟩

/-- Queue 5 of the partition with one batch of one gang of two strands, its tenant able to pay. -/
def queued (q : PQueue) (f : Partition → Partition) : State := { base with
  batches := tset base.batches 20 { gc := 1, n := [2], win := { pl := 32 }, ig := 1, queue := 5, fz := 40, ep := [0x100000] },
  parts := tmod base.parts 0 (fun p => f { p with queues := [(5, { q with qe := true, batches := [20], candSince := some 0 })], tokenAt := 10000,
                                                   tenants := [(0, { rf := 2, cap := 4, bal := 4 })] }) }
theorem witness_Placement : ∃ c, (queued {} id).dev.stopped = false ∧ (queued {} id).winner 0 = some c ∧ c.entry = .batch 20 ∧ c.lender = none ∧ (queued {} id).now < (tget (queued {} id).parts 0).tokenAt ∧
    (tget (queued {} id).batches 20).groups = [] ∧ (tget (queued {} id).batches 20).binds = [] := ⟨_, by decide, rfl, by decide⟩
theorem witness_Placement_borrows : ∃ c, (queued { ten := 1 } (fun p => { p with res := { p.res with tenants := 2 }, tenants := [(0, { rf := 2, cap := 4, bal := 4 }), (1, { rf := 2, cap := 4, bl := 2 })] })).winner 0 =
    some c ∧ c.lender = some 0 := ⟨_, rfl, by decide⟩
theorem witness_Placement_none : (∀ q, q < 16 → base.candidate 0 q = none) := by decide
theorem witness_Placement_gate : (∀ e ∈ (tget base.clusters (tget base.gangs 2).cluster).lines, e.1 < 2 ^ 33) ∧ (tget base.gangs 2).placed = true ∧ (∀ k ∈ (tget base.gangs 2).strands, (tget base.strands k).resident = true) ∧
    (∀ e ∈ (tget base.cores 0).pages, ¬(e.2.loading = true ∧ e.2.owner = some 1)) ∧ ¬(tget base.gangs 9).placed = true := by decide
/-- The mapped machine with a batch of one strand at the head of queue 5, whose role loads one page at 0x4000 and binds opcode 3 in it and opcode 4 in the base region. -/
def routines : State := { mapped with
  batches := tset base.batches 20 { gc := 1, n := [1], win := { pl := 32 }, ig := 1, queue := 5, fz := 40, ep := [0x100000], groups := [1 <<< 64 ||| 0x4000],
                                    binds := [1 <<< 60 ||| 3 <<< 54 ||| 7 <<< 37 ||| 255 <<< 23, 1 <<< 60 ||| 4 <<< 54 ||| 31 <<< 49 ||| 8 <<< 23] }
  parts := tmod mapped.parts 0 (fun p => { p with queues := [(5, { qe := true, batches := [20], candSince := some 0 })], tokenAt := 10000,
                                                  tenants := [(0, { rf := 2, cap := 4, bal := 4 })] }) }
theorem witness_Placement_routines : ∃ c, routines.winner 0 = some c ∧ c.entry = .batch 20 ∧
    (let x := tget routines.batches 20; let l := x.groupsOf (roleOf x.n 0); let es := x.bindsOf (roleOf x.n 0)
    x.width = 1 ∧ (csFit 0 x.ig 0 (l.map x.group) (tget routines.cores (12 * c.cluster + c.cores.getD 0 0)).pages).isSome = true ∧ l = [0] ∧ es.length = 2 ∧
    (es.map (fun e => fld e 54 6)).Nodup ∧ x.binds.all (fun e => fld e 49 5 = 31 || fld e 49 5 < x.groups.length) = true ∧ x.group 0 = (1, 0x4000)) ∧
    ∃ f, routines.walk 0 (BitVec.ofNat 56 (0x4000 + 4096 * 0)) = .leaf f ∧ f.kd < 2 ∧ f.pr = true :=
  ⟨_, rfl, by decide, by decide, _, rfl, by decide⟩
/-- The mapped machine with gang 2 at the head of queue 5, its strand's folio at 0x2000 with FP 1 and ST 4, its frame at 0x3000 all zeros. -/
def suspended : State := { mapped with
  mem := cwrite mapped.mem 0x40002020 (dwBytes 0x10014)
  strands := tmod mapped.strands 1 (fun t => { t with resident := false, fs := true, st := 4, fol := 0x2000, fb := 0x3000, win := {} })
  gangs := tmod mapped.gangs 2 (fun g => { g with placed := false, gate := false })
  parts := tmod mapped.parts 0 (fun p => { p with queues := [(5, { qe := true, head := [2], candSince := some 0 })], tokenAt := 10000,
                                                  tenants := [(0, { rf := 2, cap := 4, bal := 4 })] }) }
theorem witness_Placement_again : ∃ c, suspended.winner 0 = some c ∧ c.entry = .gang 2 ∧ suspended.dev.stopped = false ∧ suspended.now < (tget suspended.parts 0).tokenAt ∧
    (let x := tget suspended.gangs 2; (tfind suspended.gangs 2).isSome = true ∧ x.firstPlaced = true ∧ x.strands.filter (fun k => !(tget suspended.strands k).ended) = [1]) ∧
    (let t := tget suspended.strands 1; (tfind suspended.strands 1).isSome = true ∧ t.vectorTrap = none ∧ t.fs = true) :=
  ⟨_, rfl, by decide⟩
theorem witness_Placement_folio : ∃ l, suspended.devRead 0 0x2000 64 = some l ∧ folioOk l = true := ⟨_, rfl, by decide⟩
theorem dwAt_zeros (f : List Byte) (h : ∀ b ∈ f, b = 0) (o : Nat) : dwAt f o = 0 := by
  have z (l : List Byte) (h : ∀ b ∈ l, b = 0) : leNat l = 0 := by
    induction l with
    | nil => rfl
    | cons b r ih => simp [leNat, h b (by simp), ih (fun x hx => h x (by simp [hx]))]
  rw [dwAt, z _ (fun b hb => h b (List.mem_of_mem_drop (List.mem_of_mem_take hb)))]; rfl
theorem cread_above (c : Cells 8) (a n : Nat) (h : c.all (fun e => e.1 < a) = true) : ∀ b ∈ cread c a n, b = 0 := by
  have z : ∀ (c : Cells 8) (k : Nat), a ≤ k → c.all (fun e => e.1 < a) = true → cget c k = 0 := by
    intro c k hk h
    induction c with
    | nil => rfl
    | cons e r ih =>
      obtain ⟨he, hr⟩ := Bool.and_eq_true_iff.mp h
      rw [cget, if_neg (fun q => by have := of_decide_eq_true he; omega), ih hr]
  intro b hb
  obtain ⟨i, -, rfl⟩ := List.mem_map.mp hb
  exact z c _ (by omega) h
theorem witness_Placement_frame : ∃ f, suspended.devRead 0 0x3000 (frameSize {}) = some f ∧ ∀ i, i < 24 → (dwAt f (0xA80 + 16 * i)).getLsbD 63 = false := by
  have z (i : Nat) : ∀ b ∈ cread suspended.mem (0x40003000 + 4096 * i) 4096, b = 0 :=
    cread_above _ _ _ (List.all_eq_true.mpr fun e he => decide_eq_true (Nat.lt_of_lt_of_le
      (of_decide_eq_true (List.all_eq_true.mp (show suspended.mem.all (fun e => e.1 < 0x40003000) = true by decide) e he)) (by omega)))
  refine ⟨_, rfl, fun i _ => ?_⟩
  rw [dwAt_zeros]; · rfl
  intro b hb
  rcases List.mem_append.mp hb with hb | hb; rotate_left; · exact z 4 b hb
  rcases List.mem_append.mp hb with hb | hb; rotate_left; · exact z 3 b hb
  rcases List.mem_append.mp hb with hb | hb; rotate_left; · exact z 2 b hb
  rcases List.mem_append.mp hb with hb | hb; rotate_left; · exact z 1 b hb
  rcases List.mem_append.mp hb with hb | hb; rotate_left; · exact z 0 b hb
  cases hb

/-- Floors of 240 and of 241 units at one arbiter, beside the device's 16; bytes of later windows under a cap of 2 units. -/
theorem witness_SchedulerClocks_units : let s (f : BitVec 32) := ({ base with parts := tmod base.parts 0 (fun p => { p with bw := [(33, f)] }) } : State)
    (s 0xF0000000).overCommitted 33 = false ∧ (s 0xF1000000).overCommitted 33 = true ∧ (s 0x00020000).cap2 0 0 33 = 62500 ∧ (tget base.parts 0).later = [] := by decide
theorem witness_SchedulerClocks : (tget base.parts 0).live = true ∧ (tget base.parts 1).live = false ∧
    ¬(∃ x ∈ (tget (queued {} id).parts 0).tenants, x.2.cap < x.2.rf) ∧ ¬(∃ q ∈ (tget (queued {} id).parts 0).queues, q.2.qe = true ∧
      (tget (tget (queued {} id).parts 0).tenants q.2.ten.toNat).rf = 0) ∧
    (∃ q ∈ (({ (tget base.parts 0) with pending := [{ off := 0, word := 0 }] } : Partition).configured { off := 0x100, word := 1 <<< 48 }).tenants, q.2.cap < q.2.rf) ∧
    (tget (tget (queued {} id).parts 0).queues 5).candSince = some 0 := by decide
/-- An atomic of the strand that the arbiter holds. -/
theorem witness_SchedulerClocks_atomic : let h : HeldAccess := { kind := 0, pa := 4096, dbl := true }
    let s := withMe (fun t => { t with ldq := [{ dest := .scalar 3 0, lanes := 1, held := some h }] })
    (tget s.strands 1).ldq = [{ dest := .scalar 3 0, lanes := 1, held := some h }] ∧ (tget s.strands 1).stq = [] ∧ (tfind s.strands 1).isSome = true ∧
    (∀ e ∈ s.strands, e.2.asks ≠ some h.res) ∧ s.budgetFree (tget s.strands 1).part (s.tenantOf (tget s.strands 1)) h.res 1 = true ∧
    (s.logAll (tget s.strands 1).part (s.tenantOf (tget s.strands 1)) (pagesOf h.kind h.va h.size)).2 = true ∧ h.pa % h.size = 0 ∧ h.pa + h.size ≤ 2 ^ 39 ∧
    (∀ e ∈ (tget s.clusters 0).lines, e.1 < 2 ^ 33) := by decide
theorem witness_SchedulerClocks_work : ({ kind := 0, pa := 4096, dbl := true } : HeldAccess).work = .atomic := rfl
/-- A load and a store of a doubleword in page 5 of HBM, held at channel group 0, the store behind a fence of scope 2. -/
def heldAccess (w : HeldWork) : HeldAccess := { work := w, spans := [{ kind := 0, pa := 5 * 4096 + 8, va := 7 * 4096 + 8, n := 8 }] }
theorem witness_HeldServed (l : Bool) : let h := heldAccess (if l then .load 4 false else .store 7)
    let s := onPage.onMe (fun t => if l then { t with ldq := [{ held := some h }] } else { t with stq := [{ held := some h }], fenced := true, fenceScope := 2 })
    (tfind s.strands 1).isSome = true ∧ (tget s.strands 1).held = [h] ∧ h.places = h.spans ∧
    (∀ e ∈ s.strands, e.2.asks ≠ some h.res) ∧ resourceOf 0 (5 * 4096 + 8) = some h.res ∧ s.capped (tget s.strands 1).part (s.tenantOf (tget s.strands 1)) h.res = false ∧
    (s.logAll (tget s.strands 1).part (s.tenantOf (tget s.strands 1)) h.pages).2 = true ∧ (5 * 4096 + 8) % 8 = 0 ∧ (∀ e ∈ (tget s.clusters 0).lines, e.1 < 2 ^ 33) ∧
    (if l then (tget s.strands 1).stq = [] else (tget s.strands 1).ldq = []) := by cases l <;> decide
theorem witness_HeldServed_alone : ∀ j, j ≠ 1 → (tget onPage.strands j).held = [] := by
  intro j hj
  have h : tget onPage.strands j = default := by
    show (if 1 = j then some (tget onPage.strands 1) else none).getD default = default
    rw [if_neg (Ne.symm hj)]; rfl
  rw [h]; rfl
theorem witness_SchedulerClocks_alone : ∀ j, j ≠ 1 → (∀ o ∈ (tget base.strands j).ldq, o.held = none) ∧ ∀ o ∈ (tget base.strands j).stq, o.held = none := by
  intro j hj
  have h : tget base.strands j = default := by
    show (if 1 = j then some (tget base.strands 1) else none).getD default = default
    rw [if_neg (Ne.symm hj)]; rfl
  rw [h]
  exact ⟨fun o ho => (by cases ho), fun o ho => (by cases ho)⟩

/-- The placed gang with a request to leave. -/
def leaving (p : Preempt) : State := { base with gangs := tmod base.gangs 2 (fun g => { g with pre := some p }) }
theorem witness_Preemption : (tget base.gangs 2).placed = true ∧ (tget base.gangs 2).pre = none ∧ (tget base.parts 0).graceUs ≠ 0 ∧
    (tget ({ base with parts := tmod base.parts 0 (fun p => { p with graceUs := 0 }) } : State).parts 0).graceUs = 0 ∧
    (tget (leaving { grace := 5 }).gangs 2).pre = some { grace := 5 } ∧ (tget (leaving { halt := some 7 }).gangs 2).pre = some { halt := some 7 } ∧
    (tfind base.batches (tget base.gangs 2).batch).isSome = true ∧ (∀ k ∈ (tget base.gangs 2).strands, (tfind base.strands k).isSome = true ∧ (tget base.strands k).st ≠ 5) ∧
    (∀ e ∈ base.cmds, e.2.strand ∉ (tget base.gangs 2).strands) ∧ base.starved 0 = none := by decide
/-- A gang of twelve strands with every buffer waits at priority 3 for the one core that the placed gang holds in full. -/
def crowded (f : Partition → Partition) : State := { base with
  strands := tmod base.strands 1 (fun t => { t with win := allWindows }),
  batches := tset base.batches 20 { gc := 1, n := [12], win := allWindows, ig := 1, queue := 5, fz := 4095, ep := [0x100000] },
  parts := tmod base.parts 0 (fun p => f { p with queues := [(5, { qe := true, pri := 3, batches := [20], headSince := some (.batch 20, 0) })],
                                                   tenants := [(0, { rf := 12, cap := 12, bal := 12 })] }) }
theorem witness_Preemption_asks : (crowded id).starved 0 = some (0, 2) ∧ ((crowded id).gangs.map (·.1)).Nodup ∧ (tget (crowded id).parts 0).prioReq = none ∧
    (tget (crowded id).gangs 2).part = 0 ∧ (tget (crowded id).gangs 2).placed = true ∧ (tget (crowded id).parts 0).graceUs ≠ 0 ∧
    (((tget (crowded id).gangs 2).strands.foldl State.freeContext (crowded id)).fitEntry 0 (.batch 20)).isSome = true := by decide
theorem witness_Preemption_asked : ∃ s : State, s.starved 0 = some (0, 2) ∧ (tget s.parts 0).prioReq = some 2 ∧ (tget s.gangs 2).pre ≠ none :=
  ⟨{ crowded (fun p => { p with prioReq := some 2 }) with gangs := (leaving {}).gangs }, by decide, by decide, by decide⟩
theorem witness_Preemption_none : ({ crowded id with gangs := [] } : State).starved 0 = none ∧ base.starved 0 = none := by decide

/-- A page-fault record of the strand that awaits its answer, and one of a stalled command. -/
def faulted : Record := { cause := 0x0040, seq := 5, gang := 2, strand := 1 }
def stalled : Record := { cause := 0x0040, seq := 6, gang := 2, strand := 1, cmd := some 2 }
/-- The device with both. -/
def answering (l : List Record) : State := { base with
  gangs := tmod base.gangs 2 (fun g => { g with placed := false, answer := true }), cmds := [(2, { op := .cpy, strand := 1, state := .stalled })],
  dev := { base.dev with answers := l, replay := l, waiting := l } }
theorem witness_RecordAnswers : Awaits (answering [faulted, stalled]) faulted 0 5 ∧ Awaits (answering [{ faulted with cause := 0x0002 }]) { faulted with cause := 0x0002 } 0 5 ∧
    Awaits (answering [faulted, stalled]) stalled 0 6 :=
  ⟨⟨by decide, by decide, by decide, rfl, rfl⟩, ⟨by decide, by decide, by decide, rfl, rfl⟩, ⟨by decide, by decide, by decide, _, rfl, .inl rfl⟩⟩
/-- A command that has lost a remote unit, and one whose completion word could not be written. -/
theorem witness_RecordAnswers_lost : let s : State := { answering [stalled] with cmds := [(2, { op := .cpy, strand := 1, state := .lost, lostUnit := some 8 })], dev :=
      { (answering [stalled]).dev with outs := [(8, { cmd := 2 })] } }
    Awaits s stalled 0 6 ∧ (tget s.cmds 2).lostUnit = some 8 ∧ tfind s.dev.outs 8 = some { cmd := 2 } ∧ ({ op := .cpy, state := .stalled, wordLeft := true } : Cmd).wordLeft = true :=
  ⟨⟨by decide, by decide, by decide, _, rfl, .inr rfl⟩, by decide⟩
/-- A consumed record of the fatal lane, and one of the replayable lane with the same numbers. -/
theorem witness_RecordAnswers_consumed : faulted.named 0 5 = true ∧ faulted.named 0 6 = false ∧ ({ faulted with mod := true } : Record).named 64 5 = true := by decide
theorem witness_RecordAnswers_states : (answering []).dev.waiting = [] ∧ (answering [faulted]).dev.waiting = faulted :: [] ∧
    (answering [faulted]).dev.replay.length < (answering [faulted]).dev.ring ∧
    ({ (answering [faulted]).dev with ring := 1 } : Device).ring ≤ (answering [faulted]).dev.replay.length ∧ (tfind (answering []).strands 1).isSome = true ∧
    (tfind (answering []).parts (tget (answering []).gangs 2).part).isSome = true ∧ (tfind (answering []).batches (tget (answering []).gangs 2).batch).isSome = true := by decide

theorem witness_Mappings_unload : ¬Carried base 0 2 ∧ clusterOf 0 ∈ (tget base.parts 0).res.clusters ∧ (tfind base.cores 0).isSome = true ∧ (tfind base.parts 0).isSome = true := by
  unfold Carried; decide
theorem witness_Mappings_region : (0xC00F_FFFF_FFFF_F000 : Word).extractLsb' 60 3 = 4 ∧ mapped.dev.stopped = false ∧
    (let v : Word := 0x8000000000001000 &&& 0xF00F_FFFF_FFFF_F000
    v ≠ cget (tget mapped.parts 0).regions 0 ∧ v.getLsbD 63 = true) ∧ inRange (onPage.me.handle 1) 0 (2 ^ 52) ∧ (tget onPage.me.hd 1).hs = 1 ∧ onPage.me.resident = true ∧
    ¬inRange (onPage.me.handle 1) 0 (7 * 4096) := by
  unfold inRange; decide
/-- An invalidation of the first gibibyte that waits for command 2, or for a strand that holds a handle in it. -/
def retiring (c : List Nat) (k : List Nat) : State := { onPage with dev := { base.dev with invals := [(4, { va := 0, len := 2 ^ 30, cmds := c, strands := k })] } }
theorem witness_Mappings_retired : tfind (retiring [] []).dev.invals 4 = some { va := 0, len := 2 ^ 30, cmds := [], strands := [] } ∧
    (tget (retiring [] [1]).strands 9).holdsIn 0 (2 ^ 30) = false ∧
    (tget ((retiring [] [1]).onMe (fun t => { t with hd := [(1, { hs := 2, vb := 7 })] })).strands 1).holdsIn 0 (2 ^ 30) = false ∧ [2] ≠ ([] : List Nat) := by decide
/-- The first page splintered from entry 511 on, its table at 0x9000. -/
def splintering : SplinterChange := { va := 0x12345678, table := 0x9000, first := 511, count := 1, entry := 0xB800000080000000 }
theorem witness_Mappings_splinter : let r := cget (tget mapped.parts 0).regions 0; let e := tableEntry mapped.mem 0x3000
    r.getLsbD 63 = true ∧ (r.extractLsb' 60 3).toNat = 4 ∧ splintering.table % 4096 = 0 ∧ splintering.table + 4096 ≤ 2 ^ 39 ∧
    leafEntryAt mapped.mem splintering.va.toNat (walkGroups 4) ((r.extractLsb' 12 40).toNat * 4096) = some 0x3000 ∧ e.getLsbD 63 = true ∧ entryReserved e = false ∧
    (e.extractLsb' 56 3).toNat ≤ 2 ∧ e.getLsbD 62 = false ∧ 0x3000 + 8 ≤ splintering.table := by decide
theorem witness_Mappings_bind : let s := syncing {} []
    (tget s.parts 0).live = true ∧ (∃ e ∈ (tget s.parts 0).bindings, e.1 ≠ 0 ∧ e.2.bv = true ∧ e.2.rb.toNat < 4096 ∧ 0 < e.2.rb.toNat + 4096 * (e.2.np.toNat + 1)) ∧
    ¬(∃ e ∈ (tget s.parts 0).bindings, e.1 ≠ 0 ∧ e.2.bv = true ∧ e.2.rb.toNat < 8192 ∧ 4096 < e.2.rb.toNat + 4096 * (e.2.np.toNat + 1)) ∧
    ((0x3FFFFFFFFFFFFFFF : Word).extractLsb' 60 3).toNat = 3 ∧ (tget (tget s.parts 0).bindings 4095).waiters = [] := by decide

/-- Resources that nobody owns, and some of partition 0. -/
def fresh : Resources := { clusters := [63], tenants := 16 }
theorem witness_Partitions : base.dev.boot = 4 ∧ 1 ≤ fresh.tenants ∧ (tget base.parts 0).shrinking = none ∧ (63 : Nat) < 64 ∧ (tget base.parts 63).live = false ∧ base.dev.stopped = false ∧ base.dev.powered = true ∧ fresh.clusters ≠ [] ∧
    fresh.tenants ≤ 16 ∧ base.available fresh = true ∧ base.available { clusters := [0] } = false ∧ (tget base.parts 0).live = true ∧ (tget base.parts 0).destroying = false := by decide
theorem witness_Partitions_shrink : ∃ s : State, (tget s.parts 0).live = true ∧ (tget s.parts 0).shrinking = none ∧ (tget s.parts 0).res.routes = [] ∧ (tget s.parts 0).destroying = false ∧
    hasResources (tget s.parts 0).res { clusters := [1] } = true ∧ (∃ i ∈ (tget s.parts 0).res.clusters, i ∉ [1]) ∧
    (∀ i ∈ (tget base.parts 0).res.clusters, i ∈ [0]) ∧ (5 : Nat) ∈ ({ base.dev with zeroing := [5] } : Device).zeroing :=
  ⟨{ base with parts := tmod base.parts 0 (fun p => { p with res := { clusters := [0, 1] } }) }, by decide, by decide, by decide, by decide, by decide, ⟨0, by decide⟩, by decide, by decide⟩
/-- Resources that take no cluster and no arbiter over its 256 units, and a share of HBM for cluster and memory. -/
theorem witness_Partitions_grow : ∀ x, x < 152 → ownsRes { hbm := [(31, 2 ^ 21)] } x = true →
    (base.onPart 0 (fun p => { p with res := addResources p.res { hbm := [(31, 2 ^ 21)] }, tenants := [(0, {})] })).overCommitted x = false := by decide
/-- A document as the rewrite gives it, between its two moves; a word of a program that names port 5 of die 1. -/
theorem witness_Partitions_rewrite : (tget base.parts 0).capSeq % 2 = 0 ∧ (tget ({ base with parts := tmod base.parts 0 (fun p => { p with capSeq := 3 }) } : State).parts 0).capSeq % 2 = 1 ∧
    (1 <<< 127 : BitVec 128).getLsbD 127 = true ∧ base.namesForeign 0 1 [0] = false := by decide
/-- A program of partition 9, which owns nothing, whose first page branches into a page that moves port 5 to AGH. -/
def foreign : State := { base with colls := [(1, {
  store := [(0, 1 <<< 124 ||| 0x100 <<< 110), (0x100, 0x205 <<< 16 ||| 0x30 <<< 6)], progs := [(0, { live := true, part := 9 })] })] }
theorem witness_Partitions_foreign : foreign.namesForeign 9 1 [0] = true ∧ foreign.namesForeign 9 1 [2] = false ∧
    (({ live := true, part := 9 } : CollProg).starts) = [0, 0] := by decide
/-- Route entry 3 of partition 0, which owns ports 0 to 3, valid for GiB 0 and 1; entry 4 is its other one. -/
def routed : State := { base with
  parts := tmod base.parts 0 (fun p => { p with res := { p.res with routes := [3, 4], ports := [0, 1, 2, 3] } }),
  dev := { base.dev with routes := [(3, (0x40 : BitVec 64) ++ (0x8000000000010000 : BitVec 64))] } }
theorem witness_Partitions_routes : let res := ((routed.routeOwner 4).getD {}).res
    res.routes = [3, 4] ∧ 3 ∈ res.ports ∧ 4 ∉ res.ports ∧ (cget routed.dev.routes 3).getLsbD 63 = true ∧
    (let x : Word := (cget routed.dev.routes 3).extractLsb' 0 64
    (x.extractLsb' 30 26).toNat = 0 ∧ (x.extractLsb' 16 14).toNat + 1 = 2) := by decide

/-- The partition with tenant stops under way and the dirty-page log of tenant 0. -/
def stopping (placed : Bool) (l : List TenantStop) : State := { base with
  gangs := tmod base.gangs 2 (fun g => { g with placed := placed }),
  parts := tmod base.parts 0 (fun p => { p with stops := l, dirty := [(0, { size := 4096, armed := true }), (1, { size := 64 })] }) }
/-- A log with a slot left for its final entry, and one whose final entry waits. -/
theorem witness_TenantStops_logs : let s := stopping false [{ status := some 64 }]; let p := tget s.parts 0
    (p.dirty.map (·.1)).Nodup ∧ (tget p.dirty 0).finals = [] ∧ (tget p.dirty 0).ring.length < (tget p.dirty 0).size ∧ ({ size := 1, ring := [5] } : DirtyLog).size ≤ [5].length ∧
    ({ size := 1, ring := [5], finals := [7] } : DirtyLog).finals = 7 :: [] ∧ (tget base.parts 0).dirty = [] ∧ p.stops = [{ status := some 64 }] := by decide
theorem witness_TenantStops : (stopping false []).atFinal 0 {} = true ∧ (stopping false []).atFinal 0 { tenant := some 0 } = true ∧
    (stopping true []).atFinal 0 { tenant := some 0 } = false ∧ (tget (stopping false [{ words := [1] }, { tenant := some 0, killed := 2 }, { tenant := some 0, killed := 2 }]).parts 0).stops =
      [{ words := [1] }] ++ { tenant := some 0, killed := 2 } :: [{ tenant := some 0, killed := 2 }] ∧
    (tget (stopping false []).parts 0).destroying = false ∧ (tget base.parts 1).live = false ∧ (tget base.parts 0).live = true := by decide

/-- A command with a remote unit on its way. -/
def sending (w : Nat) : State := { base with
  cmds := [(2, { op := .cpy, strand := 1, state := .started, units := [8] })], dev := { base.dev with outs := [(8, { cmd := 2, port := 3, window := 0 })] }, now := 2000 * w }
theorem witness_FabricEvents : tfind (sending 64).dev.outs 8 = some { cmd := 2, port := 3, window := 0 } ∧ (tfind (sending 64).cmds 2).isSome = true ∧
    (∀ e ∈ (sending 64).cmds, e.2.wordLeft = false) ∧ 0 + 64 ≤ (sending 64).windowNow ∧ (sending 63).windowNow < 0 + 64 ∧ 0 < (sending 64).dev.windowUs ∧ (tget (sending 64).cmds 2).state = .started ∧
    (3, (sending 64).windowNow) ∉ (sending 64).dev.misses ∧ ((sending 64).dev.fatal.filter (fun r => r.mod)).length < 64 ∧ (sending 64).dev.timeLost = false := by decide
theorem witness_FabricEvents_rest : (3, 64) ∈ ({ (sending 64).dev with misses := [(3, 64)] } : Device).misses ∧ ({ base.dev with timeLost := true } : Device).timeLost = true ∧
    base.dev.windowNext = none ∧ ({ base.dev with windowNext := some (16, 1) } : Device).windowNext = some (16, 1) ∧ base.windowNow < 1 ∧
    paExists 1 (2 ^ 32 - 1) 1 = true ∧ (5, 8) ∉ base.dev.performed ∧ (5, 8) ∈ ({ base.dev with performed := [(5, 8)] } : Device).performed ∧ 15 ∉ base.dev.failed ∧
    15 ∈ ({ base.dev with failed := [15] } : Device).failed ∧ base.dev.stopped = false ∧ base.dev.powered = true := by decide
theorem witness_FabricEvents_order : ∃ s : State, tfind s.dev.outs 8 = some { cmd := 2 } ∧ tfind s.dev.outs 9 = some { cmd := 2 } ∧
    tfind s.dev.outs 10 = some { cmd := 2, acked := true } :=
  ⟨base.onDev (fun d => { d with outs := [(8, { cmd := 2 }), (9, { cmd := 2 }), (10, { cmd := 2, acked := true })] }), by decide⟩

/-- The device with sensor readings, the package's draw unchanged for 2 ms. -/
def sensed (w : Nat) (t : Nat) : State := { base with dev := { base.dev with pkgLog := [(0, w)], junction := [(3, t)] }, now := 2000000 }
theorem witness_PowerAndHeat : 2400 * 1000000 < (sensed 2401 0).share Device.pkgLog ∧ (sensed 2299 104).share Device.pkgLog < 2300 * 1000000 ∧ tget (sensed 0 104).dev.junction 3 < 105 ∧
    105 ≤ tget (sensed 0 105).dev.junction 3 ∧ tget (sensed 0 114).dev.junction 3 < 115 ∧ 115 ≤ tget (sensed 0 115).dev.junction 3 ∧ (sensed 0 115).dev.stopped = false ∧
    ((sensed 0 115).dev.fatal.filter (fun r => r.mod)).length < 64 := by decide
theorem witness_PowerAndHeat_hot : ∃ s : State, tget s.dev.junction 3 = 105 ∧
    max s.now (s.dev.lastDown + 100000) < tget s.dev.lastHot 3 + 100000 ∧ ¬ 105 ≤ tget s.dev.junction 2 :=
  ⟨(sensed 2401 105).onDev (fun d => { d with lastHot := [(3, 1950000)] }), by decide⟩
/-- A package that stopped, with a partition and without. -/
theorem witness_PowerAndHeat_sequence : (∃ e ∈ base.parts, e.2.live = true) ∧ (∀ e ∈ State.reset.parts, e.2.live = false) ∧ base.dev.powered = true ∧
    (base.onDev (fun d => { d with stopped := true })).dev.stopped = true ∧ (State.reset.onDev (fun d => { d with powered := false })).dev.powered = false ∧
    (base.onDev (fun d => { d with offAsked := true, bootFault := 2 })).dev.bootFault = 2 ∧ (4 : Word).toNat ≤ 4 ∧ 4 < (5 : Word).toNat ∧ RegTarget.ringSize ≠ .bootFault := by decide
/-- A window of 1 ms that ends at a draw made 0.4 ms before: 0.6 ms at 1,000 W, 0.4 ms at 2,000 W. -/
theorem witness_PowerAndHeat_average : energyIn [(1600000, 2000), (0, 1000)] 1000000 2000000 = 1400 * 1000000 := by decide
theorem witness_PowerAndHeat_registers : base.dev.powered = true ∧ (State.reset.onDev (fun d => { d with powered := false })).dev.powered = false ∧
    (base.onDev (fun d => { d with stopped := true })).dev.stopped = true ∧ paExists 0 (2 ^ 39 - 8) 8 = true ∧ ((65536 : Word).toNat = 2 ^ (10 + 6)) ∧
    (∀ i, i < 7 → (1025 : Word).toNat ≠ 2 ^ (10 + i)) := by decide
theorem witness_PowerAndHeat_points : (base.onDev (fun d => { d with islands := [(64, { target := some (5000, 700) })] })).dev.islands = [(64, { target := some (5000, 700) })] ∧
    (tget base.dev.islands 64).settling = false ∧ PointAllowed base 64 4500 500 ∧ PointAllowed base 0 6000 (topMhz 0 6000) ∧ ¬PointAllowed base 64 7501 500 ∧ ¬PointAllowed base 0 4500 500 := by
  refine ⟨rfl, by decide, ⟨by decide, by decide, by decide, by decide, by decide, by decide, Nat.le_max_left .., fun h => absurd h (by decide)⟩,
    ⟨by decide, by decide, by decide, by decide, by decide, Nat.le_trans (by decide : 500 ≤ 940) (Nat.le_max_left 940 _), le_rfl, fun _ => ⟨by decide, rfl⟩⟩, fun h => absurd h.2.2.2.1 (by decide), fun h => ?_⟩
  exact absurd (h.2.2.2.2.2.2.2 (by decide)).1 (by decide)

/-- A machine about to issue the bundle `l`. -/
def issuing (l : List Syll) : State := State.reset.placed (l.flatMap dwBytes)
theorem issues (s : State) (l : List Syll) (h : Half) (h1 : s.agenda = [] ∧ s.sinceEvent < 16 ∧ s.pick = some 1)
    (h2 : (tget s.strands 1).micro.mv = false ∧ (tget s.strands 1).walkHeld = false ∧ (tget s.strands 1).fenced = false ∧ (tget s.strands 1).csFenced = false)
    (h3 : (tget (landed s 1).cores (landed s 1).me.core).halfOf (landed s 1).me.ig (landed s 1).me.pc.toNat = some h)
    (h4 : h.absent = [] ∧ (landed s 1).me.mid = false) (h5 : (landed s 1).bundleAt (landed s 1).me (landed s 1).me.pc.toNat = l) : Issues s 1 h l where
  turn := h1
  free := ⟨h2.1, h2.2.1, fun h => absurd (h2.2.2.1.symm.trans h) (by decide), fun h => absurd (h2.2.2.2.symm.trans h) (by decide)⟩
  half := h3
  whole := h4
  bytes := h5
/-- ADD s4, s4, s7 alone in its bundle. -/
def addWord : Syll := 0x8000001041C00000
/-- As the decoder reads it. -/
def addSyll : Syllable := ⟨0, 0, .add { sd := 4, sa := 4, sb := 7 }, addWord⟩
/-- The half it is fetched from. -/
def addHalf : Half :=
  let s := landed (issuing [addWord]) 1
  ((tget s.cores s.me.core).halfOf s.me.ig s.me.pc.toNat).getD {}
theorem addIssues : Issues (issuing [addWord]) 1 addHalf [addWord] := issues _ _ _ (by decide) (by decide) (by rfl) (by decide) (by rfl)
/-- A next state's status, none where there is no next state. -/
def statusOf : Out → Option Status
  | .next t => some t.issue.status
  | _ => none
theorem statusOf_next : ∀ (o : Out) (x : Status), statusOf o = some x → ∃ t, o = .next t ∧ t.issue.status = x
  | .next t, _, h => ⟨t, rfl, by simpa [statusOf] using h⟩
  | .fault _, _, h => by cases h
  | .refused _, _, h => by cases h
theorem witness_StepRunsDecoded : (landed (issuing [addWord]) 1).me.annulled = false ∧ decodeBundle [addWord] = .ok [addSyll] ∧
    (executes (issuing [addWord]) 1 addHalf [addWord]).me.guardHolds addSyll.guard = true ∧
    (executes (issuing [addWord]) 1 addHalf [addWord]).me.guardHolds 1 = false ∧
    ∃ x, exec addSyll.i ((executes (issuing [addWord]) 1 addHalf [addWord]).atSyll addSyll) = .next x ∧ x.issue.status = .ok :=
  ⟨by decide, by rfl, by decide, by decide, statusOf_next (exec addSyll.i ((executes (issuing [addWord]) 1 addHalf [addWord]).atSyll addSyll)) .ok (by rfl)⟩
/-- RETT outside a handler, which is a trap, and YIELD, which ends its bundle. -/
theorem witness_StepRunsDecoded_others : ∀ w ∈ encode (.rett {}) ++ encode (.yield {}), ∃ h l, Issues (issuing [w]) 1 h [w] ∧ decodeBundle [w] = .ok l := by
  intro w h
  rcases List.mem_append.mp h with h | h <;>
    · obtain rfl := List.mem_singleton.mp h
      exact ⟨_, _, issues _ _ _ (by decide) (by decide) rfl (by decide) (by rfl), rfl⟩
theorem witness_StepRunsDecoded_annulled : ∃ (s : State) (h : Half), Issues s 1 h [addWord] ∧ (landed s 1).me.annulled = true :=
  ⟨(issuing [addWord]).onStrand 1 (fun t => { t with rq := [{ rd := 1, ra1 := true, rt := 0x200000 }] }), _,
    issues _ _ _ (by decide) (by decide) rfl (by decide) (by rfl), by decide⟩
theorem witness_StepRunsDecoded_refused : ∃ h x, Issues (issuing [0x80007FF000000000]) 1 h [0x80007FF000000000] ∧ decodeBundle [0x80007FF000000000] = .error x :=
  ⟨_, _, issues _ _ _ (by decide) (by decide) rfl (by decide) (by rfl), rfl⟩
theorem witness_StepRunsDecoded_bytes : ∃ (s : State) (h : Half), (tget s.cores s.me.core).halfOf s.me.ig 0x100000 = some h ∧ s.me.stale = [] ∧
    (s.bundleAt s.me 0x100000)[0]? = some addWord ∧ lastSyll addWord 0x100000 :=
  ⟨issuing [addWord], _, rfl, rfl, by rfl, .inl (by decide)⟩
theorem witness_RoundTrip : (Instr.sfpool { o := {}, lit := 0 }).enc.isSome = true ∧ (Instr.sfpool { o := {}, lit := 0 }).wf = true ∧
    (Instr.add {}).wf = true ∧ ((Instr.add {}).enc.map (·.slot)) = some 0 ∧ ((Instr.vadd {}).enc.map (·.slot)) = some 3 ∧
    (encodeMicro (.loop1 { tgt := 0x3FFF })).isSome = true := by decide
theorem witness_StepKeepsMemory : State.reset.memOk ∧ ∃ t, step State.reset = .next t := by
  refine ⟨by decide, ?_⟩
  obtain ⟨t, h, -⟩ := statusOf_next (step State.reset) .ok (by rfl)
  exact ⟨t, h⟩

/-! The spec's worked examples and tables, one step each. -/

/-- A field of the next state, 0 where there is none. -/
def after {α : Type} [Inhabited α] (o : Out) (f : State → α) : α := match o with
  | .next t => f t
  | _ => default
/-- The scalar value that an instruction puts in flight, and how many steps on. -/
def puts (o : Out) : Nat × Dest := after o (fun t => match t.me.fly.getLast? with
  | some l => (l.due - t.me.steps, l.dest)
  | none => (0, .none))

/-- R184: LI, then LIH in a later step. -/
theorem test_li : puts (exec (.li { sd := 5, imm := 0x9ABCDEF0 }) base) = (1, .scalar 5 0xFFFFFFFF9ABCDEF0) := by decide
theorem test_lih : puts (exec (.lih { sd := 5, imm := 0x12345678 }) (regs [(5, 0xFFFFFFFF9ABCDEF0)])) = (1, .scalar 5 0x123456789ABCDEF0) := by decide
/-- R181: the most negative number divided by -1, and division by 0. -/
theorem test_div : puts (exec (.divS { sd := 5, sa := 1, sb := 2 }) (regs [(1, 1 <<< 63), (2, -1)])) = (18, .scalar 5 (1 <<< 63)) ∧
    puts (exec (.remu { sd := 5, sa := 1, sb := 0 }) (regs [(1, 7)])) = (18, .scalar 5 7) := by decide
/-- R189: BDNZ counts 3 to 2 at once and appends the redirect to itself. -/
theorem test_bdnz : let t := after (exec (.bdnz { sa := 1, disp := 0 }) (regs [(1, 3)])) id
    puts (.next t) = (1, .scalar 1 2) ∧ t.issue.redirect.map (·.rt) = some 0x100000 := by decide
/-- R24: TRQ0 of the worked example of R389. -/
theorem test_packed_redirect : packQueue [{ rd := 2, rt := 0x400200 }] 0 = 0xC000000000400200 := by decide
/-- R271: its TRQ0 with RD 3 fails check 2. -/
theorem test_rett_bad : let t := after (exec (.rett {}) (returning 0x400110 0 0xE000000000400200 0)) id
    t.me.sysreg 2 = 0x0017 ∧ t.me.sysreg 3 = 5 ∧ t.me.sysreg 5 = 0xE000000000400200 ∧ t.me.sysreg 1 = 0x400110 := by decide
/-- R193, R383: LDP.W of an unbound window in a delay slot enters the handler with the values of the worked example. -/
theorem test_unbound_window : let t := after (exec (.ldpW { sd := 5, pw := 3 })
      (withMe (fun t => { t with sys := [(0, 0x401000)], pc := 0x400108, rq := [{ rd := 2, rt := 0x400200 }] }))) id
    t.me.sysreg 1 = 0x400108 ∧ t.me.sysreg 2 = 0x000B ∧ t.me.sysreg 3 = 3 ∧ t.me.sysreg 5 = 0xC000000000400200 ∧ t.me.sysreg 6 = 0 ∧ t.me.pc = 0x401000 := by decide
/-- R63: the lines p3.d2 and p3.a0. -/
theorem test_lines : elemKey { pn := 3, dir := 2, ix := 2 } 30 = 3072 + 32 * 30 + 0 ∧ elemKey { pn := 3, dir := 3, ix := 0 } 1 = 3072 + 32 + 31 ∧
    elemKey { pn := 3, dir := 0, ix := 5 } 3 = elemKey { pn := 3, dir := 1, ix := 3 } 5 := by decide
/-- R79: the frame of a strand with PL 8, WT 4, AT 2, CT 4, SB 4 and TH 10. -/
theorem test_frame : frameSize { pl := 8, wt := 4, at_ := 2, ct := 4, sb := 4, th := 10 } = 184480 := by decide

/-- R117: an FP32 number delivered in a format in the four directed modes, with its flags (V 16, O 4, U 2, X 1). -/
def delivered (tag : BitVec 4) (x : Nat) : List (Nat × BitVec 5) :=
  [0, 1, 2, 3].map (fun m => let r := convertTo tag m 0 (valueOf 1 x); (r.bits % 2 ^ tagWidth tag, r.ff))
theorem test_convert_e4m3 : delivered 4 0x3F880000 = [(0x38, 1), (0x38, 1), (0x38, 1), (0x39, 1)] ∧ delivered 4 0xBF880000 = [(0xB8, 1), (0xB8, 1), (0xB9, 1), (0xB8, 1)] ∧
    delivered 4 0x43E60000 = [(0x7E, 1), (0x7E, 1), (0x7E, 1), (0x7E, 5)] := by decide
theorem test_convert_e2m1 : delivered 6 0x40A00000 = [(6, 1), (6, 1), (6, 1), (7, 1)] ∧ delivered 6 0x3E800000 = [(0, 3), (0, 3), (0, 3), (1, 3)] := by decide
theorem test_convert_f16 : delivered 3 0x4788B800 = [(0x7C00, 5), (0x7BFF, 5), (0x7BFF, 5), (0x7C00, 5)] := by decide
theorem test_convert_i8 : delivered 10 0xC0600000 = [(0xFC, 1), (0xFD, 1), (0xFC, 1), (0xFD, 1)] ∧ delivered 10 0x43960000 = [(0x7F, 16), (0x7F, 16), (0x7F, 16), (0x7F, 16)] := by
  decide
theorem test_convert_n8 : delivered 14 0xBE99999A = [(0, 1), (0, 1), (0, 16), (0, 1)] ∧ delivered 14 0x80000000 = [(0, 0), (0, 0), (0, 0), (0, 0)] := by decide
/-- R112: index 0x2A5B with lattice entry 0x31021021, in quarters. -/
theorem test_lattice : (List.range 8).map (vq2Quarters 0x31021021 0x2A5B) = [-1, 5, 1, -1, 5, 1, 3, 7] := by decide
/-- R119: 2^24 and 31 ones. -/
theorem test_vrsum : sumNode 0 (fun n => if n = 0 then 0x4B800000 else 0x3F800000) 5 0 = 0x4B80000F := by decide
/-- R122: eight products of 2^-25 and 1.0. -/
theorem test_matrix_step : accFirst false 1 (plainSteps (List.replicate 8 (decodeF (fmtOf 2) 0x3980))) (plainSteps (List.replicate 8 (decodeF (fmtOf 2) 0x3900)))
    0x3F800000 = 0x3F800002 := by decide
/-- R223: VNZS.F16 of 1.0, -0, -1.0 and NaN in lanes 3, 7, 20 and 25. -/
theorem test_vnzs : let s := withMe (fun t => { t with ptag := [(4, 3)], planes := [(4096 + 3, 0x3C00), (4096 + 7, 0x8000), (4096 + 20, 0xBC00), (4096 + 25, 0x7E00)] })
    puts (exec (.vnzs { pd := 0x240, pa := 0x100, df := 3 }) s) =
      (8, wholeLine { pn := 9 } 12 ([6, 40, 50] ++ List.replicate 29 0xFFFFFFFF)) ∧
    puts (exec (.vnzc { pd := 0x240, pa := 0x100, df := 3 }) s) = (8, wholeLine { pn := 9 } 12 (List.replicate 32 3)) := by decide
/-- R203: XPUT of 9 into element 5 of a line of ones. -/
theorem test_xput : puts (exec (.xput { sa := 7, pl := 0x80, ei := 5, ft := 8 }) (withMe (fun t => { t with
      s := [(7, 9)], ptag := [(2, 8)], planes := (List.range 32).map (fun i => (2048 + i, 1)) }))) =
    (3, wholeLine { pn := 2 } 8 ((List.replicate 32 1).set 5 9)) := by decide
/-- R226: lanes 2m and 2m + 1 address word m; it takes the odd lane's value. -/
theorem test_vscat : let t := after (exec (.vscat { pl := 0x140, sa := 4, pi := 0x180 }) (withMe (fun t => { t with
      s := [(4, 0xFE0000)], planes := (List.range 32).map (fun k => (5120 + k, BitVec.ofNat 32 (100 + k))) ++ (List.range 32).map (fun k => (6144 + k, BitVec.ofNat 32 (k / 2))) }))) id
    (List.range 17).map (fun m => cnum t.me.smem (4 * m) 4) = (List.range 16).map (fun m => 101 + 2 * m) ++ [0] := by decide
/-- R97: the entries of levels 1 and 2 that address 0x31_2345_6789_ABCD names in a walk of 2-MiB pages. -/
theorem test_walk : leafEntryAt [] 0x3123456789ABCD [(48, 4)] 0x1000 = some 0x1008 ∧ leafEntryAt [] 0x3123456789ABCD [(39, 9)] 0x2000 = some 0x2230 ∧
    (walkGroups 2).map (fun g => 0x3123456789ABCD / 2 ^ g.1 % 2 ^ g.2) = [1, 70, 277, 316] := by decide
/-- R314: the two refills of the worked example. -/
theorem test_refill : let ten (n : Nat) : Tenant := if n = 1 then { rf := 20, cap := 100, db := 12, bl := 40 } else if n = 2 then { rf := 30, cap := 100, bal := 38, cr := 12 } else {}
    let ten' (n : Nat) : Tenant := refilled ten n
    (ten' 1).db = 2 ∧ (ten' 1).bal = 10 ∧ (ten' 2).bal = 78 ∧ (ten' 2).cr = 2 ∧
    (refilled ten' 1).db = 0 ∧ (refilled ten' 1).bal = 28 ∧ (refilled ten' 2).bal = 100 ∧ (refilled ten' 2).cr = 0 := by decide
/-- R318: of queues 1 and 2 with equal PRI and BAL, queue 1 comes first after LW 2. -/
theorem test_rotation : Cand.before [(2, 2)] { queue := 1, pri := 2, bal := 40 } { queue := 2, pri := 2, bal := 40 } = true ∧
    Cand.before [(2, 2)] { queue := 2, pri := 2, bal := 40 } { queue := 1, pri := 2, bal := 40 } = false := by decide
/-- R361: keys 4 and 6 of partition 2 with clusters 16 and 17. -/
theorem test_document : cborMap [(4, cborUint 2), (6, cborUints [16, 17])] = [0xA2, 0x04, 0x02, 0x06, 0x82, 0x10, 0x11] := by decide
/-- R161: the first and the last of the masks with four ones in ascending order. -/
theorem test_masks : selMask 0 = 0x0F ∧ selMask 69 = 0xF0 := by decide
/-- R416, with the numbers of R327: FL 64 at channel group 5 is 900,000 bytes; 899,487 served is too few by 513. -/
theorem test_shortfall :
    let p : Partition := { live := true, res := { hbm := [(5, 4096)] }, bw := [(5, 0x40000000)], served := [(5, 899487)], starved := [(0, 5)] }
    (match exec .bandwidthWindow { State.reset with parts := [(2, p)] } with
    | .next t => t.dev.fatal.map (fun r => (r.cause, r.val, r.aux))
    | _ => []) = [(0x0067, 5, 0x0000020100000200)] := by rfl
/-- R134: a binding entry held exclusively, word by word: BV 1, HSC 2, RB 0x5000, NP 3, MD 1, SEQ 7, OWN 0x140. -/
theorem test_binding_entry : Binding.bytes
    { bv := true, hsc := 2, rb := 0x5000, np := 3, md := 1, seq := 7, own := 0x140 } =
    leBytes 8 0xA000000000005000 ++ leBytes 8 3 ++ leBytes 8 0x4000000000000007 ++ leBytes 8 0x140 := by decide
/-- R406: s4 and a plane in error; ADD of s4 and s7 reads s4. -/
theorem test_unit_error : (match step ((issuing [addWord]).onDev (fun d => { d with uncorrectable := [(12, 0, 32), (5, 0, 0)] })) with
    | .next t => t.dev.fatal.map (fun r => (r.cause, r.val, r.aux))
    | _ => []) = [(0x0045, 32, 0x0C00000000000008)] := by rfl

end Sys2Proof.Tests
end

section
/-! O59: the state at reset. -/

namespace Sys2Proof.Machine

/-- No bit is set in cells of which none is listed. -/
theorem getLsbD_cget_nil {w : Nat} (n i : Nat) : (cget ([] : Cells w) n).getLsbD i = false := by
  simp [cget_nil]

/-- Settles O59: the reset state lists its fields, and what it does not list reads as the field's default. -/
theorem resetValues : Obligations.ResetValues := by
  unfold Obligations.ResetValues
  exact ⟨rfl, fun _ => cget_nil _, fun _ => ⟨rfl, rfl, rfl⟩, rfl, fun _ n => getLsbD_cget_nil n 63,
    fun n => getLsbD_cget_nil n 63, fun _ _ => rfl, rfl, rfl, rfl, rfl, rfl⟩

end Sys2Proof.Machine
end

section
/-! O60: which faults an instruction can end in. An error of a meaning is followed through its checks; the only ones that are
faults are those of accesses beyond the memory of R14. -/

namespace Sys2Proof.Machine

/-- The fault of an access of at most a page that leaves the memory of its kind (R14; log 2). -/
def PageHole (f : Fault) : Prop :=
  ∃ kind pa n, f = .addressHole (memKey kind pa) ∧ paExists kind pa n = false ∧ n ≤ 4096

/-- How a meaning may stop short: it waits, it traps, or an access of at most a page leaves memory. -/
def Stop.Allowed : Stop → Prop
  | .fault f => PageHole f
  | _ => True

/-- Why a unit of a command may fail to be performed: a hole is that of an access of at most a page. -/
def UnitErr.Allowed : UnitErr → Prop
  | .hole f => PageHole f
  | _ => True

/-- Every error that a computation may end in satisfies `P`. -/
def ErrorsIn {ε α : Type} (P : ε → Prop) (x : Except ε α) : Prop := ∀ e, x = .error e → P e

section
variable {ε α β : Type} {P : ε → Prop}

@[simp] theorem errorsIn_ok (a : α) : ErrorsIn P (.ok a : Except ε α) := nofun
@[simp] theorem errorsIn_pure (a : α) : ErrorsIn P (pure a : Except ε α) := nofun
@[simp] theorem errorsIn_error (e : ε) : ErrorsIn P (.error e : Except ε α) ↔ P e :=
  ⟨fun h => h e rfl, fun h _ he => by cases he; exact h⟩

@[simp] theorem errorsIn_bind {x : Except ε α} {f : α → Except ε β} :
    ErrorsIn P (x >>= f) ↔ ErrorsIn P x ∧ ∀ a, x = .ok a → ErrorsIn P (f a) := by
  cases x with
  | ok a => exact ⟨fun h => ⟨errorsIn_ok a, fun b hb => by cases hb; exact h⟩, fun h => h.2 a rfl⟩
  | error e => exact ⟨fun h => ⟨fun _ he => h _ (by cases he; rfl), nofun⟩, fun h _ he => h.1 _ (by cases he; rfl)⟩

theorem ErrorsIn.bind {x : Except ε α} {f : α → Except ε β} (hx : ErrorsIn P x) (hf : ∀ a, ErrorsIn P (f a)) :
    ErrorsIn P (x >>= f) := errorsIn_bind.mpr ⟨hx, fun a _ => hf a⟩

@[simp] theorem errorsIn_map {x : Except ε α} {f : α → β} : ErrorsIn P (x.map f) ↔ ErrorsIn P x := by
  cases x <;> simp [Except.map]

@[simp] theorem errorsIn_functor_map {x : Except ε α} {f : α → β} : ErrorsIn P (f <$> x) ↔ ErrorsIn P x := errorsIn_map

@[simp] theorem errorsIn_ite {c : Prop} [Decidable c] {x y : Except ε α} :
    ErrorsIn P (if c then x else y) ↔ (c → ErrorsIn P x) ∧ (¬c → ErrorsIn P y) := by
  split <;> simp [*]

theorem errorsIn_foldE (f : β → α → Except ε β) (l : List α) (hf : ∀ x ∈ l, ∀ b, ErrorsIn P (f b x)) :
    ∀ b, ErrorsIn P (foldE f l b) := by
  induction l with
  | nil => exact fun b => errorsIn_ok b
  | cons x r ih =>
    intro b
    simp only [foldE]
    cases h : f b x with
    | ok b' => exact ih (fun y hy => hf y (List.mem_cons_of_mem x hy)) b'
    | error e => exact (errorsIn_error e).mpr (hf x List.mem_cons_self b e h)
end

/-! The checks that meanings make. -/

@[simp] theorem allowed_trap (t : Trap) : (Stop.trap t).Allowed := trivial
@[simp] theorem allowed_wait : Stop.wait.Allowed := trivial
@[simp] theorem errorsIn_trapE {α : Type} (c : BitVec 16) (v : Word) : ErrorsIn Stop.Allowed (trapE c v : Res α) :=
  (errorsIn_error _).mpr trivial
@[simp] theorem errorsIn_waitE {α : Type} : ErrorsIn Stop.Allowed (waitE : Res α) := (errorsIn_error _).mpr trivial
@[simp] theorem errorsIn_need (b : Bool) (c : BitVec 16) (v : Word) : ErrorsIn Stop.Allowed (need b c v) := by
  cases b <;> simp
@[simp] theorem errorsIn_needReady (b : Bool) : ErrorsIn Stop.Allowed (needReady b) := by cases b <;> simp

/-- The one check that ends in a fault (log 2). -/
@[simp] theorem errorsIn_needPa (kind pa n : Nat) (h : n ≤ 4096) : ErrorsIn Stop.Allowed (needPa kind pa n) := by
  unfold needPa
  split
  · exact errorsIn_ok ()
  · rename_i hn
    exact (errorsIn_error _).mpr ⟨kind, pa, n, rfl, by simpa using hn, h⟩

@[simp] theorem errorsIn_needPlane (t : Strand) (p : BitVec 5) : ErrorsIn Stop.Allowed (needPlane t p) := errorsIn_need _ _ _
@[simp] theorem errorsIn_needTag (t : Strand) (p : BitVec 5) (w : BitVec 4) : ErrorsIn Stop.Allowed (needTag t p w) := errorsIn_need _ _ _
@[simp] theorem errorsIn_needTags (t : Strand) (p : BitVec 5) (w : List (BitVec 4)) : ErrorsIn Stop.Allowed (needTags t p w) :=
  errorsIn_need _ _ _
@[simp] theorem errorsIn_needHeldPm (s : State) (b : Bool) : ErrorsIn Stop.Allowed (s.needHeldPm b) := errorsIn_need _ _ _
@[simp] theorem errorsIn_needStorePm (s : State) (p : BitVec 5) (pm : BitVec 3) : ErrorsIn Stop.Allowed (s.needStorePm p pm) :=
  errorsIn_need _ _ _
@[simp] theorem errorsIn_needTile (t : Strand) (th : BitVec 5) : ErrorsIn Stop.Allowed (needTile t th) := errorsIn_need _ _ _
@[simp] theorem errorsIn_needKind (t : Strand) (th : BitVec 5) (ok : BitVec 2 → Bool) : ErrorsIn Stop.Allowed (needKind t th ok) :=
  errorsIn_need _ _ _
@[simp] theorem errorsIn_needTileTag (t : Strand) (th : BitVec 5) (w : BitVec 4) : ErrorsIn Stop.Allowed (needTileTag t th w) :=
  errorsIn_need _ _ _
@[simp] theorem errorsIn_needSameTag (th : BitVec 5) (w f : BitVec 4) : ErrorsIn Stop.Allowed (needSameTag th w f) := errorsIn_need _ _ _
@[simp] theorem errorsIn_needEngine (s : State) (e : Nat) : ErrorsIn Stop.Allowed (s.needEngine e) := errorsIn_need _ _ _
@[simp] theorem errorsIn_needSize (n : Word) : ErrorsIn Stop.Allowed (needSize n) := errorsIn_need _ _ _
@[simp] theorem errorsIn_needLd (t : Strand) : ErrorsIn Stop.Allowed (needLd t) := errorsIn_needReady _
@[simp] theorem errorsIn_needSt (t : Strand) : ErrorsIn Stop.Allowed (needSt t) := errorsIn_needReady _
@[simp] theorem errorsIn_needCp (t : Strand) : ErrorsIn Stop.Allowed (needCp t) := errorsIn_needReady _
@[simp] theorem errorsIn_needTl (t : Strand) : ErrorsIn Stop.Allowed (needTl t) := errorsIn_needReady _

@[simp] theorem errorsIn_needReady88 (t : Strand) (th : BitVec 5) : ErrorsIn Stop.Allowed (needReady88 t th) := by
  simp [needReady88, tileTrap]

@[simp] theorem errorsIn_source (s : State) (pos : Nat) (f : BitVec 11) (x : BitVec 1) (pm : BitVec 3) :
    ErrorsIn Stop.Allowed (s.source pos f x pm) := by simp [State.source]

@[simp] theorem errorsIn_named (r : Res Source) (f : BitVec 5 → Res Unit) (hf : ∀ p, ErrorsIn Stop.Allowed (f p)) :
    ErrorsIn Stop.Allowed (named r f) := by
  cases r with
  | ok x => exact hf x.line.pn
  | error e => exact errorsIn_ok ()

@[simp] theorem errorsIn_v3Lines (s : State) (un pdSrc : Bool) (accept : List (BitVec 4)) (o : FmtV3) :
    ErrorsIn Stop.Allowed (s.v3Lines un pdSrc accept o) := by simp [State.v3Lines]

@[simp] theorem errorsIn_vuSource (s : State) (o : FmtVU) (l : List (BitVec 5)) : ErrorsIn Stop.Allowed (s.vuSource o l) := by
  unfold State.vuSource
  cases l.find? (fun p => s.me.win.pl ≤ p.toNat) <;> simp

@[simp] theorem errorsIn_sPlace (s : State) (x n : Nat) : ErrorsIn Stop.Allowed (s.sPlace x n) := by
  unfold State.sPlace
  refine .bind (errorsIn_need _ _ _) fun _ => ?_
  dsimp only
  split
  · simp
  · split <;> simp

@[simp] theorem errorsIn_pageFault {α : Type} (va : Word) (src : Nat) (rq : BitVec 3) (hd : Nat) :
    ErrorsIn Stop.Allowed (pageFault va src rq hd : Res α) := (errorsIn_error _).mpr trivial

@[simp] theorem errorsIn_hOpen (s : State) (hd : BitVec 4) (off : Nat) (rq : BitVec 3) : ErrorsIn Stop.Allowed (s.hOpen hd off rq) := by
  simp [State.hOpen]

/-- An access through a handle of at most a page (R103). -/
@[simp] theorem errorsIn_hPlace (s : State) (hd : BitVec 4) (off n align : Nat) (rq : BitVec 3) (h : n ≤ 4096) :
    ErrorsIn Stop.Allowed (s.hPlace hd off n align rq) := by simp [State.hPlace, h]

/-- The translation of a byte run goes page by page, so that no single access is longer than a page (R193, R263). -/
@[simp] theorem errorsIn_vPlaces (s : State) (va n src : Nat) (rq : BitVec 3) : ErrorsIn Stop.Allowed (s.vPlaces va n src rq) := by
  unfold State.vPlaces
  refine errorsIn_foldE _ _ (fun i _ acc => ?_) _
  dsimp only
  split
  · have h : min (va + n) (4096 * (va / 4096 + i + 1)) - max va (4096 * (va / 4096 + i)) ≤ 4096 := by omega
    simp [h]
  · simp

@[simp] theorem errorsIn_accessIssue (s : State) (h : HeldAccess) (wo : Bool) : ErrorsIn Stop.Allowed (s.accessIssue h wo) := by
  unfold State.accessIssue
  refine .bind (errorsIn_needReady _) fun _ => ?_
  cases s.heldBy s.me.part (s.tenantOf s.me) h.spans with
  | some res => exact errorsIn_pure _
  | none => dsimp only; split <;> exact errorsIn_pure _

@[simp] theorem errorsIn_atomicIssue (h : HeldAccess) (sd : BitVec 6) (s : State) : ErrorsIn Stop.Allowed (atomicIssue h sd s) := by
  unfold atomicIssue
  dsimp only
  split
  all_goals
    refine .bind (errorsIn_needReady _) fun _ => .bind (errorsIn_needReady _) fun _ => .bind (errorsIn_needReady _) fun _ => ?_
    refine errorsIn_ite.mpr ⟨fun _ => ?_, fun _ => errorsIn_pure _⟩
    split <;> exact errorsIn_pure _

@[simp] theorem errorsIn_indexLine (s : State) (ixd : Bool) (pi : BitVec 11) (xi : BitVec 1) :
    ErrorsIn Stop.Allowed (s.indexLine ixd pi xi) := by simp [State.indexLine]

@[simp] theorem errorsIn_gsTarget (s : State) (x : Nat) (act : List (Nat × Nat)) : ErrorsIn Stop.Allowed (s.gsTarget x act) := by
  unfold State.gsTarget
  refine .bind (errorsIn_need _ _ _) fun _ => .bind (errorsIn_need _ _ _) fun _ => ?_
  dsimp only
  split
  · split <;> simp
  · simp

/-- The accesses of the lanes are of four bytes each (R230). -/
@[simp] theorem errorsIn_ghPlaces (s : State) (hd : BitVec 4) (base : Nat) (act : List (Nat × Nat)) (rq : BitVec 3) :
    ErrorsIn Stop.Allowed (s.ghPlaces hd base act rq) := by
  unfold State.ghPlaces
  refine .bind (errorsIn_hOpen _ _ _ _) fun h => ?_
  have hlanes (l : List (Nat × Nat)) : ErrorsIn Stop.Allowed
      (foldE (fun (_ : Unit) p => needPa h.kd.toNat (h.pb.toNat * 4096 + p.2) 4) l ()) :=
    errorsIn_foldE _ _ (fun _ _ _ => errorsIn_needPa _ _ _ (by decide)) _
  dsimp only
  split <;> split <;> simp [hlanes]

@[simp] theorem errorsIn_scaleBytes (s : State) (fm : BitVec 4) (w : Word) : ErrorsIn Stop.Allowed (s.scaleBytes fm w) := by
  simp [State.scaleBytes]

@[simp] theorem errorsIn_mmaCmd (s : State) (td ta tb : BitVec 5) (ta2 : Option (BitVec 5)) (fmt : BitVec 5) (sw : Word)
    (imm : BitVec 12) (x half : Bool) (lit : BitVec 60) (fill : Option (BitVec 4)) :
    ErrorsIn Stop.Allowed (s.mmaCmd td ta tb ta2 fmt sw imm x half lit fill) := by
  cases ta2 <;> cases fill <;> simp [State.mmaCmd]

@[simp] theorem errorsIn_ownS (s : State) (x : Word) (n align : Nat) : ErrorsIn Stop.Allowed (s.ownS x n align) := by
  simp [State.ownS]

@[simp] theorem errorsIn_mmasIssue (o : FmtET) (x : Bool) (lit : BitVec 60) (s : State) :
    ErrorsIn Stop.Allowed (mmasIssue o x lit s) := by simp [mmasIssue]

@[simp] theorem errorsIn_placeCopy (s : State) (c : Cmd) : ErrorsIn Stop.Allowed (s.placeCopy c) := by simp [State.placeCopy]

@[simp] theorem errorsIn_needFill (s : State) (o : FmtECL) : ErrorsIn Stop.Allowed (s.needFill o) := by simp [State.needFill]

@[simp] theorem errorsIn_cpysIssue (op : CmdOp) (o : FmtECL) (s : State) : ErrorsIn Stop.Allowed (cpysIssue op o s) := by
  unfold cpysIssue
  refine .bind (errorsIn_need _ _ _) fun _ => .bind (errorsIn_need _ _ _) fun _ => .bind (errorsIn_need _ _ _) fun _ => ?_
  dsimp only
  split <;> simp

@[simp] theorem errorsIn_needDrainable (s : State) (th : BitVec 5) : ErrorsIn Stop.Allowed (s.needDrainable th) := by
  simp [State.needDrainable, tileTrap]

@[simp] theorem errorsIn_drainIssue (op : CmdOp) (o : FmtECL) (s : State) : ErrorsIn Stop.Allowed (drainIssue op o s) := by
  simp [drainIssue]

@[simp] theorem errorsIn_bindingOf (s : State) (o : FmtEA) : ErrorsIn Stop.Allowed (s.bindingOf o) := by simp [State.bindingOf]

@[simp] theorem errorsIn_arrive (s : State) (b : Nat) (m : BitVec 4) : ErrorsIn Stop.Allowed (s.arrive b m) := by simp [State.arrive]

@[simp] theorem errorsIn_cellOf (s : State) (a : Word) (rq : BitVec 3) : ErrorsIn Stop.Allowed (s.cellOf a rq) := by
  simp [State.cellOf]

@[simp] theorem errorsIn_pipeOf (s : State) (o : FmtEA) : ErrorsIn Stop.Allowed (s.pipeOf o) := by simp [State.pipeOf]

/-- A LAUNCH stops short only where its reads do (R37). -/
theorem errorsIn_launch (s : State) (part queue : Nat) (a : Word) (rd : Nat → Nat → Res (List Byte))
    (h : ∀ a n, ErrorsIn Stop.Allowed (rd a n)) : ErrorsIn Stop.Allowed (s.launch part queue a rd) := by
  simp [State.launch, h]

@[simp] theorem errorsIn_branch (taken : Bool) (bf : BitVec 2) (target : Word) (s : State) :
    ErrorsIn Stop.Allowed (branch taken bf target s) := by simp [branch]

@[simp] theorem errorsIn_collFault {α : Type} (a r : Nat) : ErrorsIn Stop.Allowed (collFault a r : Res α) :=
  (errorsIn_error _).mpr trivial

@[simp] theorem errorsIn_needMap (s : State) (im : Cells 64) (l : List Nat) : ErrorsIn Stop.Allowed (s.needMap im l) := by
  unfold State.needMap
  dsimp only
  split <;> simp

@[simp] theorem errorsIn_nextBlock (s : State) (im : Cells 64) (w nw f : Nat) :
    ∀ c, ErrorsIn Stop.Allowed (s.nextBlock im w nw f c) := by
  induction f with
  | zero => exact fun c => errorsIn_ok _
  | succ f ih => intro c; simp [State.nextBlock, ih]

@[simp] theorem errorsIn_liveBlock (s : State) (a : Word) : ErrorsIn Stop.Allowed (s.liveBlock a) := by
  unfold State.liveBlock
  split <;> simp

@[simp] theorem errorsIn_boundIssue (cls : BitVec 1) (o : FmtOB) (s : State) : ErrorsIn Stop.Allowed (boundIssue cls o s) := by
  unfold boundIssue
  refine .bind (errorsIn_need _ _ _) fun _ => .bind (errorsIn_needReady _) fun _ => ?_
  dsimp only
  split
  · simp
  · split <;> simp

/-! The units of commands: what they reach by a virtual address lies within a page. -/

/-- A side that is translated is not longer than a page. -/
def Side.Fits : Side → Nat → Prop
  | .va _, n => n ≤ 4096
  | _, _ => True

theorem Side.fits_of_le {n : Nat} (x : Side) (h : n ≤ 4096) : x.Fits n := by
  cases x with
  | va a => exact h
  | _ => trivial

/-- Every part of a unit fits. -/
def CopyUnit.Fits (u : CopyUnit) : Prop := (∀ p ∈ u.src, p.1.Fits p.2) ∧ ∀ p ∈ u.dst, p.1.Fits p.2

theorem cutFrom_le (x y f : Nat) : ∀ o n, ∀ p ∈ cutFrom x y f o n, p.2 ≤ 4096 := by
  induction f with
  | zero => exact fun _ _ => nofun
  | succ f ih =>
    intro o n p hp
    unfold cutFrom at hp
    split at hp
    · cases hp
    · rcases List.mem_cons.mp hp with rfl | hp
      · dsimp only; omega
      · exact ih _ _ p hp

theorem pieces_le (x y : Side) (n : Nat) : ∀ p ∈ pieces x y n, p.2 ≤ 4096 := cutFrom_le _ _ _ _ _

theorem Side.cut_fits (x : Side) (n : Nat) : ∀ p ∈ x.cut n, p.1.Fits p.2 := by
  intro p hp
  obtain ⟨q, hq, rfl⟩ := List.mem_map.mp hp
  exact Side.fits_of_le _ (pieces_le _ _ _ q hq)

theorem byteUnits_fits (x y : Side) (n : Nat) : ∀ u ∈ byteUnits x y n, u.Fits := by
  intro u hu
  obtain ⟨q, hq, rfl⟩ := List.mem_map.mp hu
  have h := pieces_le _ _ _ q hq
  exact ⟨by simpa using Side.fits_of_le _ h, by simpa using Side.fits_of_le _ h⟩

theorem sqgoUnits_fits (d : List Byte) : ∀ u ∈ sqgoUnits d, u.Fits := by
  intro u hu
  obtain ⟨r, _, rfl⟩ := List.mem_map.mp hu
  exact ⟨Side.cut_fits _ _, Side.cut_fits _ _⟩

theorem State.drainUnits_fits (s : State) (c : Cmd) : ∀ u ∈ s.drainUnits c, u.Fits := by
  intro u hu
  have hbytes (b : List Byte) (n : Nat) : ∀ p ∈ [(Side.bytes b, n)], p.1.Fits p.2 := by simp [Side.Fits]
  rcases List.mem_append.mp hu with hu | hu
  · obtain ⟨i, _, rfl⟩ := List.mem_map.mp hu
    exact ⟨hbytes _ _, Side.cut_fits _ _⟩
  · split at hu
    · cases List.mem_singleton.mp hu
      exact ⟨hbytes _ _, Side.cut_fits _ _⟩
    · cases hu

theorem State.unitsOf_fits (s : State) (c : Cmd) : ∀ u ∈ (s.unitsOf c).1, u.Fits := by
  intro u hu
  unfold State.unitsOf at hu
  dsimp only at hu
  split at hu
  case h_5 | h_6 =>
    obtain ⟨i, _, hi⟩ := List.mem_flatMap.mp hu
    obtain ⟨v, hv, rfl⟩ := List.mem_map.mp hi
    exact byteUnits_fits _ _ _ v hv
  case h_7 =>
    obtain ⟨m, _, rfl⟩ := List.mem_map.mp hu
    refine ⟨?_, ?_⟩
    · dsimp only; split
      · simp [Side.Fits]
      · exact Side.cut_fits _ _
    · dsimp only; split <;> simp [Side.Fits]
  case h_8 =>
    obtain ⟨m, _, rfl⟩ := List.mem_map.mp hu
    split
    · exact ⟨nofun, nofun⟩
    · exact ⟨by simp [Side.Fits], Side.cut_fits _ _⟩
  case h_9 => exact sqgoUnits_fits _ u hu
  case h_10 | h_11 => exact s.drainUnits_fits c u hu
  case h_12 => cases hu
  all_goals exact byteUnits_fits _ _ _ u hu

/-- The place of a side that fits: the one fault is that of its page (R14, R98). -/
theorem errorsIn_locate (s : State) (c : Cmd) (x : Side) (n : Nat) (rq : BitVec 3) (kinds : List Nat) (h : x.Fits n) :
    ErrorsIn UnitErr.Allowed (s.locate c x n rq kinds) := by
  unfold State.locate
  cases x with
  | va a =>
    dsimp only
    split
    · exact errorsIn_ok _
    · split
      · exact (errorsIn_error _).mpr trivial
      · split
        · rename_i l _
          split
          · exact (errorsIn_error _).mpr trivial
          · split
            · exact (errorsIn_error _).mpr trivial
            · split
              · exact (errorsIn_error _).mpr trivial
              · split
                · exact errorsIn_ok _
                · rename_i hn
                  exact (errorsIn_error _).mpr ⟨l.kd, l.at a, n, rfl, by simpa using hn, h⟩
        · exact (errorsIn_error _).mpr trivial
  | slice a =>
    dsimp only
    split
    · exact errorsIn_ok _
    · exact (errorsIn_error _).mpr trivial
  | _ => exact errorsIn_ok _

theorem errorsIn_locateAll (s : State) (c : Cmd) (rq : BitVec 3) (kinds : List Nat) (l : List (Side × Nat))
    (h : ∀ p ∈ l, p.1.Fits p.2) : ErrorsIn UnitErr.Allowed (s.locateAll c rq kinds l) :=
  errorsIn_foldE _ _ (fun p hp _ => errorsIn_map.mpr (errorsIn_locate s c _ _ _ _ (h p hp))) _

theorem errorsIn_doUnit (s : State) (n : Nat) (u : CopyUnit) (h : u.Fits) : ErrorsIn UnitErr.Allowed (s.doUnit n u) := by
  unfold State.doUnit
  refine .bind (errorsIn_locateAll _ _ _ _ _ h.1) fun src => .bind (errorsIn_locateAll _ _ _ _ _ h.2) fun dst => ?_
  refine errorsIn_ite.mpr ⟨fun _ => (errorsIn_error _).mpr trivial, fun _ => ?_⟩
  dsimp only
  split
  · exact (errorsIn_error _).mpr trivial
  · exact errorsIn_pure _

/-- Where the performance of units stops, it stops for a reason that a unit may have. -/
theorem State.doUnits_allowed (n : Nat) (l : List CopyUnit) : ∀ (s : State), (∀ u ∈ l, u.Fits) →
    ∀ q e, (State.doUnits n s l).2 = some (q, e) → e.Allowed := by
  induction l with
  | nil => exact fun s _ q e he => by cases he
  | cons u r ih =>
    intro s h q e he
    have hu := errorsIn_doUnit s n u (h u List.mem_cons_self)
    unfold State.doUnits at he
    split at he
    · exact ih _ (fun v hv => h v (List.mem_cons_of_mem u hv)) q e he
    · cases he; trivial
    · rename_i e' _ he'
      cases he
      exact hu _ he'

theorem State.runCmd_allowed (s : State) (n : Nat) (q : Nat) (e : UnitErr) (h : (s.runCmd n).2 = some (q, e)) : e.Allowed := by
  unfold State.runCmd at h
  dsimp only at h
  split at h
  · cases h
  · have hfit (p : CopyUnit → Bool) : ∀ u ∈ (s.unitsOf (tget s.cmds n)).1.filter p, u.Fits :=
      fun u hu => s.unitsOf_fits _ u (List.mem_of_mem_filter hu)
    refine State.doUnits_allowed n _ s (hfit fun u => (tget s.cmds n).prog ≤ u.ext) q e ?_
    split at h <;> exact h

theorem errorsIn_streamBytes (s : State) (c : Cmd) (va n : Nat) : ErrorsIn UnitErr.Allowed (s.streamBytes c va n) :=
  errorsIn_foldE _ _ (fun p hp _ => .bind (errorsIn_locate s c _ _ _ _ (Side.cut_fits _ _ p hp)) fun _ => errorsIn_pure _) _

theorem errorsIn_slabOperands (s : State) (c : Cmd) (r : Nat) : ErrorsIn UnitErr.Allowed (s.slabOperands c r) := by
  have hstrip (b : Prop) [Decidable b] (l : List Byte) (va n : Nat) :
      ErrorsIn UnitErr.Allowed (if b then .ok l else s.streamBytes c va n) :=
    errorsIn_ite.mpr ⟨fun _ => errorsIn_ok _, fun _ => errorsIn_streamBytes s c _ _⟩
  unfold State.slabOperands
  refine .bind (errorsIn_foldE _ _ (fun i _ _ => ?_) _) fun a => .bind (errorsIn_foldE _ _ (fun j _ _ => ?_) _) fun b => errorsIn_pure _
  all_goals exact .bind (hstrip _ _ _ _) fun _ => .bind (errorsIn_streamBytes s c _ _) fun _ => errorsIn_pure _

theorem errorsIn_pollWord (s : State) (c : Cmd) : ErrorsIn UnitErr.Allowed (s.pollWord c) :=
  .bind (errorsIn_locate s c _ _ _ _ (Side.fits_of_le _ (by decide))) fun _ => errorsIn_pure _

end Sys2Proof.Machine
end

section
/-! O60: the answer of every instruction, family by family. -/

namespace Sys2Proof.Machine

/-- The answer is a next state, or the fault of an access of at most a page. -/
def Answers (o : Host.Outcome State Fault Refusal) : Prop := (∃ t, o = .next t) ∨ ∃ f, o = .fault f ∧ PageHole f

@[simp] theorem answers_next (t : State) : Answers (.next t) := .inl ⟨t, rfl⟩

@[simp] theorem answers_fault (f : Fault) : Answers (.fault f) ↔ PageHole f :=
  ⟨fun h => by obtain ⟨_, h⟩ | ⟨_, h, hf⟩ := h <;> cases h; exact hf, fun h => .inr ⟨f, rfl, h⟩⟩

/-- What a meaning answers by its errors. -/
@[simp] theorem answers_finish (s : State) (r : Res State) (h : ErrorsIn Stop.Allowed r) : Answers (finish s r) := by
  obtain ⟨t, ht⟩ | ⟨f, hf⟩ := finish_not_refused s r
  · exact .inl ⟨t, ht⟩
  · rw [hf, answers_fault]
    cases r with
    | ok a => simp at hf
    | error e =>
      cases e with
      | fault g => cases hf; exact h _ rfl
      | wait => simp at hf
      | trap t => simp [finish] at hf

@[simp] theorem answers_ite {c : Prop} [Decidable c] {x y : Host.Outcome State Fault Refusal} :
    Answers (if c then x else y) ↔ (c → Answers x) ∧ (¬ c → Answers y) := by split <;> simp [*]

/-! Loads, stores and atomics (R191 to R197). -/

theorem answers_loadH (sg : Bool) (n : Nat) (o : FmtLH) (s : State) (h : n ≤ 4096) : Answers (loadH sg n o s) := by
  simp [loadH, h]
theorem answers_storeH (n : Nat) (o : FmtLH) (s : State) (h : n ≤ 4096) : Answers (storeH n o s) := by simp [storeH, h]
theorem answers_loadS (sg : Bool) (n : Nat) (o : FmtLS) (s : State) : Answers (loadS sg n o s) := by simp [loadS]
theorem answers_storeS (n : Nat) (o : FmtLS) (s : State) : Answers (storeS n o s) := by simp [storeS]
theorem answers_loadP (n : Nat) (o : FmtLP) (s : State) : Answers (loadP n o s) := by simp [loadP]

theorem answers_atomic (op : Nat) (o : FmtLA) (s : State) : Answers (atomic op o s) := by
  have hn : (if o.sz = 1 then 8 else 4) ≤ 4096 := by split <;> decide
  refine answers_finish _ _ (errorsIn_ite.mpr ⟨fun _ => ?_, fun _ => ?_⟩)
  · simp [atomicS]
  · exact .bind (errorsIn_hPlace _ _ _ _ _ _ hn) fun _ => errorsIn_atomicIssue _ _ _

/-! Vector instructions (R203 to R223). -/

theorem answers_transfer (o : FmtXF) (sc : List Elem → Option Word) (ln : List Elem → Option (List Elem)) (s : State) :
    Answers (transfer o sc ln s) := by
  refine answers_finish _ _ (.bind (errorsIn_needPlane _ _) fun _ => ?_)
  dsimp only
  split <;> exact errorsIn_pure _

theorem answers_vec3 (un pd : Bool) (lat w : Nat) (l : List (BitVec 4)) (tag : Strand → V3Lines → BitVec 4)
    (f : Nat → Nat → Nat → FRes) (o : FmtV3) (s : State) : Answers (vec3 un pd lat w l tag f o s) := by simp [vec3]

theorem answers_vecF (un pd : Bool) (f : Fmt → BitVec 3 → FVal → FVal → FVal → FRes) (o : FmtV3) (s : State) :
    Answers (vecF un pd f o s) := by
  unfold vecF
  exact answers_vec3 ..

theorem answers_vecCmp (p inv : FVal → FVal → Bool) (o : FmtV3) (s : State) : Answers (vecCmp p inv o s) := by
  unfold vecCmp
  exact answers_vec3 ..

theorem answers_vecI (un uns mask : Bool) (f : Nat → Int → Int → Int) (o : FmtV3) (s : State) :
    Answers (vecI un uns mask f o s) := by
  unfold vecI
  exact answers_vec3 ..

theorem answers_vecB (un : Bool) (f : BitVec 32 → BitVec 32 → BitVec 32 → BitVec 32) (o : FmtV3) (s : State) :
    Answers (vecB un f o s) := by
  unfold vecB
  exact answers_vec3 ..

theorem answers_vecR (o : FmtVU) (s : State) (f : List Nat → List Elem → List Elem × BitVec 4 × BitVec 5) :
    Answers (vecR o s f) := by simp [vecR]

theorem answers_vecExtreme (mx : Bool) (o : FmtVU) (s : State) : Answers (vecExtreme mx o s) := answers_vecR ..

theorem answers_vcvt (t : BitVec 4) (o : FmtVU) (s : State) : Answers (vcvt t o s) := by simp [vcvt]

/-! Scratchpad, tile and handle accesses of slot G (R224 to R230). -/

theorem answers_gsLoad (ixd : Bool) (o : FmtGS) (s : State) : Answers (gsLoad ixd o s) := by simp [gsLoad]
theorem answers_gsStore (ixd : Bool) (o : FmtGS) (s : State) : Answers (gsStore ixd o s) := by simp [gsStore]
theorem answers_ghLoad (ixd hi : Bool) (o : FmtGH) (s : State) : Answers (ghLoad ixd hi o s) := by simp [ghLoad]
theorem answers_ghStore (ixd hi : Bool) (o : FmtGH) (s : State) : Answers (ghStore ixd hi o s) := by simp [ghStore]
theorem answers_tileLoad (kind : BitVec 2) (mem : Strand → Cells 8) (size row : Nat) (o : FmtGA) (s : State) :
    Answers (tileLoad kind mem size row o s) := by simp [tileLoad]

/-! Branches and micro-steps (R185 to R189, R277). -/

theorem answers_branchBC (p : Word → Word → Bool) (o : FmtBC) (s : State) : Answers (branchBC p o s) := by simp [branchBC]
theorem answers_branchBK (p : Word → Word → Bool) (o : FmtBK) (s : State) : Answers (branchBK p o s) := by simp [branchBK]
theorem answers_branchLink (o : FmtBL) (t : Word) (s : State) : Answers (branchLink o t s) := by simp [branchLink]

theorem answers_microStep (q : Nat) (m : MicroFields) (s : State) : Answers (microStep q m s) := by
  unfold microStep
  repeat' first | exact answers_next _ | split

/-! Instructions whose meaning branches on what it finds. -/

theorem answers_execSfplan (o : FmtEA) (s : State) : Answers (execSfplan o s) := by
  refine answers_finish _ _ (.bind (errorsIn_need _ _ _) fun _ => .bind (errorsIn_vPlaces _ _ _ _ _) fun _ =>
    .bind (errorsIn_needReady _) fun _ => ?_)
  refine errorsIn_ite.mpr ⟨fun _ => errorsIn_pure _, fun _ => errorsIn_ite.mpr ⟨fun _ => ?_, fun _ => ?_⟩⟩
  · exact errorsIn_ite.mpr ⟨fun _ => errorsIn_pure _, fun _ => errorsIn_pure _⟩
  · refine .bind (errorsIn_vPlaces _ _ _ _ _) fun _ => .bind (errorsIn_needReady _) fun _ => ?_
    dsimp only
    split <;> exact errorsIn_pure _

theorem answers_execAcq (o : FmtEA) (s : State) : Answers (execAcq o s) := by
  refine answers_finish _ _ (.bind (errorsIn_bindingOf _ _) fun _ => .bind (errorsIn_need _ _ _) fun _ => ?_)
  dsimp only
  split <;> exact errorsIn_pure _

theorem answers_execFfill (o : FmtEA) (s : State) : Answers (execFfill o s) := by
  refine answers_finish _ _ (.bind (errorsIn_cellOf _ _ _) fun _ => .bind (errorsIn_need _ _ _) fun _ =>
    .bind (errorsIn_needReady _) fun _ => ?_)
  dsimp only
  split <;> exact errorsIn_pure _

theorem answers_execPrd (o : FmtEA) (s : State) : Answers (execPrd o s) := by
  refine answers_finish _ _ (.bind (errorsIn_pipeOf _ _) fun p => ?_)
  obtain ⟨n, _ | ⟨v, r⟩⟩ := p
  · exact errorsIn_waitE
  · exact errorsIn_pure _

theorem answers_execLaunch (o : FmtEA) (s : State) : Answers (execLaunch o s) := by
  simp [execLaunch, errorsIn_launch]

theorem answers_execRett (o : FmtEA) (s : State) : Answers (execRett o s) := by
  refine answers_finish _ _ (.bind (errorsIn_need _ _ _) fun _ => ?_)
  split <;> simp [rettFails]

theorem answers_execCsload (o : FmtEA) (s : State) : Answers (execCsload o s) := by
  refine answers_finish _ _ (.bind (errorsIn_need _ _ _) fun _ => .bind (errorsIn_need _ _ _) fun _ =>
    .bind (errorsIn_vPlaces _ _ _ _ _) fun _ => ?_)
  split
  · exact errorsIn_pure _
  · split <;> exact errorsIn_pure _

theorem answers_execCsinv (o : FmtEA) (s : State) : Answers (execCsinv o s) := by
  refine answers_finish _ _ ?_
  dsimp only
  split <;> simp

theorem answers_execNextblk (o : FmtEA) (s : State) : Answers (execNextblk o s) := by
  refine answers_finish _ _ (.bind (errorsIn_need _ _ _) fun _ => .bind (errorsIn_needReady _) fun _ => ?_)
  refine errorsIn_ite.mpr ⟨fun _ => errorsIn_pure _, fun _ => .bind (errorsIn_nextBlock _ _ _ _ _ _) fun p => ?_⟩
  obtain ⟨cursor, _ | ⟨b, m, x⟩⟩ := p
  · exact errorsIn_pure _
  · exact errorsIn_ite.mpr ⟨fun _ => errorsIn_collFault _ _, fun _ => errorsIn_pure _⟩

theorem answers_execHandov (o : FmtEA) (s : State) : Answers (execHandov o s) := by
  refine answers_finish _ _ (.bind (errorsIn_needTile _ _) fun _ => .bind (errorsIn_needKind _ _ _) fun _ =>
    .bind (errorsIn_needReady88 _ _) fun _ => .bind (errorsIn_needReady _) fun _ => .bind (errorsIn_liveBlock _ _) fun b =>
    .bind (errorsIn_need _ _ _) fun _ => ?_)
  dsimp only
  split
  · exact errorsIn_pure _
  · refine errorsIn_ite.mpr ⟨fun _ => errorsIn_collFault _ _, fun _ => ?_⟩
    split
    · exact errorsIn_pure _
    · refine .bind (errorsIn_needReady _) fun _ => errorsIn_ite.mpr ⟨fun _ => errorsIn_pure _, fun _ => ?_⟩
      exact errorsIn_ite.mpr ⟨fun _ => errorsIn_collFault _ _, fun _ => errorsIn_pure _⟩

theorem answers_execBindingWrite (part n : Nat) (act : BindAct) (s : State) : Answers (execBindingWrite part n act s) := by
  cases act <;> simp [execBindingWrite]

/-! The events that reach memory by an address: the units of commands, a poll, a write of the control complex. -/

theorem answers_execCopyCommandCompletion (n : Nat) (s : State) : Answers (execCopyCommandCompletion n s) := by
  unfold execCopyCommandCompletion
  split
  · exact answers_next _
  · refine answers_ite.mpr ⟨fun _ => answers_next _, fun _ => answers_ite.mpr ⟨fun _ => answers_next _, fun _ => ?_⟩⟩
    split
    case h_3 q f h => exact (answers_fault f).mpr (s.runCmd_allowed n q (.hole f) (by rw [h]))
    all_goals exact answers_next _

theorem answers_execTileCommandCompletion (n : Nat) (s : State) : Answers (execTileCommandCompletion n s) := by
  unfold execTileCommandCompletion
  split
  · exact answers_next _
  · dsimp only
    split
    case h_9 =>
      split
      case h_1 f h => exact (answers_fault f).mpr (errorsIn_slabOperands _ _ _ _ h)
      · exact answers_next _
    all_goals exact answers_next _

theorem answers_execSqwaitPoll (n : Nat) (s : State) : Answers (execSqwaitPoll n s) := by
  unfold execSqwaitPoll
  split
  · exact answers_next _
  · refine answers_ite.mpr ⟨fun _ => answers_next _, fun _ => ?_⟩
    dsimp only
    split
    case h_3 f h => exact (answers_fault f).mpr (errorsIn_pollWord _ _ _ h)
    all_goals simp

theorem answers_execRegisterWrite (t : RegTarget) (v : BitVec 64) (s : State) : Answers (execRegisterWrite t v s) := by
  unfold execRegisterWrite
  refine answers_ite.mpr ⟨fun _ => by simp, fun _ => answers_ite.mpr ⟨fun _ => answers_next _, fun _ => ?_⟩⟩
  cases t with
  | mem kind addr bytes =>
    refine answers_ite.mpr ⟨fun _ => answers_next _, fun hn => answers_ite.mpr ⟨fun _ => answers_next _, fun _ =>
      answers_ite.mpr ⟨fun _ => answers_next _, fun _ => answers_ite.mpr ⟨fun _ => answers_next _, fun hp => ?_⟩⟩⟩⟩
    have hbytes : bytes ≤ 8 := by
      simp only [Bool.or_eq_true, decide_eq_true_eq, not_or] at hn
      exact Nat.not_lt.mp hn.2
    exact (answers_fault _).mpr ⟨kind, addr, bytes, rfl, eq_false_of_ne_true hp, hbytes.trans (by decide)⟩
  | launch part queue =>
    dsimp only
    refine answers_ite.mpr ⟨fun _ => answers_next _, fun _ => ?_⟩
    split <;> exact answers_next _
  | _ => simp

end Sys2Proof.Machine
end

section
/-! O60: every instruction answers. -/

namespace Sys2Proof.Machine

/-- The answer of every native instruction (R151). -/
theorem exec_answers_of_native (i : Instr) (s : State) (hi : i.native = true) : Answers (exec i s) := by
  unfold exec
  cases i with
  | hrel | fence | endR | mfsr | mtsr | ifence | rdclk | rdid | setrm | rdff | clrff | brk | unbind | csfence | add | sub |
  andR | orR | xorR | andn | orn | xnor | sll | srl | sra | rol | ror | slt | sltu | seq | sne | min | max | minu | maxu | sel
  | mul | mulh | mulhu | divS | divu | remS | remu | addw | subw | mulw | clz | ctz | popc | brev | bswap | absR | extu | addi
  | andi | ori | xori | slli | srli | srai | slti | sltui | addpc | li | lih => exact answers_next _
  | ldB | ldBu | ldH | ldHu | ldW | ldWu | ldD => exact answers_loadH _ _ _ _ (by decide)
  | stB | stH | stW | stD => exact answers_storeH _ _ _ (by decide)
  | ldsB | ldsBu | ldsH | ldsHu | ldsW | ldsWu | ldsD => exact answers_loadS _ _ _ _
  | stsB | stsH | stsW | stsD => exact answers_storeS _ _ _
  | ldpW | ldpD => exact answers_loadP _ _ _
  | aadd | amin | amax | aminu | amaxu | aand | aor | axor | aswp | acas | afadd | abadd => exact answers_atomic _ _ _
  | xget | xgetd | xput | xputd | xbcst | xxch => exact answers_transfer _ _ _ _
  | vadd | vsub | vmul | vfma | vfms | vfnma | vdiv | vsqrt | vmin | vmax | vabs | vneg => exact answers_vecF _ _ _ _ _
  | vceq | vclt | vcle | vcun => exact answers_vecCmp _ _ _ _
  | viadd | visub | vimul | vimulh | vimin | vimax | viabs | vshl | vshr | viceq | viclt | vicle => exact answers_vecI _ _ _ _ _ _
  | vand | vor | vxor | vandn | vsel | vmov => exact answers_vecB _ _ _ _
  | vcvtF32 | vcvtBf16 | vcvtFp16 | vcvtE4m3 | vcvtE5m2 | vcvtE2m1 | vcvtI32 | vcvtI16 | vcvtI8 | vcvtI4 | vcvtN32 | vcvtN16 |
  vcvtN8 => exact answers_vcvt _ _ _
  | vrmin | vrmax => exact answers_vecExtreme _ _ _
  | vld | vgath => exact answers_gsLoad _ _ _
  | vst | vscat => exact answers_gsStore _ _ _
  | vlda | vldc => exact answers_tileLoad _ _ _ _ _ _
  | vldh | vgathh | vldhPm4 | vgathhPm4 => exact answers_ghLoad _ _ _ _
  | vsth | vscath | vsthPm4 | vscathPm4 => exact answers_ghStore _ _ _ _
  | beq | bne | blt | bge | bltu | bgeu => exact answers_branchBC _ _ _
  | beqi | bnei | blti | bgei => exact answers_branchBK _ _ _
  | jl | jlx => exact answers_branchLink _ _ _
  | vrsum | vrisum | vscan | viscan =>
    simp only [execVrsum, execVrisum, execVscan, execViscan]
    exact answers_vecR _ _ _
  | sfplan => exact answers_execSfplan _ _
  | acq => exact answers_execAcq _ _
  | ffill => exact answers_execFfill _ _
  | prd => exact answers_execPrd _ _
  | launch => exact answers_execLaunch _ _
  | rett => exact answers_execRett _ _
  | csload => exact answers_execCsload _ _
  | csinv => exact answers_execCsinv _ _
  | nextblk => exact answers_execNextblk _ _
  | handov => exact answers_execHandov _ _
  | vperm | vrot | vbcst => simp [execVperm, execVrot, execVbcst]
  | vcvtVq2 => simp [execVcvtVq2]
  | vsta => simp [execVsta]
  | talloc | tfree | tzero | tstat | twait | trowp | tcvt | tmov | txpose =>
    simp [execTalloc, execTfree, execTzero, execTstat, execTwait, execTrowp, execTcvt, execTmov, execTxpose]
  | mma | mmaX | mlatch | mmas | mmasX => simp [execMma, execMmaX, execMlatch, execMmas, execMmasX]
  | cpy | cpyf | cpym | cpyi | cpysTo | cpysFrom | cpyg | cpysc | tdrain | tdraink | sqstat | sqgo | sqwait | sqkill =>
    simp [execCpy, execCpyf, execCpym, execCpyi, execCpysTo, execCpysFrom, execCpyg, execCpysc, execTdrain, execTdraink,
    execSqstat, execSqgo, execSqwait, execSqkill]
  | sfpool => simp [execSfpool]
  | rel | bar | bara | barw | frd | pwr | wait => simp [execRel, execBar, execBara, execBarw, execFrd, execPwr, execWait]
  | bind => simp [execBind]
  | btR | bsw => simp [execBtR, execBsw]
  | impw | impwCommit | gclaim | gdone => simp [execImpw, execImpwCommit, execGclaim, execGdone]
  | vbop | ebop => simp [execVbop, execEbop]
  | xlate => simp [execXlate]
  | vnzs | vnzc => simp [execVnzs, execVnzc, nonzero]
  | cpyq => simp [execCpyq]
  | sfstat => simp [execSfstat]
  | yield =>
    simp only [execYield]
    repeat' first | exact answers_next _ | split
  | trap | pwsz => simp [execTrap, execPwsz]
  | bindq => simp [execBindq]
  | ext | ins => simp [execExt, execIns]
  | impr => simp [execImpr]
  | bdnz => exact answers_finish _ _ (errorsIn_map.mpr (errorsIn_branch _ _ _ _))
  | _ => cases hi

/-- The answer of every micro-op and of every event but a unit from another device. -/
theorem exec_answers_of_not_native (i : Instr) (s : State) (hi : i.native = false) (h : ∀ u, i ≠ .remoteWriteArrival u) :
    Answers (exec i s) := by
  unfold exec
  cases i with
  | handleWalkComplete | resultLanding | ldCompletion | stCompletion | arbiterServe | preemptionRequest | bandwidthWindow |
  recordConsumed | unload | invalidateMapping | dirtyLogArm | dirtyLogSlotFree | fabricWindowBoundary | fabricUnitLost |
  timeBaseRegained | landingRetrain | laneUnitLanding => exact answers_next _
  | microNext | jump | brt | brf | loop0 | loop1 | microCall | microRet | microEnd | microTrap | poll => exact answers_microStep _ _ _
  | tileCommandCompletion => exact answers_execTileCommandCompletion _ _
  | copyCommandCompletion => exact answers_execCopyCommandCompletion _ _
  | sqwaitPoll => exact answers_execSqwaitPoll _ _
  | registerWrite => exact answers_execRegisterWrite _ _ _
  | matrixOperationStart | streamFault =>
    simp only [execMatrixOperationStart, execStreamFault]
    repeat' first | exact answers_next _ | split
  | engineTranslationFault =>
    simp only [execEngineTranslationFault]
    repeat' first | exact answers_next _ | split
  | poolingCompletion | hotSegmentLoad | commandStart =>
    simp only [execPoolingCompletion, execHotSegmentLoad, execCommandStart]
    repeat' first | exact answers_next _ | split
  | strandRetirement | batchCompletion => simp [execStrandRetirement, execBatchCompletion]
  | controlStorePageLoaded =>
    simp only [execControlStorePageLoaded]
    repeat' first | exact answers_next _ | split
  | instructionHalfFill | schedulerPlacement | candidateOverdue | priorityPreemption | graceTimeExpiry | killTimeExpiry =>
    simp only [execInstructionHalfFill, execSchedulerPlacement, execCandidateOverdue, execPriorityPreemption,
    execGraceTimeExpiry, execKillTimeExpiry]
    repeat' first | exact answers_next _ | split
  | startGateOpen | schedulingTableWrite | tokenRefill => simp [execStartGateOpen, execSchedulingTableWrite, execTokenRefill]
  | capabilityTableRewrite => simp [execCapabilityTableRewrite]
  | replayableRecordPost | resume | vector | kill | invalidationRetired | splinter | stopFinalPoint =>
    simp only [execReplayableRecordPost, execResume, execVector, execKill, execInvalidationRetired, execSplinter,
    execStopFinalPoint]
    repeat' first | exact answers_next _ | split
  | regionAttributeWrite | partitionCreate | partitionGrow | partitionShrink | tenantStop | partitionDestroy | sliceZeroed |
  routeEntryWrite | timerSet =>
    simp [execRegionAttributeWrite, execPartitionCreate, execPartitionGrow, execPartitionShrink, execTenantStop,
    execPartitionDestroy, execSliceZeroed, execRouteEntryWrite, execTimerSet]
  | fabricAcknowledgement =>
    simp only [execFabricAcknowledgement]
    repeat' first | exact answers_next _ | split
  | windowLengthSet | timeBaseLoss | landingFailed => simp [execWindowLengthSet, execTimeBaseLoss, execLandingFailed]
  | collectiveReceive | collectiveStoreWrite => simp [execCollectiveReceive, execCollectiveStoreWrite]
  | ceilingStepDown | ceilingStepUp | thermalThrottle | operatingPointChange | voltageSettled =>
    simp only [execCeilingStepDown, execCeilingStepUp, execThermalThrottle, execOperatingPointChange, execVoltageSettled]
    repeat' first | exact answers_next _ | split
  | thermalStop | packagePowerRestore | powerOff | powerOn =>
    simp [execThermalStop, execPackagePowerRestore, execPowerOff, execPowerOn]
  | bindingWrite => exact answers_execBindingWrite _ _ _ _
  | remoteWriteArrival u => exact absurd rfl (h u)
  | _ => cases hi

/-- R14: what an access that leaves memory reaches. -/
theorem of_paExists_false {kind pa n : Nat} (h : paExists kind pa n = false) :
    kind = 0 ∧ 2 ^ 39 < pa + n ∨ kind = 1 ∧ 2 ^ 32 < pa + n ∨ kind = 2 ∧ 2 ^ 42 < pa + n ∨ 3 ≤ kind := by
  match kind with
  | 0 | 1 | 2 => simp [paExists, kindBytes] at h ⊢; exact h
  | k + 3 => omega

/-- A unit from another device (R148): it is performed, dropped, or leaves memory with all its bytes. -/
theorem exec_remoteWriteArrival_answers (u : RemoteUnit) (s : State) : (∃ t, exec (.remoteWriteArrival u) s = .next t) ∨
    exec (.remoteWriteArrival u) s = .fault (.addressHole (memKey u.kind u.addr)) ∧ paExists u.kind u.addr u.data.length = false := by
  simp only [exec_remoteWriteArrival, execRemoteWriteArrival]
  split
  · exact .inl ⟨_, rfl⟩
  · split
    · exact .inr ⟨rfl, by simp_all⟩
    · exact .inl ⟨_, rfl⟩

/-- Settles O60: family by family, what a meaning answers is a next state, or the fault of the one check against R14. -/
theorem nothingRefused : Obligations.NothingRefused := by
  unfold Obligations.NothingRefused
  intro i s
  by_cases h : ∃ u, i = .remoteWriteArrival u
  · obtain ⟨u, rfl⟩ := h
    obtain ht | ⟨hf, hp⟩ := exec_remoteWriteArrival_answers u s
    · exact .inl ht
    · exact .inr ⟨u.kind, u.addr, u.data.length, hf, of_paExists_false hp, .inr ⟨u, rfl, rfl⟩⟩
  · obtain ht | ⟨f, hf, kind, pa, n, rfl, hp, hn⟩ := (show Answers (exec i s) from by
      cases hi : i.native with
      | true => exact exec_answers_of_native i s hi
      | false => exact exec_answers_of_not_native i s hi (not_exists.mp h))
    · exact .inl ht
    · exact .inr ⟨kind, pa, n, hf, of_paExists_false hp, .inl hn⟩

end Sys2Proof.Machine
end

section
/-! O29: what writing a cluster's cache back leaves (R93), and the commands that start once it is done. -/

namespace Sys2Proof.Machine

open Sys2Proof.Claims

/-! The write-back of a line and of a cache (R93). -/

/-- The dirty bytes of a line reach memory, and no other byte of memory changes. -/
theorem cget_upTo_dirty (d : BitVec 64) (b : Cells 8) (a k : Nat) (m : Cells 8) (n : Nat) :
    cget (upTo n (fun i m => if bitAt d i then cset m (a + i) (cget b i) else m) m) k =
      if a ≤ k ∧ k < a + n ∧ bitAt d (k - a) then cget b (k - a) else cget m k := by
  unfold upTo
  induction n with
  | zero => rw [if_neg (by omega)]; rfl
  | succ n ih =>
    rw [List.range_succ, List.foldl_append, List.foldl_cons, List.foldl_nil]
    by_cases hk : k = a + n
    · subst hk
      have hi : a + n - a = n := by omega
      have hlast : ¬ a + n < a + n := by omega
      cases hd : bitAt d n <;> simp [hd, hi, ih]
    · have hiff : k < a + (n + 1) ↔ k < a + n := by omega
      simp only [hiff, ← ih]
      split
      · rw [cget_cset, if_neg hk]
      · rfl

theorem State.writeBack_line (s : State) (c ln j : Nat) : tfind (tget (s.writeBack c ln).clusters c).lines j =
    (tfind (tget s.clusters c).lines j).map (fun l => if j = ln then { l with dirty := 0 } else l) := by
  unfold State.writeBack
  cases h : tfind (tget s.clusters c).lines ln with
  | none =>
    by_cases hj : j = ln
    · subst hj; simp [h]
    · simp [hj]
  | some l =>
    by_cases hj : j = ln
    · subst hj; simp [State.onCluster, h]
    · simp [State.onCluster, hj]

theorem State.writeBack_mem (s : State) (c ln k : Nat) : cget (s.writeBack c ln).mem k =
    if k / 64 = ln then homeByte s c k else cget s.mem k := by
  unfold State.writeBack homeByte
  cases h : tfind (tget s.clusters c).lines ln with
  | none => split <;> simp_all
  | some l =>
    simp only [State.onCluster, cget_upTo_dirty]
    by_cases hk : k / 64 = ln
    · have hr : k - 64 * ln = k % 64 := by omega
      have h1 : 64 * ln ≤ k := by omega
      have h2 : k < 64 * ln + 64 := by omega
      simp [hk, h, hr, h1, h2]
    · rw [if_neg (by omega), if_neg hk]

/-- What the home of a byte will hold is not changed by a write-back. -/
theorem State.writeBack_homeByte (s : State) (c ln pa : Nat) : homeByte (s.writeBack c ln) c pa = homeByte s c pa := by
  have hmem := s.writeBack_mem c ln pa
  by_cases h : pa / 64 = ln
  · rw [if_pos h] at hmem
    rw [homeByte, s.writeBack_line, hmem]
    cases hl : tfind (tget s.clusters c).lines (pa / 64) <;> simp [h, bitAt]
  · rw [if_neg h] at hmem
    rw [homeByte, s.writeBack_line, hmem, homeByte]
    cases hl : tfind (tget s.clusters c).lines (pa / 64) <;> simp [h]

/-- The cluster sees the bytes that it saw. -/
theorem State.writeBack_cacheByte (s : State) (c ln pa : Nat) : (s.writeBack c ln).cacheByte c pa = s.cacheByte c pa := by
  rw [State.cacheByte, s.writeBack_line, s.writeBack_mem, State.cacheByte]
  cases hl : tfind (tget s.clusters c).lines (pa / 64) with
  | none => simp [homeByte, hl]
  | some l => by_cases h : pa / 64 = ln <;> simp [h]

/-- Only memory and the clusters change. -/
theorem State.writeBack_eq (s : State) (c ln : Nat) : ∃ m k, s.writeBack c ln = { s with mem := m, clusters := k } := by
  unfold State.writeBack
  split
  · exact ⟨s.mem, s.clusters, rfl⟩
  · exact ⟨_, _, rfl⟩

/-- Write every line of a cluster's cache back and keep it. -/
def State.writeBackAll (s : State) (c : Nat) : State := s.flush c (fun _ => true) false

/-- After the write-back of a list of lines each of them is clean, and no byte differs as the cluster or as its home sees it. -/
theorem foldl_writeBack (c : Nat) (L : List Nat) : ∀ s : State,
    let t := L.foldl (fun s ln => s.writeBack c ln) s
    (∃ m k, t = { s with mem := m, clusters := k }) ∧ (∀ pa, t.cacheByte c pa = s.cacheByte c pa) ∧
    (∀ pa, homeByte t c pa = homeByte s c pa) ∧
    ∀ j, tfind (tget t.clusters c).lines j =
      (tfind (tget s.clusters c).lines j).map (fun l => if j ∈ L then { l with dirty := 0 } else l) := by
  induction L with
  | nil => exact fun s => ⟨⟨_, _, rfl⟩, fun _ => rfl, fun _ => rfl, fun j => by simp⟩
  | cons ln r ih =>
    intro s
    obtain ⟨⟨m, k, ht⟩, hc, hh, hl⟩ := ih (s.writeBack c ln)
    obtain ⟨m', k', hs⟩ := s.writeBack_eq c ln
    refine ⟨⟨m, k, by rw [List.foldl_cons, ht, hs]⟩, fun pa => (hc pa).trans (s.writeBack_cacheByte c ln pa),
      fun pa => (hh pa).trans (s.writeBack_homeByte c ln pa), fun j => ?_⟩
    rw [List.foldl_cons, hl, s.writeBack_line, Option.map_map]
    congr 1
    funext l
    by_cases h1 : j = ln <;> by_cases h2 : j ∈ r <;> simp [h1, h2]

theorem mem_keys_of_tfind {α : Type} {t : Table α} {j : Nat} {x : α} (h : tfind t j = some x) : j ∈ t.map (·.1) := by
  induction t with
  | nil => cases h
  | cons p r ih =>
    obtain ⟨a, y⟩ := p
    rw [tfind] at h
    split at h
    · simp_all
    · exact List.mem_cons_of_mem _ (ih h)

/-- R93: after the write-back memory holds every byte as its home is to hold it, and the cluster sees what it saw. -/
theorem State.writeBackAll_same (s : State) (c : Nat) :
    (∃ m k, s.writeBackAll c = { s with mem := m, clusters := k }) ∧
    (∀ pa, (s.writeBackAll c).cacheByte c pa = s.cacheByte c pa) ∧
    ∀ pa, cget (s.writeBackAll c).mem pa = homeByte s c pa := by
  obtain ⟨heq, hcache, hhome, hline⟩ := foldl_writeBack c (((tget s.clusters c).lines.map (·.1)).filter (fun _ => true)) s
  refine ⟨heq, hcache, fun pa => ?_⟩
  rw [← hhome pa, homeByte, hline]
  cases h : tfind (tget s.clusters c).lines (pa / 64) with
  | none => rfl
  | some l =>
    have hj : pa / 64 ∈ ((tget s.clusters c).lines.map (·.1)).filter (fun _ => true) :=
      List.mem_filter.mpr ⟨mem_keys_of_tfind h, rfl⟩
    rw [Option.map_some, if_pos hj]
    exact (if_neg (by simp [bitAt])).symm

/-- Memory beyond HBM is written by no cache. -/
theorem homeByte_of_le {s : State} {c k : Nat} (h : ∀ x ∈ (tget s.clusters c).lines, x.1 < 2 ^ 33) (hk : 2 ^ 39 ≤ k) :
    homeByte s c k = cget s.mem k := by
  rw [homeByte]
  cases hl : tfind (tget s.clusters c).lines (k / 64) with
  | none => rfl
  | some l =>
    obtain ⟨x, hx, hxk⟩ := List.mem_map.mp (mem_keys_of_tfind hl)
    have := h x hx
    omega

end Sys2Proof.Machine
end

section
/-! O29: the commands and the pooling commands that start (R235, R350, R356). -/

namespace Sys2Proof.Machine

open Sys2Proof.Claims

/-! The first command of a queue that has not started (R235). -/

/-- The command that a queue starts next: those before it have been passed over. -/
theorem find?_append_cons {α : Type} {p : α → Bool} {pre post : List α} {x : α} (h : ∀ y ∈ pre, p y = false) (hx : p x = true) :
    (pre ++ x :: post).find? p = some x := by
  rw [List.find?_append, List.find?_eq_none.mpr (fun y hy => by simp [h y hy]), Option.none_or, List.find?_cons_of_pos hx]

theorem tget_of_tfind {α : Type} [Inhabited α] {t : Table α} {n : Nat} {x : α} (h : tfind t n = some x) : tget t n = x := by
  rw [tget, h, Option.getD_some]

theorem isQueued_eq_mem (o : CmdOp) : o.isQueued = decide (o ∈ [.tdrain, .tdraink, .cpy, .cpym, .cpyi, .cpysTo, .cpysFrom, .cpyf,
    .cpyg, .cpysc, .sqgo, .sqwait, .sqkill]) := by cases o <;> rfl

theorem State.queueOf_eq (s : State) (e q : Nat) : s.queueOf e q = queueList s e q := by
  unfold State.queueOf queueList
  simp only [isQueued_eq_mem]

/-- A command is at its turn when those before it in its queue run. -/
theorem State.atTurn_of_split {s : State} {e q n : Nat} {c : Cmd} {pre post : List (Nat × Cmd)}
    (hq : queueList s e q = pre ++ (n, c) :: post) (hpre : ∀ x ∈ pre, x.2.state = .started) (hpost : ∀ x ∈ post, n ≤ x.1)
    (hc : tfind s.cmds n = some c) : s.atTurn n = true := by
  have hmem : (n, c) ∈ queueList s e q := hq ▸ List.mem_append_right pre List.mem_cons_self
  obtain ⟨rfl, rfl⟩ : c.engine = e ∧ c.queue = q := by
    have h := (List.mem_filter.mp hmem).2
    simp only [Bool.and_eq_true, decide_eq_true_eq] at h
    exact ⟨h.1.2, h.2⟩
  unfold State.atTurn
  simp only [tget_of_tfind hc, s.queueOf_eq, hq, List.all_append, List.all_cons, Bool.and_eq_true, List.all_eq_true,
    decide_eq_true_eq, Bool.or_eq_true]
  exact ⟨fun x hx => .inr (hpre x hx), .inl (Nat.le_refl n), fun x hx => .inl (hpost x hx)⟩

/-- Does a command write its cluster's cache back before its first read (R93, R143)? -/
def Cmd.writesBack (c : Cmd) : Prop := c.ord.getLsbD 4 = true ∧ 2 ≤ (c.ord.extractLsb' 0 3).toNat

theorem State.acquireFor_of_writesBack {s : State} {c : Cmd} (h : c.writesBack) : s.acquireFor c = s.writeBackAll (clusterOf c.core) := by
  unfold State.acquireFor
  rw [if_pos (by simpa [bitAt, Cmd.writesBack] using h)]
  rfl

theorem State.acquireFor_of_not {s : State} {c : Cmd} (h : ¬ c.writesBack) : s.acquireFor c = s := by
  unfold State.acquireFor
  rw [if_neg (by simpa [bitAt, Cmd.writesBack] using h)]

/-- What the start of an acquiring command leaves (R93, R143). -/
theorem State.acquireFor_same (s : State) (c : Cmd) :
    (s.acquireFor c).cmds = s.cmds ∧ (s.acquireFor c).strands = s.strands ∧
    ∀ pa, (s.acquireFor c).cacheByte (clusterOf c.core) pa = s.cacheByte (clusterOf c.core) pa := by
  by_cases h : c.writesBack
  · obtain ⟨⟨m, k, heq⟩, hcache, _⟩ := s.writeBackAll_same (clusterOf c.core)
    rw [State.acquireFor_of_writesBack h]
    exact ⟨by rw [heq], by rw [heq], hcache⟩
  · rw [State.acquireFor_of_not h]
    exact ⟨rfl, rfl, fun _ => rfl⟩

/-- Memory past HBM is not the caches'. -/
theorem State.acquireFor_mem_of_le (s : State) (c : Cmd) (h : ∀ x ∈ (tget s.clusters (clusterOf c.core)).lines, x.1 < 2 ^ 33) (k : Nat)
    (hk : 2 ^ 39 ≤ k) : cget (s.acquireFor c).mem k = cget s.mem k := by
  by_cases hw : c.writesBack
  · rw [State.acquireFor_of_writesBack hw, (s.writeBackAll_same _).2.2, homeByte_of_le h hk]
  · rw [State.acquireFor_of_not hw]

/-- The command that a change names, and no other, is changed. -/
theorem State.tfind_onCmd (s : State) (n m : Nat) (f : Cmd → Cmd) :
    tfind (s.onCmd n f).cmds m = if m = n then (tfind s.cmds n).map f else tfind s.cmds m := tfind_tmod _ _ _ _

/-- COMMAND_START of the command that is next in its queue (R235). -/
theorem exec_commandStart_next {s : State} {e q n : Nat} {c : Cmd} {pre post : List (Nat × Cmd)} (he : e < 32)
    (hq : queueList s e q = pre ++ (n, c) :: post) (hpre : ∀ x ∈ pre, x.2.state = .started) (hpost : ∀ x ∈ post, n ≤ x.1)
    (hc : tfind s.cmds n = some c) (hst : c.state = .queued) (hwait : c.op ≠ .sqwait) (hkill : c.op ≠ .sqkill)
    (htile : s.tileFree n = true) (hhalf : s.halfBusy c = false) (hacq : s.acquired n c = true) :
    exec (.commandStart e q) s = .next ((s.acquireFor c).onCmd n (fun c => { c with state := .started })) := by
  have hfind : (s.queueOf e q).find? (fun x => x.2.state = .queued) = some (n, c) := by
    rw [s.queueOf_eq, hq]
    exact find?_append_cons (fun x hx => by simp [hpre x hx]) (by simp [hst])
  simp only [exec_commandStart, execCommandStart, if_neg (Nat.not_le.mpr he), hfind]
  simp [hwait, hkill, htile, hhalf, hacq, State.atTurn_of_split hq hpre hpost hc]

/-- R93, R143, R235: the start of the first command of a queue that has not started. -/
theorem startedCommands : StartedCommands := by
  intro s e q n c pre post he hq hpre hpost hc hst hwait hkill htile hhalf hacq hlines
  obtain ⟨hcmds, hstrands, hcache⟩ := s.acquireFor_same c
  refine ⟨_, exec_commandStart_next he hq hpre hpost hc hst hwait hkill htile hhalf hacq, ?_, fun m hm => ?_, hstrands, hcache, ?_⟩
  · rw [State.tfind_onCmd, if_pos rfl, hcmds, hc, Option.map_some]
  · rw [State.tfind_onCmd, if_neg hm, hcmds]
  · split
    case isTrue hw =>
      refine ⟨fun pa _ => ?_, fun k hk => s.acquireFor_mem_of_le c hlines k hk⟩
      rw [State.acquireFor_of_writesBack hw]
      exact (s.writeBackAll_same _).2.2 pa
    case isFalse hw =>
      rw [State.acquireFor_of_not hw]
      rfl

/-- R21, R350, R356: the start of a partition's first pooling command that has not started. -/
theorem poolingStarts : PoolingStarts := by
  intro s part n c pre post hq hpre hc hst
  have hfind : (s.poolQueue part).find? (fun x => x.2.state = .queued) = some (n, c) := by
    rw [State.poolQueue, hq]
    exact find?_append_cons (fun x hx => by simp [hpre x hx]) (by simp [hst])
  have hexec : exec (.commandStart (32 + part) 0) s = .next (s.startPool part) := by
    simp [execCommandStart]
  refine ⟨fun hover => ?_, fun hunder hplans htile hacq hlines => ?_⟩
  · have hp : s.over Device.tierLog 400 = true := by simpa [State.over] using hover
    rw [hexec, State.startPool]
    simp [hfind, hp]
  · have hp : s.over Device.tierLog 400 = false := by simpa [State.over] using hunder
    have hload : (tget s.parts part).plans.any (fun p => p.1 < n && !p.2.loaded) = false := by
      simp only [List.any_eq_false, Bool.and_eq_true, decide_eq_true_eq, Bool.not_eq_true', not_and, Bool.not_eq_false]
      exact hplans
    have hstart : s.startPool part = (s.acquireFor c).onCmd n (fun c => { c with state := .started }) := by
      rw [State.startPool]
      simp only [hfind, hload, htile, hacq, hp]
      rfl
    obtain ⟨hcmds, hstrands, _⟩ := s.acquireFor_same c
    refine ⟨_, hexec, ?_, fun m hm => ?_, ?_, fun k hk => ?_⟩
    · rw [hstart, State.tfind_onCmd, if_pos rfl, hcmds, hc, Option.map_some]
    · rw [hstart, State.tfind_onCmd, if_neg hm, hcmds]
    · rw [hstart]; exact hstrands
    · rw [hstart]; exact s.acquireFor_mem_of_le c hlines k hk

end Sys2Proof.Machine
end

section
/-! O29: the matrix operations that start (R240 to R242). -/

namespace Sys2Proof.Machine

open Sys2Proof.Claims

/-! The start of a matrix operation (R241, R242). -/

theorem isMatrix_iff (o : CmdOp) : o.isMatrix = true ↔ o = .mma ∨ o = .mmas := by simp [CmdOp.isMatrix]

/-- R241: an operation whose tile is its own and whose fill is over has its operands. -/
theorem State.operandsReady_of_tileFree {s : State} {n : Nat} {c : Cmd} (hc : tfind s.cmds n = some c) (hop : c.op.isMatrix = true)
    (hst : c.state = .queued) (htile : s.tileFree n = true) (hafter : ∀ f, c.after = some f → tfind s.cmds f = none) :
    s.operandsReady n = true := by
  have htalloc : c.op ≠ .talloc := by rintro h; rw [h] at hop; cases hop
  have hfill : c.after.all (fun f => (tfind s.cmds f).isNone) = true := by
    cases h : c.after with
    | none => rfl
    | some f => simp [hafter f h]
  unfold State.operandsReady
  simp only [tget_of_tfind hc, hop, hst, hfill]
  unfold State.tileFree State.behindOnTile State.readEarlier at htile
  simp only [tget_of_tfind hc] at htile
  cases htd : c.td with
  | none => rfl
  | some th =>
    simp only [htd, htalloc, Bool.true_and, Bool.or_eq_true, Bool.and_eq_true, decide_false, Bool.not_eq_true', List.any_eq_false,
      Option.isNone_some, Option.isSome_some, Bool.false_eq_true, false_or, true_and, decide_eq_true_eq] at htile ⊢
    obtain ⟨⟨hact, hbehind⟩, hread⟩ := htile
    refine ⟨⟨hact, fun x hx => ?_⟩, trivial⟩
    have h1 := hbehind x hx
    have h2 := hread x hx
    tauto

/-- R241: an operation that is the oldest of its context to start, with its operands and its tile, may be next. -/
theorem State.matrixReady_of {s : State} {n : Nat} {c : Cmd} (hc : tfind s.cmds n = some c) (hready : s.operandsReady n = true)
    (htile : s.tileFree n = true)
    (hold : ∀ x ∈ s.cmds, x.1 < n → x.2.strand = c.strand → (x.2.op = .mma ∨ x.2.op = .mmas) → x.2.state ≠ .queued) :
    s.matrixReady n = true := by
  unfold State.matrixReady
  simp only [tget_of_tfind hc, hready, htile, Bool.and_eq_true, Bool.not_eq_true', List.any_eq_false, decide_eq_true_eq, isMatrix_iff]
  exact ⟨⟨trivial, trivial⟩, fun x hx ⟨⟨⟨h1, h2⟩, h3⟩, h4⟩ => hold x hx h1 h2 h3 h4⟩

/-- R241: an operation that may be next starts when the array is free and no other context's operation became ready before. -/
theorem State.start_guard {s : State} {n : Nat} {c : Cmd} (hc : tfind s.cmds n = some c) (hready : s.matrixReady n = true)
    (hbusy : ∀ x ∈ s.cmds, x.2.core = c.core → (x.2.op = .mma ∨ x.2.op = .mmas) → x.2.state ≠ .started)
    (hfirst : ∀ x ∈ s.cmds, x.1 ≠ n → x.2.core = c.core → s.matrixReady x.1 = true →
      c.readyAt.getD s.now < x.2.readyAt.getD s.now ∨ (c.readyAt.getD s.now = x.2.readyAt.getD s.now ∧ n < x.1)) :
    (!s.matrixReady n || s.readyBefore n ||
      s.cmds.any (fun e => e.2.core = c.core && e.2.op.isMatrix && e.2.state = .started)) = false := by
  have hbefore : s.readyBefore n = false := by
    unfold State.readyBefore
    simp only [tget_of_tfind hc, List.any_eq_false, Bool.and_eq_true, Bool.or_eq_true, decide_eq_true_eq]
    rintro x hx ⟨⟨⟨h1, h2⟩, h3⟩, h4⟩
    have := hfirst x hx h1 h2 h3
    omega
  have hfree : s.cmds.any (fun e => e.2.core = c.core && e.2.op.isMatrix && e.2.state = .started) = false := by
    simp only [List.any_eq_false, Bool.and_eq_true, decide_eq_true_eq, isMatrix_iff]
    exact fun x hx ⟨⟨h1, h2⟩, h3⟩ => hbusy x hx h1 h2 h3
  simp only [hready, hbefore, hfree, Bool.not_true, Bool.or_false]

/-- A latch is loaded with the tile as it stands (R242). -/
theorem cget_freshLatch (t : Strand) (e : Tile) (i : Nat) (h : i < 16384) :
    cget (cwrite ([] : Cells 8) 0 (t.tileBytes e 0 wTileBytes)) i = cget (t.bufMem e.tk) (e.base + i) := by
  rw [cget_cwrite, Strand.tileBytes, cread_length, if_pos ⟨Nat.zero_le i, by simpa [wTileBytes] using h⟩]
  simp [List.getD, cread_getElem? _ _ _ _ (show i < wTileBytes from h)]

/-- The latch from which stationary operation `c` takes B: its own where that holds TB as it stands, or one loaded afresh (R242). -/
def State.startLatch (s : State) (c : Cmd) : StatLatch :=
  let t := tget s.strands c.strand
  let e := t.tile (c.tb.getD 0)
  let l := tget (tget s.cores c.core).latches (c.imm.toNat % 4)
  let wc := tget (tget s.cores c.core).wcount (32 * t.ctx + e.bi.toNat)
  if l.ctx = some c.strand && l.th = c.tb.getD 0 && l.bi = e.bi && l.wc = wc then l
  else { bytes := cwrite [] 0 (t.tileBytes e 0 wTileBytes), ctx := some c.strand, th := c.tb.getD 0, bi := e.bi, wc := wc }

/-- Command `n` is started. -/
def State.started (s : State) (n : Nat) : State := s.onCmd n (fun c => { c with state := .started })

/-- R242: a stationary operation starts with the B of its latch; a read of TB may post records. -/
theorem exec_matrixOperationStart_stationary {s : State} {n : Nat} {c : Cmd} (hc : tfind s.cmds n = some c)
    (hguard : (!s.matrixReady n || s.readyBefore n ||
      s.cmds.any (fun e => e.2.core = c.core && e.2.op.isMatrix && e.2.state = .started)) = false)
    (hop : c.op = .mma) (hstat : c.fmt.getLsbD 4 = true) :
    ∃ x, (s.started n).SameButLanes x ∧ exec (.matrixOperationStart n) s =
      .next ((x.onCore c.core (fun k => { k with latches := tset k.latches (c.imm.toNat % 4) (s.startLatch c) })).onCmd n
        (fun d => { d with held := (s.startLatch c).bytes })) := by
  have hlatch : (decide (c.op = .mma) && bitAt c.fmt 4) = true := by simp only [hop, bitAt, hstat, decide_true, Bool.and_self]
  let t := tget s.strands c.strand
  refine ⟨if s.startLatch c = tget (tget s.cores c.core).latches (c.imm.toNat % 4) then s.started n
    else (s.started n).noteErrors c.strand [t.tileRun (t.tile (c.tb.getD 0))], ?_, ?_⟩
  · split
    · exact .refl _
    · exact State.noteErrors_same _ _ _
  · simp only [exec_matrixOperationStart, execMatrixOperationStart, tget_of_tfind hc, hguard, hlatch]
    rfl

theorem State.tfind_started {s : State} {n : Nat} {c : Cmd} (hc : tfind s.cmds n = some c) :
    tfind (s.started n).cmds n = some { c with state := .started } := by
  rw [State.started, State.tfind_onCmd, if_pos rfl, hc, Option.map_some]

/-- R240 to R242: the start of a context's oldest matrix operation. -/
theorem matrixStarts : MatrixStarts := by
  intro s n c hc hop hst htile hafter hold hbusy hfirst
  have hready := State.matrixReady_of hc (State.operandsReady_of_tileFree hc ((isMatrix_iff _).mpr hop) hst htile hafter) htile hold
  have hguard := State.start_guard hc hready hbusy hfirst
  constructor
  · intro h
    have hplain : (decide (c.op = .mma) && bitAt c.fmt 4) = false := by
      rcases h with h | h
      · simp [h]
      · simp only [bitAt, h, Bool.and_false]
    simp only [exec_matrixOperationStart, execMatrixOperationStart, tget_of_tfind hc, hguard, hplain]
    rfl
  · intro hmma hstat
    obtain ⟨x, hx, hexec⟩ := exec_matrixOperationStart_stationary hc hguard hmma hstat
    refine ⟨_, (s.startLatch c).bytes, hexec, ?_, hx.mem, hx.strands, ?_⟩
    · rw [State.tfind_onCmd, if_pos rfl, State.onCore_cmds, hx.cmds, State.tfind_started hc, Option.map_some]
    · unfold State.startLatch
      dsimp only
      split
      case isTrue h => simp [h]
      case isFalse h =>
        rw [if_neg (by simpa [and_assoc] using h)]
        intro i hi
        rw [cget_freshLatch _ _ i hi]

end Sys2Proof.Machine
end

section
/-! O29: the poll of an SQWAIT (R257, R326). -/

namespace Sys2Proof.Machine

open Sys2Proof.Claims

/-! Nothing that a poll asks depends on the count of free values, and what it counts and records is in the lanes
and in its partition. -/

/-- The state at another count of free values. -/
def State.withFree (s : State) (f : Nat) : State := { s with free := f }

theorem State.logDirty_withFree (s : State) (f p : Nat) (t : BitVec 4) (kind va : Nat) :
    (s.withFree f).logDirty p t kind va = (s.logDirty p t kind va).map (fun x => x.withFree f) := by
  unfold State.logDirty
  simp only [State.withFree]
  split
  · rfl
  · split
    · rfl
    · split <;> rfl

theorem State.logAll_withFree (f p : Nat) (t : BitVec 4) (l : List (Nat × Nat)) : ∀ s : State,
    ((s.withFree f).logAll p t l).2 = (s.logAll p t l).2 := by
  induction l with
  | nil => exact fun _ => rfl
  | cons x r ih =>
    intro s
    rw [State.logAll, State.logAll, State.logDirty_withFree]
    cases s.logDirty p t x.1 x.2 with
    | none => rfl
    | some y => exact ih y

theorem State.heldReady_withFree (s : State) (f res k : Nat) : (s.withFree f).heldReady res k = s.heldReady res k := by
  unfold State.heldReady
  simp only [State.logAll_withFree]
  rfl

theorem State.atomicFree_withFree (s : State) (f p : Nat) (t : BitVec 4) (res : Nat) :
    (s.withFree f).atomicFree p t res = s.atomicFree p t res := by
  unfold State.atomicFree State.atomicsFree State.firstAt
  simp only [State.heldReady_withFree]
  rfl

/-- Counting at a resource changes the lanes and its partition alone (R325). -/
theorem State.chargeAt_sameButLanes (s : State) (p : Nat) (t : BitVec 4) (res n : Nat) (inw : Bool) :
    s.SameButLanes (s.chargeAt p t res n inw) := by
  unfold State.chargeAt
  dsimp only
  split <;> constructor <;> rfl

/-- Counting atomics changes the lanes and their partition alone (R326). -/
theorem State.chargeAtomics_sameButLanes (s : State) (p : Nat) (t : BitVec 4) (res n : Nat) :
    s.SameButLanes (s.chargeAtomics p t res n) :=
  (s.chargeAt_sameButLanes p t res (128 * n) false).trans (by constructor <;> rfl)

/-- A word that a page grants to atomics, outside the reach table, is polled as memory holds it (R257). -/
theorem State.pollWord_ok {s : State} {c : Cmd} {l : Leaf} (hroute : s.routeOf c.part c.a.toNat = none)
    (hbar : s.routeBarred c.part c.a.toNat = false) (hwalk : s.cmdWalk c c.a.toNat = .leaf l) (hpa : l.pa = true) (hkd : l.kd < 2)
    (hex : paExists l.kd (l.at c.a.toNat) 8 = true) (hw : Writable l.kd (l.at c.a.toNat) 8) :
    s.pollWord c = .ok (.mem l.kd (l.at c.a.toNat), cnum s.mem (memKey l.kd (l.at c.a.toNat)) 8) := by
  have hread : s.readMem l.kd (l.at c.a.toNat) 8 = cread s.mem (memKey l.kd (l.at c.a.toNat)) 8 := by
    unfold State.readMem
    rw [if_neg]
    simp only [Bool.and_eq_true, decide_eq_true_eq, not_and]
    intro h
    have := hw h
    omega
  have hkinds : ([0, 1] : List Nat).contains l.kd = true := by
    have : l.kd = 0 ∨ l.kd = 1 := by omega
    rcases this with h | h <;> simp [h]
  have hgrants : l.grants 4 = true := by simp [Leaf.grants, bitAt, hpa]
  have hlocate : s.locate c (.va c.a.toNat) 8 4 [0, 1] = .ok (.mem l.kd (l.at c.a.toNat)) := by
    unfold State.locate
    have h2 : ¬ l.kd = 2 := by omega
    simp only [hroute, hbar, hwalk, hgrants, h2, hex, hkinds, ite_self, Bool.and_false, Bool.not_true, decide_false, Bool.false_and]
    rfl
  unfold State.pollWord
  rw [hlocate]
  exact congrArg (fun b => Except.ok (_, leNat b)) hread

theorem State.haltStep_none {s : State} {g : Nat} (h : (tget s.gangs g).halt = none) : s.haltStep g = s := by
  unfold State.haltStep
  rw [h]

/-- A strand without the counter of a command of its own that has ended (R72). -/
def Strand.withoutCmd (n : Nat) (t : Strand) : Strand := { t with cpq := t.cpq.filter (· ≠ n) }

/-- The end of a copy-engine command that names no tile: it goes, with its counter and its place in what invalidations wait for. -/
theorem State.endCmd_of_no_tile {s : State} {n : Nat} {c : Cmd} (hc : tfind s.cmds n = some c) (hop : c.op.isTl = false)
    (htd : c.td = none) (hta : c.ta = none) (hta2 : c.ta2 = none) (htb : c.tb = none)
    (hstrand : (tfind s.strands c.strand).isSome) (hhalt : (tget s.gangs (tget s.strands c.strand).gang).halt = none) :
    (s.endCmd n).cmds = tdel s.cmds n ∧ (s.endCmd n).strands = tmod s.strands c.strand (Strand.withoutCmd n) ∧
    (s.endCmd n).mem = s.mem := by
  have hgang : (tget (tmod s.strands c.strand (Strand.withoutCmd n)) c.strand).gang = (tget s.strands c.strand).gang := by
    rw [tget_tmod _ _ hstrand]
    rfl
  have hend : s.endCmd n = (({ s with cmds := tdel s.cmds n } : State).onStrand c.strand (Strand.withoutCmd n)).onDev
      (fun d => { d with invals := tmap d.invals (fun _ i => { i with cmds := i.cmds.filter (· ≠ n) }) }) := by
    unfold State.endCmd
    simp only [tget_of_tfind hc, htd, hta, hta2, htb, State.unreadTile, hop]
    exact State.haltStep_none ((congrArg (fun g => (tget s.gangs g).halt) hgang).trans hhalt)
  rw [hend]
  exact ⟨rfl, rfl, rfl⟩

/-- R72, R232: such a command ends. -/
theorem State.endCmd_ended {s : State} {n : Nat} {c : Cmd} (hc : tfind s.cmds n = some c) (hop : underTl c.op = false)
    (htl : c.op.isTl = false) (htd : c.td = none) (hta : c.ta = none) (hta2 : c.ta2 = none) (htb : c.tb = none)
    (hcalm : Calm s c.strand) : Ended s (s.endCmd n) n c ∧ (s.endCmd n).mem = s.mem := by
  obtain ⟨hstrand, -, hhalt⟩ := hcalm
  obtain ⟨hcmds, hstrands, hmem⟩ := State.endCmd_of_no_tile hc htl htd hta hta2 htb hstrand hhalt
  have hme := tget_tmod s.strands (Strand.withoutCmd n) hstrand
  unfold Ended
  rw [hcmds, hstrands, hme, if_neg (by simp [hop])]
  exact ⟨⟨(tfind_tdel ..).trans (if_pos rfl), fun m hm => (tfind_tdel ..).trans (if_neg hm),
    fun k hk => (tfind_tmod ..).trans (if_neg hk), rfl, rfl, rfl⟩, hmem⟩

/-- The state once an SQWAIT has read its word: the poll is counted, and an error of what it read recorded (R325, R406). -/
def State.polled (s : State) (c : Cmd) (p : Loc) : State :=
  let u := s.withFree (s.free + 1)
  (u.noteErrors c.strand (u.sideRuns c (.va c.a.toNat) p 8 ++ u.sideWalk c (.va c.a.toNat) p)).chargeAtomics
    c.part c.tenant (pollRes p) 1

theorem State.polled_same (s : State) (c : Cmd) (p : Loc) : (s.withFree (s.free + 1)).SameButLanes (s.polled c p) :=
  (State.noteErrors_same _ _ _).trans (State.chargeAtomics_sameButLanes _ _ _ _ _)

/-- An SQWAIT at its turn with a budget polls its word once (R257). -/
theorem exec_sqwaitPoll_polled {s : State} {n : Nat} {c : Cmd} {p : Loc} {v : Nat} (hc : tfind s.cmds n = some c)
    (hop : c.op = .sqwait) (hst : c.state = .queued) (hturn : s.atTurn n = true) (hord : bitAt c.ord 4 = false)
    (hpoll : (s.withFree (s.free + 1)).pollWord c = .ok (p, v)) (hfree : s.atomicFree c.part c.tenant (pollRes p) = true) :
    exec (.sqwaitPoll n) s = .next (if c.b.toNat ≤ v then (s.polled c p).endCmd n else s.polled c p) := by
  have hacq : s.acquired n c = true := by simp [State.acquired, hord]
  have hguard : (decide (c.op ≠ .sqwait) || decide (c.state ≠ .queued) || !s.atTurn n || !s.acquired n c) = false := by
    simp [hop, hst, hturn, hacq]
  have hb : (!(s.withFree (s.free + 1)).atomicFree c.part c.tenant (pollRes p)) = false := by
    rw [State.atomicFree_withFree, hfree, Bool.not_true]
  unfold State.withFree at hpoll hb
  simp only [exec_sqwaitPoll, execSqwaitPoll, hc, hguard, hord, Bool.false_and]
  simp only [Bool.false_eq_true, if_false, hpoll, hb]
  split <;> rfl

/-- R257, R326: an SQWAIT at its turn polls its word, and completes once it is at least b. -/
theorem queueWaits : QueueWaits := by
  intro s n c l hc hop hst hturn hord hroute hbar hwalk hpa hkd hex hw hfree hcalm htd hta hta2 htb
  have hpoll : (s.withFree (s.free + 1)).pollWord c = .ok (.mem l.kd (l.at c.a.toNat), cnum s.mem (memKey l.kd (l.at c.a.toNat)) 8) :=
    State.pollWord_ok (s := s.withFree (s.free + 1)) hroute hbar hwalk hpa hkd hex hw
  have hexec := exec_sqwaitPoll_polled hc hop hst hturn hord hpoll hfree
  have hx := s.polled_same c (.mem l.kd (l.at c.a.toNat))
  refine ⟨fun hle => ⟨_, hexec.trans (congrArg _ (if_pos hle)), ?_⟩,
    fun hlt => ⟨_, hexec.trans (congrArg _ (if_neg (Nat.not_le.mpr hlt))), hx.cmds, hx.strands, hx.mem⟩⟩
  have hcalm' : Calm (s.polled c (.mem l.kd (l.at c.a.toNat))) c.strand := by
    unfold Calm at hcalm ⊢
    rwa [hx.strands, hx.gangs]
  obtain ⟨hended, hmem⟩ := State.endCmd_ended (by rw [hx.cmds]; exact hc) (by rw [hop]; rfl) (by rw [hop]; rfl)
    htd hta hta2 htb hcalm'
  refine ⟨?_, hmem.trans hx.mem⟩
  unfold Ended at hended ⊢
  rwa [hx.cmds, hx.strands] at hended

/-- Settles O29: queue heads, pooling commands, matrix operations and polls, each at its turn. -/
theorem commandStarts : Obligations.CommandStarts := by
  unfold Obligations.CommandStarts
  exact ⟨startedCommands, poolingStarts, matrixStarts, queueWaits⟩

end Sys2Proof.Machine
end

section
/-! O54: ceilings and heat (R20 to R22). -/

namespace Sys2Proof.Machine

open Sys2Proof.Claims

/-! Changes of several islands. -/

/-- The islands of a list changed one after the other. -/
def changeIslands (f : Island → Island) (l : List Nat) (t : Table Island) : Table Island :=
  l.foldl (fun t i => tset t i (f (tget t i))) t

theorem tget_changeIslands (f : Island → Island) (l : List Nat) : ∀ (t : Table Island), l.Nodup → ∀ j,
    tget (changeIslands f l t) j = if j ∈ l then f (tget t j) else tget t j := by
  induction l with
  | nil => exact fun t _ j => rfl
  | cons i r ih =>
    intro t hl j
    obtain ⟨hi, hr⟩ := List.nodup_cons.mp hl
    show tget (changeIslands f r (tset t i (f (tget t i)))) j = _
    rw [ih _ hr, tget_tset]
    by_cases hj : j = i
    · subst hj; simp [hi]
    · simp [hj]

theorem State.ceilingsDown_eq (l : List Nat) : ∀ s : State,
    s.ceilingsDown l = s.onDev (fun d => { d with islands := changeIslands lowered l d.islands }) := by
  induction l with
  | nil => exact fun s => rfl
  | cons i r ih => exact fun s => ih _

theorem State.ceilingsUp_eq (l : List Nat) : ∀ s : State,
    s.ceilingsUp l = s.onDev (fun d => { d with islands := changeIslands raised l d.islands }) := by
  induction l with
  | nil => exact fun s => rfl
  | cons i r ih => exact fun s => ih _

/-- The cluster islands that satisfy a test. -/
theorem mem_clusterIslands_filter (p : Nat → Bool) (i : Nat) : i ∈ clusterIslands.filter p ↔ i < 64 ∧ p i = true := by
  rw [List.mem_filter, clusterIslands, List.mem_range]

theorem nodup_clusterIslands_filter (p : Nat → Bool) : (clusterIslands.filter p).Nodup := List.nodup_range.filter p

/-- One value at every key of a list. -/
theorem tget_foldl_tset {α : Type} [Inhabited α] (v : α) (l : List Nat) : ∀ (t : Table α) (j : Nat),
    tget (l.foldl (fun t x => tset t x v) t) j = if j ∈ l then v else tget t j := by
  induction l with
  | nil => exact fun t j => rfl
  | cons i r ih =>
    intro t j
    rw [List.foldl_cons, ih, tget_tset]
    by_cases hj : j = i <;> simp [hj]

/-- The moment of R21's next step. -/
theorem State.atDue_eq_some {s : State} {due : Nat} {ok : State → Bool} (h : ok (s.clockTo due) = true) :
    s.atDue due ok = some (s.clockTo due) := if_pos h

theorem State.atDue_eq_none {s : State} {due : Nat} {ok : State → Bool} (h : ok (s.clockTo due) = false) : s.atDue due ok = none :=
  if_neg (by simp [h])

/-- The dies that a lowering of R21 steps, those left out under R22 (log 86). -/
def State.stepDies (s : State) : List Nat := (List.range 4).filter (fun d => !s.steppedHot d)

theorem State.mem_stepDies (s : State) (die : Nat) : die ∈ s.stepDies ↔
    die < 4 ∧ ¬ (105 ≤ tget s.dev.junction die ∧ s.now < tget s.dev.lastHot die + 100000) := by
  simp only [State.stepDies, State.steppedHot, State.hot, List.mem_filter, List.mem_range, Bool.not_eq_true', Bool.and_eq_false_iff,
    decide_eq_false_iff_not, not_and_or]

/-- CEILING_STEP_DOWN (R21). -/
theorem ceilingStepDown_claim (s : State) :
    let down := max s.now (s.dev.lastDown + 100000)
    let stepped (die : Nat) : Prop := 105 ≤ tget s.dev.junction die ∧ down < tget s.dev.lastHot die + 100000
    (({ s with now := down } : State).share Device.pkgLog ≤ 2400 * 1000000 → exec .ceilingStepDown s = .next s) ∧
    (2400 * 1000000 < ({ s with now := down } : State).share Device.pkgLog → ∃ t, exec .ceilingStepDown s = .next t ∧
      t.strands = s.strands ∧ t.mem = s.mem ∧ t.now = down ∧ t.dev.lastDown = down ∧
      (∀ die, tget t.dev.lastHot die = if die < 4 ∧ ¬stepped die then down else tget s.dev.lastHot die) ∧
      ∀ i, tget t.dev.islands i = if i < 64 ∧ ¬stepped (i / 16) then lowered (tget s.dev.islands i) else tget s.dev.islands i) := by
  intro down stepped
  refine ⟨fun h => ?_, fun h => ?_⟩
  · have hno : (s.clockTo s.downDue).over Device.pkgLog 2400 = false := decide_eq_false (Nat.not_lt.mpr h)
    simp only [exec_ceilingStepDown, execCeilingStepDown, State.atDue_eq_none (ok := fun t => t.over Device.pkgLog 2400) hno]
  · have hyes : (s.clockTo s.downDue).over Device.pkgLog 2400 = true := decide_eq_true h
    have hexec : exec .ceilingStepDown s = .next (((s.clockTo s.downDue).ceilingsDown
        (clusterIslands.filter (fun i => (s.clockTo s.downDue).stepDies.contains (i / 16)))).onDev (fun d => { d with
          lastDown := down, lastHot := (s.clockTo s.downDue).stepDies.foldl (fun l x => tset l x down) d.lastHot })) := by
      simp only [exec_ceilingStepDown, execCeilingStepDown, State.atDue_eq_some (ok := fun t => t.over Device.pkgLog 2400) hyes]
      rfl
    have hdies (die : Nat) : die ∈ (s.clockTo s.downDue).stepDies ↔ die < 4 ∧ ¬stepped die := State.mem_stepDies _ _
    refine ⟨_, hexec, ?_⟩
    rw [State.ceilingsDown_eq]
    refine ⟨rfl, rfl, rfl, rfl, fun die => ?_, fun i => ?_⟩
    · refine (tget_foldl_tset down _ s.dev.lastHot die).trans ?_
      simp only [hdies]
    · refine (tget_changeIslands lowered _ s.dev.islands (nodup_clusterIslands_filter _) i).trans ?_
      have hi : i / 16 < 4 ↔ i < 64 := by omega
      simp only [mem_clusterIslands_filter, List.contains_iff_mem, hdies, hi, ← and_assoc, and_self]

/-- CEILING_STEP_UP (R21, R22). -/
theorem ceilingStepUp_claim (s : State) :
    let up := max s.now (max s.dev.lastUp s.dev.lastDown + 1000000)
    (2300 * 1000000 ≤ ({ s with now := up } : State).share Device.pkgLog → exec .ceilingStepUp s = .next s) ∧
    (({ s with now := up } : State).share Device.pkgLog < 2300 * 1000000 → ∃ t, exec .ceilingStepUp s = .next t ∧
      t.strands = s.strands ∧ t.mem = s.mem ∧ t.now = up ∧ t.dev.lastUp = up ∧
      ∀ i, tget t.dev.islands i = if i < 64 ∧ tget s.dev.junction (i / 16) < 105 then raised (tget s.dev.islands i)
        else tget s.dev.islands i) := by
  intro up
  refine ⟨fun h => ?_, fun h => ?_⟩
  · have hno : (s.clockTo s.upDue).under Device.pkgLog 2300 = false := decide_eq_false (Nat.not_lt.mpr h)
    simp only [exec_ceilingStepUp, execCeilingStepUp, State.atDue_eq_none (ok := fun t => t.under Device.pkgLog 2300) hno]
  · have hyes : (s.clockTo s.upDue).under Device.pkgLog 2300 = true := decide_eq_true h
    have hexec : exec .ceilingStepUp s = .next (((s.clockTo s.upDue).ceilingsUp
        (clusterIslands.filter (fun i => !s.hot (i / 16)))).onDev (fun d => { d with lastUp := up })) := by
      simp only [exec_ceilingStepUp, execCeilingStepUp, State.atDue_eq_some (ok := fun t => t.under Device.pkgLog 2300) hyes]
      rfl
    refine ⟨_, hexec, ?_⟩
    rw [State.ceilingsUp_eq]
    refine ⟨rfl, rfl, rfl, rfl, fun i => ?_⟩
    refine (tget_changeIslands raised _ s.dev.islands (nodup_clusterIslands_filter _) i).trans ?_
    simp only [mem_clusterIslands_filter, State.hot, Bool.not_eq_true', decide_eq_false_iff_not, Nat.not_le]

/-- THERMAL_THROTTLE of a die at 105 °C (R22). -/
theorem exec_thermalThrottle_hot (s : State) (die : Nat) (hdie : die < 4) (hhot : 105 ≤ tget s.dev.junction die) :
    ∃ t, exec (.thermalThrottle die) s = .next t ∧ t.strands = s.strands ∧
      t.mem = s.mem ∧ t.now = max s.now (tget s.dev.lastHot die + 100000) ∧ tget t.dev.lastHot die = t.now ∧
      ∀ i, tget t.dev.islands i = if i < 64 ∧ i / 16 = die then lowered (tget s.dev.islands i) else tget s.dev.islands i := by
  have hguard : (decide (4 ≤ die) || !s.hot die) = false := by simp [State.hot, hdie, hhot]
  have hexec : exec (.thermalThrottle die) s = .next (((s.clockTo (tget s.dev.lastHot die + 100000)).ceilingsDown
      (clusterIslands.filter (fun i => i / 16 = die))).onDev
        (fun d => { d with lastHot := tset d.lastHot die (max s.now (tget s.dev.lastHot die + 100000)) })) := by
    simp only [exec_thermalThrottle, execThermalThrottle, hguard]
    rfl
  refine ⟨_, hexec, ?_⟩
  rw [State.ceilingsDown_eq]
  refine ⟨rfl, rfl, rfl, tget_tset_self _ _ _, fun i => ?_⟩
  refine (tget_changeIslands lowered _ s.dev.islands (nodup_clusterIslands_filter _) i).trans ?_
  simp only [mem_clusterIslands_filter, decide_eq_true_eq]

/-- A record of the module is posted while its lane has room (R381). -/
theorem State.postFatal_mod (s : State) (r : Record) (hr : r.mod = true) (h : (s.dev.fatal.filter (fun r => r.mod)).length < 64) :
    ∃ q ∈ (s.postFatal r).dev.fatal, q.mod = true ∧ q.cause = r.cause ∧ q.val = r.val := by
  unfold State.postFatal
  rw [if_pos hr, if_neg (Nat.not_le.mpr h)]
  exact ⟨_, List.mem_append_right _ (List.mem_singleton.mpr rfl), hr, rfl, rfl⟩

/-- It changes its lane and the control complex's memory alone. -/
theorem State.postFatal_mod_same (s : State) (r : Record) (hr : r.mod = true) :
    (s.postFatal r).parts = s.parts ∧ (s.postFatal r).dev.powered = s.dev.powered ∧ (s.postFatal r).dev.islands = s.dev.islands ∧
    (s.postFatal r).dev.waiting = s.dev.waiting ∧ (s.postFatal r).dev.answers = s.dev.answers ∧
    (s.postFatal r).dev.replay = s.dev.replay := by
  unfold State.postFatal
  rw [if_pos hr]
  split <;> exact ⟨rfl, rfl, rfl, rfl, rfl, rfl⟩

/-- The record of a die at 115 °C (R22). -/
def State.heatRecord (s : State) (die : Nat) : Record :=
  { mod := true, cause := 0x0032, val := BitVec.ofNat 64 die, slt := 7, time := BitVec.ofNat 64 s.now }

/-- THERMAL_STOP (R22, R370). -/
theorem exec_thermalStop_hot (s : State) (die : Nat) (hdie : die < 4) (hhot : 115 ≤ tget s.dev.junction die)
    (hon : s.dev.stopped = false) : exec (.thermalStop die) s = .next (s.postFatal (s.heatRecord die)).packageLost := by
  have hguard : (decide (4 ≤ die) || decide (tget s.dev.junction die < 115) || s.dev.stopped) = false := by
    simp [hdie, hhot, hon]
  simp only [exec_thermalStop, execThermalStop, hguard]
  rfl

/-- What every partition keeps when the package loses power (R370). -/
theorem State.packageLost_parts (s : State) (n : Nat) : (tget s.packageLost.parts n).live = false ∧
    (tget s.packageLost.parts n).stops = (tget s.parts n).stops.filter (fun x => !x.words.isEmpty) := by
  have h : tget s.packageLost.parts n = ((tfind s.parts n).map Partition.numbers).getD default :=
    congrArg (Option.getD · default) (tfind_tmap s.parts (fun _ p => p.numbers) n)
  rw [h, tget]
  cases tfind s.parts n <;> exact ⟨rfl, rfl⟩

/-- The islands that keep their power are those of the control complex (R370). -/
theorem State.packageLost_islands (s : State) (i : Nat) : tget s.packageLost.dev.islands i =
    if 124 ≤ i then tget s.dev.islands i else {} := by
  have h : tfind s.packageLost.dev.islands i = if decide (124 ≤ i) = true then tfind s.dev.islands i else none :=
    tfind_filter s.dev.islands (fun k => decide (124 ≤ k)) i
  rw [tget, h]
  by_cases hi : 124 ≤ i
  · simp [hi, tget]
  · simp only [hi, decide_false, Bool.false_eq_true, if_false]
    rfl

/-- R20 to R22: the ceilings' steps, and the stop of a die that is too hot. -/
theorem ceilings : Ceilings := by
  intro s down up stepped
  obtain ⟨hdown₁, hdown₂⟩ := ceilingStepDown_claim s
  obtain ⟨hup₁, hup₂⟩ := ceilingStepUp_claim s
  refine ⟨hdown₁, hdown₂, hup₁, hup₂, fun die h => ?_, fun die => exec_thermalThrottle_hot s die, fun die h => ?_, fun die h4 h115 hon => ?_⟩
  · have hguard : (decide (4 ≤ die) || !s.hot die) = true := by simp [State.hot]; omega
    simp only [exec_thermalThrottle, execThermalThrottle, hguard]
    rfl
  · have hguard : (decide (4 ≤ die) || decide (tget s.dev.junction die < 115) || s.dev.stopped) = true := by
      simp only [Bool.or_eq_true, decide_eq_true_eq, or_assoc]; exact h
    simp only [exec_thermalStop, execThermalStop, hguard]
    rfl
  · obtain ⟨hparts, hpow, hisl, hwait, hansw, hrep⟩ := s.postFatal_mod_same (s.heatRecord die) rfl
    have hsame := s.postFatal_same (s.heatRecord die)
    refine ⟨_, exec_thermalStop_hot s die h4 h115 hon, rfl, hpow, hsame.now, rfl, rfl, rfl, rfl, rfl, rfl, rfl, hsame.agenda,
      fun n => ?_, fun i => ?_, hwait, hansw, hrep, fun hroom => s.postFatal_mod (s.heatRecord die) rfl hroom⟩
    · rw [← hparts]; exact State.packageLost_parts _ n
    · rw [← hisl]; exact State.packageLost_islands _ i

end Sys2Proof.Machine
end

section
/-! O54: operating points (R18, R19, R323). -/

namespace Sys2Proof.Machine

open Sys2Proof.Claims

/-- The capability table's top frequency (R18). -/
theorem topFreq_eq (i mv : Nat) (h : 4500 ≤ mv) : topFreq i ((mv - 4500) / vStep) = topMhz i mv := by
  unfold topFreq topMhz
  have h12 : 12 ≤ (mv - 4500) / vStep ↔ 6000 ≤ mv := by
    unfold vStep; omega
  simp only [h12, List.foldl_map]
  rfl

/-- The voltage that a cluster's offset and ceiling give (R323). -/
theorem Island.aim_eq (x : Island) (mv : Nat) : mv = x.aim ↔ (mv : Int) = min (max 0 (6000 + 125 * x.offset)) x.ceiling10 := by
  unfold Island.aim vStep
  omega

/-- The model's check of an operating point is that of R18 and R323. -/
theorem State.pointOk_iff (s : State) (i mv mhz : Nat) : s.pointOk i mv mhz = true ↔ PointAllowed s i mv mhz := by
  unfold State.pointOk PointAllowed
  simp only [Bool.and_eq_true, Bool.or_eq_true, decide_eq_true_eq, Bool.not_eq_true']
  have hor {p : Prop} (k : Nat) : k ≤ i ∨ p ↔ (i < k → p) := by rw [← Nat.not_lt, or_iff_not_imp_left, not_not]
  by_cases hlow : 4500 ≤ mv
  · have hstep : (mv - 4500) % vStep = 0 ↔ mv % 125 = 0 := by unfold vStep; omega
    by_cases hm : mv % 125 = 0
    · rw [topFreq_eq i mv hlow]
      simp only [hor, hstep, Island.aim_eq, and_assoc]
    · simp only [hstep, hm, false_and, and_false]
  · simp only [hlow, false_and, and_false]

/-- An island that takes an operating point: the voltage rises before the frequency, and falls with it (R19). -/
def Island.taking (x : Island) (mv mhz : Nat) : Island :=
  if x.mv10 < mv then { x with mv10 := mv, target := some (mv, mhz), settling := true } else { x with mhz := mhz, mv10 := mv }

theorem Island.taking_raised {x : Island} {mv : Nat} (mhz : Nat) (h : x.mv10 < mv) :
    x.taking mv mhz = { x with mv10 := mv, target := some (mv, mhz), settling := true } := if_pos h

theorem Island.taking_lowered {x : Island} {mv : Nat} (mhz : Nat) (h : mv ≤ x.mv10) :
    x.taking mv mhz = { x with mhz := mhz, mv10 := mv } := if_neg (Nat.not_lt.mpr h)

theorem Island.taking_mv10 (x : Island) (mv mhz : Nat) : (x.taking mv mhz).mv10 = mv := by
  unfold Island.taking
  split <;> rfl

theorem exec_operatingPointChange_refused {s : State} {i mv mhz : Nat}
    (h : 128 ≤ i ∨ (tget s.dev.islands i).settling = true ∨ ¬PointAllowed s i mv mhz) :
    exec (.operatingPointChange i mv mhz) s = .next s := by
  have hguard : (decide (128 ≤ i) || (tget s.dev.islands i).settling || !s.pointOk i mv mhz) = true := by
    simp only [Bool.or_eq_true, decide_eq_true_eq, or_assoc, Bool.not_eq_true', ← Bool.not_eq_true, State.pointOk_iff]
    exact h
  simp only [exec_operatingPointChange, execOperatingPointChange]
  rw [if_pos hguard]

theorem exec_operatingPointChange_allowed {s : State} {i mv mhz : Nat} (hi : i < 128) (hset : (tget s.dev.islands i).settling = false)
    (hp : PointAllowed s i mv mhz) : exec (.operatingPointChange i mv mhz) s =
      .next (s.onDev (fun d => { d with islands := tset d.islands i ((tget s.dev.islands i).taking mv mhz) })) := by
  have hguard : ¬ (decide (128 ≤ i) || (tget s.dev.islands i).settling || !s.pointOk i mv mhz) = true := by
    simp [hset, (s.pointOk_iff i mv mhz).mpr hp, hi]
  simp only [exec_operatingPointChange, execOperatingPointChange]
  rw [if_neg hguard]
  rfl

/-- OPERATING_POINT_CHANGE and VOLTAGE_SETTLED (R19). -/
theorem operatingPoints : OperatingPoints := by
  intro s i mv mhz x
  refine ⟨exec_operatingPointChange_refused, fun hi hset hp => ?_, fun v f h => ?_, fun h => ?_⟩
  · have hnew : tget (tset s.dev.islands i (x.taking mv mhz)) i = x.taking mv mhz := tget_tset_self _ _ _
    refine ⟨_, exec_operatingPointChange_allowed hi hset hp, rfl, fun j hj => tget_tset_of_ne _ _ hj,
      (congrArg Island.mv10 hnew).trans (x.taking_mv10 mv mhz), fun hup => ?_, fun hdown => ?_⟩
    · have hup' := hnew.trans (Island.taking_raised mhz hup)
      have hmhz := congrArg Island.mhz hup'
      exact ⟨hmhz, congrArg Island.settling hup', congrArg Island.target hup'⟩
    · have hdown' := hnew.trans (Island.taking_lowered mhz hdown)
      exact ⟨congrArg Island.mhz hdown', (congrArg Island.settling hdown').trans hset⟩
  · simp only [exec_voltageSettled, execVoltageSettled]
    rw [show (tget s.dev.islands i).target = some (v, f) from h]
    exact ⟨_, rfl, rfl, tget_tset_self _ _ _⟩
  · simp only [exec_voltageSettled, execVoltageSettled]
    rw [show (tget s.dev.islands i).target = none from h]

end Sys2Proof.Machine
end

section
/-! O54: the power sequence (R369, R370). -/

namespace Sys2Proof.Machine

open Sys2Proof.Claims

theorem exec_powerOn_failing (s : State) (hoff : s.dev.powered = false) (h1 : 1 ≤ s.dev.bootFault) (h4 : s.dev.bootFault ≤ 4) :
    exec .powerOn s = .next { State.reset with
      free := s.free,
      dev := { State.reset.dev with powered := s.dev.bootFault ≠ 1, stopped := true, boot := s.dev.bootFault - 1,
                                    bootFailed := some s.dev.bootFault, bootFault := s.dev.bootFault } } := by
  simp only [exec_powerOn, execPowerOn, hoff, h1, h4]
  rfl

/-- A commanded power-off is held back while a partition is live (R370). -/
theorem exec_powerOff_waits (s : State) (hask : s.dev.offAsked = true) (hlive : ∃ e ∈ s.parts, e.2.live = true) :
    exec .powerOff s = .next s := by
  have hguard : (s.dev.offAsked && s.parts.any (fun p => p.2.live)) = true := by
    rw [hask, Bool.true_and, List.any_eq_true]
    exact hlive
  simp only [exec_powerOff, execPowerOff, hguard]
  rfl

theorem exec_powerOff_goes (s : State) (h : s.dev.offAsked = false ∨ ∀ e ∈ s.parts, e.2.live = false) :
    exec .powerOff s = .next s.unpowered := by
  have hguard : (s.dev.offAsked && s.parts.any (fun p => p.2.live)) = false := by
    rw [Bool.and_eq_false_iff]
    refine h.imp_right fun h => ?_
    simpa only [List.any_eq_false, Bool.not_eq_true] using h
  simp only [exec_powerOff, execPowerOff, hguard]
  rfl

/-- R17, R369, R370: power comes, goes and comes back. -/
theorem powerSequence : PowerSequence := by
  intro s k
  refine ⟨fun hon => ?_, fun hoff hk => ?_, fun hoff h1 h4 => ?_, fun h => ?_, exec_powerOff_waits s, fun h => ?_,
    fun hon hst hk => ?_, fun hon hst h2 h4 => ?_⟩
  · simp only [exec_powerOn, execPowerOn, hon]
    rfl
  · have hk : s.dev.bootFault = 0 := hk
    simp only [exec_powerOn, execPowerOn, hoff, hk]
    rfl
  · exact ⟨_, exec_powerOn_failing s hoff h1 h4, rfl, rfl, rfl, rfl, rfl, rfl, rfl⟩
  · exact ⟨_, exec_powerOff_goes s h, rfl, rfl, rfl, rfl, rfl, rfl, rfl, rfl⟩
  · have hguard : (!s.dev.powered || !s.dev.stopped) = true := by simpa using h
    simp only [exec_packagePowerRestore, execPackagePowerRestore, hguard]
    rfl
  · have hk : ¬ 2 ≤ s.dev.bootFault := Nat.not_le.mpr hk
    have hexec : exec .packagePowerRestore s = .next (s.onDev (fun d =>
        { d with stopped := false, boot := 4, bootFailed := none, islands := [] })) := by
      simp only [exec_packagePowerRestore, execPackagePowerRestore, hon, hst, hk]
      rfl
    exact ⟨_, hexec, rfl, rfl, rfl, rfl, rfl, fun i => ⟨rfl, rfl, rfl⟩⟩
  · have h2 : 2 ≤ s.dev.bootFault := h2
    have h4 : s.dev.bootFault ≤ 4 := h4
    simp only [exec_packagePowerRestore, execPackagePowerRestore, hon, hst, h2, h4]
    rfl

end Sys2Proof.Machine
end

section
/-! O54: what the control complex writes (R7, R14, R20, R37, R381, R406). -/

namespace Sys2Proof.Machine

open Sys2Proof.Claims

/-! The average of a share (R20). -/

/-- Dropping the draws that ended a millisecond or more before `now` changes no energy that is counted from `lo` on: the first of them
is kept, and a draw that begins before `lo` ends the count. -/
theorem energyIn_recent (now lo : Nat) (h : now ≤ lo + 1000000) (l : List (Nat × Nat)) : ∀ hi,
    energyIn (l.takeWhile (fun e => now < e.1 + 1000000) ++
      (l.drop (l.takeWhile (fun e => now < e.1 + 1000000)).length).take 1) lo hi = energyIn l lo hi := by
  induction l with
  | nil => exact fun hi => rfl
  | cons e r ih =>
    intro hi
    by_cases he : now < e.1 + 1000000
    · have hd : decide (now < e.1 + 1000000) = true := decide_eq_true he
      simp only [List.takeWhile_cons, hd, if_true, List.length_cons, List.drop_succ_cons, List.cons_append, energyIn, ih]
    · have hd : decide (now < e.1 + 1000000) = false := decide_eq_false he
      have hstop : ¬ lo < e.1 := by omega
      simp [hd, energyIn, hstop]

theorem energyIn_addDraw (l : List (Nat × Nat)) (now w t : Nat) (h : now ≤ t) :
    energyIn (addDraw now w l) (t - 1000000) t = energyIn ((now, w) :: l) (t - 1000000) t := by
  rw [addDraw, List.cons_append, energyIn, energyIn, energyIn_recent now (t - 1000000) (by omega)]

/-! Bytes in the order of R5. -/

theorem leBytes_length (n : Nat) : ∀ v, (leBytes n v).length = n := by
  induction n with
  | zero => exact fun v => rfl
  | succ n ih => exact fun v => congrArg (· + 1) (ih _)

theorem leBytes_getD (n : Nat) : ∀ v j, j < n → (leBytes n v).getD j 0 = BitVec.ofNat 8 (v / 256 ^ j) := by
  induction n with
  | zero => exact fun v j h => absurd h (Nat.not_lt_zero j)
  | succ n ih =>
    intro v j h
    cases j with
    | zero => simp [leBytes]
    | succ j =>
      rw [leBytes, List.getD_cons_succ, ih _ j (Nat.lt_of_succ_lt_succ h), Nat.div_div_eq_div_mul, Nat.pow_succ, Nat.mul_comm]

/-- Byte `j` of a doubleword (R5). -/
theorem leBytes_toNat_getD (n j : Nat) (v : Word) (h : j < n) : (leBytes n v.toNat).getD j 0 = v.extractLsb' (8 * j) 8 := by
  rw [leBytes_getD n v.toNat j h]
  apply BitVec.eq_of_toNat_eq
  rw [BitVec.toNat_ofNat, BitVec.extractLsb'_toNat, Nat.shiftRight_eq_div_pow, Nat.pow_mul]

/-! What the reports of a LAUNCH's reads leave (R99, R406). -/

theorem tget_tmod_of_eq {α β : Type} [Inhabited α] (t : Table α) (k n : Nat) (f : α → α) (g : α → β) (h : ∀ x, g (f x) = g x) :
    g (tget (tmod t k f) n) = g (tget t n) := by
  unfold tget
  rw [tfind_tmod]
  split
  next e =>
    subst e
    cases tfind t n with
    | none => rfl
    | some x => exact h x
  · rfl

theorem State.onPart_queues (s : State) (k n : Nat) (f : Partition → Partition) (h : ∀ p, (f p).queues = p.queues) :
    (tget (s.onPart k f).parts n).queues = (tget s.parts n).queues := tget_tmod_of_eq s.parts k n f Partition.queues h

/-- Two states differ at most in the lanes, not in a queue or in the ticket of the last LAUNCH. -/
structure State.OnlyNoted (s t : State) : Prop where
  same : s.SameButLanes t
  queues : ∀ n, (tget t.parts n).queues = (tget s.parts n).queues
  ticket : t.dev.ticket = s.dev.ticket

theorem State.OnlyNoted.refl (s : State) : s.OnlyNoted s := ⟨.refl s, fun _ => rfl, rfl⟩

theorem State.OnlyNoted.trans {s t u : State} (h : s.OnlyNoted t) (k : t.OnlyNoted u) : s.OnlyNoted u :=
  ⟨h.same.trans k.same, fun n => (k.queues n).trans (h.queues n), k.ticket.trans h.ticket⟩

theorem State.postFatal_onlyNoted (s : State) (r : Record) : s.OnlyNoted (s.postFatal r) := by
  refine ⟨s.postFatal_same r, fun n => ?_, ?_⟩
  · unfold State.postFatal
    split
    · split <;> rfl
    · dsimp only
      split
      · exact State.onPart_queues _ _ _ _ (fun _ => rfl)
      · exact State.onPart_queues _ _ _ _ (fun _ => rfl)
  · unfold State.postFatal
    split
    · split <;> rfl
    · dsimp only
      split <;> rfl

theorem State.noteAs_onlyNoted (s : State) (q : Record) (l : List ArrayRun) : s.OnlyNoted (s.noteAs q l) := by
  unfold State.noteAs
  refine foldl_inv (fun x : State => s.OnlyNoted x) _ (fun x u hx => ?_) _ _ (.refl s)
  split
  · exact hx.trans (x.postFatal_onlyNoted _)
  · exact hx

theorem State.noteWalk_onlyNoted (s : State) (part : Nat) (va : BitVec 56) : s.OnlyNoted (s.noteWalk part va) := by
  unfold State.noteWalk State.noteFound
  dsimp only
  split
  · exact (s.noteAs_onlyNoted _ _).trans (State.postFatal_onlyNoted _ _)
  · exact s.noteAs_onlyNoted _ _

theorem State.noteRead_onlyNoted (s : State) (part va n : Nat) : s.OnlyNoted (s.noteRead part va n) := by
  refine .trans ?_ (State.noteAs_onlyNoted _ _ _)
  exact foldl_inv (fun x : State => s.OnlyNoted x) _ (fun x _ hx => hx.trans (x.noteWalk_onlyNoted _ _)) _ _ (.refl s)

theorem State.noteLaunch_onlyNoted (s : State) (part queue : Nat) (v : Word) (b : State) : s.OnlyNoted (s.noteLaunch part queue v b) :=
  foldl_inv (fun x : State => s.OnlyNoted x) _ (fun x _ hx => hx.trans (x.noteRead_onlyNoted _ _ _)) _ _ (.refl s)

/-! The writes (R7, R14). -/

theorem tget_tmap_of_eq {α β : Type} [Inhabited α] (t : Table α) (n : Nat) (f : Nat → α → α) (g : α → β) (h : ∀ k x, g (f k x) = g x) :
    g (tget (tmap t f) n) = g (tget t n) := by
  unfold tget
  rw [tfind_tmap]
  cases tfind t n with
  | none => rfl
  | some x => exact h n x

/-- Remembering the maps that a write changes changes no map (R144). -/
theorem State.keepMaps_parts (s : State) (a : Nat) (l : List Byte) (m : Nat) :
    (tget (s.keepMaps a l).parts m).regions = (tget s.parts m).regions ∧
      (tget (s.keepMaps a l).parts m).res = (tget s.parts m).res := by
  unfold State.keepMaps
  dsimp only
  exact ⟨tget_tmap_of_eq _ _ _ Partition.regions fun _ _ => rfl, tget_tmap_of_eq _ _ _ Partition.res fun _ _ => rfl⟩

/-- Bytes written at a key, and no others. -/
theorem cget_cwrite_leBytes (c : Cells 8) (a n : Nat) (v : Word) :
    (∀ j, j < n → cget (cwrite c a (leBytes n v.toNat)) (a + j) = v.extractLsb' (8 * j) 8) ∧
      ∀ k, ¬(a ≤ k ∧ k < a + n) → cget (cwrite c a (leBytes n v.toNat)) k = cget c k := by
  refine ⟨fun j hj => ?_, fun k hk => ?_⟩
  · rw [cget_cwrite, leBytes_length, if_pos ⟨Nat.le_add_right a j, Nat.add_lt_add_left hj a⟩, Nat.add_sub_cancel_left,
      leBytes_toNat_getD n j v hj]
  · rw [cget_cwrite, leBytes_length, if_neg hk]

/-- The units of an array and where one begins (R406). -/
theorem unitLen_eq (spc : Nat) : unitLen spc = unitBytes spc := by
  have h4 : spc < 5 ↔ spc ≤ 4 := by omega
  have h10 : spc < 11 ↔ spc ≤ 10 := by omega
  simp only [unitLen, unitBytes, h4, h10]

theorem div_mul_eq_sub_mod (v n : Nat) : v / n * n = v - v % n := by
  have := Nat.div_add_mod v n
  rw [Nat.mul_comm]
  omega

/-- An entry taken out of a list, and put in again where `p` holds. -/
theorem mem_filter_ne_append {α : Type} [DecidableEq α] (l : List α) (u x : α) (p : Prop) [Decidable p] :
    x ∈ l.filter (· ≠ u) ++ (if p then [u] else []) ↔ if x = u then p else x ∈ l := by
  by_cases hx : x = u <;> by_cases hp : p <;> simp [hx, hp]

/-- The same where it is put in front. -/
theorem mem_cons_filter_ne {α : Type} [DecidableEq α] (l : List α) (u x : α) (p : Prop) [Decidable p] :
    (x ∈ if p then u :: l.filter (· ≠ u) else l.filter (· ≠ u)) ↔ if x = u then p else x ∈ l := by
  by_cases hx : x = u <;> by_cases hp : p <;> simp [hx, hp]

section
variable {s : State} {v : Word} (hon : s.dev.powered = true)
include hon

/-- A write of memory: its bytes and no others (R14), and no region of a partition or what it owns. -/
theorem exec_write_memory {kind a n : Nat} (hkind : kind ≠ 3) (hst : s.dev.stopped = false) (h1 : 1 ≤ n) (h8 : n ≤ 8)
    (hpa : paExists kind a n = true) : ∃ t, exec (.registerWrite (.mem kind a n) v) s = .next t ∧
      t.strands = s.strands ∧ t.dev = s.dev ∧ (∀ j, j < n → cget t.mem (memKey kind a + j) = v.extractLsb' (8 * j) 8) ∧
      (∀ k, ¬(memKey kind a ≤ k ∧ k < memKey kind a + n) → cget t.mem k = cget s.mem k) ∧
      ∀ m, (tget t.parts m).regions = (tget s.parts m).regions ∧ (tget t.parts m).res = (tget s.parts m).res := by
  have h0 : ¬ n = 0 := by omega
  have hexec : exec (.registerWrite (.mem kind a n) v) s = .next
      ((if kind = 0 then s.keepMaps a (leBytes n v.toNat) else s).writeMem kind a (leBytes n v.toNat)) := by
    simp [execRegisterWrite, hon, hkind, hst, h0, Nat.not_lt.mpr h8, hpa]
  obtain ⟨hin, hout⟩ := cget_cwrite_leBytes s.mem (memKey kind a) n v
  refine ⟨_, hexec, ?_⟩
  split
  · exact ⟨rfl, rfl, hin, hout, s.keepMaps_parts a _⟩
  · exact ⟨rfl, rfl, hin, hout, fun _ => ⟨rfl, rfl⟩⟩

/-- A write of the control complex's own DRAM (R14). -/
theorem exec_write_dram {a n : Nat} (h1 : 1 ≤ n) (h8 : n ≤ 8) (ha : a + n ≤ 2 ^ 36) :
    ∃ t, exec (.registerWrite (.mem 3 a n) v) s = .next t ∧
      t.strands = s.strands ∧ t.mem = s.mem ∧ t.parts = s.parts ∧ (∀ j, j < n → cget t.dev.dram (a + j) = v.extractLsb' (8 * j) 8) ∧
      ∀ k, ¬(a ≤ k ∧ k < a + n) → cget t.dev.dram k = cget s.dev.dram k := by
  have h0 : ¬ n = 0 := by omega
  have hd : a + n ≤ dramBytes := ha
  have hexec : exec (.registerWrite (.mem 3 a n) v) s = .next (s.onDev (fun d => d.dramWrite a (leBytes n v.toNat))) := by
    simp [execRegisterWrite, hon, h0, Nat.not_lt.mpr h8, hd]
  have hput : (s.onDev (fun d => d.dramWrite a (leBytes n v.toNat))).dev.dram = cwrite s.dev.dram a (leBytes n v.toNat) := by
    show cwrite _ _ ((leBytes n v.toNat).take (dramBytes - a)) = _
    rw [List.take_of_length_le (by rw [leBytes_length]; omega)]
  obtain ⟨hin, hout⟩ := cget_cwrite_leBytes s.dev.dram a n v
  refine ⟨_, hexec, rfl, rfl, rfl, ?_⟩
  rw [hput]
  exact ⟨hin, hout⟩

theorem exec_write_none (kind a : Nat) {n : Nat} (h : n = 0 ∨ 8 < n) : exec (.registerWrite (.mem kind a n) v) s = .next s := by
  simp [execRegisterWrite, hon, h]

/-- A LAUNCH by the control complex that is taken, its ticket in the register (R37). -/
theorem exec_write_launch {part queue : Nat} (hlive : (tget s.parts part).live = true) (hq : queue < 16) :
    (∀ w t, s.launch part queue v (s.ctlRead part) = .ok (w, t) →
      ∃ t', exec (.registerWrite (.launch part queue) v) s = .next t' ∧ t'.dev.ticket = w ∧ t'.batches = t.batches ∧
        t'.nextId = t.nextId ∧ t'.mem = t.mem ∧ t'.strands = t.strands ∧ (tget t'.parts part).queues = (tget t.parts part).queues) ∧
    (∀ e, s.launch part queue v (s.ctlRead part) = .error e → ∃ t, exec (.registerWrite (.launch part queue) v) s = .next t ∧
      t.mem = s.mem ∧ t.strands = s.strands ∧ t.batches = s.batches ∧ t.nextId = s.nextId ∧ t.dev.ticket = s.dev.ticket) := by
  have hguard : (!(tget s.parts part).live || decide (16 ≤ queue)) = false := by simp [hlive, hq]
  refine ⟨fun w t h => ?_, fun e h => ?_⟩
  · have hexec : exec (.registerWrite (.launch part queue) v) s = .next
        ((t.noteLaunch part queue v s).onDev (fun d => { d with ticket := w })) := by
      simp only [exec_registerWrite, execRegisterWrite, hon, hguard, h]
      rfl
    obtain ⟨hsame, hqueues, -⟩ := t.noteLaunch_onlyNoted part queue v s
    exact ⟨_, hexec, rfl, hsame.batches, hsame.nextId, hsame.mem, hsame.strands, hqueues part⟩
  · have hexec : exec (.registerWrite (.launch part queue) v) s = .next (s.noteLaunch part queue v s) := by
      simp only [exec_registerWrite, execRegisterWrite, hon, hguard, h]
      rfl
    obtain ⟨hsame, -, hticket⟩ := s.noteLaunch_onlyNoted part queue v s
    exact ⟨_, hexec, hsame.mem, hsame.strands, hsame.batches, hsame.nextId, hticket⟩

theorem exec_write_launch_refused {part queue : Nat} (h : (tget s.parts part).live = false ∨ 16 ≤ queue) :
    exec (.registerWrite (.launch part queue) v) s = .next s := by
  simp [execRegisterWrite, hon, h]

/-- An error of an array's unit is put in or taken out (R406). -/
theorem exec_write_unitError (spc owner : Nat) (bad : Bool) (h : spc < 13) :
    ∃ t, exec (.registerWrite (.unitError spc owner bad) v) s = .next t ∧ t.mem = s.mem ∧
      t.strands = s.strands ∧ ∀ x, x ∈ t.dev.uncorrectable ↔
        if x = (spc, owner, v.toNat - v.toNat % unitBytes spc) then bad = true else x ∈ s.dev.uncorrectable := by
  have hexec : exec (.registerWrite (.unitError spc owner bad) v) s = .next (s.onDev (fun d => { d with
      uncorrectable := d.uncorrectable.filter (· ≠ (spc, owner, v.toNat / unitLen spc * unitLen spc)) ++
        (if bad = true then [(spc, owner, v.toNat / unitLen spc * unitLen spc)] else []) })) := by
    simp [execRegisterWrite, hon, Nat.not_lt.mpr (Nat.le_of_lt_succ h)]
  refine ⟨_, hexec, rfl, rfl, fun x => ?_⟩
  rw [← unitLen_eq, ← div_mul_eq_sub_mod]
  exact mem_filter_ne_append _ _ _ _

/-- A tenant is named as starved or no longer (log 70). -/
theorem exec_write_starved (part ten arb : Nat) (p : Partition) (hten : ten < 16) (harb : arb < 176) (hp : tfind s.parts part = some p) :
    ∃ t, exec (.registerWrite (.starved part ten arb) v) s = .next t ∧ t.mem = s.mem ∧ t.strands = s.strands ∧
      ∀ x, x ∈ (tget t.parts part).starved ↔ if x = (ten, arb) then v ≠ 0 else x ∈ p.starved := by
  have hexec : exec (.registerWrite (.starved part ten arb) v) s = .next (s.onPart part (fun p => { p with
      starved := if v ≠ 0 then (ten, arb) :: p.starved.filter (· ≠ (ten, arb)) else p.starved.filter (· ≠ (ten, arb)) })) := by
    simp [execRegisterWrite, hon, Nat.not_le.mpr hten, Nat.not_le.mpr harb]
  refine ⟨_, hexec, rfl, rfl, fun x => ?_⟩
  simp only [State.onPart, tget_tmod _ _ (Option.isSome_of_eq_some hp), tget_of_tfind hp]
  exact mem_cons_filter_ne _ _ _ _

/-- A slice's part in hand-overs fails or no longer (R417). -/
theorem exec_write_slotFault (slice : Nat) : ∃ t, exec (.registerWrite (.slotFault slice) v) s = .next t ∧ t.mem = s.mem ∧
    t.strands = s.strands ∧ ∀ x, x ∈ t.dev.slotFaults ↔ if x = slice then v ≠ 0 else x ∈ s.dev.slotFaults := by
  have hexec : exec (.registerWrite (.slotFault slice) v) s = .next (s.onDev (fun d => { d with
      slotFaults := d.slotFaults.filter (· ≠ slice) ++ (if v ≠ 0 then [slice] else []) })) := by
    simp [execRegisterWrite, hon]
  exact ⟨_, hexec, rfl, rfl, fun x => mem_filter_ne_append _ _ _ _⟩

/-- Corrections of a die are counted. -/
theorem exec_write_correction (die : Nat) : ∃ t, exec (.registerWrite (.correction die) v) s = .next t ∧ t.mem = s.mem ∧
    t.strands = s.strands ∧ tget t.dev.corrected die = tget s.dev.corrected die + v.toNat := by
  have hexec : exec (.registerWrite (.correction die) v) s = .next (s.onDev (fun d => { d with
      corrected := tset d.corrected die (tget d.corrected die + v.toNat) })) := by
    simp [execRegisterWrite, hon]
  exact ⟨_, hexec, rfl, rfl, tget_tset_self _ _ _⟩

/-- The ring's size is one of R381's, and the ring lies in the DRAM. -/
theorem exec_write_ringSize : exec (.registerWrite .ringSize v) s = .next
    (if (∃ i, i < 7 ∧ v.toNat = 2 ^ (10 + i)) ∧ s.dev.replayBase + 64 * v.toNat ≤ 2 ^ 36
      then s.onDev (fun d => { d with ring := v.toNat }) else s) := by
  have hsize : (List.range 7).any (fun i => v.toNat = 2 ^ (10 + i)) = true ↔ ∃ i, i < 7 ∧ v.toNat = 2 ^ (10 + i) := by
    simp only [List.any_eq_true, List.mem_range, decide_eq_true_eq]
  rw [apply_ite Host.Outcome.next, exec_registerWrite, execRegisterWrite]
  simp only [hon, Bool.and_eq_true, decide_eq_true_eq, hsize]
  rfl

/-- The lanes stand where they have room in the DRAM (R14, R381). -/
theorem exec_write_fatalBase : exec (.registerWrite .fatalBase v) s = .next
    (if v.toNat + 266240 ≤ 2 ^ 36 then s.onDev (fun d => { d with fatalBase := v.toNat }) else s) := by
  simp only [exec_registerWrite, execRegisterWrite, hon]
  rfl

theorem exec_write_replayBase : exec (.registerWrite .replayBase v) s = .next
    (if v.toNat + 64 * s.dev.ring ≤ 2 ^ 36 then s.onDev (fun d => { d with replayBase := v.toNat }) else s) := by
  simp only [exec_registerWrite, execRegisterWrite, hon]
  rfl

end

/-- A write of the step of power-on that fails is taken with or without power (R369). -/
theorem exec_write_bootFault (s : State) (v : Word) : exec (.registerWrite .bootFault v) s = .next
    (if 4 < v.toNat then s else s.onDev (fun d => { d with bootFault := v.toNat })) := by
  rw [apply_ite Host.Outcome.next, exec_registerWrite, execRegisterWrite, if_pos rfl]

/-- R7, R14, R20, R37, R381, R406: what the control complex writes, register by register. -/
theorem controlWrites : ControlWrites := by
  refine ⟨fun s v hon => ⟨fun kind a n => exec_write_memory hon, fun a n => exec_write_dram hon, fun kind a n => exec_write_none hon kind a,
    fun part queue => exec_write_launch hon, fun part queue => exec_write_launch_refused hon, fun h h' => ?_, fun h => ?_, fun h => ?_,
    fun h => ?_, fun h => ?_, fun h => ?_, ?_, ?_, ?_, ?_, fun die => ?_, exec_write_unitError hon, exec_write_correction hon,
    exec_write_starved hon, exec_write_slotFault hon⟩, fun s v => ⟨fun h => ?_, fun h => ?_, fun hon => ?_⟩,
    fun s r v hr hoff => ?_, energyIn_addDraw⟩
  · rw [exec_write_ringSize hon, if_pos ⟨h, h'⟩]
  · rw [exec_write_ringSize hon, if_neg]
    rintro ⟨⟨i, hi, hv⟩, hroom⟩
    exact h.elim (fun h => h i hi hv) (fun h => Nat.not_lt.mpr hroom h)
  · rw [exec_write_fatalBase hon, if_pos h]
  · rw [exec_write_fatalBase hon, if_neg (Nat.not_le.mpr h)]
  · rw [exec_write_replayBase hon, if_pos h]
  · rw [exec_write_replayBase hon, if_neg (Nat.not_le.mpr h)]
  · simp [execRegisterWrite, hon]
  · simp [execRegisterWrite, hon]
  · simp [execRegisterWrite, hon]
  · simp [execRegisterWrite, hon, State.clockTo]
  · simp [execRegisterWrite, hon]
  · rw [exec_write_bootFault, if_neg (Nat.not_lt.mpr h)]
  · rw [exec_write_bootFault, if_pos h]
  · simp [execRegisterWrite, hon]
  · simp [execRegisterWrite, hoff, hr]

/-- Settles O54: the steps of the ceilings, the operating points, the power sequence and the registers. -/
theorem powerAndHeat : Obligations.PowerAndHeat := by
  unfold Obligations.PowerAndHeat
  exact ⟨ceilings, operatingPoints, powerSequence, controlWrites⟩

end Sys2Proof.Machine
end

section
/-! O55: the step that issues a bundle of one syllable (R27, R54 to R58, R69, R89). -/

namespace Sys2Proof.Machine

open Sys2Proof.Claims

/-! Where the bundle is fetched (R59, R89). -/

/-- Landing a result leaves the strand's core, code and PC. -/
theorem Strand.landOne_code (t : Strand) (l : Landing) :
    (t.landOne l).core = t.core ∧ (t.landOne l).ig = t.ig ∧ (t.landOne l).pc = t.pc := by
  have hput : (t.putDest l.dest).core = t.core ∧ (t.putDest l.dest).ig = t.ig ∧ (t.putDest l.dest).pc = t.pc := by
    cases l.dest with
    | scalar n v => simp only [Strand.putDest, Strand.setReg]; split <;> exact ⟨rfl, rfl, rfl⟩
    | handle n h => exact ⟨rfl, rfl, rfl⟩
    | line l pm vals masks tag => exact ⟨rfl, rfl, rfl⟩
    | none => exact ⟨rfl, rfl, rfl⟩
  unfold Strand.landOne Strand.orFlags
  dsimp only
  split <;> exact hput

theorem Strand.landDue_code (t : Strand) : t.landDue.core = t.core ∧ t.landDue.ig = t.ig ∧ t.landDue.pc = t.pc := by
  unfold Strand.landDue
  refine foldl_inv (fun x : Strand => x.core = t.core ∧ x.ig = t.ig ∧ x.pc = t.pc) _ (fun x l hx => ?_) _ _ ⟨rfl, rfl, rfl⟩
  obtain ⟨hcore, hig, hpc⟩ := x.landOne_code l
  exact ⟨hcore.trans hx.1, hig.trans hx.2.1, hpc.trans hx.2.2⟩

theorem Half.absentIn_of_none {h : Half} (ha : h.absent = []) (a n : Nat) : h.absentIn a n = none := by
  simp [Half.absentIn, ha]

/-- From a half that holds every page, the bundle at PC is fetched, annulled or not. -/
theorem State.fetch_of_whole (s : State) {t : Strand} {h : Half} (ha : h.absent = []) (hmid : t.mid = false) :
    s.fetch t h = .run (s.bundleAt t t.pc.toNat) := by
  simp [State.fetch, hmid, Half.absentIn_of_none ha]

/-! The attempt of the strand whose turn it is (R27, R58). -/

section
variable {s : State} {k : Nat} {h : Half} {l : List Syll} (hi : Issues s k h l)
include hi

theorem State.tryIssue_of_issues : s.tryIssue k = (landed s k).issueRun h l := by
  obtain ⟨hmv, hwalk, hfence, hcs⟩ := hi.free
  obtain ⟨hcore, hig, hpc⟩ := (tget s.strands k).landDue_code
  have hme : (starts s k).me = tget s.strands k := rfl
  have hwait : ((tget s.strands k).walkHeld || ((tget s.strands k).fenced && (tget s.strands k).holding) ||
      ((tget s.strands k).csFenced && s.csLoading k)) = false := by
    cases hf : (tget s.strands k).fenced <;> cases hc : (tget s.strands k).csFenced <;> simp_all
  have hhalf : (tget (landed s k).cores (tget s.strands k).core).halfOf (tget s.strands k).ig (tget s.strands k).pc.toNat = some h := by
    have := hi.half
    simp only [landed, State.onMe_me, hme, hcore, hig, hpc] at this
    exact this
  have hrun := (landed s k).fetch_of_whole hi.whole.1 hi.whole.2
  rw [hi.bytes] at hrun
  have hissue : (starts s k).issueBundle = (landed s k).issueRun h l := by
    unfold State.issueBundle
    dsimp only
    rw [if_neg]
    · show (match (tget (landed s k).cores (tget s.strands k).core).halfOf (tget s.strands k).ig (tget s.strands k).pc.toNat with
        | none => _ | some h => _) = _
      rw [hhalf]
      show (match (landed s k).fetch (landed s k).me h with | .trap x => _ | .fill => _ | .run l => _) = _
      rw [hrun]
      rfl
    · exact Bool.eq_false_iff.mp hwait
  unfold State.tryIssue
  dsimp only
  rw [if_neg]
  · exact hissue
  · exact Bool.eq_false_iff.mp hmv

/-- What an attempt leaves is settled as the rest of the step. -/
theorem step_of_issueRun {x : State} (hx : (landed s k).issueRun h l = .next x) : step s = .next (settled s x) := by
  obtain ⟨hagenda, hsince, hpick⟩ := hi.turn
  have hattempt : s.attempt k = .next x.afterIssue := by
    rw [State.attempt, State.tryIssue_of_issues hi, hx]
    exact congrArg Host.Outcome.next (if_neg (Bool.eq_false_iff.mp hi.free.1))
  have hcore : s.stepCore = .next { x.afterIssue with sinceEvent := s.sinceEvent + 1 } := by
    simp only [State.stepCore, hagenda, if_neg (Nat.not_le.mpr hsince), hpick, hattempt]
  rw [step, State.oneStep, hcore]
  rfl

theorem step_fault_of_issueRun {f : Fault} (hx : (landed s k).issueRun h l = .fault f) : step s = .fault f := by
  obtain ⟨hagenda, hsince, hpick⟩ := hi.turn
  have hcore : s.stepCore = .fault f := by
    simp only [State.stepCore, hagenda, if_neg (Nat.not_le.mpr hsince), hpick, State.attempt, State.tryIssue_of_issues hi, hx]
  rw [step, State.oneStep, hcore]

end

theorem State.SameButLanes.me {s t : State} (h : s.SameButLanes t) : t.me = s.me := by
  rw [State.me, h.strands, h.cur, State.me]

/-! The bundle (R54, R56, R57, R69). -/

theorem fetched_pc (s : State) (k : Nat) (h : Half) (l : List Syll) : (fetched s k h l).me.pc = (landed s k).me.pc := by
  have hsame := ((landed s k).onMe (fun t => { t with st := 7 })).noteErrors_same (landed s k).cur ((landed s k).fetchRuns h l.length)
  rw [fetched, hsame.me, State.onMe_me]

theorem issueRun_of_annulled {s : State} {k : Nat} (h : Half) (l : List Syll) (ha : (landed s k).me.annulled = true) :
    (landed s k).issueRun h l = .next (((fetched s k h l).onMe
      (fun t => t.advance (t.pc + BitVec.ofNat 56 (8 * l.length)) none)).endBundle) := by
  have hme : (fetched s k h l).onMe (fun t => t.advance (t.pc + BitVec.ofNat 56 (8 * l.length)) none) = (fetched s k h l).onMe
      (fun t => t.advance ((landed s k).me.pc + BitVec.ofNat 56 (8 * l.length)) none) := by
    rw [State.onMe, fetched_pc]
    rfl
  rw [hme]
  exact if_pos ha

section
variable {s : State} {k : Nat} (h : Half) {l : List Syll} (hrun : (landed s k).me.annulled = false)
include hrun

theorem issueRun_of_illegal {e : Reject} {w : Syll} (hd : decodeBundle l = .error (e, w)) :
    (landed s k).issueRun h l = .next ((fetched s k h l).trapBundle { cause := 0x0001, val := w, slot := slotOf w }) := by
  unfold State.issueRun
  dsimp only
  rw [if_neg (Bool.eq_false_iff.mp hrun), hd]
  rfl

theorem issueRun_of_bundle {ys : List Syllable} (hd : decodeBundle l = .ok ys) :
    ∃ s0, (landed s k).issueRun h l = runSyllables s0 (executes s k h l) ys (executes s k h l) := by
  refine ⟨{ landed s k with issue := { next := (landed s k).me.pc + BitVec.ofNat 56 (8 * l.length) } }, ?_⟩
  unfold State.issueRun executes
  dsimp only
  rw [if_neg (Bool.eq_false_iff.mp hrun), hd, fetched_pc]
  rfl

end

/-- The operations of ld and st that a bundle has issued before its first syllable are none (R72). -/
theorem executes_atSyllIn (s : State) (k : Nat) (h : Half) (l : List Syll) (y : Syllable) :
    (executes s k h l).atSyllIn (executes s k h l) y = (executes s k h l).atSyll y := by
  simp only [State.atSyllIn, State.atSyll, State.me, Nat.sub_self]
  rfl

/-- The issue of a bundle of one syllable: nothing where its guard is false, else what its instruction answers (R56, R57). -/
theorem issueRun_single {s : State} {k : Nat} (h : Half) {l : List Syll} {y : Syllable} (hrun : (landed s k).me.annulled = false)
    (hd : decodeBundle l = .ok [y]) :
    let b := executes s k h l
    (b.me.guardHolds y.guard = false → (landed s k).issueRun h l = .next b) ∧
    (b.me.guardHolds y.guard = true → (∀ f, exec y.i (b.atSyll y) = .fault f → (landed s k).issueRun h l = .fault f) ∧
      ∀ x, exec y.i (b.atSyll y) = .next x →
        (x.issue.status = .ok ∨ x.issue.status = .ended → (landed s k).issueRun h l = .next (b.syllPast y x)) ∧
        ∀ tr, x.issue.status = .trapped tr → (landed s k).issueRun h l = .next (b.trapBundle tr)) := by
  obtain ⟨s0, hbundle⟩ := issueRun_of_bundle h hrun hd
  dsimp only
  rw [hbundle]
  refine ⟨fun hg => ?_, fun hg => ⟨fun f hf => ?_, fun x hx => ⟨?_, fun tr htr => ?_⟩⟩⟩
  · simp [runSyllables, hg]
  · simp [runSyllables, hg, executes_atSyllIn, hf]
  · rintro (hok | hended)
    · simp [runSyllables, hg, executes_atSyllIn, hx, hok]
    · simp [runSyllables, hg, executes_atSyllIn, hx, hended]
  · simp [runSyllables, hg, executes_atSyllIn, hx, htr]

/-! The syllables of a bundle (R54, R89, R389). -/

theorem lastSyll_iff (w : Syll) (a : Nat) : lastSyll w a ↔ (stopOf w || decide ((a + 8) % 65536 = 0)) = true := by
  simp [lastSyll]

/-- A syllable of a run: the word at its address, the last one at a stop bit or at the end of the range, or where the run has its
full length; none before it is at the end of the range. -/
theorem runFrom_getElem? (get : Nat → Syll) (n : Nat) : ∀ (a i : Nat) (w : Syll), (runFrom get n a)[i]? = some w →
    i < n ∧ w = get (a + 8 * i) ∧ (∀ j, j < i → (a + 8 * j + 8) % 65536 ≠ 0) ∧
      (lastSyll w (a + 8 * i) ∨ i + 1 = n ↔ (runFrom get n a).length = i + 1) := by
  induction n with
  | zero => intro a i w h; simp [runFrom] at h
  | succ n ih =>
    intro a i w h
    by_cases hlast : lastSyll (get a) a
    · have hrun : runFrom get (n + 1) a = [get a] := by simp only [runFrom, (lastSyll_iff _ _).mp hlast, if_true]
      rw [hrun] at h ⊢
      obtain ⟨rfl, rfl⟩ : i = 0 ∧ get a = w := by simpa [List.getElem?_singleton] using h
      exact ⟨Nat.succ_pos n, rfl, nofun, by simp [hlast]⟩
    · have hrun : runFrom get (n + 1) a = get a :: runFrom get n (a + 8) := by
        simp only [runFrom, Bool.eq_false_iff.mpr (mt (lastSyll_iff _ _).mpr hlast)]
        rfl
      rw [hrun] at h ⊢
      cases i with
      | zero =>
        obtain rfl : get a = w := by simpa using h
        refine ⟨Nat.succ_pos n, rfl, nofun, ?_⟩
        cases n with
        | zero => simp [runFrom]
        | succ n =>
          have hlen : (runFrom get (n + 1) (a + 8)).length ≠ 0 := by
            simp only [runFrom]
            split <;> simp
          simp [hlast, hlen]
      | succ i =>
        obtain ⟨hi, hw, hbefore, hlen⟩ := ih (a + 8) i w (by simpa using h)
        have hat : a + 8 * (i + 1) = a + 8 + 8 * i := by omega
        refine ⟨Nat.succ_lt_succ hi, by rw [hat]; exact hw, fun j hj => ?_, ?_⟩
        · cases j with
          | zero => exact fun h0 => hlast (.inr h0)
          | succ j =>
            have := hbefore j (Nat.lt_of_succ_lt_succ hj)
            rwa [show a + 8 * (j + 1) = a + 8 + 8 * j by omega]
        · rw [hat, List.length_cons, Nat.add_right_cancel_iff, Nat.add_right_cancel_iff]
          exact hlen

/-- The addresses of a run lie in the range of its first syllable. -/
theorem div_eq_of_run {a i : Nat} (ha : a % 8 = 0) (h : ∀ j, j < i → (a + 8 * j + 8) % 65536 ≠ 0) :
    (a + 8 * i) / 65536 = a / 65536 := by
  induction i with
  | zero => rfl
  | succ i ih =>
    have hi := h i (Nat.lt_succ_self i)
    have hdiv := ih (fun j hj => h j (Nat.lt_succ_of_lt hj))
    omega

theorem Half.holds_of_div (h : Half) (ig : BitVec 32) {a b : Nat} (hdiv : b / 65536 = a / 65536) : h.holds ig b = h.holds ig a := by
  rw [Half.holds, Half.holds, hdiv]

theorem State.syllAt_of_half {s : State} {t : Strand} {h : Half} {a b : Nat} (hhalf : (tget s.cores t.core).halfOf t.ig a = some h)
    (hstale : t.stale = []) (hdiv : b / 65536 = a / 65536) : s.syllAt t b = BitVec.ofNat 64 (cnum h.mem (b % 65536) 8) := by
  have hb : (tget s.cores t.core).halfOf t.ig b = some h := by
    rw [← hhalf, Core.halfOf, Core.halfOf, Half.holds_of_div _ _ hdiv, Half.holds_of_div _ _ hdiv]
  simp [State.syllAt, hb, hstale, tfind]

/-! The selector (R27). -/

theorem leastBy_mem {f : Nat → Nat} {l : List Nat} {k : Nat} (h : leastBy f l = some k) : k ∈ l := by
  cases l with
  | nil => simp [leastBy] at h
  | cons x r =>
    obtain rfl : r.foldl (fun a y => if f y < f a then y else a) x = k := by simpa [leastBy] using h
    have hfold (r : List Nat) : ∀ x, r.foldl (fun a y => if f y < f a then y else a) x ∈ x :: r := by
      induction r with
      | nil => simp
      | cons y r ih =>
        intro x
        have := ih (if f y < f x then y else x)
        by_cases hyx : f y < f x <;> simp only [List.foldl_cons, hyx, if_true, if_false, List.mem_cons] at this ⊢ <;> tauto
    exact hfold r x

/-- What the selector picks is ready. -/
theorem State.ready_of_pick {s : State} {k : Nat} (h : s.pick = some k) : s.ready k = true := by
  unfold State.pick State.pickRoutine at h
  dsimp only at h
  split at h
  · simp at h
  · split at h
    · have := leastBy_mem h
      simp only [List.mem_filter] at this
      exact this.1.2
    · have := leastBy_mem h
      split at this <;> simp only [List.mem_filter] at this
      · exact this.1.2
      · exact this.1.1.2

/-- Settles O55: the attempt of the strand whose turn it is, from the fetch to what settles after it. -/
theorem stepRunsDecoded : Obligations.StepRunsDecoded := by
  unfold Obligations.StepRunsDecoded
  refine ⟨fun s k h l y hi hrun hd => ?_, fun s k h l hi => ⟨fun ha => ?_, fun e w hrun hd => ?_⟩,
    fun s t h a i w hhalf hstale ha hw => ?_, fun s k h => State.ready_of_pick h⟩
  · obtain ⟨hoff, hon⟩ := issueRun_single h hrun hd
    refine ⟨fun hg x hx => ?_, fun hg f hf => step_fault_of_issueRun hi ((hon hg).1 f hf), fun hg => step_of_issueRun hi (hoff hg)⟩
    obtain ⟨hends, htraps⟩ := (hon hg).2 x hx
    exact ⟨fun h => step_of_issueRun hi (hends h), fun tr h => step_of_issueRun hi (htraps tr h)⟩
  · exact step_of_issueRun hi (issueRun_of_annulled h l ha)
  · exact step_of_issueRun hi (issueRun_of_illegal h hrun hd)
  · obtain ⟨hi, rfl, hbefore, hlen⟩ := runFrom_getElem? (s.syllAt t) 8 a i w hw
    refine ⟨hi, State.syllAt_of_half hhalf hstale (div_eq_of_run ha hbefore), ?_⟩
    rw [State.bundleAt, ← hlen, Nat.succ_inj (b := 7)]

end Sys2Proof.Machine
end

section
/-! O36: pipes and WAIT (R47, R72, R264), and what a meaning answers that waits or traps. -/

namespace Sys2Proof.Machine

open Sys2Proof.Claims

/-! What a meaning answers. -/

theorem traps_of_finish {i : Instr} {s : State} {c : BitVec 16} {v : Word} (h : exec i s = finish s (trapE c v)) : Traps i s c v :=
  ⟨_, h.trans (finish_trap s { cause := c, val := v } (by simp)), rfl⟩

theorem waits_of_finish {i : Instr} {s : State} (h : exec i s = finish s waitE) : Waits i s := h

theorem memSame_of_eq {s t : State} (hmem : t.mem = s.mem) (hclusters : t.clusters = s.clusters) : MemSame s t :=
  ⟨hmem, fun c pa => by rw [State.cacheByte, State.cacheByte, hmem, hclusters]⟩

/-- What a fence at the end of a meaning leaves of the strand (R141, R143). -/
theorem State.fenceMe_me (s : State) (scope : Nat) : (s.fenceMe scope).me = fencedBy s scope s.me := by
  simp only [State.fenceMe, State.onMe_me]
  rfl

theorem State.fenceMe_other (s : State) (scope : Nat) {k : Nat} (h : k ≠ s.cur) :
    tfind (s.fenceMe scope).strands k = tfind s.strands k := s.onMe_other _ h

/-- A result in flight, and a fence behind it, change the issuing strand alone. -/
theorem onlyMe_fenceMe_landS (s : State) (n : Nat) (d : BitVec 6) (v : Word) (scope : Nat) :
    OnlyMe s ((s.landS n d v).fenceMe scope) (fencedBy s scope (flying s n (.scalar d v))) := by
  refine ⟨?_, rfl, fun k hk => ?_⟩
  · rw [State.fenceMe_me, fencedBy, fencedBy, State.landS_me]
    rfl
  · rw [State.fenceMe_other (s.landS n d v) scope hk]
    exact State.land_other s _ _ _ hk

theorem State.tget_onGang (s : State) {g : Nat} (f : Gang → Gang) (h : (tfind s.gangs g).isSome) :
    tget (s.onGang g f).gangs g = f (tget s.gangs g) := tget_tmod _ _ h

/-! Pipes (R47, R264). -/

theorem State.pipeOf_of_lt {s : State} {o : FmtEA} (h : o.imm.toNat % 16 < (tget s.batches s.gang.batch).pn) :
    s.pipeOf o = .ok (o.imm.toNat % 16, tget s.gang.pipes (o.imm.toNat % 16)) := by
  simp only [State.pipeOf, h, decide_true, need_true, Res.bind_ok]
  rfl

theorem State.pipeOf_of_le {s : State} {o : FmtEA} (h : (tget s.batches s.gang.batch).pn ≤ o.imm.toNat % 16) :
    s.pipeOf o = trapE 0x0003 (BitVec.ofNat 64 (o.imm.toNat % 16)) := by
  simp only [State.pipeOf, Nat.not_lt.mpr h, decide_false, need_false, Res.bind_error]
  rfl

/-- Settles O36: each instruction by what its pipe or its counters allow. -/
theorem pipesAndWaits : Obligations.PipesAndWaits := by
  unfold Obligations.PipesAndWaits
  intro s o hgang
  dsimp only
  refine ⟨fun hn => ⟨fun hroom hheld => ?_, fun hfull => ?_, fun v r hl => ?_, fun hl => ?_⟩, fun hn => ⟨?_, ?_⟩, fun hin => ?_, fun hin => ?_⟩
  · have hhold : s.me.holding = false := hheld
    have hready : (decide ((tget s.gang.pipes (o.imm.toNat % 16)).length < (tget s.batches s.gang.batch).pd + 1) && !s.me.holding) = true := by
      simp only [hroom, hhold, decide_true, Bool.not_false, Bool.and_self]
    rw [exec_pwr, execPwr, State.pipeOf_of_lt hn]
    simp only [Res.bind_ok, hready, needReady_true]
    rfl
  · refine waits_of_finish ?_
    have hready : (decide ((tget s.gang.pipes (o.imm.toNat % 16)).length < (tget s.batches s.gang.batch).pd + 1) && !s.me.holding) = false := by
      rcases hfull with hlen | hheld
      · simp [Nat.not_lt.mpr hlen]
      · have hhold : s.me.holding = true := hheld
        simp [hhold]
    rw [exec_pwr, execPwr, State.pipeOf_of_lt hn]
    simp only [Res.bind_ok, hready, needReady_false, Res.bind_error]
    rfl
  · let x : State := s.onGang s.me.gang (fun q => { q with pipes := tset q.pipes (o.imm.toNat % 16) r })
    refine ⟨(x.landS 1 o.sd v).fenceMe 1, ?_, memSame_of_eq rfl rfl, onlyMe_fenceMe_landS x 1 o.sd v 1, ?_⟩
    · rw [exec_prd, execPrd, State.pipeOf_of_lt hn, hl]
      rfl
    · show tget (tget x.gangs s.me.gang).pipes _ = r
      rw [s.tget_onGang _ hgang]
      exact tget_tset_self _ _ _
  · refine waits_of_finish ?_
    rw [exec_prd, execPrd, State.pipeOf_of_lt hn, hl]
    rfl
  · exact traps_of_finish (by rw [exec_pwr, execPwr, State.pipeOf_of_le hn]; rfl)
  · exact traps_of_finish (by rw [exec_prd, execPrd, State.pipeOf_of_le hn]; rfl)
  · simp [execWait, hin]
  · refine waits_of_finish ?_
    rw [exec_wait, execWait]
    dsimp only
    rw [show (decide (s.me.ldq.length - s.issue.ownLd ≤ o.sa.toNat) && decide (s.me.stq.length - s.issue.ownSt ≤ o.sb.toNat) &&
      decide (s.me.cpq.length ≤ o.sc.toNat) && decide (s.me.tlq.length ≤ o.imm.toNat)) = false from ?_]
    · rfl
    · rw [← Bool.not_eq_true]
      simpa [and_assoc] using hin

end Sys2Proof.Machine
end

section
/-! O13: loads from parameter windows (R41, R42, R84, R193). -/

namespace Sys2Proof.Machine

open Sys2Proof.Claims

/-! An access at places that have been checked (R326). -/

theorem State.charges_same (s : State) (part : Nat) (ten : BitVec 4) (f : HeldSpan → Nat) (l : List HeldSpan) :
    let t := l.foldl (fun s p => s.charge part ten p.kind p.pa (f p)) s
    t.mem = s.mem ∧ t.clusters = s.clusters ∧ t.strands = s.strands ∧ t.cur = s.cur := by
  refine foldl_inv (fun t : State => t.mem = s.mem ∧ t.clusters = s.clusters ∧ t.strands = s.strands ∧ t.cur = s.cur) _
    (fun t p ht => ?_) _ _ ⟨rfl, rfl, rfl, rfl⟩
  obtain ⟨hmem, hclusters, hstrands, hcur⟩ := t.charge_same part ten p.kind p.pa (f p)
  exact ⟨hmem.trans ht.1, hclusters.trans ht.2.1, hstrands.trans ht.2.2.1, hcur.trans ht.2.2.2⟩

/-- An access waits at a resource where the tenant is at its cap (R326). -/
theorem State.heldBy_of_capped {s : State} {l : List HeldSpan} (h : Capped s (l.map (fun p => (p.kind, p.pa)))) :
    ∃ res, s.heldBy s.me.part (s.tenantOf s.me) l = some res := by
  obtain ⟨q, hq, x, hx, hcap⟩ := h
  obtain ⟨p, hp, rfl⟩ := List.mem_map.mp hq
  have hfree : s.placeFree s.me.part (s.tenantOf s.me) p.kind p.pa = false := by
    simp only [] at hx
    simp [State.placeFree, hx, hcap]
  obtain ⟨p', hp'⟩ := Option.isSome_iff_exists.mp (List.find?_isSome
    (p := fun p => !s.placeFree s.me.part (s.tenantOf s.me) p.kind p.pa) |>.mpr ⟨p, hp, by rw [hfree]; rfl⟩)
  exact ⟨_, by rw [State.heldBy, hp']; rfl⟩

/-- It waits nowhere where the arbiters serve it. -/
theorem State.heldBy_of_served {s : State} {l : List HeldSpan} (h : Served s (l.map (fun p => (p.kind, p.pa)))) :
    s.heldBy s.me.part (s.tenantOf s.me) l = none := by
  rw [State.heldBy, Option.map_eq_none_iff, List.find?_eq_none]
  intro p hp
  have hfree : s.placeFree s.me.part (s.tenantOf s.me) p.kind p.pa = true := by
    rw [State.placeFree, Option.all_eq_true]
    intro r hr
    obtain ⟨hcap, hfirst⟩ := h _ (List.mem_map_of_mem hp) r hr
    simp [hcap, hfirst]
  simp [hfree]

/-! Windows (R193). -/

/-- The places of a window as the spans of an access. -/
def windowSpans (ps : List (Place × Nat)) : List HeldSpan :=
  ps.map (fun p => { kind := p.1.kind, pa := p.1.pa, va := p.1.va, n := p.2 })

theorem windowSpans_places (ps : List (Place × Nat)) :
    (windowSpans ps).map (fun p => (p.kind, p.pa)) = ps.map (fun p => (p.1.kind, p.1.pa)) := by
  simp [windowSpans]

section
variable {s : State} {d : BitVec 6} {ps : List (Place × Nat)} (wo : Bool)
  (hclash : ∀ p ∈ ps, s.me.heldClash p.1.kind p.1.pa p.2 = false)
include hclash

theorem windowSpans_clash : (!(windowSpans ps).any (fun p => s.me.heldClash p.kind p.pa p.n)) = true := by
  simpa [windowSpans] using hclash

/-- A window load at a place where its tenant is at its cap is held (R326). -/
theorem State.accessIssue_window_held (h : Capped s (ps.map (fun p => (p.1.kind, p.1.pa)))) :
    ∃ res, s.accessIssue { work := .window d, spans := windowSpans ps } wo = .ok (({ s with nextId := s.nextId + 1 } : State).pushLd
      .none wo (some { work := .window d, spans := windowSpans ps, res := res, num := s.nextId })) := by
  obtain ⟨res, hres⟩ := State.heldBy_of_capped ((windowSpans_places ps).symm ▸ h)
  refine ⟨res, ?_⟩
  rw [State.accessIssue]
  simp only [windowSpans_clash hclash, needReady_true, Res.bind_ok, hres]
  rfl

/-- One that the arbiters serve reads its bytes at their home (R193, log 33). -/
theorem State.accessIssue_window_served (h : Served s (ps.map (fun p => (p.1.kind, p.1.pa)))) :
    ∃ x : State, s.accessIssue { work := .window d, spans := windowSpans ps } wo =
        .ok (x.pushLd (.scalar d (BitVec.ofNat 64 (leNat (s.readPlaces ps)))) wo) ∧
      x.mem = s.mem ∧ x.clusters = s.clusters ∧ x.strands = s.strands ∧ x.cur = s.cur := by
  refine ⟨_, ?_, s.charges_same s.me.part (s.tenantOf s.me) (fun p => p.n) (windowSpans ps)⟩
  rw [State.accessIssue]
  simp only [windowSpans_clash hclash, needReady_true, Res.bind_ok, State.heldBy_of_served ((windowSpans_places ps).symm ▸ h)]
  have hbytes : (windowSpans ps).flatMap (fun p => s.readMem p.kind p.pa p.n) = s.readPlaces ps := by
    simp [windowSpans, State.readPlaces, List.flatMap_map]
  rw [← hbytes]
  rfl

end

theorem exec_window {s : State} {i : Instr} {o : FmtLP} {n : Nat} (hi : (i = .ldpW o ∧ n = 4) ∨ (i = .ldpD o ∧ n = 8)) :
    exec i s = loadP n o s := by
  rcases hi with ⟨rfl, rfl⟩ | ⟨rfl, rfl⟩ <;> rfl

/-- A window load whose window is bound, whose offset is aligned and whose bytes can be read is an access at their places. -/
theorem loadP_of_places {s : State} {o : FmtLP} {n : Nat} {ps : List (Place × Nat)}
    (hv : (cget s.me.pw o.pw.toNat).getLsbD 63 = true) (halign : ((s.reg o.sa).toNat + o.imm.toNat) % n = 0) (hld : s.me.ldq.length < 63)
    (hps : s.vPlaces (fld (cget s.me.pw o.pw.toNat) 0 50 * 64 + ((s.reg o.sa).toNat + o.imm.toNat))
      (min n (64 * (fld (cget s.me.pw o.pw.toNat) 50 11 + 1) - ((s.reg o.sa).toNat + o.imm.toNat))) 1 1 = .ok ps) :
    loadP n o s = finish s (s.accessIssue { work := .window o.sd, spans := windowSpans ps }
      (64 * (fld (cget s.me.pw o.pw.toNat) 50 11 + 1) < (s.reg o.sa).toNat + o.imm.toNat + n)) := by
  rw [loadP]
  simp only [show bitAt (cget s.me.pw o.pw.toNat) 63 = true from hv, halign, hps, needLd, hld, decide_true, need_true, needReady_true,
    Res.bind_ok]
  rfl

theorem windowReads : WindowReads := by
  intro s i o n ps hi w off lim hv halign hld hps places hclash
  have hbase : fld w 0 50 = w.toNat % 2 ^ 50 := by simp [fld]
  have hloadP : exec i s = finish s (s.accessIssue { work := .window o.sd, spans := windowSpans ps } (lim < off + n)) :=
    (exec_window hi).trans (loadP_of_places hv halign hld (hbase.symm ▸ hps))
  refine ⟨fun hcap => ?_, fun hserved => ?_⟩
  · obtain ⟨res, hres⟩ := State.accessIssue_window_held (d := o.sd) (decide (lim < off + n)) hclash hcap
    rw [hres] at hloadP
    refine ⟨_, { work := .window o.sd, spans := windowSpans ps, res := res, num := s.nextId }, hloadP, memSame_of_eq rfl rfl,
      windowSpans_places ps, rfl, nofun, ?_⟩
    rw [if_pos rfl]
    exact ⟨State.onMe_me _ _, rfl, fun k hk => State.onMe_other _ _ hk⟩
  · obtain ⟨x, hx, hmem, hclusters, hstrands, hcur⟩ :=
      State.accessIssue_window_served (d := o.sd) (decide (lim < off + n)) hclash hserved
    rw [hx] at hloadP
    have hme : x.me = s.me := by rw [State.me, hstrands, hcur, State.me]
    refine ⟨_, hloadP, memSame_of_eq hmem hclusters, ?_, hcur, fun k hk => ?_⟩
    · rw [State.pushLd_me, hme]
    · rw [← hcur] at hk
      rw [State.pushLd, State.onMe_other _ _ hk, hstrands]

theorem windowTraps : WindowTraps := by
  intro s i o n hi
  refine ⟨fun hv => ?_, fun hv halign => ?_⟩
  · refine traps_of_finish ?_
    rw [exec_window hi, loadP]
    have hbound : bitAt (cget s.me.pw o.pw.toNat) 63 = false := hv
    simp only [hbound, need_false, Res.bind_error]
    rfl
  · refine traps_of_finish ?_
    rw [exec_window hi, loadP]
    have hbound : bitAt (cget s.me.pw o.pw.toNat) 63 = true := hv
    simp only [hbound, need_true, Res.bind_ok, halign, decide_false, need_false, Res.bind_error]
    rfl

/-- Settles O13: a window load that is bound, aligned and readable, and the two traps. -/
theorem windowLoads : Obligations.WindowLoads := by
  unfold Obligations.WindowLoads
  exact ⟨windowReads, windowTraps⟩

end Sys2Proof.Machine
end

section
/-! O37: the end of a bundle, of a strand, of a gang and of a batch (R31, R48, R265). -/

namespace Sys2Proof.Machine

open Sys2Proof.Claims

/-! What the device's own writes leave (R26, R48, R74). -/

/-- The device writes memory alone. -/
theorem State.devWrite_eq (s : State) (part va : Nat) (l : List Byte) : ∃ m, s.devWrite part va l = { s with mem := m } := by
  unfold State.devWrite
  refine foldl_inv (fun x : State => ∃ m, x = { s with mem := m }) _ (fun x i hx => ?_) _ _ ⟨s.mem, rfl⟩
  obtain ⟨m, rfl⟩ := hx
  dsimp only
  split
  · split
    · exact ⟨_, rfl⟩
    · exact ⟨m, rfl⟩
  · exact ⟨m, rfl⟩

theorem State.badEntry_same (s : State) (a : Nat) : s.SameButLanes (s.badEntry a) := s.postFatal_same _

theorem State.noteWalk_same (s : State) (part : Nat) (va : BitVec 56) : s.SameButLanes (s.noteWalk part va) := by
  unfold State.noteWalk State.noteFound
  dsimp only
  split
  · exact (s.noteAs_same _ _).trans (State.badEntry_same _ _)
  · exact s.noteAs_same _ _

theorem State.noteRun_same (s : State) (part va n : Nat) : s.SameButLanes (s.noteRun part va n) :=
  foldl_inv (fun x : State => s.SameButLanes x) _ (fun x _ hx => hx.trans (x.noteWalk_same _ _)) _ _ (.refl s)

/-- Two states differ at most in memory, in the device part and in partitions. -/
structure State.SameButWrites (s t : State) : Prop where
  strands : t.strands = s.strands
  gangs : t.gangs = s.gangs
  batches : t.batches = s.batches
  cores : t.cores = s.cores
  clusters : t.clusters = s.clusters
  cmds : t.cmds = s.cmds
  cur : t.cur = s.cur
  issue : t.issue = s.issue
  now : t.now = s.now

theorem State.SameButWrites.refl (s : State) : s.SameButWrites s := by constructor <;> rfl

theorem State.SameButWrites.trans {s t u : State} (h : s.SameButWrites t) (k : t.SameButWrites u) : s.SameButWrites u where
  strands := k.strands.trans h.strands
  gangs := k.gangs.trans h.gangs
  batches := k.batches.trans h.batches
  cores := k.cores.trans h.cores
  clusters := k.clusters.trans h.clusters
  cmds := k.cmds.trans h.cmds
  cur := k.cur.trans h.cur
  issue := k.issue.trans h.issue
  now := k.now.trans h.now

theorem State.SameButWrites.me {s t : State} (h : s.SameButWrites t) : t.me = s.me := by
  rw [State.me, h.strands, h.cur, State.me]

theorem State.SameButLanes.writes {s t : State} (h : s.SameButLanes t) : s.SameButWrites t :=
  ⟨h.strands, h.gangs, h.batches, h.cores, h.clusters, h.cmds, h.cur, h.issue, h.now⟩

theorem State.devWrite_same (s : State) (part va : Nat) (l : List Byte) : s.SameButWrites (s.devWrite part va l) := by
  obtain ⟨m, hm⟩ := s.devWrite_eq part va l
  rw [hm]
  constructor <;> rfl

theorem State.writeFolio_same (s : State) (t : Strand) : s.SameButWrites (s.writeFolio t) :=
  (s.noteRun_same _ _ _).writes.trans (State.devWrite_same _ _ _ _)

/-! The end of a bundle (R48, R265). -/

theorem State.completeMe_of_unbound {s : State} (h : s.issue.bound = none) :
    s.completeMe = (s.onMe (fun t => t.advance s.issue.next s.issue.redirect)).endBundle := by
  rw [State.completeMe, State.advanceMe, State.startBound]
  simp only [State.onMe_issue, h]

theorem State.completeMe_me {s : State} (h : s.issue.bound = none) : s.completeMe.me = bundleDone s := by
  rw [State.completeMe_of_unbound h]
  exact State.onMe_me s (fun t => t.advance s.issue.next s.issue.redirect)

theorem State.completeMe_other {s : State} (h : s.issue.bound = none) {k : Nat} (hk : k ≠ s.cur) :
    tfind s.completeMe.strands k = tfind s.strands k := by
  rw [State.completeMe_of_unbound h]
  exact s.onMe_other (fun t => t.advance s.issue.next s.issue.redirect) hk

theorem bundleDone_gang (s : State) : (bundleDone s).gang = s.me.gang := rfl

/-- END (R48). -/
theorem exec_endR_ended (s : State) (o : FmtEA) (h : s.issue.bound = none) : ∃ t, exec (.endR o) s = .next t ∧ MemSame s t ∧
    OnlyMe s t { bundleDone s with ended := true } ∧ t.issue.status = .ended := by
  have hc := State.completeMe_of_unbound h
  refine ⟨_, rfl, ?_, ⟨?_, ?_, fun k hk => ?_⟩, ?_⟩
  · rw [hc]
    exact memSame_of_eq rfl rfl
  · rw [State.onMe_me, State.completeMe_me h]
  · rw [hc]
    rfl
  · have hcur : s.completeMe.cur = s.cur := by rw [hc]; rfl
    rw [State.onMe_other _ _ (hcur.symm ▸ hk), State.completeMe_other h hk]
  · rw [hc]
    rfl

/-- YIELD of a strand whose gang nobody has asked to leave (R31). -/
theorem exec_yield_ended (s : State) (o : FmtEA) (h : s.issue.bound = none) (hpre : s.gang.pre = none) :
    ∃ t, exec (.yield o) s = .next t ∧ t.issue.status = .ended ∧
      t.me = { bundleDone s with st := 1, fs := false, yieldHold := t.me.yieldHold } ∧
      (∃ l, t.me.yieldHold = some l) ∧ ∀ k, k ≠ s.cur → tfind t.strands k = tfind s.strands k := by
  let y : State := s.completeMe.onMe (fun t => { t with st := 1, fs := false })
  have hc := State.completeMe_of_unbound h
  have hcur : s.completeMe.cur = s.cur := by rw [hc]; rfl
  have hme : y.me = { bundleDone s with st := 1, fs := false } := by
    rw [State.onMe_me, State.completeMe_me h]
  have hsame := y.writeFolio_same y.me
  have hgang : (y.writeFolio y.me).gang.pre = none := by
    rw [State.gang, hsame.me, hsame.gangs, hme]
    show (tget y.gangs s.me.gang).pre = none
    rw [show y.gangs = s.gangs by show s.completeMe.gangs = s.gangs; rw [hc]; rfl]
    exact hpre
  let z : State := y.writeFolio y.me
  let l : List Nat × Nat := ((z.strands.filter (fun e => e.1 ≠ z.cur && e.2.core = z.me.core && z.canIssue e.1)).map (·.1), z.now + 64)
  have hexec : exec (.yield o) s = .next (z.onMe (fun t => { t with yieldHold := some l })) := by
    rw [exec_yield, execYield]
    dsimp only
    rw [hgang]
  refine ⟨_, hexec, ?_, ?_, ⟨l, ?_⟩, fun k hk => ?_⟩
  · rw [State.onMe_issue, hsame.issue]
    show s.completeMe.issue.status = .ended
    rw [hc]
    rfl
  · rw [State.onMe_me, hsame.me, hme]
  · rw [State.onMe_me]
  · rw [State.onMe_other _ _ (hsame.cur.symm ▸ hcur.symm ▸ hk), hsame.strands, State.onMe_other _ _ (hcur.symm ▸ hk),
      State.completeMe_other h hk]

theorem State.tget_onStrand (s : State) {k : Nat} (f : Strand → Strand) (h : (tfind s.strands k).isSome) :
    tget (s.onStrand k f).strands k = f (tget s.strands k) := tget_tmod _ _ h

theorem State.tfind_onStrand (s : State) (k : Nat) (f : Strand → Strand) (j : Nat) :
    tfind (s.onStrand k f).strands j = if j = k then (tfind s.strands k).map f else tfind s.strands j := tfind_tmod _ _ _ _

/-! The end of a strand and of its gang (R48). -/

theorem State.transfer_eq (s : State) (first last : Nat) : ∃ d, s.transfer first last = { s with dev := d } := by
  unfold State.transfer
  dsimp only
  split
  · exact ⟨s.dev, rfl⟩
  · exact ⟨_, rfl⟩

/-- The end of rounds changes no count of a batch (R322). -/
theorem State.endRound_gangsEnded (s : State) (bt b ph n : Nat) :
    (tget (s.endRound bt b ph).batches n).gangsEnded = (tget s.batches n).gangsEnded ∧ (s.endRound bt b ph).strands = s.strands ∧
      (s.endRound bt b ph).gangs = s.gangs := by
  have hset (x : Batch) (hx : x.gangsEnded = (tget s.batches bt).gangsEnded) :
      (tget (tset s.batches bt x) n).gangsEnded = (tget s.batches n).gangsEnded := by
    rw [tget_tset]
    split
    · rename_i h
      rw [hx, h]
    · rfl
  let Counted (t : State) : Prop := (tget t.batches n).gangsEnded = (tget s.batches n).gangsEnded ∧ t.strands = s.strands ∧ t.gangs = s.gangs
  refine iteInduction (motive := Counted) (fun _ => ⟨rfl, rfl, rfl⟩) fun _ =>
    iteInduction (motive := Counted) (fun _ => ?_) fun _ => ⟨hset _ rfl, rfl, rfl⟩
  obtain ⟨d, hd⟩ := State.transfer_eq _ _ _
  rw [hd]
  exact ⟨hset _ rfl, rfl, rfl⟩

theorem State.endRounds_gangsEnded (s : State) (bt n : Nat) :
    (tget (s.endRounds bt).batches n).gangsEnded = (tget s.batches n).gangsEnded ∧ (s.endRounds bt).strands = s.strands ∧
      (s.endRounds bt).gangs = s.gangs := by
  unfold State.endRounds
  refine foldl_inv (fun x : State => (tget x.batches n).gangsEnded = (tget s.batches n).gangsEnded ∧ x.strands = s.strands ∧
    x.gangs = s.gangs) _ (fun x r hx => ?_) _ _ ⟨rfl, rfl, rfl⟩
  obtain ⟨hended, hstrands, hgangs⟩ := x.endRound_gangsEnded bt r.1 r.2.1 n
  exact ⟨hended.trans hx.1, hstrands.trans hx.2.1, hgangs.trans hx.2.2⟩

theorem State.offsetsIdle_eq (s : State) (part : Nat) : ∃ d, s.offsetsIdle part = { s with dev := d } := by
  unfold State.offsetsIdle
  split
  · exact ⟨s.dev, rfl⟩
  · exact ⟨_, rfl⟩

/-- A gang that is over is placed no more, and its batch counts it (R48). -/
theorem State.gangOver_spec (s : State) (g : Nat) : (s.gangOver g).strands = s.strands ∧
    ((tfind s.gangs g).isSome → (tget (s.gangOver g).gangs g).placed = false) ∧
    ((tfind s.batches (tget s.gangs g).batch).isSome → (tget (s.gangOver g).batches (tget s.gangs g).batch).gangsEnded =
      (tget s.batches (tget s.gangs g).batch).gangsEnded + 1) := by
  let y : State := ({ s with batches := tmod s.batches (tget s.gangs g).batch (fun b => { b with gangsEnded := b.gangsEnded + 1 }) } : State).onGang g
    (fun x => { x with placed := false, gate := false, pipes := [], bars := [], blocks := [], pre := none, halt := none })
  obtain ⟨d, hd⟩ := (y.endRounds (tget s.gangs g).batch).offsetsIdle_eq (tget s.gangs g).part
  have hover : s.gangOver g = { y.endRounds (tget s.gangs g).batch with dev := d } := hd
  obtain ⟨hended, hstrands, hgangs⟩ := y.endRounds_gangsEnded (tget s.gangs g).batch (tget s.gangs g).batch
  rw [hover]
  refine ⟨hstrands, fun h => ?_, fun h => hended.trans ?_⟩
  · show (tget (y.endRounds _).gangs g).placed = false
    rw [hgangs]
    exact congrArg Gang.placed (State.tget_onGang _ _ h)
  · show (tget (tmod s.batches _ (fun b => { b with gangsEnded := b.gangsEnded + 1 })) _).gangsEnded = _
    rw [tget_tmod _ _ h]

/-- A strand that retires: its folio says ST 5, and its context is free; gangs and batches stay (R48). -/
theorem State.retire_spec (s : State) (k : Nat) (h : (tfind s.strands k).isSome) :
    (tget (s.retire k).strands k).st = 5 ∧ (tget (s.retire k).strands k).resident = false ∧ (tget (s.retire k).strands k).fs = false ∧
      (∀ j, j ≠ k → tfind (s.retire k).strands j = tfind s.strands j) ∧ (s.retire k).gangs = s.gangs ∧ (s.retire k).batches = s.batches := by
  let y : State := s.onStrand k (fun t => { t.landAll with st := 5, written := true, fs := false })
  have hsame := y.writeFolio_same (tget y.strands k)
  have hstrands : (s.retire k).strands =
      tmod y.strands k (fun t => { t with resident := false, blocked := false, yieldHold := none }) := by
    rw [← hsame.strands]
    rfl
  have hy : tget y.strands k = { (tget s.strands k).landAll with st := 5, written := true, fs := false } := s.tget_onStrand _ h
  have hk : (tfind y.strands k).isSome := by
    rw [show tfind y.strands k = _ from s.tfind_onStrand k _ k, if_pos rfl]
    simpa using h
  rw [hstrands, tget_tmod _ _ hk, hy]
  refine ⟨rfl, rfl, rfl, fun j hj => ?_, hsame.gangs, hsame.batches⟩
  rw [tfind_tmod, if_neg hj]
  exact (s.tfind_onStrand k _ j).trans (if_neg hj)

/-- The retirement of an ended strand whose operations have completed, and the end of its gang (R48). -/
theorem exec_strandRetirement_done (s : State) (k : Nat) (hk : (tfind s.strands k).isSome) (hended : (tget s.strands k).ended = true)
    (hres : (tget s.strands k).resident = true) (hdrained : (tget s.strands k).drained = true) (hmv : (tget s.strands k).micro.mv = false)
    (hhalt : (tget s.gangs (tget s.strands k).gang).halt = none) : ∃ t, exec (.strandRetirement k) s = .next t ∧
      (tget t.strands k).st = 5 ∧ (tget t.strands k).resident = false ∧ (tget t.strands k).fs = false ∧
      ((tfind s.gangs (tget s.strands k).gang).isSome → (tfind s.batches (tget s.gangs (tget s.strands k).gang).batch).isSome →
        (∀ j ∈ (tget s.gangs (tget s.strands k).gang).strands, j = k ∨ (tget s.strands j).st = 5) →
        (tget t.gangs (tget s.strands k).gang).placed = false ∧ (tget t.batches (tget s.gangs (tget s.strands k).gang).batch).gangsEnded =
          (tget s.batches (tget s.gangs (tget s.strands k).gang).batch).gangsEnded + 1) := by
  obtain ⟨hst, hresident, hfs, hothers, hgangs, hbatches⟩ := s.retire_spec k hk
  have hexec : exec (.strandRetirement k) s = .next (if (s.retire k).gangDone (tget s.strands k).gang
      then (s.retire k).gangOver (tget s.strands k).gang else s.retire k) := by
    have hready : ((tget s.strands k).ended && (tget s.strands k).resident && (tget s.strands k).drained &&
        !(tget s.strands k).micro.mv) = true := by simp [hended, hres, hdrained, hmv]
    have hnone : (tget (s.retire k).gangs (tget s.strands k).gang).halt.isSome = false := by rw [hgangs, hhalt]; rfl
    rw [exec_strandRetirement, execStrandRetirement]
    simp only [hready, if_true, hnone]
    rfl
  obtain ⟨hover, hplaced, hcount⟩ := (s.retire k).gangOver_spec (tget s.strands k).gang
  refine ⟨_, hexec, ?_⟩
  by_cases hdone : (s.retire k).gangDone (tget s.strands k).gang = true
  · rw [if_pos hdone, hover]
    refine ⟨hst, hresident, hfs, fun hg hb _ => ?_⟩
    rw [hgangs] at hplaced hcount
    rw [hbatches] at hcount
    exact ⟨hplaced hg, hcount hb⟩
  · rw [if_neg hdone]
    refine ⟨hst, hresident, hfs, fun hg hb hall => absurd ?_ hdone⟩
    rw [State.gangDone, hgangs, List.all_eq_true]
    intro j hj
    by_cases hjk : j = k
    · simp [hjk, hst]
    · have := (hall j hj).resolve_left hjk
      simpa [tget, hothers j hjk] using this

/-! The completion of a batch (R48). -/

theorem leNat_lt (l : List Byte) : leNat l < 256 ^ l.length := by
  induction l with
  | nil => exact Nat.one_pos
  | cons b r ih =>
    have := b.isLt
    rw [leNat, List.length_cons, Nat.pow_succ]
    omega

/-- The bytes of a number, read again (R5). -/
theorem leNat_leBytes (n : Nat) : ∀ v, leNat (leBytes n v) = v % 256 ^ n := by
  induction n with
  | zero => intro v; simp [leBytes, leNat, Nat.mod_one]
  | succ n ih =>
    intro v
    rw [leBytes, leNat, ih, BitVec.toNat_ofNat, Nat.pow_succ 256 n, Nat.mul_comm (256 ^ n) 256, Nat.mod_mul]

theorem leNat_dwBytes (w : Word) : leNat (dwBytes w) = w.toNat := by
  rw [dwBytes, leNat_leBytes]
  exact Nat.mod_eq_of_lt w.isLt

theorem dwBytes_length (w : Word) : (dwBytes w).length = 8 := leBytes_length 8 _

/-- A write of the device within a page that the walk maps with the write right (log 22). -/
theorem State.devWrite_of_leaf {s : State} {part va : Nat} {l : List Byte} {f : Leaf} (hl : l ≠ []) (hpage : va % 4096 + l.length ≤ 4096)
    (hwalk : s.walk part (BitVec.ofNat 56 va) = .leaf f) (hkd : f.kd < 2) (hpw : f.pw = true)
    (hpa : paExists f.kd (f.at va) l.length = true) : s.devWrite part va l = s.writeMem f.kd (f.at va) l := by
  have hlen : 0 < l.length := List.length_pos_iff.mpr hl
  have hone : (va + l.length - 1) / 4096 - va / 4096 + 1 = 1 := by omega
  have hlo : max va (4096 * (va / 4096 + 0)) = va := by omega
  have hhi : min (va + l.length) (4096 * (va / 4096 + 0 + 1)) = va + l.length := by omega
  have hempty : l.isEmpty = false := by simpa using hl
  unfold State.devWrite
  simp only [hempty, Bool.false_eq_true, if_false, hone, List.range_one, List.foldl_cons, List.foldl_nil, hlo, hhi, hwalk,
    Nat.add_sub_cancel_left, hkd, hpw, hpa, decide_true, Bool.and_self, if_true, Nat.sub_self, List.drop_zero, List.take_length]

theorem cnum_writeMem (s : State) (kind pa : Nat) (l : List Byte) :
    cnum (s.writeMem kind pa l).mem (memKey kind pa) l.length = leNat l := congrArg leNat (cread_cwrite_self _ _ _)

/-- A cluster without lines has nothing to write back (R93). -/
theorem State.flush_of_no_line {s : State} {c : Nat} (h : (tget s.clusters c).lines = []) (p : Nat → Bool) (inval : Bool) :
    s.flush c p inval = s := by
  rw [State.flush, h]
  rfl

theorem mem_of_tfind {α : Type} {t : Table α} {j : Nat} {x : α} (h : tfind t j = some x) : (j, x) ∈ t := by
  induction t with
  | nil => cases h
  | cons p r ih =>
    obtain ⟨a, y⟩ := p
    rw [tfind] at h
    split at h
    · simp_all
    · exact List.mem_cons_of_mem _ (ih h)

theorem tget_lines_of_empty {s : State} (h : ∀ c ∈ s.clusters, c.2.lines = []) (c : Nat) : (tget s.clusters c).lines = [] := by
  unfold tget
  cases hc : tfind s.clusters c with
  | none => rfl
  | some k => exact h (c, k) (mem_of_tfind hc)

/-- The completion word of a batch, bit by bit (R48). -/
theorem completionWord_bits (e : Bool) (t : BitVec 32) :
    let w : Word := (1 : BitVec 1) ++ ofBool 1 e ++ (0 : BitVec 30) ++ t
    w.getLsbD 63 = true ∧ w.getLsbD 62 = e ∧ w.extractLsb' 32 30 = 0 ∧ w.extractLsb' 0 32 = t := by
  refine ⟨?_, ?_, BitVec.eq_of_getLsbD_eq fun i hi => ?_, BitVec.eq_of_getLsbD_eq fun i hi => ?_⟩
  · rw [BitVec.getLsbD_append, BitVec.getLsbD_append, BitVec.getLsbD_append]; rfl
  · rw [BitVec.getLsbD_append, BitVec.getLsbD_append, BitVec.getLsbD_append]; cases e <;> rfl
  · simp only [BitVec.getLsbD_extractLsb', BitVec.getLsbD_append]
    simp [hi]
  · simp only [BitVec.getLsbD_extractLsb', BitVec.getLsbD_append]
    simp [hi]

theorem State.completionWord_same (s : State) (n : Nat) : s.SameButWrites (s.completionWord n) := by
  unfold State.completionWord
  dsimp only
  split
  · exact .refl s
  · split
    · split
      · exact s.devWrite_same _ _ _
      · exact (s.postFatal_same _).writes
    · exact ((s.noteWalk_same _ _).trans (State.postFatal_same _ _)).writes

/-- A completion word is written where its address is mapped with the write right (R48, R394). -/
theorem State.completionWord_of_leaf {s : State} {n : Nat} {b : Batch} {l : Leaf} (hb : tget s.batches n = b) (hcwa : b.cwa ≠ 0)
    (hwalk : s.walk b.part b.cwa = .leaf l) (hpw : l.pw = true) (hkd : l.kd < 2) (halign : b.cwa.toNat % 8 = 0)
    (hpa : paExists l.kd (l.at b.cwa.toNat) 8 = true) : s.completionWord n = s.writeMem l.kd (l.at b.cwa.toNat)
      (dwBytes ((1 : BitVec 1) ++ ofBool 1 b.error ++ (0 : BitVec 30) ++ b.ticket.extractLsb' 0 32)) := by
  have hva : s.walk b.part (BitVec.ofNat 56 b.cwa.toNat) = .leaf l := by rw [BitVec.ofNat_toNat, BitVec.setWidth_eq, hwalk]
  have hlen := dwBytes_length ((1 : BitVec 1) ++ ofBool 1 b.error ++ (0 : BitVec 30) ++ b.ticket.extractLsb' 0 32)
  have hwrite := State.devWrite_of_leaf (l := dwBytes ((1 : BitVec 1) ++ ofBool 1 b.error ++ (0 : BitVec 30) ++ b.ticket.extractLsb' 0 32))
    (List.ne_nil_of_length_pos (by rw [hlen]; decide)) (by rw [hlen]; omega) hva hkd hpw (by rw [hlen]; exact hpa)
  unfold State.completionWord
  simp only [hb, hcwa, if_false, hwalk, hpw, hkd, decide_true, Bool.and_self, if_true]
  exact hwrite

/-- A batch whose gangs are over, with nothing to write back and no successor, completes with its word (R48). -/
theorem exec_batchCompletion_done {s : State} {n : Nat} {b : Batch} (hb : tfind s.batches n = some b) (hopen : b.complete = false)
    (hgangs : b.gc ≤ b.gangsEnded) (hcmds : ∀ x ∈ s.cmds, (tget s.strands x.2.strand).batch ≠ n) (hsuc : ∀ w ∈ b.suc, w = 0)
    (hlines : ∀ c ∈ s.clusters, c.2.lines = []) : exec (.batchCompletion n) s = .next { s.completionWord n with
      batches := tmod (s.completionWord n).batches n (fun b => { b with complete := true }) } := by
  have hget : tget s.batches n = b := tget_of_tfind hb
  have hflush : ((tget s.parts b.part).owns (·.clusters)).foldl (fun s c => s.flush c (fun _ => true) false) s = s :=
    List.foldl_fixed' (fun c => State.flush_of_no_line (tget_lines_of_empty hlines c) _ _) _
  have hrelease : b.suc.foldl (fun s t => s.release b.part n t) s = s :=
    (List.foldl_ext _ (fun s _ => s) s fun s w hw => by rw [hsuc w hw]; rfl).trans (List.foldl_fixed' (fun _ => rfl) _)
  have hready : ((tfind s.batches n).isNone || b.complete || decide (b.gangsEnded < b.gc) ||
      s.cmds.any (fun c => decide ((tget s.strands c.2.strand).batch = n))) = false := by
    simpa [hb, hopen, Nat.not_lt.mpr hgangs] using hcmds
  rw [exec_batchCompletion, execBatchCompletion]
  simp only [hget, hready, hflush, hrelease]
  rfl

/-- Settles O37: END, YIELD, the last strand of a gang, and the completion of a batch with its word. -/
theorem ends : Obligations.Ends := by
  unfold Obligations.Ends
  refine ⟨exec_endR_ended, exec_yield_ended, ?_, ?_⟩
  · intro s k x hk hended hres hld hst hcp htl hmv hhalt
    have hdrained : x.drained = true := by simp [Strand.drained, hld, hst, hcp, htl]
    exact exec_strandRetirement_done s k hk hended hres hdrained hmv hhalt
  · intro s n b hb hopen hgangs hcmds hsuc hlines
    have hsame := s.completionWord_same n
    have hget : tget s.batches n = b := tget_of_tfind hb
    refine ⟨_, exec_batchCompletion_done hb hopen hgangs hcmds hsuc hlines, ?_, hsame.strands, fun hcwa => ?_,
      fun l hcwa hwalk hpw hkd halign hpa => ?_⟩
    · rw [hsame.batches, tfind_tmod, if_pos rfl, hb]
      rfl
    · show (s.completionWord n).mem = s.mem
      rw [State.completionWord, hget, if_pos hcwa]
    · have hmem : cnum (s.completionWord n).mem (memKey l.kd (l.at b.cwa.toNat)) 8 =
          ((1 : BitVec 1) ++ ofBool 1 b.error ++ (0 : BitVec 30) ++ b.ticket.extractLsb' 0 32 : Word).toNat := by
        rw [State.completionWord_of_leaf hget hcwa hwalk hpw hkd halign hpa, ← leNat_dwBytes, ← cnum_writeMem s, dwBytes_length]
      show let w := BitVec.ofNat 64 (cnum (s.completionWord n).mem (memKey l.kd (l.at b.cwa.toNat)) 8); _
      rw [hmem, BitVec.ofNat_toNat, BitVec.setWidth_eq]
      exact completionWord_bits b.error _

end Sys2Proof.Machine
end

section
/-! O33: a future cell in the reach table (R92, R263). Its bytes are the device's, whatever stands in memory at their key, and the FST
field of every cell there is 0. -/

namespace Sys2Proof.Machine

open Sys2Proof.Claims

/-- The highest byte of an entry of the reach table holds DX, which is 0 to 2 (R92). -/
theorem reachByte_high (i : Nat) (h : i % 4 = 3) : (reachByte i).toNat < 64 := by
  unfold reachByte
  dsimp only
  rw [h]
  split
  · rw [BitVec.extractLsb'_append_eq_left]
    decide
  · have he := (Config.reach (i / 4)).isLt
    have hentry : ((0 : BitVec 6) ++ Config.reach (i / 4)).toNat = (Config.reach (i / 4)).toNat :=
      (BitVec.toNat_append _ _).trans (by simp)
    rw [BitVec.extractLsb'_toNat, hentry, Nat.shiftRight_eq_div_pow]
    omega

/-- The FST field of the first cell of the reach table. -/
theorem fst_of_reach (s : State) : fld (dwAt (s.readMem 1 reachBase 16) 8) 62 2 = 0 := by
  have hbytes : ((s.readMem 1 reachBase 16).drop 8).take 8 = [reachByte 8, reachByte 9, reachByte 10, reachByte 11, reachByte 12,
    reachByte 13, reachByte 14, reachByte 15] := by
    simp only [State.readMem, decide_true, Nat.le_refl, Bool.and_self, if_true, Nat.sub_self, Nat.zero_add]
    rfl
  have hhigh := reachByte_high 15 rfl
  have := (reachByte 8).isLt
  have := (reachByte 9).isLt
  have := (reachByte 10).isLt
  have := (reachByte 11).isLt
  have := (reachByte 12).isLt
  have := (reachByte 13).isLt
  have := (reachByte 14).isLt
  rw [dwAt, hbytes, fld, BitVec.toNat_ofNat]
  simp only [leNat]
  omega

/-- A strand with a held load, next to a cell that its page table maps onto the first entries of the reach table; memory at their key
holds an FST of 1, which nobody reads. -/
def reachCell : State :=
  { mem := [(0x1001, 0x20), (0x1007, 0x80), (0x2001, 0x30), (0x2007, 0x80), (0x3001, 0xC0), (0x3002, 0xFF), (0x3003, 0xFF),
      (0x3007, 0xB9), (memKey 1 reachBase + 15, 0x40)],
    strands := [(0, { ldq := [{ held := some {} }] })],
    parts := [(0, { regions := [(0, 0xC000_0000_0000_1000)] })] }

/-- The place of the cell. -/
def reachPlace : Place := { kind := 1, pa := reachBase, va := 0 }

theorem reachCell_cellAt : CellAt reachCell (reachCell.reg 0) 6 reachPlace := by
  refine ⟨by decide, by decide⟩

/-- Memory at the key of the cell says that it is full. -/
theorem reachCell_homeWord : fld (homeWord reachCell reachPlace 8) 62 2 = 1 := by decide

/-- An access of the cell finds the bytes of the reach table. -/
theorem reachCell_cellOf : reachCell.cellOf (reachCell.reg 0) 6 = .ok (reachPlace, reachCell,
    dwAt (reachCell.readMem 1 reachBase 16) 0, dwAt (reachCell.readMem 1 reachBase 16) 8) := by
  have haddress : fld (reachCell.reg 0) 0 4 = 0 := by decide
  rw [State.cellOf]
  simp only [haddress, decide_true, need_true, Res.bind_ok, reachCell_cellAt.place]
  rfl

/-- FFILL reads the cell as the device has it, empty, and waits for the strand's held load (R263, R326). -/
theorem reachCell_waits : Waits (.ffill {}) reachCell := by
  refine waits_of_finish ?_
  have hheld : reachCell.me.holding = true := by decide
  rw [exec_ffill, execFfill]
  simp only [reachCell_cellOf, Res.bind_ok, fst_of_reach, ne_eq, Nat.zero_ne_one, not_false_eq_true, decide_true, need_true, hheld,
    Bool.not_true, needReady_false, Res.bind_error]
  rfl

/-- Refutes O33: FFILL of a cell of the reach table does not trap by the FST that memory holds at the cell's key. -/
theorem not_fencesAndFutures : ¬ Obligations.FencesAndFutures := by
  unfold Obligations.FencesAndFutures
  rintro ⟨⟨-, -, hcells⟩, -⟩
  obtain ⟨-, -, hfull, -⟩ := hcells reachCell {} reachPlace (by decide)
  obtain ⟨t, hexec, htrapped⟩ := hfull reachCell_cellAt reachCell_homeWord
  rw [reachCell_waits] at hexec
  cases hexec
  cases htrapped

end Sys2Proof.Machine
end

section
/-! O38: LAUNCH (R34 to R38, R41, R266). -/

namespace Sys2Proof.Machine

open Sys2Proof.Claims

/-! The release: every line of a cluster's cache is written back and dropped (R93, R141). -/

theorem State.dropLine_line (s : State) (c ln j : Nat) : tfind (tget (s.dropLine c ln).clusters c).lines j =
    if j = ln then none else tfind (tget s.clusters c).lines j := by
  simp [State.dropLine, State.onCluster]

theorem State.dropLine_other (s : State) {c m : Nat} (ln : Nat) (h : m ≠ c) : tget (s.dropLine c ln).clusters m = tget s.clusters m :=
  tget_tset_of_ne _ _ h

theorem State.writeBack_other (s : State) {c m : Nat} (ln : Nat) (h : m ≠ c) : tget (s.writeBack c ln).clusters m = tget s.clusters m := by
  unfold State.writeBack
  split
  · rfl
  · exact tget_tset_of_ne _ _ h

/-- Once a line has been written back its home holds its bytes, so that it may go. -/
theorem State.dropLine_homeByte (s : State) (c ln pa : Nat) :
    homeByte ((s.writeBack c ln).dropLine c ln) c pa = homeByte s c pa := by
  by_cases h : pa / 64 = ln
  · rw [homeByte, State.dropLine_line, if_pos h]
    exact (s.writeBack_mem c ln pa).trans (if_pos h)
  · rw [← s.writeBack_homeByte c ln pa, homeByte, State.dropLine_line, if_neg h]
    rfl

/-- Write a list of lines back and drop them. -/
theorem foldl_dropLine (c : Nat) (L : List Nat) : ∀ s : State,
    let t := L.foldl (fun s ln => (s.writeBack c ln).dropLine c ln) s
    (∃ m k, t = { s with mem := m, clusters := k }) ∧ (∀ pa, homeByte t c pa = homeByte s c pa) ∧
    (∀ j, tfind (tget t.clusters c).lines j = if j ∈ L then none else tfind (tget s.clusters c).lines j) ∧
    ∀ m, m ≠ c → tget t.clusters m = tget s.clusters m := by
  induction L with
  | nil => exact fun s => ⟨⟨_, _, rfl⟩, fun _ => rfl, fun _ => rfl, fun _ _ => rfl⟩
  | cons ln r ih =>
    intro s
    obtain ⟨⟨m, k, ht⟩, hhome, hline, hother⟩ := ih ((s.writeBack c ln).dropLine c ln)
    obtain ⟨m', k', hs⟩ := s.writeBack_eq c ln
    refine ⟨⟨m, k, by rw [List.foldl_cons, ht, hs]; rfl⟩, fun pa => (hhome pa).trans (s.dropLine_homeByte c ln pa), fun j => ?_,
      fun x hx => ((hother x hx).trans (State.dropLine_other _ ln hx)).trans (s.writeBack_other ln hx)⟩
    rw [List.foldl_cons, hline, State.dropLine_line, s.writeBack_line]
    by_cases hj : j = ln
    · simp [hj]
    · cases tfind (tget s.clusters c).lines j <;> simp [hj]

theorem eq_nil_of_tfind {α : Type} {t : Table α} (h : ∀ j, tfind t j = none) : t = [] := by
  cases t with
  | nil => rfl
  | cons p r => simpa [tfind] using h p.1

/-- R93, R141: the fence of die scope or wider. -/
theorem State.fenceCache_fenced (s : State) (c : Nat) {scope : Nat} (hscope : 2 ≤ scope) (h : ∀ e ∈ (tget s.clusters c).lines, e.1 < 2 ^ 33) :
    (∃ m k, s.fenceCache c scope = { s with mem := m, clusters := k }) ∧ Fenced s (s.fenceCache c scope) c scope := by
  obtain ⟨heq, hhome, hline, hother⟩ := foldl_dropLine c (((tget s.clusters c).lines.map (·.1)).filter (fun _ => true)) s
  have hflush : s.fenceCache c scope = (((tget s.clusters c).lines.map (·.1)).filter (fun _ => true)).foldl
      (fun s ln => (s.writeBack c ln).dropLine c ln) s := if_pos hscope
  rw [← hflush] at heq hhome hline hother
  have hnone : (tget (s.fenceCache c scope).clusters c).lines = [] := by
    refine eq_nil_of_tfind fun j => ?_
    rw [hline]
    split
    · rfl
    · rename_i hj
      refine Option.eq_none_iff_forall_not_mem.mpr fun l hl => hj ?_
      exact List.mem_filter.mpr ⟨mem_keys_of_tfind hl, rfl⟩
  have hmem (pa : Nat) : cget (s.fenceCache c scope).mem pa = homeByte s c pa := by
    rw [← hhome pa, homeByte, hnone]
    rfl
  refine ⟨heq, ?_⟩
  rw [Fenced, if_pos hscope]
  exact ⟨hnone, fun pa _ => hmem pa, fun k hk => (hmem k).trans (homeByte_of_le h hk), hother⟩

/-! What the arbiters ask depends neither on memory nor on the caches (R326). -/

/-- The state with another memory and other caches. -/
def State.withHome (s : State) (m : List Host.Cell) (k : Table Cluster) : State := { s with mem := m, clusters := k }

section
variable (s : State) (m : List Host.Cell) (k : Table Cluster) (p : Nat) (t : BitVec 4)

theorem State.logDirty_withHome (kind va : Nat) :
    (s.withHome m k).logDirty p t kind va = (s.logDirty p t kind va).map (fun x => x.withHome m k) := by
  unfold State.logDirty
  simp only [State.withHome]
  split
  · rfl
  · split
    · rfl
    · split <;> rfl

theorem State.logAll_withHome (l : List (Nat × Nat)) : ∀ s : State, ((s.withHome m k).logAll p t l).2 = (s.logAll p t l).2 := by
  induction l with
  | nil => exact fun _ => rfl
  | cons x r ih =>
    intro s
    rw [State.logAll, State.logAll, State.logDirty_withHome]
    cases s.logDirty p t x.1 x.2 with
    | none => rfl
    | some y => exact ih y

theorem State.heldReady_withHome (res j : Nat) : (s.withHome m k).heldReady res j = s.heldReady res j := by
  unfold State.heldReady
  simp only [State.logAll_withHome]
  rfl

theorem State.placeFree_withHome (kind pa : Nat) : (s.withHome m k).placeFree p t kind pa = s.placeFree p t kind pa := by
  unfold State.placeFree State.firstAt
  simp only [State.heldReady_withHome]
  rfl

end

theorem State.placeFree_of_served {s : State} {kind pa : Nat} (h : Served s [(kind, pa)]) :
    s.placeFree s.me.part (s.tenantOf s.me) kind pa = true := by
  rw [State.placeFree, Option.all_eq_true]
  intro x hx
  obtain ⟨hcap, hfirst⟩ := h _ (List.mem_singleton_self _) x hx
  simp [hcap, hfirst]

/-! What reading costs (R325). -/

/-- Only the tallies of bytes served differ, now and in later windows, and the device part. -/
structure State.OnlyCharged (s t : State) : Prop where
  same : s.SameButLanes t
  parts : ∀ n, (tfind t.parts n).isSome = (tfind s.parts n).isSome ∧
    ∃ sv la, tget t.parts n = { tget s.parts n with served := sv, later := la }

theorem State.OnlyCharged.refl (s : State) : s.OnlyCharged s := ⟨.refl s, fun _ => ⟨rfl, _, _, rfl⟩⟩

theorem State.OnlyCharged.trans {s t u : State} (h : s.OnlyCharged t) (k : t.OnlyCharged u) : s.OnlyCharged u := by
  refine ⟨h.same.trans k.same, fun n => ⟨(k.parts n).1.trans (h.parts n).1, ?_⟩⟩
  obtain ⟨sv, la, hu⟩ := (k.parts n).2
  obtain ⟨sv', la', ht⟩ := (h.parts n).2
  exact ⟨sv, la, by rw [hu, ht]⟩

theorem isSome_tfind_tmod {α : Type} (t : Table α) (k n : Nat) (f : α → α) : (tfind (tmod t k f) n).isSome = (tfind t n).isSome := by
  rw [tfind_tmod]
  split
  · rename_i h
    rw [h, Option.isSome_map]
  · rfl

/-- A change of a partition that touches its tallies alone. -/
theorem State.onPart_onlyCharged (s : State) (k : Nat) (f : Partition → Partition)
    (hf : ∀ p, ∃ sv la, f p = { p with served := sv, later := la }) : s.OnlyCharged (s.onPart k f) := by
  refine ⟨by constructor <;> rfl, fun n => ⟨isSome_tfind_tmod s.parts k n f, ?_⟩⟩
  obtain ⟨sv, la, hn⟩ := hf (tget s.parts n)
  by_cases h : n = k ∧ (tfind s.parts n).isSome
  · obtain ⟨rfl, hsome⟩ := h
    exact ⟨sv, la, (tget_tmod s.parts f hsome).trans hn⟩
  · refine ⟨(tget s.parts n).served, (tget s.parts n).later, ?_⟩
    show tget (tmod s.parts k f) n = tget s.parts n
    rw [tget, tget, tfind_tmod]
    split
    · rename_i hk
      have hnone : tfind s.parts n = none := by simpa using fun hs => h ⟨hk, hs⟩
      rw [← hk, hnone]
      rfl
    · rfl

theorem State.chargeAt_onlyCharged (s : State) (part : Nat) (ten : BitVec 4) (res n : Nat) (inw : Bool) :
    s.OnlyCharged (s.chargeAt part ten res n inw) := by
  unfold State.chargeAt
  dsimp only
  refine State.OnlyCharged.trans ?_ (State.onPart_onlyCharged _ _ _ fun p => ?_)
  · split
    · exact .refl s
    · exact ⟨by constructor <;> rfl, fun _ => ⟨rfl, _, _, rfl⟩⟩
  · split <;> exact ⟨_, _, rfl⟩

theorem State.charge_onlyCharged (s : State) (part : Nat) (ten : BitVec 4) (kind pa n : Nat) :
    s.OnlyCharged (s.charge part ten kind pa n) := by
  unfold State.charge
  split
  · exact .refl s
  · exact s.chargeAt_onlyCharged part ten _ n false

theorem State.chargeReads_onlyCharged (s : State) (ps : List (Place × Nat)) : s.OnlyCharged (s.chargeReads ps) :=
  foldl_keeps State.OnlyCharged .refl (fun _ _ _ => .trans) _ (fun t _ => t.charge_onlyCharged _ _ _ _ _) ps s

/-! The meaning of LAUNCH, read by read (R37). -/

/-- What LAUNCH reads at a virtual address (R266). -/
def State.launchRead (s : State) (a n : Nat) : Res (List Byte) := (s.vPlaces a n 2 1).map s.readPlaces

/-- The batch of a record, of the header and the body of its binding list (R34 to R36). -/
def State.launchBatch (s : State) (part queue : Nat) (d head body : List Byte) : Batch :=
  let ng := fld (dwAt head 0) 0 8
  let nb := fld (dwAt head 0) 8 8
  let many := 24 < ng || 64 < nb
  { parseRecord d with
    part := part, queue := queue, ticket := (0 : BitVec 28) ++ BitVec.ofNat 4 queue ++ nextSeq (tget (tget s.parts part).queues queue).seq,
    groups := if many then [] else (List.range ng).map (fun i => BitVec.ofNat 128 (leNat ((body.drop (16 * i)).take 16))),
    binds := if many then [] else (List.range nb).map (fun i => dwAt body (16 * ng + 8 * i)) }

/-- LAUNCH once it has read everything: the checks of reasons 2, 3 and 4, and the entry into the queue. -/
def State.launchChecked (s : State) (part queue : Nat) (d head body pw : List Byte) : Res (Word × State) := do
  let p := tget s.parts part
  let q := tget p.queues queue
  let many := 24 < fld (dwAt head 0) 0 8 || 64 < fld (dwAt head 0) 8 8
  let b := s.launchBatch part queue d head body
  if many || !recordOk d || !bindingsOk head b || !(List.range 8).all (fun i => descriptorOk (dwAt pw (8 * i))) then
    return (launchRefused 2, s)
  if p.unloaded.contains b.ig then return (launchRefused 3, s)
  if (fitGang part b.ig (List.replicate 12 Room.empty) b.needs).isNone then return (launchRefused 4, s)
  let n := s.nextId
  let s : State := { s with nextId := n + 1, batches := tset s.batches n b }
  let q : PQueue := { q with batches := q.batches ++ [n], seq := nextSeq q.seq }
  return (b.ticket, s.onPart part (fun p => { p with queues := tset p.queues queue q }))

/-- LAUNCH once it has read the record and the binding list. -/
def State.launchWindows (s : State) (part queue : Nat) (d head body : List Byte) : Res (Word × State) := do
  let pw ← s.launchRead ((parseRecord d).pwt.toNat / 64 % 2 ^ 50 * 64) 64
  s.launchChecked part queue d head body pw

/-- LAUNCH once it has read the record and the header of the binding list. -/
def State.launchBody (s : State) (part queue : Nat) (d head : List Byte) : Res (Word × State) := do
  let bla := fld (dwAt d 0x70) 6 50 * 64
  let ng := fld (dwAt head 0) 0 8
  let nb := fld (dwAt head 0) 8 8
  let many := 24 < ng || 64 < nb
  let body ← if bla = 0 || many then .ok [] else s.launchRead (bla + 16) (16 * ng + 8 * nb)
  s.launchWindows part queue d head body

/-- LAUNCH once it has read the record. -/
def State.launchList (s : State) (part queue : Nat) (d : List Byte) : Res (Word × State) := do
  let bla := fld (dwAt d 0x70) 6 50 * 64
  let head ← if bla = 0 then .ok [] else s.launchRead bla 16
  s.launchBody part queue d head

/-! The batch and its checks. -/

theorem leNat_append (l r : List Byte) : leNat (l ++ r) = leNat l + 256 ^ l.length * leNat r := by
  induction l with
  | nil => simp [leNat]
  | cons b l ih =>
    rw [List.cons_append, leNat, leNat, ih, List.length_cons, Nat.pow_succ]
    ring

theorem leNat_take_lt (l : List Byte) (n : Nat) : leNat (l.take n) < 256 ^ n :=
  (leNat_lt _).trans_le (Nat.pow_le_pow_right (by decide) (List.length_take_le n l))

/-- Sixteen bytes are two doublewords. -/
theorem ofNat_leNat_take (l : List Byte) (n : Nat) :
    BitVec.ofNat 128 (leNat ((l.drop n).take 16)) = dwAt l (n + 8) ++ dwAt l n := by
  have hlow : leNat ((l.drop n).take 8) < 2 ^ 64 := leNat_take_lt _ 8
  have hhigh : leNat ((l.drop (n + 8)).take 8) < 2 ^ 64 := leNat_take_lt _ 8
  have hsum : leNat ((l.drop n).take 16) = leNat ((l.drop n).take 8) + 2 ^ 64 * leNat ((l.drop (n + 8)).take 8) := by
    rw [show 16 = 8 + 8 from rfl, List.take_add, leNat_append, List.drop_drop]
    by_cases hlen : 8 ≤ (l.drop n).length
    · rw [List.length_take, Nat.min_eq_left hlen]
      rfl
    · have hnil : l.drop (n + 8) = [] := List.drop_eq_nil_of_le (by rw [List.length_drop] at hlen; omega)
      simp [hnil, leNat]
  refine BitVec.eq_of_toNat_eq ?_
  rw [hsum]
  simp only [BitVec.toNat_append, dwAt, BitVec.toNat_ofNat, Nat.mod_eq_of_lt hlow, Nat.mod_eq_of_lt hhigh]
  rw [← Nat.shiftLeft_add_eq_or_of_lt hlow, Nat.shiftLeft_eq]
  omega

/-- The batch that LAUNCH makes of a record and a binding list whose counts are in range (R34 to R36). -/
theorem State.launchBatch_eq (s : State) (queue : Nat) (d head body : List Byte)
    (h : ¬(24 < fld (dwAt head 0) 0 8 ∨ 64 < fld (dwAt head 0) 8 8)) : s.launchBatch s.me.part queue d head body =
      { launched s queue d with
        groups := (List.range (fld (dwAt head 0) 0 8)).map (fun i => dwAt body (16 * i + 8) ++ dwAt body (16 * i)),
        binds := (List.range (fld (dwAt head 0) 8 8)).map (fun i => dwAt body (16 * fld (dwAt head 0) 0 8 + 8 * i)) } := by
  have hmany : (decide (24 < fld (dwAt head 0) 0 8) || decide (64 < fld (dwAt head 0) 8 8)) = false := by simpa using h
  simp only [State.launchBatch, hmany, Bool.false_eq_true, if_false, ofNat_leNat_take]
  rfl

/-- R37: what reason 2 refuses. -/
def LaunchBad (d head pw : List Byte) (b : Batch) : Prop :=
  (24 < fld (dwAt head 0) 0 8 ∨ 64 < fld (dwAt head 0) 8 8) ∨ recordOk d = false ∨ bindingsOk head b = false ∨
    ∃ i, i < 8 ∧ descriptorOk (dwAt pw (8 * i)) = false

theorem launchBad_iff (d head pw : List Byte) (b : Batch) : LaunchBad d head pw b ↔
    (decide (24 < fld (dwAt head 0) 0 8) || decide (64 < fld (dwAt head 0) 8 8) || !recordOk d || !bindingsOk head b ||
      !(List.range 8).all (fun i => descriptorOk (dwAt pw (8 * i)))) = true := by
  simp only [LaunchBad, Bool.or_eq_true, decide_eq_true_eq, Bool.not_eq_true', List.all_eq_false, List.mem_range, Bool.not_eq_true,
    or_assoc]

section
variable {s : State} {part queue : Nat} {d head body pw : List Byte} {b : Batch} (hb : s.launchBatch part queue d head body = b)
include hb

theorem State.launchChecked_bad (hbad : LaunchBad d head pw b) :
    s.launchChecked part queue d head body pw = .ok (launchRefused 2, s) := by
  rw [State.launchChecked]
  simp only [hb, (launchBad_iff d head pw b).mp hbad, if_true]
  rfl

variable (hgood : ¬LaunchBad d head pw b)
include hgood

theorem State.launchChecked_unloaded (h : b.ig ∈ (tget s.parts part).unloaded) :
    s.launchChecked part queue d head body pw = .ok (launchRefused 3, s) := by
  rw [State.launchChecked]
  simp only [hb, Bool.eq_false_iff.mpr ((launchBad_iff d head pw b).not.mp hgood), Bool.false_eq_true, if_false,
    List.contains_iff_mem.mpr h, if_true]
  rfl

variable (hig : b.ig ∉ (tget s.parts part).unloaded)
include hig

theorem State.launchChecked_large (h : ¬(fitGang part b.ig (List.replicate 12 Room.empty) b.needs).isSome) :
    s.launchChecked part queue d head body pw = .ok (launchRefused 4, s) := by
  have hnone : (fitGang part b.ig (List.replicate 12 Room.empty) b.needs).isNone = true := by simpa using h
  rw [State.launchChecked]
  simp only [hb, Bool.eq_false_iff.mpr ((launchBad_iff d head pw b).not.mp hgood), Bool.false_eq_true, if_false,
    Bool.eq_false_iff.mpr (List.contains_iff_mem.not.mpr hig), hnone, if_true]
  rfl

/-- The state with a batch that has entered its queue (R37). -/
theorem State.launchChecked_taken (h : (fitGang part b.ig (List.replicate 12 Room.empty) b.needs).isSome) :
    s.launchChecked part queue d head body pw = .ok (b.ticket,
      ({ s with nextId := s.nextId + 1, batches := tset s.batches s.nextId b } : State).onPart part (fun p => { p with
        queues := tset p.queues queue { tget (tget s.parts part).queues queue with
          batches := (tget (tget s.parts part).queues queue).batches ++ [s.nextId],
          seq := nextSeq (tget (tget s.parts part).queues queue).seq } })) := by
  have hsome : (fitGang part b.ig (List.replicate 12 Room.empty) b.needs).isNone = false := by simpa using h
  rw [State.launchChecked]
  simp only [hb, Bool.eq_false_iff.mpr ((launchBad_iff d head pw b).not.mp hgood), Bool.false_eq_true, if_false,
    Bool.eq_false_iff.mpr (List.contains_iff_mem.not.mpr hig), hsome]
  rfl

end

section
variable {s : State} {part queue : Nat} {a : Word}

theorem State.launchList_bare {d : List Byte} (h : fld (dwAt d 0x70) 6 50 * 64 = 0) :
    s.launchList part queue d = s.launchBody part queue d [] := by
  rw [State.launchList]
  simp only [h, if_true, Res.bind_ok]

theorem State.launchList_listed {d : List Byte} (h : fld (dwAt d 0x70) 6 50 * 64 ≠ 0) :
    s.launchList part queue d = s.launchRead (fld (dwAt d 0x70) 6 50 * 64) 16 >>= s.launchBody part queue d := by
  rw [State.launchList]
  simp only [h, if_false]

theorem State.launchBody_bare {d head : List Byte}
    (h : fld (dwAt d 0x70) 6 50 * 64 = 0 ∨ 24 < fld (dwAt head 0) 0 8 ∨ 64 < fld (dwAt head 0) 8 8) :
    s.launchBody part queue d head = s.launchWindows part queue d head [] := by
  rw [State.launchBody]
  simp only [Bool.or_eq_true, decide_eq_true_eq, h, if_true, Res.bind_ok]

theorem State.launchBody_listed {d head : List Byte}
    (h : ¬(fld (dwAt d 0x70) 6 50 * 64 = 0 ∨ 24 < fld (dwAt head 0) 0 8 ∨ 64 < fld (dwAt head 0) 8 8)) :
    s.launchBody part queue d head = s.launchRead (fld (dwAt d 0x70) 6 50 * 64 + 16)
      (16 * fld (dwAt head 0) 0 8 + 8 * fld (dwAt head 0) 8 8) >>= s.launchWindows part queue d head := by
  rw [State.launchBody]
  simp only [Bool.or_eq_true, decide_eq_true_eq, h, if_false]

/-- The windows stand where the record says (R34, R41). -/
theorem State.launchWindows_eq (d head body : List Byte) : s.launchWindows part queue d head body =
    s.launchRead (fld (dwAt d 0x30) 6 50 * 64) 64 >>= s.launchChecked part queue d head body := by
  have hpwt : (parseRecord d).pwt.toNat / 64 % 2 ^ 50 * 64 = fld (dwAt d 0x30) 6 50 * 64 := by
    simp only [parseRecord, BitVec.extractLsb'_toNat, fld]
    omega
  rw [State.launchWindows, hpwt]

theorem State.launch_misaligned (h : a.toNat % 64 ≠ 0) : s.launch part queue a s.launchRead = trapE cAlign a := by
  have hfld : ¬ fld a 0 6 = 0 := by simpa [fld] using h
  rw [State.launch]
  simp only [hfld, decide_false, need_false, Res.bind_error]
  rfl

variable (h : a.toNat % 64 = 0)
include h

theorem launch_aligned : (need (fld a 0 6 = 0) cAlign a : Res Unit) = .ok () := by
  have hfld : fld a 0 6 = 0 := by simpa [fld] using h
  simp only [hfld, decide_true, need_true]

theorem State.launch_shut (hq : (tget (tget s.parts part).queues queue).qe = false ∨ (tget (tget s.parts part).queues queue).shut = true) :
    s.launch part queue a s.launchRead = .ok (launchRefused 5, s) := by
  have hclosed : (!(tget (tget s.parts part).queues queue).qe || (tget (tget s.parts part).queues queue).shut) = true := by
    rcases hq with hq | hq <;> simp [hq]
  rw [State.launch]
  simp only [launch_aligned h, Res.bind_ok, hclosed, if_true]
  rfl

variable (hqe : (tget (tget s.parts part).queues queue).qe = true) (hshut : (tget (tget s.parts part).queues queue).shut = false)
include hqe hshut

theorem State.launch_full (hfull : 1024 ≤ (tget (tget s.parts part).queues queue).batches.length) :
    s.launch part queue a s.launchRead = .ok (launchRefused 1, s) := by
  rw [State.launch]
  simp only [launch_aligned h, Res.bind_ok, hqe, hshut, hfull, if_true]
  rfl

theorem State.launch_open (hroom : (tget (tget s.parts part).queues queue).batches.length < 1024) :
    s.launch part queue a s.launchRead = s.launchRead a.toNat 128 >>= s.launchList part queue := by
  have hopen : (!(tget (tget s.parts part).queues queue).qe || (tget (tget s.parts part).queues queue).shut) = false := by simp [hqe, hshut]
  rw [State.launch]
  simp only [launch_aligned h, Res.bind_ok, hopen, Bool.false_eq_true, if_false, if_neg (Nat.not_le.mpr hroom)]
  rfl

end

/-! The places of a read (R263). -/

section
variable {s : State} {va n src : Nat} {rq : BitVec 3} (hn : n ≠ 0)
include hn

theorem State.vPlaces_unmapped (h : 2 ^ 56 ≤ va ∨ ∀ l, s.walk s.me.part (BitVec.ofNat 56 va) ≠ .leaf l) :
    s.vPlaces va n src rq = pageFault (BitVec.ofNat 64 va) src rq := by
  have hlo : max va (4096 * (va / 4096 + 0)) = va := by omega
  have hwalk : ∀ l, (if va < 2 ^ 56 then s.walk s.me.part (BitVec.ofNat 56 va) else .absent) ≠ .leaf l := by
    intro l
    split
    · exact h.resolve_left (by omega) l
    · exact nofun
  unfold State.vPlaces
  simp only [hn, if_false, List.range_succ_eq_map, foldE, hlo]
  cases hw : (if va < 2 ^ 56 then s.walk s.me.part (BitVec.ofNat 56 va) else .absent) with
  | leaf l => exact absurd hw (hwalk l)
  | absent => rfl
  | bad pa => rfl

variable {l : Leaf} (hva : va < 2 ^ 56) (hl : s.walk s.me.part (BitVec.ofNat 56 va) = .leaf l)
include hva hl

theorem State.vPlaces_kind (h : l.kd = 2) : s.vPlaces va n src rq = trapE cKind (BitVec.ofNat 64 va) := by
  have hlo : max va (4096 * (va / 4096 + 0)) = va := by omega
  unfold State.vPlaces
  simp only [hn, if_false, List.range_succ_eq_map, foldE, hlo, hva, if_true, hl, h, ne_eq, not_true_eq_false, decide_false, need_false,
    Res.bind_error]
  rfl

theorem State.vPlaces_perm (h : l.kd ≠ 2) (hgrants : l.grants rq = false) :
    s.vPlaces va n src rq = trapE cPerm (BitVec.ofNat 64 va) := by
  have hlo : max va (4096 * (va / 4096 + 0)) = va := by omega
  unfold State.vPlaces
  simp only [hn, if_false, List.range_succ_eq_map, foldE, hlo, hva, if_true, hl, ne_eq, h, not_false_eq_true, decide_true, need_true,
    Res.bind_ok, hgrants, need_false, Res.bind_error]
  rfl

end

/-! What the bundle answers. -/

/-- What LAUNCH of a state does with the answer of the check of a batch (R37, R266). -/
def LaunchAnswers (s : State) (o : FmtEA) (x : Res (Word × State)) : Prop :=
  exec (.launch o) s = finish s (x >>= fun p => .ok (p.2.landS 1 o.sd p.1))

section
variable {s r : State} {o : FmtEA} {x : Res (Word × State)} (h : LaunchAnswers s o x)
include h

theorem LaunchAnswers.traps {tr : Trap} (hx : x = .error (.trap tr)) : ∃ t, exec (.launch o) s = .next t ∧
    t.issue.status = .trapped { tr with slot := if tr.slot = 7 then 7 else s.issue.slot } := by
  rw [LaunchAnswers, hx] at h
  exact ⟨_, h, rfl⟩

theorem LaunchAnswers.value {v : Word} {t : State} (hx : x = .ok (v, t)) : exec (.launch o) s = .next (t.landS 1 o.sd v) := by
  rw [LaunchAnswers, hx] at h
  exact h

/-- A read of LAUNCH that traps. -/
theorem LaunchAnswers.read_traps {a n : Nat} {f : List Byte → Res (Word × State)} (hx : x = r.launchRead a n >>= f) {tr : Trap}
    (htr : r.vPlaces a n 2 1 = .error (.trap tr)) : ∃ t, exec (.launch o) s = .next t ∧
      t.issue.status = .trapped { tr with slot := if tr.slot = 7 then 7 else s.issue.slot } :=
  h.traps (by rw [hx, State.launchRead, htr]; rfl)

/-- One that traps with the address of its first byte. -/
theorem LaunchAnswers.read_traps_at {a : Word} {n : Nat} {f : List Byte → Res (Word × State)} (hx : x = r.launchRead a.toNat n >>= f)
    {c : BitVec 16} (hfault : r.vPlaces a.toNat n 2 1 = trapE c (BitVec.ofNat 64 a.toNat)) : Traps (.launch o) s c a := by
  obtain ⟨t, ht, hstatus⟩ := h.read_traps hx hfault
  refine ⟨t, ht, hstatus.trans ?_⟩
  rw [BitVec.ofNat_toNat, BitVec.setWidth_eq]
  rfl

/-- One that succeeds. -/
theorem LaunchAnswers.read_ok {a n : Nat} {f : List Byte → Res (Word × State)} (hx : x = r.launchRead a n >>= f)
    {ps : List (Place × Nat)} (hps : r.vPlaces a n 2 1 = .ok ps) : LaunchAnswers s o (f (r.readPlaces ps)) := by
  rw [hx, State.launchRead, hps] at h
  exact h

end

/-- A LAUNCH that its arbiters serve: the release and the count of its reads, then the check of the batch (R266, R325, R326). -/
theorem launch_answers {s : State} (o : FmtEA) (hheld : anyHeld s.me = false) (hlines : ∀ e ∈ (tget s.clusters s.cl).lines, e.1 < 2 ^ 33)
    (hserved : ∀ kind pa, Served s [(kind, pa)]) : ∃ r : State, Fenced s r s.cl 3 ∧ (s.withHome r.mem r.clusters).OnlyCharged r ∧
      LaunchAnswers s o (r.launch s.me.part (o.imm.toNat % 16) (s.reg o.sa) r.launchRead) := by
  obtain ⟨⟨m, k, hfence⟩, hfenced⟩ := s.fenceCache_fenced s.cl (scope := 3) (by decide) hlines
  let f : State := s.withHome m k
  have hf : s.fenceCache s.cl 3 = f := hfence
  let ps := f.runPlaces (f.launchRuns s.me.part (o.imm.toNat % 16) (s.reg o.sa) f.launchRead)
  have hcharged := f.chargeReads_onlyCharged ps
  have hmem : (f.chargeReads ps).mem = m := hcharged.same.mem
  have hclusters : (f.chargeReads ps).clusters = k := hcharged.same.clusters
  have hme : (f.chargeReads ps).me = s.me := hcharged.same.me
  have hfree : f.readsFree ps = true := List.all_eq_true.mpr fun p _ =>
    (s.placeFree_withHome m k _ _ _ _).trans (State.placeFree_of_served (hserved _ _))
  have hready : (!s.me.holding) = true := by
    have hhold : s.me.holding = false := hheld
    rw [hhold]
    rfl
  refine ⟨f.chargeReads ps, ?_, ?_, ?_⟩
  · rw [hf] at hfenced
    simp only [Fenced, hmem, hclusters] at hfenced ⊢
    exact hfenced
  · rw [hmem, hclusters]
    exact hcharged
  · rw [LaunchAnswers, exec_launch, execLaunch, hf]
    simp only [hready, needReady_true, Res.bind_ok]
    show finish s (needReady (f.readsFree ps) >>= fun _ => (f.chargeReads ps).launch (f.chargeReads ps).me.part (o.imm.toNat % 16)
      ((f.chargeReads ps).reg o.sa) (f.chargeReads ps).launchRead >>= fun p => .ok (p.2.landS 1 o.sd p.1)) = _
    have hreg : (f.chargeReads ps).reg o.sa = s.reg o.sa := by rw [State.reg, hme, State.reg]
    rw [hfree, needReady_true, Res.bind_ok, hme, hreg]

theorem State.tget_onPart (s : State) {n : Nat} (f : Partition → Partition) (h : (tfind s.parts n).isSome) :
    tget (s.onPart n f).parts n = f (tget s.parts n) := tget_tmod _ _ h

theorem State.tget_onPart_queue (s : State) {part queue : Nat} {q : PQueue} (h : (tfind s.parts part).isSome) :
    tget (tget (s.onPart part (fun p => { p with queues := tset p.queues queue q })).parts part).queues queue = q := by
  rw [s.tget_onPart _ h]
  exact tget_tset_self _ _ _

theorem State.OnlyCharged.queue {s r : State} (h : s.OnlyCharged r) (n q : Nat) :
    tget (tget r.parts n).queues q = tget (tget s.parts n).queues q := by
  obtain ⟨_, _, _, hn⟩ := h.parts n
  rw [hn]

theorem State.OnlyCharged.unloaded {s r : State} (h : s.OnlyCharged r) (n : Nat) :
    (tget r.parts n).unloaded = (tget s.parts n).unloaded := by
  obtain ⟨_, _, _, hn⟩ := h.parts n
  rw [hn]

/-- Settles O38: read by read, each of which traps or goes on, and then check by check. -/
theorem launches : Obligations.Launches := by
  unfold Obligations.Launches
  refine ⟨fun s o hheld => waits_of_finish ?_, fun s o hheld hlines hserved => ?_⟩
  · have hready : (!s.me.holding) = false := by
      have hhold : s.me.holding = true := hheld
      rw [hhold]
      rfl
    rw [exec_launch, execLaunch]
    simp only [hready, needReady_false, Res.bind_error]
    rfl
  obtain ⟨r, hfenced, hcharged, hanswers⟩ := launch_answers o hheld hlines hserved
  have hme : r.me = s.me := hcharged.same.me
  have hqueue : tget (tget r.parts s.me.part).queues (o.imm.toNat % 16) = tget (tget s.parts s.me.part).queues (o.imm.toNat % 16) :=
    hcharged.queue _ _
  have hunloaded : (tget r.parts s.me.part).unloaded = (tget s.parts s.me.part).unloaded := hcharged.unloaded _
  refine ⟨r, hfenced, hcharged.same.strands, hcharged.parts, hcharged.same.batches, hcharged.same.nextId, hcharged.same.cur,
    hcharged.same.issue, fun halign => ?_, fun halign => ?_⟩
  · exact hanswers.traps (State.launch_misaligned halign)
  rw [← hqueue]
  refine ⟨fun hshut => hanswers.value (State.launch_shut halign hshut), fun hqe hshut hfull => hanswers.value (State.launch_full halign hqe hshut hfull),
    fun hqe hshut hroom => ?_⟩
  have hopen := State.launch_open halign hqe hshut hroom
  refine ⟨fun hunmapped => ?_, fun l hva hl => ⟨fun hkd => ?_, fun hkd hpr => ?_⟩, fun tr htr => hanswers.read_traps hopen htr, fun ps hps => ?_⟩
  · have hfault := State.vPlaces_unmapped (s := r) (n := 128) (src := 2) (rq := 1) (by decide) (hme ▸ hunmapped)
    obtain ⟨t, ht, hstatus⟩ := hanswers.read_traps hopen hfault
    refine ⟨t, ht, hstatus.trans ?_⟩
    rw [BitVec.ofNat_toNat, BitVec.setWidth_eq]
    rfl
  · exact hanswers.read_traps_at hopen (State.vPlaces_kind (by decide) hva (hme ▸ hl) hkd)
  · exact hanswers.read_traps_at hopen (State.vPlaces_perm (by decide) hva (hme ▸ hl) hkd (by simp [Leaf.grants, hpr, bitAt]))
  have hlist := hanswers.read_ok hopen hps
  refine ⟨fun hbla tr htr => hlist.read_traps (State.launchList_listed hbla) htr, fun hs hhs => ?_⟩
  have hbody : LaunchAnswers s o (r.launchBody s.me.part (o.imm.toNat % 16) (r.readPlaces ps) (r.readPlaces hs)) := by
    split at hhs
    · rename_i hbla
      rw [State.launchList_bare hbla] at hlist
      rw [hhs]
      exact hlist
    · rename_i hbla
      exact hlist.read_ok (State.launchList_listed hbla) hhs
  refine ⟨fun hbla hmany tr htr => hbody.read_traps (State.launchBody_listed (not_or.mpr ⟨hbla, hmany⟩)) htr, fun bs hbs => ?_⟩
  have hwindows : LaunchAnswers s o (r.launchWindows s.me.part (o.imm.toNat % 16) (r.readPlaces ps) (r.readPlaces hs) (r.readPlaces bs)) := by
    split at hbs
    · rename_i hbare
      rw [State.launchBody_bare hbare] at hbody
      rw [hbs]
      exact hbody
    · rename_i hlisted
      exact hbody.read_ok (State.launchBody_listed hlisted) hbs
  refine ⟨fun tr htr => hwindows.read_traps (State.launchWindows_eq _ _ _) htr, fun qs hqs => ?_⟩
  have hchecked := hwindows.read_ok (State.launchWindows_eq _ _ _) hqs
  intro b bad fits
  by_cases hmany : 24 < fld (dwAt (r.readPlaces hs) 0) 0 8 ∨ 64 < fld (dwAt (r.readPlaces hs) 0) 8 8
  · exact ⟨fun _ => hchecked.value (State.launchChecked_bad rfl (.inl hmany)), fun h => absurd (.inl hmany) h, fun h => absurd (.inl hmany) h,
      fun h => absurd (.inl hmany) h⟩
  have hlaunched : launched r (o.imm.toNat % 16) (r.readPlaces ps) = launched s (o.imm.toNat % 16) (r.readPlaces ps) := by
    simp only [launched, hme, hqueue]
  have hb : r.launchBatch s.me.part (o.imm.toNat % 16) (r.readPlaces ps) (r.readPlaces hs) (r.readPlaces bs) = b := by
    rw [← hme, State.launchBatch_eq r _ _ _ _ hmany, hlaunched]
  refine ⟨fun hbad => hchecked.value (State.launchChecked_bad hb hbad), fun hgood hig => ?_, fun hgood hig hlarge => ?_,
    fun hgood hig hfits hpart => ?_⟩
  · exact hchecked.value (State.launchChecked_unloaded hb hgood (hunloaded ▸ hig))
  · exact hchecked.value (State.launchChecked_large hb hgood (hunloaded ▸ hig) hlarge)
  · have htaken := hchecked.value (State.launchChecked_taken hb hgood (hunloaded ▸ hig) hfits)
    have hnext : r.nextId = s.nextId := hcharged.same.nextId
    rw [← hnext]
    refine ⟨_, htaken, memSame_of_eq rfl rfl, ⟨State.landS_me _ _ _ _, rfl, fun k hk => State.land_other _ _ _ _ hk⟩, rfl, ?_, ?_⟩
    · exact (tfind_tset _ _ _ _).trans (if_pos rfl)
    · have hpart' : (tfind r.parts s.me.part).isSome := (hcharged.parts _).1.trans hpart
      exact State.tget_onPart_queue _ hpart'

end Sys2Proof.Machine
end

section
/-! O50: an unload while a strand that has ended is still in its context (R48, R50). -/

namespace Sys2Proof.Machine

open Sys2Proof.Claims

/-- A strand of image generation 1 has ended and drains a store: it holds its context until the store completes (R48). Its core has
code of the generation. -/
def draining : State :=
  { strands := [(1, { ig := 1, resident := true, ended := true, stq := [{}] })],
    parts := [(0, { live := true, res := { clusters := [0] } })],
    cores := [(0, { half0 := { filled := true, ig := 1 } })] }

/-- Nothing counts as carrying generation 1 that has not ended. -/
theorem draining_not_carried : ¬Carried draining 0 1 := by
  unfold Carried
  decide

/-- Nothing is freed of generations that are all in use. -/
theorem State.sweep_of_used {s : State} {part : Nat} (h : ∀ ig ∈ (tget s.parts part).unloaded, s.igUsed part ig = true) :
    s.sweep part = s := by
  have hnone : ((tget s.parts part).unloaded.filter (fun ig => !s.igUsed part ig)).isEmpty = true := by
    rw [List.isEmpty_iff, List.filter_eq_nil_iff]
    exact fun ig hig => by simp [h ig hig]
  rw [State.sweep]
  simp only [hnone, if_true]

/-- The context of the strand holds its generation, so that an unload leaves its code where it is (R50). -/
theorem draining_unload : ∃ t, exec (.unload 0 1) draining = .next t ∧ t.cores = draining.cores := by
  let s : State := draining.onPart 0 (fun p => { p with unloaded := [1] })
  have hused : ∀ ig ∈ (tget s.parts 0).unloaded, s.igUsed 0 ig = true := List.forall_mem_singleton.mpr rfl
  exact ⟨s.sweep 0, rfl, (congrArg State.cores (State.sweep_of_used hused)).trans rfl⟩

/-- Refutes O50: what an unload frees is said of generations that no strand carries that has not ended, but a strand that has ended
and whose operations are outstanding still holds its context and so its generation's code (R48, R50). -/
theorem not_mappings : ¬ Obligations.Mappings := by
  unfold Obligations.Mappings
  rintro ⟨hunload, -⟩
  obtain ⟨t, ht, -, -, -, hfreed⟩ := hunload draining 0 1 (by decide)
  obtain ⟨u, hu, hcores⟩ := draining_unload
  obtain rfl : t = u := Host.Outcome.next.inj (ht.symm.trans hu)
  have hcore : tfind t.cores 0 = some { half0 := { filled := true, ig := 1 } } := by
    rw [hcores]
    decide
  obtain ⟨hhalf, -⟩ := hfreed draining_not_carried 0 _ (by decide) hcore
  exact hhalf rfl rfl

end Sys2Proof.Machine
end

section
/-! O41: a breakpoint in a handler, while a result of the interrupted code is about to land (R74, R382, R385). -/

namespace Sys2Proof.Machine

open Sys2Proof.Claims

/-! A strand that leaves its context (R74). -/

theorem State.writeFrame_same (s : State) (t : Strand) : s.SameButWrites (s.writeFrame t) :=
  (s.noteRun_same _ _ _).writes.trans (State.devWrite_same _ _ _ _)

theorem State.freeContext_strands (s : State) (k : Nat) : (s.freeContext k).strands =
    tmod s.strands k (fun t => { t with resident := false, blocked := false, yieldHold := none }) := rfl

/-- What a strand that is suspended with ST `st` is when its frame is written: the results that are due have landed (R59, R74). -/
def Strand.suspended (t : Strand) (st : BitVec 4) : Strand :=
  let x := if t.micro.mv then t.landLanes else t.landLanes.landDue
  { x with st := st, fs := true, written := true, halted := true, fly := x.fly.map (fun l => { l with walk := false }) }

/-- A strand that is suspended for a fault has its context freed, and no other strand changes. -/
theorem State.takeOut_suspended {s : State} {k : Nat} (hended : (tget s.strands k).ended = false) :
    (s.takeOut k 3).strands = tmod (tmod s.strands k (fun t => t.suspended 3)) k
      (fun t => { t with resident := false, blocked := false, yieldHold := none }) ∧ (s.takeOut k 3).gangs = s.gangs ∧
      (s.takeOut k 3).cur = s.cur := by
  let y : State := s.onStrand k (fun t => t.suspended 3)
  have hsame := (((y.noteAs_same _ _).writes.trans ((y.noteErrors k (tget y.strands k).arrayRuns).writeFrame_same (tget y.strands k))).trans
    (State.writeFolio_same _ (tget y.strands k)))
  have htaken : s.takeOut k 3 = ((((y.noteErrors k (tget y.strands k).arrayRuns).writeFrame (tget y.strands k)).writeFolio
      (tget y.strands k)).freeContext k) := by
    have hnever : ((3 : BitVec 4) = 2) = False ∧ ((3 : BitVec 4) = 4) = False ∧ ((3 : BitVec 4) = 8) = False := by decide
    unfold State.takeOut
    simp only [hended, hnever, decide_false, Bool.and_false, Bool.false_eq_true, if_false]
    rfl
  rw [htaken, State.freeContext_strands, hsame.strands]
  exact ⟨rfl, hsame.gangs, hsame.cur⟩

/-! The halt of a gang (R31, R74). -/

/-- A gang whose halt begins: no strand issues any more, and waits that have not ended are withdrawn. -/
def State.haltBegun (s : State) (g : Nat) (st : BitVec 4) : State :=
  let x := tget s.gangs g
  let s := x.strands.foldl (fun s k =>
    let t := tget s.strands k
    if t.written || t.halted then s
    else
      let fin := s.grantWaits t.part k || x.bars.any (fun b => b.2.released.contains t.rank)
      (s.withdraw t.part k).onStrand k (fun t => { t with halted := true, finishing := fin && !t.ended })) s
  let s := s.onGang g (fun x => { x with bars := tmap x.bars (fun _ b => { b with waiting := [] }) })
  s.onGang g (fun x => { x with halt := match x.halt with
    | some h => if st = 8 || (st = 3 && h.st = 4) then some { st := st } else some h
    | none => some { st := st } })

theorem State.haltGang_begun {s : State} {g : Nat} (st : BitVec 4) (h : ((tget s.gangs g).killed || (tget s.gangs g).stopped) = false) :
    s.haltGang g st = (s.haltBegun g st).haltStep g := by
  unfold State.haltGang
  simp only [h, Bool.false_eq_true, if_false]
  rfl

/-- The strands that may leave are taken out; the gang stays while another has not left. -/
theorem State.haltStep_stays {s : State} {g : Nat} {h : Halt} (hhalt : (tget s.gangs g).halt = some h)
    (hquiet : ((tget s.gangs g).strands.any (fun k => (tget s.strands k).goesOn) || s.readsFirst g) = false) {t : State}
    (htaken : (tget s.gangs g).strands.foldl (fun s k => if (tget s.strands k).mayLeave then s.takeOut k h.st else s) s = t)
    (hstays : (tget t.gangs g).strands.all (fun k => (tget t.strands k).written) = false) : s.haltStep g = t := by
  rw [State.haltStep, hhalt]
  simp only [hquiet, Bool.false_eq_true, if_false, htaken, hstays]

/-! A handler that breaks. -/

/-- Strand 1 of a gang of two is in its handler, and a result of the interrupted code that raises the invalid flag lands before its next bundle;
strand 4 has a load outstanding. -/
def handling : State :=
  { cur := 1, parts := [(0, { live := true })],
    strands := [(1, { gang := 2, batch := 3, resident := true, ha := true, steps := 5, fly := [{ due := 6, origin := 3, ff := ffV, pre := true }] }),
      (4, { gang := 2, batch := 3, rank := 1, resident := true, ctx := 1, ldq := [{}] })],
    gangs := [(2, { batch := 3, placed := true, gate := true, started := true, strands := [1, 4] })],
    batches := [(3, {})] }

/-- That machine with its gang halted by BRK. -/
def broken : State :=
  (handling.completeMe.postReplay (handling.completeMe.recordOf 1 { cause := cBreak, slot := 7 })).haltBegun 2 3

theorem handling_liveGang : LiveGang handling := ⟨by decide, by decide, by decide, by decide⟩

/-- Strand 1 leaves, with the flag in the status that its handler has saved (R385); strand 4 still drains its load. -/
theorem handling_brk : ∃ t, exec (.brk {}) handling = .next t ∧ t.me.sys = [(4, 0x800)] := by
  obtain ⟨hstrands, hgangs, hcur⟩ := State.takeOut_suspended (s := broken) (k := 1) (by decide)
  refine ⟨broken.takeOut 1 3, ?_, ?_⟩
  · have hbegun : handling.completeMe.gangFault { cause := cBreak, slot := 7 } = broken.haltStep 2 := State.haltGang_begun 3 (by decide)
    refine (exec_brk handling {}).trans (congrArg Host.Outcome.next ?_)
    refine hbegun.trans (State.haltStep_stays (h := { st := 3 }) (by decide) (by decide) ?_ ?_)
    · have hlist : (tget broken.gangs 2).strands = [1, 4] := by decide
      have hfirst : (tget broken.strands 1).mayLeave = true := by decide
      have hsecond : (tget (broken.takeOut 1 3).strands 4).mayLeave = false := by
        rw [hstrands]
        decide
      simp only [hlist, List.foldl_cons, List.foldl_nil, hfirst, if_true, hsecond, Bool.false_eq_true, if_false]
    · rw [hgangs, hstrands]
      decide
  · rw [State.me, hstrands, hcur]
    decide

/-- Refutes O41: a strand that BRK suspends in its handler does not keep its system registers where a result of the interrupted code lands
before its frame is written: the flags of the result are ORed into TSTS too (R59, R385). -/
theorem not_undeliverableTraps : ¬ Obligations.UndeliverableTraps := by
  unfold Obligations.UndeliverableTraps
  rintro ⟨-, -, -, hbreakpoints, -⟩
  obtain ⟨t, ht, -, -, hsuspended⟩ := hbreakpoints handling {}
  obtain ⟨-, -, -, hunbound⟩ := hsuspended handling_liveGang (by decide)
  obtain ⟨-, hkept, -⟩ := hunbound (by decide)
  obtain ⟨u, hu, hsys⟩ := handling_brk
  obtain rfl : t = u := Host.Outcome.next.inj (ht.symm.trans hu)
  exact absurd (hsys.symm.trans hkept) (by decide)

end Sys2Proof.Machine
end

section
/-! O46: a gang placed again whose strand names another gang (R76). -/

namespace Sys2Proof.Machine

open Sys2Proof.Claims

/-- Gang 2 has run and stands at the head of queue 5. Its one strand has a folio at 0x2000, with PC 0, and a frame of zeros at 0x3000, but it
names gang 0, which there is not, as its own, and the device keeps 8 as its PC. -/
def strayed : State :=
  { mem := [(0x1001, 0x20), (0x1007, 0x80), (0x2001, 0x30), (0x2007, 0x80), (0x3003, 0x40), (0x3007, 0xB8), (0x4000_2020, 0x14), (0x4000_2022, 0x01)],
    strands := [(1, { fs := true, st := 4, fol := 0x2000, fb := 0x3000, pc := 8 })],
    gangs := [(2, { firstPlaced := true, strands := [1] })],
    parts := [(0, { live := true, res := { clusters := [0] }, regions := [(0, 0xC000_0000_0000_1000)], tokenAt := 10000,
                    queues := [(5, { head := [2] })] })] }

theorem strayed_winner : strayed.winner 0 = some { queue := 5, entry := .gang 2, cores := [0] } := by decide

theorem strayed_folio : ∃ l, strayed.devRead 0 0x2000 64 = some l ∧ folioOk l = true ∧ dwAt l 0 = 0 := ⟨_, rfl, by decide, by decide⟩

theorem strayed_mem {k : Nat} (h : 0x4000_3000 ≤ k) : cget strayed.mem k = 0 := by
  simp only [strayed, cget]
  repeat rw [if_neg (by omega)]

theorem dwAt_of_zero {l : List Byte} (h : ∀ b ∈ l, b = 0) (o : Nat) : dwAt l o = 0 := by
  have hsum (r : List Byte) : (∀ b ∈ r, b = 0) → leNat r = 0 := by
    induction r with
    | nil => exact fun _ => rfl
    | cons b r ih =>
      intro hr
      rw [leNat, hr b List.mem_cons_self, ih fun x hx => hr x (List.mem_cons_of_mem _ hx)]
      rfl
  rw [dwAt, hsum _ fun b hb => h b (List.mem_of_mem_drop (List.mem_of_mem_take hb))]
  rfl

/-- A page of its frame. -/
def strayedPage (i : Nat) : List Byte := cread strayed.mem (0x4000_3000 + 4096 * i) 4096

theorem strayedPage_zero {i : Nat} {b : Byte} (h : b ∈ strayedPage i) : b = 0 := by
  obtain ⟨j, -, rfl⟩ := List.mem_map.mp h
  exact strayed_mem (by omega)

theorem strayed_frame : ∃ f, strayed.devRead 0 0x3000 (frameSize {}) = some f ∧ ∀ o, dwAt f o = 0 := by
  refine ⟨_, rfl, fun o => dwAt_of_zero (fun b hb => ?_) o⟩
  have hpages : b ∈ ((((([] ++ strayedPage 0) ++ strayedPage 1) ++ strayedPage 2) ++ strayedPage 3) ++ strayedPage 4) := hb
  simp only [List.mem_append, List.not_mem_nil, false_or] at hpages
  obtain (((h | h) | h) | h) | h := hpages <;> exact strayedPage_zero h

/-- Its context is not restored: the strand is taken for one that is placed for the first time. -/
theorem strayed_placed : ∃ t, exec (.schedulerPlacement 0) strayed = .next t ∧ (tget t.strands 1).pc = 8 := ⟨_, rfl, by decide⟩

/-- Refutes O46: a gang that has run restores a strand from its folio only where the strand names that gang, which the claim about a gang placed
again does not ask for. -/
theorem not_placement : ¬ Obligations.Placement := by
  unfold Obligations.Placement
  rintro ⟨-, hagain, -⟩
  obtain ⟨l, hfolio, hok, hpc⟩ := strayed_folio
  obtain ⟨f, hframe, hzero⟩ := strayed_frame
  obtain ⟨t, ht, -, -, -, -, -, hrestored⟩ := hagain strayed 0 2 { queue := 5, entry := .gang 2, cores := [0] } (by decide) strayed_winner rfl (by decide)
    (by decide) (by decide) (by decide) (by decide) (by
      intro k hk
      obtain rfl : k = 1 := List.mem_singleton.mp hk
      refine ⟨by decide, by decide, by decide, ⟨l, hfolio, hok⟩, f, hframe, fun i _ hgv => ?_⟩
      rw [hzero] at hgv
      cases hgv)
  obtain ⟨-, ⟨hz, -⟩, -⟩ := hrestored 1 0 l f (by decide) hfolio hframe
  obtain ⟨u, hu, hkept⟩ := strayed_placed
  obtain rfl : t = u := Host.Outcome.next.inj (ht.symm.trans hu)
  rw [hpc, hkept] at hz
  exact absurd hz (by decide)

end Sys2Proof.Machine
end

section
/-! O56: words that the spec writes out. -/

namespace Sys2Proof.Machine

/-- Settles O56: each word is decoded. -/
theorem decodeWords : Obligations.DecodeWords := by
  unfold Obligations.DecodeWords
  refine ⟨rfl, rfl, rfl, rfl, rfl, rfl, rfl, rfl, rfl, rfl, rfl, rfl⟩

end Sys2Proof.Machine
end

section
/-! O3: results in flight (R59, R60, R62). -/

namespace Sys2Proof.Machine

open Sys2Proof.Claims

/-! Landing (R59). -/

/-- A result that is not due is not seen. -/
theorem Strand.landDue_of_not_due {t : Strand} (h : ∀ l ∈ t.fly, t.steps < l.due) : t.landDue = t := by
  have hdue : t.fly.filter (fun l => decide (l.due ≤ t.steps)) = [] := by simpa [List.filter_eq_nil_iff] using h
  have hrest : t.fly.filter (fun l => !decide (l.due ≤ t.steps)) = t.fly := by simpa [List.filter_eq_self] using h
  rw [Strand.landDue, hdue, hrest]
  rfl

/-- The only result that is due lands; the others stay in flight. -/
theorem Strand.landDue_of_head_due {t : Strand} {l : Landing} {rest : List Landing} (hfly : t.fly = l :: rest) (hl : l.due ≤ t.steps)
    (hrest : ∀ x ∈ rest, t.steps < x.due) : t.landDue = ({ t with fly := rest } : Strand).landOne l := by
  have hdue : t.fly.filter (fun l => decide (l.due ≤ t.steps)) = [l] := by
    simpa [hfly, hl, List.filter_eq_nil_iff] using hrest
  have hleft : t.fly.filter (fun l => !decide (l.due ≤ t.steps)) = rest := by
    simpa [hfly, hl, List.filter_eq_self] using hrest
  rw [Strand.landDue, hdue, hleft]
  rfl

/-- Flags and WO of a result that no handler entry came before join FF and WO alone (R59, R385). -/
theorem Strand.orFlags_now (t : Strand) (ff : BitVec 5) (wo : Bool) :
    t.orFlags ff wo false = { t with ff := t.ff ||| ff, wo := t.wo || wo } := rfl

/-- What is in flight does not matter to a register write, nor the write to what is in flight. -/
theorem Strand.setReg_withFly (t : Strand) (f : List Landing) (d : BitVec 6) (v : Word) :
    ({ t with fly := f } : Strand).setReg d v = { t.setReg d v with fly := f } := by
  unfold Strand.setReg
  split <;> rfl

/-- A register write changes the registers alone (R62). -/
theorem Strand.setReg_same (t : Strand) (d : BitVec 6) (v : Word) :
    (t.setReg d v).ff = t.ff ∧ (t.setReg d v).wo = t.wo ∧ (t.setReg d v).ldq = t.ldq := by
  unfold Strand.setReg
  split <;> exact ⟨rfl, rfl, rfl⟩

/-- Settles O3: of the results in flight only the first is due, and it is written to its register. -/
theorem resultsLand : Obligations.ResultsLand := by
  unfold Obligations.ResultsLand
  intro t l rest d v hrest hdest hpre hfly
  refine ⟨fun hl => Strand.landDue_of_not_due (by simpa [hfly] using ⟨hl, hrest⟩), fun hl => ?_⟩
  have hland : t.landDue = { t.setReg d v with fly := rest, ff := t.ff ||| l.ff, wo := t.wo || l.wo } := by
    obtain ⟨hff, hwo, -⟩ := t.setReg_same d v
    rw [Strand.landDue_of_head_due hfly hl hrest, Strand.landOne, hdest, hpre, Strand.orFlags_now, Strand.putDest, Strand.setReg_withFly,
      ← hff, ← hwo]
  refine ⟨hland, fun q => ?_⟩
  rw [hland]
  exact t.reg_setReg d q v

end Sys2Proof.Machine
end

section
/-! O4, O5: branches and their delay slots (R68 to R70, R185 to R189, R389). -/

namespace Sys2Proof.Machine

open Sys2Proof.Claims

/-! The redirect queue (R69, R70). -/

/-- An entry two steps from its target, one step on. -/
def Redirect.oneOn (e : Redirect) : Redirect := { e with rd := 1, ra1 := e.ra2, ra2 := false }

/-- The next PC under an entry that is one step from its target, if there is one. -/
def redirectTo (o : Option Redirect) (n : BitVec 56) : BitVec 56 := match o with
  | some r => if r.rt = 0 then n else r.rt
  | none => n

/-- A queue of an entry one step from its target and one two steps from it, each if it is there: the first gives the next PC, the second
goes one step on. -/
theorem stepQueue_delayed {o p : Option Redirect} (ho : ∀ r, o = some r → r.rd = 1) (hp : ∀ r, p = some r → r.rd = 2) (n : BitVec 56) :
    (stepQueue (o.toList ++ p.toList) (n, false)).1.1 = redirectTo o n ∧
      (stepQueue (o.toList ++ p.toList) (n, false)).2 = (p.map Redirect.oneOn).toList := by
  have hlast (r : Redirect) (h : r.rd = 1) (m : BitVec 56 × Bool) : stepRedirect m r = (if r.rt = 0 then m else (r.rt, true), none) := by
    simp [stepRedirect, h]
  have hfresh (r : Redirect) (h : r.rd = 2) (m : BitVec 56 × Bool) : stepRedirect m r = (m, some r.oneOn) := by
    simp [stepRedirect, h, Redirect.oneOn]
  have hqueue : stepQueue p.toList = fun m => (m, (p.map Redirect.oneOn).toList) := by
    cases p with
    | none => rfl
    | some r => funext m; simp [stepQueue, hfresh r (hp r rfl)]
  cases o with
  | none => exact ⟨by simp [hqueue, redirectTo], by simp [hqueue]⟩
  | some r =>
    simp only [Option.toList_some, List.singleton_append, stepQueue, hlast r (ho r rfl), hqueue, redirectTo]
    refine ⟨?_, rfl⟩
    split <;> rfl

section

variable (t : Strand) (n : BitVec 56) (q : Option Redirect)

@[simp] theorem Strand.advance_steps : (t.advance n q).steps = t.steps + 1 := rfl
@[simp] theorem Strand.advance_s : (t.advance n q).s = t.s := rfl
@[simp] theorem Strand.advance_fly : (t.advance n q).fly = t.fly := rfl
@[simp] theorem Strand.advance_sys : (t.advance n q).sys = t.sys := rfl
@[simp] theorem Strand.advance_ff : (t.advance n q).ff = t.ff := rfl
@[simp] theorem Strand.advance_rm : (t.advance n q).rm = t.rm := rfl
@[simp] theorem Strand.advance_planes : (t.advance n q).planes = t.planes := rfl
@[simp] theorem Strand.advance_hd : (t.advance n q).hd = t.hd := rfl

end

section

variable {t : Strand} {o p : Option Redirect} (hq : t.rq = o.toList ++ p.toList) (ho : ∀ r, o = some r → r.rd = 1)
  (hp : ∀ r, p = some r → r.rd = 2) (n : BitVec 56) (q : Option Redirect)

include hq ho hp

theorem Strand.advance_pc : (t.advance n q).pc = redirectTo o n := by
  rw [← (stepQueue_delayed ho hp n).1, ← hq]
  rfl

theorem Strand.advance_rq : (t.advance n q).rq = (p.map Redirect.oneOn).toList ++ q.toList := by
  rw [← (stepQueue_delayed ho hp n).2, ← hq]
  rfl

end

/-- The next bundle is annulled where an entry says so. -/
theorem Strand.annulled_of_rq {t : Strand} {o p : Option Redirect} (hq : t.rq = o.toList ++ p.toList) :
    t.annulled = (o.any Redirect.ra1 || p.any Redirect.ra1) := by
  rw [Strand.annulled, hq]
  cases o <;> cases p <;> simp

theorem Option.any_oneOn (o : Option Redirect) (h : ∀ r, o = some r → r.ra1 = r.ra2) :
    (o.map Redirect.oneOn).any Redirect.ra1 = o.any Redirect.ra1 := by
  cases o with
  | none => rfl
  | some r => exact (h r rfl).symm

theorem redirectTo_oneOn (o : Option Redirect) : redirectTo (o.map Redirect.oneOn) = redirectTo o := by
  cases o <;> rfl

theorem rd_oneOn (o : Option Redirect) : ∀ r, o.map Redirect.oneOn = some r → r.rd = 1 := by
  cases o with
  | none => exact nofun
  | some e => rintro r ⟨⟩; rfl

theorem length_toList_append_le {α : Type} (o p : Option α) : (o.toList ++ p.toList).length ≤ 2 := by
  cases o <;> cases p <;> simp

/-- Settles O5: the queue holds, at each of the five steps, an entry one step from its target and one two steps from it. -/
theorem delaySlots : Obligations.DelaySlots := by
  unfold Obligations.DelaySlots
  intro t n1 n2 n3 n4 n5 e x y hq hr annuls after a b c d f
  have hfresh (o : Option Redirect) (h : ∀ r, o = some r → r = e ∨ x = some r ∨ y = some r) : ∀ r, o = some r → r.rd = 2 :=
    fun r hor => (hr r (h r hor)).1
  have hboth (o : Option Redirect) (h : ∀ r, o = some r → r = e ∨ x = some r ∨ y = some r) :
      (o.map Redirect.oneOn).any Redirect.ra1 = o.any Redirect.ra1 := Option.any_oneOn o (fun r hor => (hr r (h r hor)).2)
  have he : ∀ r, some e = some r → r = e ∨ x = some r ∨ y = some r := fun r h => .inl (Option.some.inj h).symm
  have hx : ∀ r, x = some r → r = e ∨ x = some r ∨ y = some r := fun r h => .inr (.inl h)
  have hy : ∀ r, y = some r → r = e ∨ x = some r ∨ y = some r := fun r h => .inr (.inr h)
  have ht : t.rq = (none : Option Redirect).toList ++ (none : Option Redirect).toList := hq
  have ha : a.rq = (none : Option Redirect).toList ++ (some e).toList := Strand.advance_rq ht nofun nofun n1 (some e)
  have hb : b.rq = ((some e).map Redirect.oneOn).toList ++ x.toList := Strand.advance_rq ha nofun (hfresh _ he) n2 x
  have hc : c.rq = (x.map Redirect.oneOn).toList ++ y.toList := Strand.advance_rq hb (rd_oneOn _) (hfresh _ hx) n3 y
  have hd : d.rq = (y.map Redirect.oneOn).toList ++ (none : Option Redirect).toList := Strand.advance_rq hc (rd_oneOn _) (hfresh _ hy) n4 none
  have hf : f.rq = [] := Strand.advance_rq hd (rd_oneOn _) nofun n5 none
  refine ⟨Strand.advance_pc ht nofun nofun n1 _, Strand.annulled_of_rq ha, Strand.advance_pc ha nofun (hfresh _ he) n2 _, ?_, ?_,
    Strand.advance_pc hb (rd_oneOn _) (hfresh _ hx) n3 _, ?_, ?_, ?_, ?_, ?_, ?_, hf, ?_⟩
  · rw [Strand.annulled_of_rq hb, hboth _ he]
    rfl
  · rw [hb]
    exact length_toList_append_le _ _
  · rw [Strand.annulled_of_rq hc, hboth _ hx]
  · rw [hc]
    exact length_toList_append_le _ _
  · exact (Strand.advance_pc hc (rd_oneOn _) (hfresh _ hy) n4 _).trans (congrFun (redirectTo_oneOn x) n4)
  · rw [Strand.annulled_of_rq hd, hboth _ hy]
    simp [annuls]
  · exact (Strand.advance_pc hd (rd_oneOn _) nofun n5 _).trans (congrFun (redirectTo_oneOn y) n5)
  · rw [Strand.annulled, hf]
    rfl
  · simp [a, b, c, d, f]

/-! The branches (R185 to R189). -/
theorem targetOf_eq {n : Nat} (base : Word) (disp : BitVec n) : targetOf base disp = targetRule base disp := by
  rw [targetOf, targetRule, BitVec.shiftLeft_eq_mul_twoPow, BitVec.mul_comm]
  rfl

theorem targetOk_iff (w : Word) : targetOk w = true ↔ goodTarget w := by
  have hlt : w.toNat < 2 ^ 64 := w.isLt
  simp only [targetOk, goodTarget, Bool.and_eq_true, decide_eq_true_eq]
  simp only [fld]
  constructor
  · rintro ⟨⟨h1, h2⟩, h3⟩
    exact ⟨by omega, by omega, h3⟩
  · rintro ⟨h1, h2, h3⟩
    exact ⟨⟨by omega, by omega⟩, h3⟩

theorem takenEntry_eq (bf : BitVec 2) (tg : Word) : takenEntry bf tg = { rd := 2, ra1 := bf = 2, ra2 := bf = 2, rt := tg.setWidth 56 } := by
  have hrt : tg.extractLsb' 0 56 = tg.setWidth 56 := BitVec.eq_of_toNat_eq (by simp)
  rw [takenEntry, hrt]

/-- A branch whose target may be taken, or that is not taken, appends its entry (R69). -/
theorem branch_ok {tk : Bool} {tg : Word} (h : tk = true → goodTarget tg) (bf : BitVec 2) (s : State) :
    branch tk bf tg s = .ok (redirected s (entryRule tk bf tg)) := by
  unfold branch entryRule
  cases tk with
  | true =>
    simp only [if_true, (targetOk_iff tg).mpr (h rfl), need_true, Res.bind_ok, takenEntry_eq]
    rfl
  | false =>
    simp only [Bool.false_eq_true, if_false]
    split <;> rfl

/-- A branch taken to another target is the control-flow trap that names it (R185). -/
theorem branch_trap {tg : Word} (h : ¬ goodTarget tg) (bf : BitVec 2) (s : State) : branch true bf tg s = trapE cFlow tg := by
  have hbad : targetOk tg = false := Bool.eq_false_iff.mpr (mt (targetOk_iff tg).mp h)
  simp only [branch, if_true, hbad, need_false]
  rfl

theorem fld_eq (a : Word) (lo len : Nat) : fld a lo len = (a.extractLsb' lo len).toNat := by
  rw [fld, BitVec.extractLsb'_toNat, Nat.shiftRight_eq_div_pow]

theorem fld_ne_zero (a : Word) (lo len : Nat) : (fld a lo len ≠ 0) = (a.extractLsb' lo len ≠ 0) := by
  rw [fld_eq, ne_eq, ne_eq, ← BitVec.toNat_inj]
  rfl

/-- The selected field of a status word (R187). -/
theorem statusField_eq (bn : BitVec 6) (a : Word) : statusField bn.toNat a = statusRule bn a := by
  have hbn {n : Nat} (h : bn.toNat = n) : bn = BitVec.ofNat 6 n := by rw [← h, BitVec.ofNat_toNat, BitVec.setWidth_eq]
  unfold statusField statusRule
  simp only [fld_ne_zero]
  split
  case h_8 h0 h1 h2 h3 h4 h5 h6 =>
    have hne {n : Nat} (h : bn.toNat = n → False) (hn : n < 64) : bn ≠ BitVec.ofNat 6 n := fun e => h (by
      rw [e, BitVec.toNat_ofNat, Nat.mod_eq_of_lt hn])
    simp only [show bn ≠ 0 from hne h0 (by decide), show bn ≠ 1 from hne h1 (by decide), show bn ≠ 2 from hne h2 (by decide),
      show bn ≠ 3 from hne h3 (by decide), show bn ≠ 4 from hne h4 (by decide), show bn ≠ 5 from hne h5 (by decide),
      show bn ≠ 6 from hne h6 (by decide), if_false]
    rfl
  all_goals
    rename_i h
    obtain rfl := hbn h
    rfl

theorem map_linked_none (r : Res State) : r.map (fun x => linked x none) = r := by
  cases r <;> rfl

theorem branchBC_eq {s : State} (o : FmtBC) (p : Word → Word → Bool) :
    branchBC p o s = finish s ((branch (p (s.reg o.sa) (s.reg o.sb)) o.bf (targetRule (s.me.pc.setWidth 64) o.disp) s).map
      (fun x => linked x none)) := by
  rw [map_linked_none, ← targetOf_eq]
  rfl

theorem branchBK_eq {s : State} (o : FmtBK) (p : Word → Word → Bool) :
    branchBK p o s = finish s ((branch (p (s.reg o.sa) (o.imm.signExtend 64)) o.bf (targetRule (s.me.pc.setWidth 64) o.disp) s).map
      (fun x => linked x none)) := by
  rw [map_linked_none, ← targetOf_eq]
  rfl

theorem toInt_imm (imm : BitVec 6) : (imm.signExtend 64).toInt = imm.toInt := BitVec.toInt_signExtend_of_le (by decide)

theorem bne_eq_decide_ne (a b : Word) : (a != b) = decide (a ≠ b) := by
  rw [Bool.eq_iff_iff, bne_iff_ne, decide_eq_true_iff]

theorem imm_beq (a : Word) (imm : BitVec 6) : (a == imm.signExtend 64) = decide (a.toInt = imm.toInt) := by
  rw [Bool.eq_iff_iff, beq_iff_eq, decide_eq_true_iff, ← toInt_imm, BitVec.toInt_inj]

theorem imm_bne (a : Word) (imm : BitVec 6) : (a != imm.signExtend 64) = decide (a.toInt ≠ imm.toInt) := by
  rw [Bool.eq_iff_iff, bne_iff_ne, decide_eq_true_iff, ← toInt_imm, ne_eq, ne_eq, BitVec.toInt_inj]

theorem bit_beq (b : Bool) (c : BitVec 1) : (b == (c == 1)) = decide ((b = true) = (c = 1)) := by
  by_cases hc : c = 1#1 <;> cases b <;> simp [hc]

theorem sub_one_bne_zero (a : Word) : (a - 1 != 0) = decide (a ≠ 1) := by
  rw [Bool.eq_iff_iff, bne_iff_ne, decide_eq_true_iff, ne_eq, sub_eq_zero]

/-- What a branch answers: its entry, then the register that it writes (R188, R189). -/
theorem exec_branch {s : State} {i : Instr} {tk : Bool} {bf : BitVec 2} {tg : Word} {w : Option (BitVec 6 × Word)}
    (h : branchRule s i = some (tk, bf, tg, w)) : exec i s = finish s ((branch tk bf tg s).map (fun x => linked x w)) := by
  cases i with
  | beq o => cases h; exact branchBC_eq o _
  | bne o => cases h; rw [← bne_eq_decide_ne]; exact branchBC_eq o (fun a b => a != b)
  | blt o => cases h; exact branchBC_eq o _
  | bge o => cases h; exact branchBC_eq o (fun a b => b.sle a)
  | bltu o => cases h; exact branchBC_eq o _
  | bgeu o => cases h; exact branchBC_eq o (fun a b => b.ule a)
  | beqi o => cases h; rw [← imm_beq]; exact branchBK_eq o (fun a b => a == b)
  | bnei o => cases h; rw [← imm_bne]; exact branchBK_eq o (fun a b => a != b)
  | blti o => cases h; rw [← toInt_imm]; exact branchBK_eq o _
  | bgei o => cases h; rw [← toInt_imm]; exact branchBK_eq o (fun a b => b.sle a)
  | btR o => cases h; simp only [exec_btR, execBtR, map_linked_none, targetOf_eq, bit_beq]; rfl
  | bsw o => cases h; simp only [exec_bsw, execBsw, statusField_eq, map_linked_none, targetOf_eq, bit_beq]; rfl
  | bdnz o => cases h; simp only [exec_bdnz, execBdnz, targetOf_eq, sub_one_bne_zero]; rfl
  | jl o => cases h; simp only [exec_jl, execJl, branchLink, targetOf_eq]; rfl
  | jlx o => cases h; simp only [exec_jlx, execJlx, branchLink, targetOf_eq]; rfl
  | _ => cases h

theorem branchesTaken : BranchesTaken := by
  intro s i tk bf tg w hi htg
  rw [exec_branch hi, branch_ok htg]
  rfl

theorem branchTraps : BranchTraps := by
  intro s i bf tg w hi htg
  refine traps_of_finish ?_
  rw [exec_branch hi, branch_trap htg]
  rfl

/-! Links (R389). -/

/-- The run of a bundle's syllables has the length that R389 gives. -/
theorem runOf_bundleAt (s : State) (t : Strand) (a : Nat) : RunOf s t a (s.bundleAt t a).length := by
  have hsyll {i : Nat} (h : i < (s.bundleAt t a).length) := runFrom_getElem? (s.syllAt t) 8 a i _ (List.getElem?_eq_getElem h)
  have hpos : 0 < (s.bundleAt t a).length := by
    unfold State.bundleAt runFrom
    split <;> simp
  obtain ⟨hlt, hw, -, hlast⟩ := hsyll (Nat.sub_lt hpos Nat.one_pos)
  refine ⟨hpos, by omega, fun h8 => ?_, fun i hi => ?_⟩
  · rw [hw] at hlast
    exact (hlast.mpr (Nat.sub_add_cancel hpos).symm).resolve_right (by omega)
  · obtain ⟨-, hw, -, hlast⟩ := hsyll (Nat.lt_of_succ_lt hi)
    rw [hw] at hlast
    exact fun h => absurd (hlast.mp (.inl h)) (Nat.ne_of_gt hi)

theorem links : Links := by
  intro s t b _
  refine ⟨_, _, _, runOf_bundleAt s t b, runOf_bundleAt s t _, runOf_bundleAt s t _, ?_⟩
  simp only [State.linkOf, State.bundleLen]
  omega

/-- Settles O4: the entry, the trap and the link of a branch. -/
theorem branchResults : Obligations.BranchResults := ⟨branchesTaken, branchTraps, links⟩

end Sys2Proof.Machine
end

section
/-! O14: what completes of a strand's outstanding results (R63, R72, R102, R152, R230). -/

namespace Sys2Proof.Machine

open Sys2Proof.Claims

/-! The elements of a line (R63, R152). -/

/-- The elements of a line lie at different places. -/
theorem elemKey_inj (l : LineRef) {i j : Nat} (h : elemKey l i = elemKey l j) : i = j := by
  unfold elemKey at h
  split at h <;> omega

theorem cget_putElems_of_ne (l : LineRef) {x : Nat} : ∀ (vs ms : List Elem) (k : Nat) (c : Cells 32),
    (∀ j, k ≤ j → j < k + vs.length → elemKey l j ≠ x) → cget (putElems l k c vs ms) x = cget c x
  | [], _, _, _, _ => rfl
  | _ :: _, [], _, _, _ => rfl
  | v :: vs, m :: ms, k, c, h => by
    have hk : ¬ x = elemKey l k := fun e => h k (Nat.le_refl k) (by simp) e.symm
    rw [putElems, cget_putElems_of_ne l vs ms (k + 1) _ (fun j h1 h2 => h j (by omega) (by simp only [List.length_cons]; omega)),
      cget_cset, if_neg hk]

/-- Each element takes the bits of its mask (R152). -/
theorem cget_putElems (l : LineRef) {j : Nat} : ∀ (vs ms : List Elem) (k : Nat) (c : Cells 32), vs.length = ms.length → k + vs.length ≤ 32 →
    k ≤ j → j < k + vs.length →
    cget (putElems l k c vs ms) (elemKey l j) = mergeBits (cget c (elemKey l j)) (vs.getD (j - k) 0) (ms.getD (j - k) 0)
  | [], _, _, _, _, _, h1, h2 => by simp at h2; omega
  | _ :: _, [], _, _, hl, _, _, _ => by simp at hl
  | v :: vs, m :: ms, k, c, hl, hn, h1, h2 => by
    simp only [List.length_cons] at hl hn h2
    rw [putElems]
    by_cases hj : j = k
    · subst hj
      rw [cget_putElems_of_ne l vs ms (j + 1) _ (fun i h3 h4 e => by have := elemKey_inj l e; omega), cget_cset,
        if_pos rfl]
      simp
    · have hne : ¬ elemKey l j = elemKey l k := fun e => hj (elemKey_inj l e)
      rw [cget_putElems l vs ms (k + 1) _ (by omega) (by omega) (by omega) (by omega), cget_cset, if_neg hne,
        show j - k = (j - (k + 1)) + 1 by omega]
      simp

theorem Strand.line_getD (t : Strand) (l : LineRef) {j : Nat} (hj : j < 32) : (t.line l).getD j 0 = cget t.planes (elemKey l j) := by
  simp [Strand.line, List.getD, hj]

/-- A line written under masks. -/
theorem Strand.setLine_line (t : Strand) (l : LineRef) {vals masks : List Elem} (tag : BitVec 4) {j : Nat} (hv : vals.length = 32)
    (hm : masks.length = 32) (hj : j < 32) :
    ((t.setLine l vals masks tag).line l).getD j 0 = mergeBits ((t.line l).getD j 0) (vals.getD j 0) (masks.getD j 0) := by
  rw [Strand.line_getD _ _ hj, Strand.line_getD _ _ hj, Strand.setLine]
  exact cget_putElems l vals masks 0 t.planes (by omega) (by omega) (by omega) (by omega)

/-- An element whose mask is empty stays. -/
theorem mergeBits_zero (old new : Elem) : mergeBits old new 0 = old := by
  rw [mergeBits, show (0 : Elem) = 0#32 from rfl, BitVec.and_zero, BitVec.or_zero, BitVec.not_zero, BitVec.and_allOnes]

/-- The masks of a part of the lanes (R72). -/
def laneMasks (masks : List Elem) (m : BitVec 32) : List Elem :=
  (masks.zip (List.range 32)).map (fun p => if bitAt m p.2 then p.1 else 0)

theorem Dest.onlyLanes_line (l : LineRef) (pm : BitVec 3) (vals masks : List Elem) (tag : BitVec 4) (m : BitVec 32) :
    (Dest.line l pm vals masks tag).onlyLanes m = .line l pm vals (laneMasks masks m) tag := rfl

theorem laneMasks_length {masks : List Elem} (m : BitVec 32) (h : masks.length = 32) : (laneMasks masks m).length = 32 := by
  simp [laneMasks, h]

theorem laneMasks_getD {masks : List Elem} (m : BitVec 32) {j : Nat} (h : masks.length = 32) (hj : j < 32) :
    (laneMasks masks m).getD j 0 = if m.getLsbD j then masks.getD j 0 else 0 := by
  have hjm : j < masks.length := by omega
  simp [laneMasks, List.getD, bitAt, hj, hjm]

/-- Some lanes of the oldest load to a line are written: the plane keeps its tag and the load its place. -/
theorem Strand.completeLd_part {t : Strand} {o : LdOp} {rest : List LdOp} {l : LineRef} {pm : BitVec 3} {vals masks : List Elem}
    {tag : BitVec 4} {lanes : BitVec 32} (hq : t.ldq = o :: rest) (hdest : o.dest = .line l pm vals masks tag) (hheld : o.held = none)
    (hlanes : o.lanes &&& lanes ≠ 0) (hleft : o.lanes &&& ~~~ lanes ≠ 0) :
    t.completeLd 0 lanes = { t.setLine l vals (laneMasks masks (o.lanes &&& lanes)) tag with
      ptag := t.ptag, ldq := { o with lanes := o.lanes &&& ~~~ lanes } :: rest } := by
  have hlanes' : ¬ (o.lanes &&& lanes = 0#32) := hlanes
  have hleft' : ¬ (o.lanes &&& ~~~ lanes = 0#32) := hleft
  simp [Strand.completeLd, hq, hdest, hheld, hlanes', hleft', popDone, LdOp.done, Strand.putDest, Strand.setLine, Dest.onlyLanes_line]

/-! The walks of a strand (R102). -/

theorem doneFirst_append (post : List Landing) {l : Landing} (hl : l.walk = true) : ∀ pre : List Landing, (∀ x ∈ pre, x.walk = false) →
    execHandleWalkComplete.doneFirst (pre ++ l :: post) = pre ++ { l with walk := false } :: post
  | [], _ => by simp [execHandleWalkComplete.doneFirst, hl]
  | x :: pre, h => by
    rw [List.forall_mem_cons] at h
    simp [execHandleWalkComplete.doneFirst, h.1, doneFirst_append post hl pre h.2]

/-! What a load or a store leaves when it completes (R72). -/

/-- Only what stands before the first unfinished operation leaves a counter. -/
theorem popDone_of_not_done {α : Type} {p : α → Bool} {l : List α} (h : ∀ x ∈ l, p x = false) : popDone p l = l := by
  cases l with
  | nil => rfl
  | cons x r => simp [popDone, h x List.mem_cons_self]

/-- An access that is held does not complete (R326). -/
theorem Strand.completeLd_of_held {t : Strand} {n : Nat} {o : LdOp} (lanes : BitVec 32) (hn : t.ldq[n]? = some o) (hheld : o.held ≠ none) :
    t.completeLd n lanes = t := by
  simp [Strand.completeLd, hn, Option.isSome_iff_ne_none.mpr hheld]

theorem Strand.completeSt_of_held {t : Strand} {n : Nat} {o : StOp} (hn : t.stq[n]? = some o) (hheld : o.held ≠ none) :
    t.completeSt n = t := by
  simp [Strand.completeSt, hn, Option.isSome_iff_ne_none.mpr hheld]

/-- The oldest store leaves st, and the unfinished ones behind it stay. -/
theorem Strand.completeSt_head {t : Strand} {o : StOp} {rest : List StOp} (hq : t.stq = o :: rest) (hheld : o.held = none)
    (hrest : ∀ x ∈ rest, x.done = false) : t.completeSt 0 = { t with stq := rest } := by
  simp [Strand.completeSt, hq, hheld, popDone, popDone_of_not_done hrest]

/-- The oldest load to a register writes it and leaves ld, and the unfinished ones behind it stay. -/
theorem Strand.completeLd_scalar {t : Strand} {o : LdOp} {rest : List LdOp} {d : BitVec 6} {v : Word} {lanes : BitVec 32}
    (hq : t.ldq = o :: rest) (hdest : o.dest = .scalar d v) (hheld : o.held = none) (hpre : o.pre = false) (hlanes : o.lanes &&& lanes ≠ 0)
    (hrest : ∀ x ∈ rest, x.lanes ≠ 0) : t.completeLd 0 lanes = { t.setReg d v with ldq := rest, wo := t.wo || o.wo } := by
  have hstay : popDone LdOp.done rest = rest := popDone_of_not_done (fun x hx => by simpa [LdOp.done] using hrest x hx)
  have hlanes' : ¬ (o.lanes &&& lanes = 0#32) := hlanes
  obtain ⟨hff, hwo, hldq⟩ := t.setReg_same d v
  simp [Strand.completeLd, hq, hdest, hheld, hpre, hlanes', popDone, LdOp.done, hstay, Strand.putDest, Strand.orFlags_now, hff, hwo, hldq]


/-- A completion in a gang that does not halt is that of the strand alone. -/
theorem exec_ldCompletion_running {s : State} {k : Nat} (h : (tget s.gangs (tget s.strands k).gang).halt = none) (n : Nat) (lanes : BitVec 32) :
    exec (.ldCompletion k n lanes) s = .next (s.onStrand k (fun t => t.completeLd n lanes)) :=
  congrArg Host.Outcome.next (State.haltStep_none h)

theorem exec_stCompletion_running {s : State} {k : Nat} (h : (tget s.gangs (tget s.strands k).gang).halt = none) (n : Nat) :
    exec (.stCompletion k n) s = .next (s.onStrand k (fun t => t.completeSt n)) :=
  congrArg Host.Outcome.next (State.haltStep_none h)

/-- A strand that a change keeps is as it was, whether it is there or not. -/
theorem State.tget_onStrand_keep (s : State) {k : Nat} {f : Strand → Strand} (h : f (tget s.strands k) = tget s.strands k) :
    tget (s.onStrand k f).strands k = tget s.strands k := by
  cases hk : tfind s.strands k with
  | none => simp [State.onStrand, tget, hk]
  | some x => rw [State.tget_onStrand s f (by simp [hk]), h]

/-- Settles O14: the events of a strand, through what each leaves of it. -/
theorem strandCompletions : Obligations.StrandCompletions := by
  unfold Obligations.StrandCompletions
  refine ⟨fun s k pre post l hfly hpre hl hk => ?_, fun s k hk => ?_, fun s k o rest d v lanes hk hq hdest hheld hpre hlanes hrest hhalt => ?_,
    fun s k n lanes hhalt => ⟨fun o hn hheld => ?_, fun o hn hheld => ?_⟩, fun s k o rest hk hq hheld hrest hhalt => ?_,
    fun s k o rest l pm vals masks tag lanes hk hq hdest hheld hpre hwo hlanes hleft hvals hmasks hhalt => ?_⟩
  · refine ⟨_, rfl, rfl, ?_⟩
    rw [State.tget_onStrand _ _ hk, hfly, doneFirst_append post hl pre hpre]
  · refine ⟨_, rfl, rfl, ?_⟩
    rw [State.tget_onStrand _ _ hk]
    simp only [Bool.or_eq_true]
  · refine ⟨_, exec_ldCompletion_running hhalt 0 lanes, rfl, ?_⟩
    rw [State.tget_onStrand _ _ hk, Strand.completeLd_scalar hq hdest hheld hpre hlanes hrest]
  · refine ⟨_, exec_ldCompletion_running hhalt n lanes, rfl, ?_⟩
    exact State.tget_onStrand_keep s (Strand.completeLd_of_held lanes hn hheld)
  · refine ⟨_, exec_stCompletion_running hhalt n, rfl, ?_⟩
    exact State.tget_onStrand_keep s (Strand.completeSt_of_held hn hheld)
  · refine ⟨_, exec_stCompletion_running hhalt 0, rfl, ?_⟩
    rw [State.tget_onStrand _ _ hk, Strand.completeSt_head hq hheld hrest]
  · refine ⟨_, exec_ldCompletion_running hhalt 0 lanes, rfl, ?_⟩
    rw [State.tget_onStrand _ _ hk, Strand.completeLd_part hq hdest hheld hlanes hleft]
    refine ⟨rfl, rfl, fun j hj => ?_⟩
    refine (Strand.setLine_line (tget s.strands k) l tag hvals (laneMasks_length _ hmasks) hj).trans ?_
    rw [laneMasks_getD _ hmasks hj]
    split
    · rfl
    · exact mergeBits_zero _ _

end Sys2Proof.Machine
end

section
/-! O48: a strand of a killed gang that another gang, which is halted for a fault, claims as its own (R382, R411). -/

namespace Sys2Proof.Machine

open Sys2Proof.Claims

/-! The ways out of a gang (R31, R382, R411). -/

/-- A folio written again with another ST. -/
theorem State.restamp_strands {s : State} {k : Nat} {st : BitVec 4} (h5 : (tget s.strands k).st ≠ 5) (hst : (tget s.strands k).st ≠ st) :
    (s.restamp k st).strands = tmod s.strands k (fun t => { t with st := st, fs := true }) := by
  have hagain : ((tget s.strands k).st = 5 || (tget s.strands k).st = st) = false := by
    rw [decide_eq_false h5, decide_eq_false hst]
    rfl
  have hframe : (if (tget s.strands k).fs then s else
      (s.noteErrors k (tget s.strands k).arrayRuns).writeFrame (tget s.strands k)).strands = s.strands :=
    iteInduction (motive := fun x : State => x.strands = s.strands) (fun _ => rfl) fun _ =>
      ((s.noteErrors_same _ _).writes.trans (State.writeFrame_same _ _)).strands
  unfold State.restamp
  simp only [hagain, Bool.false_eq_true, if_false]
  rw [(State.writeFolio_same _ _).strands, State.onStrand, hframe]

theorem State.keepStores_strands (s : State) (g : Nat) : (s.keepStores g).strands = s.strands := s.flush_strands _ _ _

/-- What a gang that leaves for a fault does to strands is the new ST of their folios. -/
theorem State.leave_strands (s : State) (g : Nat) :
    (s.leave g { st := 3 }).strands = ((tget s.gangs g).strands.foldl (fun s k => s.restamp k 3) s).strands := by
  let y : State := (tget s.gangs g).strands.foldl (fun s k => s.restamp k 3) s
  let z : State := (y.keepStores g).onGang g (fun x => { x with placed := false, gate := false, halt := none, pre := none })
  let r : State := (z.endRounds (tget y.gangs g).batch).offsetsIdle (tget y.gangs g).part
  have hr : r.strands = y.strands := by
    obtain ⟨d, hd⟩ := (z.endRounds (tget y.gangs g).batch).offsetsIdle_eq (tget y.gangs g).part
    calc r.strands = (z.endRounds (tget y.gangs g).batch).strands := by rw [show r = _ from hd]
      _ = z.strands := (z.endRounds_gangsEnded _ 0).2.1
      _ = y.strands := y.keepStores_strands g
  have hleave : s.leave g { st := 3 } =
      if y.gangDone g then r.gangOver g else r.onGang g (fun x => { x with answer := true }) := rfl
  rw [hleave]
  split
  · exact (r.gangOver_spec g).1.trans hr
  · exact hr

/-- Only a squash waits for reads (R45). -/
theorem State.readsFirst_of_halt {s : State} {g : Nat} {h : Halt} (hhalt : (tget s.gangs g).halt = some h) (hst : h.st ≠ 2) :
    s.readsFirst g = false := by
  unfold State.readsFirst State.mayRead
  split
  next k _ =>
    by_cases hg : (tget s.strands k).gang = g
    · simp only [hg, hhalt, decide_eq_false hst, Bool.and_false, decide_true]
    · simp [hg]
  next => rfl

/-- A halted gang whose one folio is written leaves. -/
theorem State.haltStep_leaves {s : State} {g k : Nat} {h : Halt} (hhalt : (tget s.gangs g).halt = some h) (hst : h.st ≠ 2)
    (hlist : (tget s.gangs g).strands = [k]) (hgoes : (tget s.strands k).goesOn = false) (hwritten : (tget s.strands k).written = true) :
    s.haltStep g = s.leave g h := by
  have hmay : (tget s.strands k).mayLeave = false := by simp [Strand.mayLeave, hwritten]
  rw [State.haltStep, hhalt]
  simp [hlist, hgoes, State.readsFirst_of_halt hhalt hst, hmay, hwritten]

/-! Killing a gang (R411). -/

/-- A strand that is killed while it holds no context and its partition has no bindings. -/
theorem State.killStrand_strands {s : State} {k : Nat} (h5 : (tget s.strands k).st ≠ 5) (hfree : (tget s.strands k).resident = false)
    (hbindings : (tget s.parts (tget s.strands k).part).bindings = []) :
    (s.killStrand k).strands = tmod (tmod s.strands k (fun t => { t with
      fly := [], ldq := [], stq := [], micro := { t.micro with mv := false, pend := [] }, restart := {}, vectorTrap := none,
      st := 6, fs := false, written := true, halted := true, finishing := false, fenced := false })) k
      (fun t => { t with resident := false, blocked := false, yieldHold := none }) ∧
    (s.killStrand k).gangs = s.gangs ∧ (s.killStrand k).cmds = s.cmds := by
  have hdrop : s.dropHolds (tget s.strands k).part k = s := by simp [State.dropHolds, hbindings]
  have hwithdraw : s.withdraw (tget s.strands k).part k = s := by simp [State.withdraw, hbindings]
  unfold State.killStrand
  simp only [h5, if_false, hfree, Bool.false_eq_true, hdrop, hwithdraw]
  have hsame := State.writeFolio_same
  refine ⟨?_, ?_, ?_⟩
  · rw [State.freeContext_strands, (hsame _ _).strands]
    rfl
  · exact (hsame _ _).gangs
  · exact (hsame _ _).cmds

/-- What follows the strands and their commands changes no strand. -/
theorem State.killGang_strands {s n : State} {g : Nat}
    (hn : (tget s.gangs g).strands.foldl State.killStrand (s.onGang g (fun x => { x with halt := none })) = n) :
    (s.killGang g).strands =
      (((n.cmds.filter (fun e => (tget s.gangs g).strands.contains e.2.strand)).map (·.1)).foldl State.killCmd n).strands := by
  unfold State.killGang
  dsimp only
  rw [hn]
  generalize ((n.cmds.filter _).map _).foldl State.killCmd n = m
  rw [State.onPart, (State.postFatal_same _ _).strands]
  exact (State.gangOver_spec _ g).1

/-! The end of a command of the tile counter (R72). -/

/-- A strand one of whose tile commands has ended. -/
def Strand.withoutTl (n : Nat) (t : Strand) : Strand :=
  { t with tlq := popDone (fun o => o.done) (t.tlq.map (fun o => if o.cmd = n then { o with done := true } else o)) }

/-- A state without one tile command that names no tile. -/
def State.withoutTl (s : State) (n k : Nat) : State :=
  (({ s with cmds := tdel s.cmds n } : State).onStrand k (Strand.withoutTl n)).onDev
    (fun d => { d with invals := tmap d.invals (fun _ i => { i with cmds := i.cmds.filter (· ≠ n) }) })

theorem State.endCmd_of_tl {s : State} {n k : Nat} {c : Cmd} (hc : tfind s.cmds n = some c) (hop : c.op.isTl = true)
    (htd : c.td = none) (hta : c.ta = none) (hta2 : c.ta2 = none) (htb : c.tb = none) (hk : c.strand = k) :
    s.endCmd n = (s.withoutTl n k).haltStep (tget (s.withoutTl n k).strands k).gang := by
  subst hk
  unfold State.endCmd
  simp only [tget_of_tfind hc, htd, hta, hta2, htb, State.unreadTile, hop, if_true]
  rfl

theorem State.killCmd_of_tl {s : State} {n : Nat} {c : Cmd} (hc : tfind s.cmds n = some c) (hstate : c.state = .queued)
    (hqueued : c.op.isQueued = false) (hop : c.op ≠ .sfpool) : s.killCmd n = s.endCmd n := by
  rw [State.killCmd, hc]
  simp [hstate, hqueued, hop]

/-! The machine. -/

/-- Strand 2 of gang 1 names gang 3 as its own, which lists it too and is halted for a fault; the halt of gang 1 has been forced, and a
tile command of the strand is outstanding. -/
def claimed : State :=
  { strands := [(2, { gang := 3 })], cmds := [(5, { strand := 2 })],
    gangs := [(1, { placed := true, strands := [2], pre := some { halt := some 0 } }), (3, { strands := [2], halt := some { st := 3 } })] }

/-- That machine as the kill begins. -/
def claimedAlive : State := (claimed.clockTo 0).onGang 1 (fun x => { x with halt := none })

/-- That machine once its strand is killed, and once the strand's command has ended. -/
def claimedKilled : State := claimedAlive.killStrand 2
def claimedEnded : State := claimedKilled.withoutTl 5 2

theorem claimedKilled_eq : claimedKilled.strands = [(2, { gang := 3, st := 6, written := true, halted := true })] ∧
    claimedKilled.gangs = claimedAlive.gangs ∧ claimedKilled.cmds = claimed.cmds :=
  State.killStrand_strands (s := claimedAlive) (k := 2) (by decide) (by decide) (by decide)

theorem claimedEnded_strands : claimedEnded.strands = [(2, { gang := 3, st := 6, written := true, halted := true })] := by
  have hstrands : claimedEnded.strands = tmod claimedKilled.strands 2 (Strand.withoutTl 5) := rfl
  rw [hstrands, claimedKilled_eq.1]
  rfl

theorem claimedEnded_gang : tget claimedEnded.gangs 3 = { strands := [2], halt := some { st := 3 } } := by
  have hgangs : claimedEnded.gangs = claimedKilled.gangs := rfl
  rw [hgangs, claimedKilled_eq.2.1]
  rfl

/-- Gang 3, whose one strand is written, leaves, and writes the folio again with its own ST. -/
theorem claimedKilled_killCmd : (tget (claimedKilled.killCmd 5).strands 2).st = 3 := by
  have hcmd : tfind claimedKilled.cmds 5 = some { strand := 2 } := by
    rw [claimedKilled_eq.2.2]
    rfl
  have hkill : claimedKilled.killCmd 5 = claimedKilled.endCmd 5 := State.killCmd_of_tl hcmd rfl rfl (by decide)
  have hend : claimedKilled.endCmd 5 = claimedEnded.haltStep (tget claimedEnded.strands 2).gang := State.endCmd_of_tl hcmd rfl rfl rfl rfl rfl rfl
  have hlist : (tget claimedEnded.gangs 3).strands = [2] := by rw [claimedEnded_gang]
  have hleave : claimedEnded.haltStep 3 = claimedEnded.leave 3 { st := 3 } := by
    refine State.haltStep_leaves (k := 2) ?_ (by decide) hlist ?_ ?_
    · rw [claimedEnded_gang]
    · rw [claimedEnded_strands]
      rfl
    · rw [claimedEnded_strands]
      rfl
  have hrestamp : (claimedEnded.restamp 2 3).strands = tmod claimedEnded.strands 2 (fun t => { t with st := 3, fs := true }) :=
    State.restamp_strands (by rw [claimedEnded_strands]; decide) (by rw [claimedEnded_strands]; decide)
  have hgang : (tget claimedEnded.strands 2).gang = 3 := by rw [claimedEnded_strands]; rfl
  rw [hkill, hend, hgang, hleave, State.leave_strands, hlist, List.foldl_cons, List.foldl_nil, hrestamp,
    claimedEnded_strands]
  rfl

theorem claimed_killed : ∃ t, exec (.killTimeExpiry 1) claimed = .next t ∧ (tget t.strands 2).st = 3 := by
  refine ⟨(claimed.clockTo 0).killGang 1, rfl, ?_⟩
  rw [State.killGang_strands (n := claimedKilled) rfl]
  have hcmds : ((claimedKilled.cmds.filter (fun e => (tget (claimed.clockTo 0).gangs 1).strands.contains e.2.strand)).map (·.1)) = [5] := by
    rw [claimedKilled_eq.2.2]
    rfl
  rw [hcmds, List.foldl_cons, List.foldl_nil]
  exact claimedKilled_killCmd

/-- Refutes O48: a strand of a killed gang ends with the ST of another gang that is halted for a fault, lists it and is named by it, because
the end of the strand's tile command lets that gang leave (R382, R411). -/
theorem not_preemption : ¬ Obligations.Preemption := by
  unfold Obligations.Preemption
  rintro ⟨hgang, -⟩
  obtain ⟨-, -, -, -, -, -, hkill⟩ := hgang claimed 1
  obtain ⟨t, ht, -, -, -, hstrands, -⟩ := hkill { halt := some 0 } 0 rfl rfl
  obtain ⟨hst, -⟩ := hstrands 2 (by decide) (by decide) (by decide)
  obtain ⟨u, hu, hst'⟩ := claimed_killed
  obtain rfl : t = u := Host.Outcome.next.inj (ht.symm.trans hu)
  exact absurd (hst.symm.trans hst') (by decide)

end Sys2Proof.Machine
end

section
/-! O18: the lines of slot V, their checks, and the bitwise and moving instructions (R64, R66, R153, R211 to R215). -/

namespace Sys2Proof.Machine

open Sys2Proof.Claims

/-! Source positions (R151 to R153). -/

/-- A source position gives the line that it names or holds, with its modifiers; a held read of an empty latch is illegal. -/
theorem State.source_eq (s : State) (pos : Nat) (f : BitVec 11) (x : BitVec 1) (pm : BitVec 3) :
    s.source pos f x pm = match sourceLine s pos f x with
      | some l => .ok { line := l, pm := sourcePm s pos f x pm, held := heldPm s pos f x }
      | none => trapE cIllegal s.issue.word := by
  unfold State.source sourceLine heldPm sourcePm latchNo
  by_cases hheld : (s.me.cb && f = 0x7FF && x = 1) = true
  · simp only [hheld, if_true]
    generalize tget s.me.latches _ = h
    by_cases hv : h.hv = true <;> simp [hv]
  · simp only [hheld]
    rfl

/-! The checks of lines (R64, R66). -/

theorem needPlane_of_lt {t : Strand} {p : BitVec 5} (h : p.toNat < t.win.pl) : needPlane t p = .ok () := (needPlane_ok t p ()).mpr h

theorem needPlane_of_le {t : Strand} {p : BitVec 5} (h : t.win.pl ≤ p.toNat) : needPlane t p = trapE cWindow (p.setWidth 64) := by
  have : decide (p.toNat < t.win.pl) = false := by simp [h]
  rw [needPlane, this]
  rfl

/-- The tag check of a source position that accepts the tags of a list, all if it is empty. -/
def needAccepted (t : Strand) (accept : List (BitVec 4)) (p : BitVec 5) : Res Unit :=
  if accept.isEmpty then .ok () else needTags t p accept

/-- Is the tag of a plane neither 0 nor accepted (R66)? -/
def badTag (t : Strand) (accept : List (BitVec 4)) (p : BitVec 5) : Bool := t.tagOf p ≠ 0 && !accept.contains (t.tagOf p)

/-- TVAL of a tag trap as a number (R379). -/
theorem tagVal (a b : BitVec 4) (p : BitVec 5) : (a.setWidth 64 <<< 12 ||| b.setWidth 64 <<< 8 ||| p.setWidth 64 : Word) =
    BitVec.ofNat 64 (4096 * a.toNat + 256 * b.toNat + p.toNat) := by
  have ha := a.isLt
  have hb := b.isLt
  have hp := p.isLt
  have hlow : b.toNat * 2 ^ 8 ||| p.toNat = b.toNat * 2 ^ 8 + p.toNat := by
    rw [Nat.mul_comm, ← Nat.two_pow_add_eq_or_of_lt (by omega)]
  have hhigh : a.toNat * 2 ^ 12 ||| (b.toNat * 2 ^ 8 + p.toNat) = a.toNat * 2 ^ 12 + (b.toNat * 2 ^ 8 + p.toNat) := by
    rw [Nat.mul_comm, ← Nat.two_pow_add_eq_or_of_lt (by omega)]
  apply BitVec.eq_of_toNat_eq
  simp only [BitVec.toNat_or, BitVec.toNat_shiftLeft, BitVec.toNat_setWidth, BitVec.toNat_ofNat, Nat.shiftLeft_eq]
  rw [Nat.mod_eq_of_lt (a := a.toNat) (by omega), Nat.mod_eq_of_lt (a := b.toNat) (by omega), Nat.mod_eq_of_lt (a := p.toNat) (by omega),
    Nat.mod_eq_of_lt (a := a.toNat * 2 ^ 12) (by omega), Nat.mod_eq_of_lt (a := b.toNat * 2 ^ 8) (by omega), Nat.or_assoc, hlow, hhigh]
  omega

theorem needAccepted_nil (t : Strand) (p : BitVec 5) : needAccepted t [] p = .ok () := rfl

theorem needAccepted_of_good {t : Strand} {accept : List (BitVec 4)} {p : BitVec 5} (h : badTag t accept p = false) :
    needAccepted t accept p = .ok () := by
  unfold needAccepted needTags
  split
  · rfl
  · have : (t.tagOf p = 0 || accept.contains (t.tagOf p)) = true := by
      simpa [badTag, or_iff_not_imp_left] using h
    rw [this]
    rfl

theorem needAccepted_of_bad {t : Strand} {accept : List (BitVec 4)} {p : BitVec 5} (haccept : accept ≠ []) (h : badTag t accept p = true) :
    needAccepted t accept p = trapE cTag (BitVec.ofNat 64 (4096 * (accept.headD 0).toNat + 256 * (t.tagOf p).toNat + p.toNat)) := by
  have hbad : (t.tagOf p = 0 || accept.contains (t.tagOf p)) = false := by
    simpa [badTag] using h
  have hempty : accept.isEmpty = false := by simpa using haccept
  rw [needAccepted, hempty, needTags, hbad, tagVal]
  rfl

/-- The window checks of several planes trap at the first beyond the window. -/
theorem forM_needPlane (t : Strand) (l : List (BitVec 5)) : (forM l (needPlane t) : Res Unit) = match l.find? (fun p => t.win.pl ≤ p.toNat) with
    | some p => trapE cWindow (p.setWidth 64)
    | none => .ok () := by
  induction l with
  | nil => rfl
  | cons p l ih =>
    rw [List.forM_cons, List.find?_cons]
    by_cases hp : t.win.pl ≤ p.toNat
    · rw [needPlane_of_le hp]
      simp [hp, trapE]
    · simp [hp, needPlane_of_lt (Nat.lt_of_not_le hp), ih]

/-- The tag checks of several lines trap at the first whose tag is not accepted. -/
theorem forM_needAccepted (t : Strand) {accept : List (BitVec 4)} (haccept : accept ≠ []) (l : List LineRef) :
    (forM l (fun x => needAccepted t accept x.pn) : Res Unit) = match l.find? (fun x => badTag t accept x.pn) with
    | some x => trapE cTag (BitVec.ofNat 64 (4096 * (accept.headD 0).toNat + 256 * (t.tagOf x.pn).toNat + x.pn.toNat))
    | none => .ok () := by
  induction l with
  | nil => rfl
  | cons x l ih =>
    rw [List.forM_cons, List.find?_cons]
    cases hx : badTag t accept x.pn with
    | true => simp [needAccepted_of_bad haccept hx, trapE]
    | false => simp [needAccepted_of_good hx, ih]

theorem forM_needAccepted_nil (t : Strand) (l : List LineRef) : (forM l (fun x => needAccepted t [] x.pn) : Res Unit) = .ok () := by
  induction l with
  | nil => rfl
  | cons x l ih => rw [List.forM_cons, needAccepted_nil, Res.bind_ok, ih]

/-- A check made twice. -/
theorem Res.bind_twice {α : Type} (c : Res Unit) (k : Res α) : (c >>= fun _ => c >>= fun _ => k) = c >>= fun _ => k := by
  cases c <;> rfl

/-- The checks of a syllable of slot V in their order: windows, tags, empty latches (R64, R66, R153). -/
def lineChecks (s : State) (dest : LineRef) (srcs : List (Option LineRef)) (others : List (BitVec 5)) (more : List LineRef)
    (accept : List (BitVec 4)) : Res Unit := do
  forM (dest.pn :: (srcs.filterMap id).map (·.pn) ++ others) (needPlane s.me)
  forM (srcs.filterMap id ++ more) (fun x => needAccepted s.me accept x.pn)
  if srcs.contains none then trapE cIllegal s.issue.word else .ok ()

/-- These checks trap as `lineTrap` says. -/
theorem lineChecks_eq (s : State) (dest : LineRef) (srcs : List (Option LineRef)) (others : List (BitVec 5)) (more : List LineRef)
    (accept : List (BitVec 4)) : lineChecks s dest srcs others more accept = match lineTrap s dest srcs others more accept with
      | some (c, v) => trapE c v
      | none => .ok () := by
  have hempty : (if srcs.contains none then trapE cIllegal s.issue.word else Except.ok () : Res Unit) =
      match (if srcs.contains none then some ((0x0001 : BitVec 16), s.issue.word) else none) with
        | some (c, v) => trapE c v
        | none => .ok () := by
    split <;> rfl
  unfold lineChecks lineTrap
  dsimp only
  rw [forM_needPlane]
  cases (dest.pn :: (srcs.filterMap id).map (·.pn) ++ others).find? (fun p => s.me.win.pl ≤ p.toNat) with
  | some p => rfl
  | none =>
    by_cases haccept : accept = []
    · subst haccept
      rw [forM_needAccepted_nil]
      exact hempty
    · rw [forM_needAccepted _ haccept, if_neg haccept]
      show _ = match (match (srcs.filterMap id ++ more).find? (fun x => badTag s.me accept x.pn) with
        | some l => some ((0x0004 : BitVec 16), BitVec.ofNat 64 (4096 * (accept.headD 0).toNat + 256 * (s.me.tagOf l.pn).toNat + l.pn.toNat))
        | none => if srcs.contains none then some (0x0001, s.issue.word) else none) with
        | some (c, v) => trapE c v
        | none => .ok ()
      cases (srcs.filterMap id ++ more).find? (fun x => badTag s.me accept x.pn) with
      | some l => rfl
      | none => exact hempty

/-! The forms of slot V (R158). -/

/-- The sources of a V3 syllable. -/
def v3Srcs (s : State) (un : Bool) (o : FmtV3) : List (Option LineRef) :=
  sourceLine s 0 o.pa o.xa :: if un then [] else [sourceLine s 1 o.pb o.xb]

theorem State.v3Lines_eq (s : State) (un pdSrc : Bool) (accept : List (BitVec 4)) (o : FmtV3) :
    s.v3Lines un pdSrc accept o =
      lineChecks s (lineOf o.pd o.xd) (v3Srcs s un o) [] (if pdSrc then [lineOf o.pd o.xd] else []) accept >>= fun _ => .ok
        { d := lineOf o.pd o.xd, a := (sourceLine s 0 o.pa o.xa).getD {},
          b := (if un then sourceLine s 0 o.pa o.xa else sourceLine s 1 o.pb o.xb).getD {},
          pa := heldPm s 0 o.pa o.xa, pb := if un then heldPm s 0 o.pa o.xa else heldPm s 1 o.pb o.xb } := by
  unfold State.v3Lines lineChecks v3Srcs
  rw [State.source_eq, State.source_eq]
  cases un with
  | true =>
    cases sourceLine s 0 o.pa o.xa <;> cases pdSrc <;> simp [named, needAccepted, trapE, Res.bind_twice]
  | false =>
    cases sourceLine s 0 o.pa o.xa <;> cases sourceLine s 1 o.pb o.xb <;> cases pdSrc <;> simp [named, needAccepted, trapE]

theorem vecF_form (un pdSrc : Bool) (f : Fmt → BitVec 3 → FVal → FVal → FVal → FRes) (o : FmtV3) (s : State) :
    ∃ tag g, vecF un pdSrc f o s = vec3 un pdSrc latVF (fmtOf (tyTag o.ty)).w [tyTag o.ty] tag g o s := by
  rw [vecF]
  exact ⟨_, _, rfl⟩

theorem vecCmp_form (p inv : FVal → FVal → Bool) (o : FmtV3) (s : State) :
    ∃ tag g, vecCmp p inv o s = vec3 false false latVF (fmtOf (tyTag o.ty)).w [tyTag o.ty] tag g o s := by
  rw [vecCmp]
  exact ⟨_, _, rfl⟩

theorem vecI_form (un uns mask : Bool) (f : Nat → Int → Int → Int) (o : FmtV3) (s : State) :
    ∃ tag g, vecI un uns mask f o s = vec3 un false latVI (tyW o.ty) (tyAccept o.ty) tag g o s := by
  rw [vecI]
  exact ⟨_, _, rfl⟩

/-- Arithmetic keeps the tag of its operands, a comparison does not (R208, R210). -/
theorem exec_of_vecFRule_same {i : Instr} {o : FmtV3} {un pdSrc : Bool} {f : Fmt → BitVec 3 → FVal → FVal → FVal → FRes}
    (h : vecFRule i = some (o, un, pdSrc, true, f)) (s : State) : exec i s = vecF un pdSrc f o s := by
  cases i with
  | vadd | vsub | vmul | vfma | vfms | vfnma | vdiv | vsqrt | vmin | vmax | vabs | vneg =>
    cases h
    rfl
  | _ => cases h

theorem exec_of_vecFRule_mask {i : Instr} {o : FmtV3} {un pdSrc : Bool} {f : Fmt → BitVec 3 → FVal → FVal → FVal → FRes}
    (h : vecFRule i = some (o, un, pdSrc, false, f)) (s : State) :
    un = false ∧ pdSrc = false ∧ ∃ p inv, exec i s = vecCmp p inv o s := by
  cases i with
  | vceq =>
    cases h
    exact ⟨rfl, rfl, FVal.eqv, anySnan, rfl⟩
  | vclt =>
    cases h
    exact ⟨rfl, rfl, FVal.lt, anyNan, rfl⟩
  | vcle =>
    cases h
    exact ⟨rfl, rfl, fun a b => a.lt b || a.eqv b, anyNan, rfl⟩
  | vcun =>
    cases h
    exact ⟨rfl, rfl, anyNan, anySnan, rfl⟩
  | _ => cases h

theorem exec_of_vecFRule {i : Instr} {o : FmtV3} {un pdSrc same : Bool} {f : Fmt → BitVec 3 → FVal → FVal → FVal → FRes}
    (h : vecFRule i = some (o, un, pdSrc, same, f)) (s : State) :
    ∃ tag g, exec i s = vec3 un pdSrc latVF (fmtOf (tyTag o.ty)).w [tyTag o.ty] tag g o s := by
  cases same with
  | true =>
    rw [exec_of_vecFRule_same h s]
    exact vecF_form un pdSrc f o s
  | false =>
    obtain ⟨rfl, rfl, p, inv, hexec⟩ := exec_of_vecFRule_mask h s
    rw [hexec]
    exact vecCmp_form p inv o s

theorem vecI_of_vecIRule {i : Instr} {o : FmtV3} {un uns mask : Bool} {f : Nat → Int → Int → Int}
    (h : vecIRule i = some (o, un, uns, mask, f)) (s : State) : ∃ g, exec i s = vecI un uns mask g o s := by
  cases i with
  | viadd | visub | vimul | vimulh | vimin | vimax | viabs | vshl | vshr | viceq | viclt | vicle =>
    cases h
    simp only [exec_viadd, exec_visub, exec_vimul, exec_vimulh, exec_vimin, exec_vimax, exec_viabs, exec_vshl, exec_vshr, exec_viceq,
      exec_viclt, exec_vicle, execViadd, execVisub, execVimul, execVimulh, execVimin, execVimax, execViabs, execVshl, execVshr, execViceq,
      execViclt, execVicle]
    exact ⟨_, rfl⟩
  | _ => cases h

theorem exec_of_vecIRule {i : Instr} {o : FmtV3} {un uns mask : Bool} {f : Nat → Int → Int → Int}
    (h : vecIRule i = some (o, un, uns, mask, f)) (s : State) :
    ∃ tag g, exec i s = vec3 un false latVI (tyW o.ty) (tyAccept o.ty) tag g o s := by
  obtain ⟨g, hexec⟩ := vecI_of_vecIRule h s
  rw [hexec]
  exact vecI_form un uns mask g o s

theorem exec_of_vecBRule {i : Instr} {o : FmtV3} {un : Bool} {f : Elem → Elem → Elem → Elem} (h : vecBRule i = some (o, un, f)) (s : State) :
    exec i s = vecB un f o s := by
  cases i with
  | vand | vor | vxor | vandn | vsel | vmov =>
    cases h
    rfl
  | _ => cases h

/-- A V3 instruction checks its lines, and then the modifiers of its latches (R158). -/
theorem exec_of_v3Form {i : Instr} {o : FmtV3} {un pdSrc : Bool} {accept : List (BitVec 4)} (h : v3Form i = some (o, un, pdSrc, accept))
    (s : State) : ∃ go : V3Lines → Res State, exec i s = finish s (s.v3Lines un pdSrc accept o >>= fun l =>
      s.needHeldPm (pmSrcOk (v3Width i o) l.pa && pmSrcOk (v3Width i o) l.pb) >>= fun _ => go l) := by
  unfold v3Form at h
  unfold v3Width
  cases hF : vecFRule i with
  | some r =>
    obtain ⟨o', un', pdSrc', same, f⟩ := r
    obtain ⟨tag, g, hexec⟩ := exec_of_vecFRule hF s
    rw [tyTag] at hexec
    simp only [hF] at h
    cases h
    exact ⟨_, hexec⟩
  | none =>
    cases hI : vecIRule i with
    | some r =>
      obtain ⟨o', un', uns, mask, f⟩ := r
      obtain ⟨tag, g, hexec⟩ := exec_of_vecIRule hI s
      rw [tyAccept, tyI, tyN, tyW] at hexec
      simp only [hF, hI] at h
      cases h
      exact ⟨_, hexec⟩
    | none =>
      cases hB : vecBRule i with
      | some r =>
        obtain ⟨o', un', f⟩ := r
        simp only [hF, hI, hB] at h
        cases h
        exact ⟨_, exec_of_vecBRule hB s⟩
      | none =>
        simp only [hF, hI, hB] at h
        cases i with
        | vperm =>
          cases h
          exact ⟨_, rfl⟩
        | _ => cases h

/-- What a VU syllable reads once its checks pass. -/
def vuRead (s : State) (o : FmtVU) : Source :=
  { line := (sourceLine s 0 o.pa o.xa).getD {}, pm := sourcePm s 0 o.pa o.xa o.pm, held := heldPm s 0 o.pa o.xa }

theorem State.vuSource_eq (s : State) (o : FmtVU) (others : List (BitVec 5)) :
    s.vuSource o others = needPlane s.me (lineOf o.pd o.xd).pn >>= fun _ =>
      named (s.source 0 o.pa o.xa o.pm) (needPlane s.me) >>= fun _ => forM others (needPlane s.me) >>= fun _ => s.source 0 o.pa o.xa o.pm := by
  unfold State.vuSource
  rw [forM_needPlane]
  cases hfound : others.find? (fun p => s.me.win.pl ≤ p.toNat) with
  | none => rfl
  | some p =>
    have hp : s.me.win.pl ≤ p.toNat := by simpa using List.find?_some hfound
    simp only [needPlane_of_le hp, trapE, Res.bind_error]

/-- The source of a VU syllable, and the check of its tag. -/
theorem State.vuSource_checks {α : Type} (s : State) (o : FmtVU) (others : List (BitVec 5)) (accept : List (BitVec 4))
    (go : Source → Res α) :
    (s.vuSource o others >>= fun a => needAccepted s.me accept a.line.pn >>= fun _ => go a) =
      lineChecks s (lineOf o.pd o.xd) [sourceLine s 0 o.pa o.xa] others [] accept >>= fun _ => go (vuRead s o) := by
  rw [State.vuSource_eq, State.source_eq]
  unfold lineChecks vuRead
  cases sourceLine s 0 o.pa o.xa with
  | none => simp [named, trapE]
  | some l => simp [named]

theorem needAccepted_any {α : Type} (t : Strand) (df : BitVec 4) (p : BitVec 5) (go : Res α) :
    (if df = 0 then go else needTags t p [df] >>= fun _ => go) = needAccepted t (if df = 0 then [] else [df]) p >>= fun _ => go := by
  split <;> rfl

/-- A VU instruction checks its lines, and then the modifier of its latch (R158). -/
def VUChecked (s : State) (i : Instr) (o : FmtVU) (accept : List (BitVec 4)) (others : List (BitVec 5)) : Prop :=
  ∃ (legal : Source → Bool) (go : Source → Res State), legal (vuRead s o) = heldLegal s i o ∧
    exec i s = finish s (s.vuSource o others >>= fun a => needAccepted s.me accept a.line.pn >>= fun _ =>
      s.needHeldPm (legal a) >>= fun _ => go a)

theorem exec_of_cvtRule {i : Instr} {o : FmtVU} {src : BitVec 4} (h : cvtRule i = some (o, src)) (s : State) : exec i s = vcvt src o s := by
  cases i with
  | vcvtF32 | vcvtBf16 | vcvtFp16 | vcvtE4m3 | vcvtE5m2 | vcvtE2m1 | vcvtI32 | vcvtI16 | vcvtI8 | vcvtI4 | vcvtN32 | vcvtN16 | vcvtN8 =>
    cases h
    rfl
  | _ => cases h

theorem vuChecked_of_cvtRule {i : Instr} {o : FmtVU} {src : BitVec 4} (h : cvtRule i = some (o, src)) (s : State) :
    VUChecked s i o [src] [] := by
  refine ⟨fun a => pmSrcOk (tagWidth src) (if tagWidth o.df < tagWidth src then a.held else a.pm), _, ?_, exec_of_cvtRule h s⟩
  unfold heldLegal
  rw [h]
  rfl

theorem vuChecked_vecR {s : State} {i : Instr} {o : FmtVU} {f : List Nat → List Elem → List Elem × BitVec 4 × BitVec 5}
    (hexec : exec i s = vecR o s f) (hlegal : heldLegal s i o = pmSrcOk (tagWidth o.df) (heldPm s 0 o.pa o.xa)) : VUChecked s i o [o.df] [] :=
  ⟨fun a => pmSrcOk (tagWidth o.df) a.held, _, hlegal.symm, hexec⟩

theorem vuChecked_nonzero {s : State} {i : Instr} {o : FmtVU} {f : List Nat → List Elem} (hexec : exec i s = nonzero o s f)
    (hlegal : heldLegal s i o = pmDstOk (tagWidth o.df) (sourcePm s 0 o.pa o.xa o.pm)) :
    VUChecked s i o (if o.df = 0 then [] else [o.df]) [] := by
  refine ⟨fun a => pmDstOk (tagWidth o.df) a.pm, fun a => .ok ((s.loadLatch 0 o.pa o.xa o.pm).land latVR
    (wholeLine (lineOf o.pd o.xd) 12 (f (liveOf o.df a.pm.toNat (s.me.line a.line))))), hlegal.symm, ?_⟩
  rw [hexec, nonzero]
  simp only [← needAccepted_any]
  rfl

theorem vuChecked_vbcst (s : State) (o : FmtVU) : VUChecked s (.vbcst o) o (if o.df = 0 then [] else [o.df]) [] := by
  refine ⟨fun a => pmDstOk (tagWidth o.df) a.pm, fun a => .ok ((s.loadLatch 0 o.pa o.xa o.pm).land latVI
    (wholeLine (lineOf o.pd o.xd) o.df (List.replicate 32 (repeatItem (tagWidth o.df) (itemAt (tagWidth o.df) a.pm.toNat
      (elemAt (s.me.line a.line) ((elemAt (s.me.line (auxLine a.line o.sl)) 0).toNat % 32))))))), rfl, ?_⟩
  rw [exec_vbcst, execVbcst]
  simp only [← needAccepted_any]
  rfl

theorem vuChecked_of_vuForm {i : Instr} {o : FmtVU} {accept : List (BitVec 4)} {others : List (BitVec 5)}
    (h : vuForm i = some (o, accept, others)) (s : State) : VUChecked s i o accept others := by
  unfold vuForm at h
  cases hcvt : cvtRule i with
  | some r =>
    obtain ⟨o', src⟩ := r
    simp only [hcvt] at h
    cases h
    exact vuChecked_of_cvtRule hcvt s
  | none =>
    simp only [hcvt] at h
    cases i with
    | vcvtVq2 o' =>
      cases h
      exact ⟨fun a => pmSrcOk 16 a.pm, _, rfl, by rw [exec_vcvtVq2, execVcvtVq2]; rfl⟩
    | vrot o' =>
      cases h
      exact ⟨fun a => pmSrcOk 32 a.held, _, rfl, by rw [exec_vrot, execVrot]; rfl⟩
    | vbcst o' =>
      cases h
      exact vuChecked_vbcst s o
    | vnzs o' =>
      cases h
      exact vuChecked_nonzero (by rw [exec_vnzs, execVnzs]) rfl
    | vnzc o' =>
      cases h
      exact vuChecked_nonzero (by rw [exec_vnzc, execVnzc]) rfl
    | vrsum o' =>
      cases h
      exact vuChecked_vecR (by rw [exec_vrsum, execVrsum]) rfl
    | vrmin o' =>
      cases h
      exact vuChecked_vecR (by rw [exec_vrmin, execVrmin, vecExtreme]) rfl
    | vrmax o' =>
      cases h
      exact vuChecked_vecR (by rw [exec_vrmax, execVrmax, vecExtreme]) rfl
    | vrisum o' =>
      cases h
      exact vuChecked_vecR (by rw [exec_vrisum, execVrisum]) rfl
    | vscan o' =>
      cases h
      exact vuChecked_vecR (by rw [exec_vscan, execVscan]) rfl
    | viscan o' =>
      cases h
      exact vuChecked_vecR (by rw [exec_viscan, execViscan]) rfl
    | _ => cases h

/-! The traps (R64, R66, R152, R153). -/

theorem traps_of_lineTrap {s : State} {i : Instr} {dest : LineRef} {srcs : List (Option LineRef)} {others : List (BitVec 5)}
    {more : List LineRef} {accept : List (BitVec 4)} {go : Res State} {cause : BitVec 16} {val : Word}
    (hexec : exec i s = finish s (lineChecks s dest srcs others more accept >>= fun _ => go))
    (htrap : lineTrap s dest srcs others more accept = some (cause, val)) : Traps i s cause val := by
  rw [lineChecks_eq, htrap] at hexec
  exact traps_of_finish hexec

theorem traps_of_heldPm {s : State} {i : Instr} {dest : LineRef} {srcs : List (Option LineRef)} {others : List (BitVec 5)}
    {more : List LineRef} {accept : List (BitVec 4)} {legal : Bool} {go : Res State}
    (hexec : exec i s = finish s (lineChecks s dest srcs others more accept >>= fun _ => s.needHeldPm legal >>= fun _ => go))
    (htrap : lineTrap s dest srcs others more accept = none) (hlegal : legal = false) : Traps i s 0x0001 s.issue.word := by
  rw [lineChecks_eq, htrap, hlegal] at hexec
  exact traps_of_finish hexec

/-- A V3 instruction as its checks and what follows them. -/
theorem exec_v3_checks {i : Instr} {o : FmtV3} {un pdSrc : Bool} {accept : List (BitVec 4)} (h : v3Form i = some (o, un, pdSrc, accept))
    (s : State) : ∃ go, exec i s = finish s (lineChecks s (lineOf o.pd o.xd) (v3Srcs s un o) [] (if pdSrc then [lineOf o.pd o.xd] else [])
      accept >>= fun _ => s.needHeldPm (pmSrcOk (v3Width i o) (heldPm s 0 o.pa o.xa) &&
        pmSrcOk (v3Width i o) (if un then heldPm s 0 o.pa o.xa else heldPm s 1 o.pb o.xb)) >>= fun _ => go) := by
  obtain ⟨go, hexec⟩ := exec_of_v3Form h s
  rw [State.v3Lines_eq, bind_assoc] at hexec
  exact ⟨_, hexec⟩

/-- A VU instruction as its checks and what follows them. -/
theorem exec_vu_checks {i : Instr} {o : FmtVU} {accept : List (BitVec 4)} {others : List (BitVec 5)}
    (h : vuForm i = some (o, accept, others)) (s : State) : ∃ go, exec i s = finish s (lineChecks s (lineOf o.pd o.xd)
      [sourceLine s 0 o.pa o.xa] others [] accept >>= fun _ => s.needHeldPm (heldLegal s i o) >>= fun _ => go) := by
  obtain ⟨legal, go, hlegal, hexec⟩ := vuChecked_of_vuForm h s
  rw [State.vuSource_checks, hlegal] at hexec
  exact ⟨_, hexec⟩

theorem lineTraps : LineTraps := by
  refine ⟨fun s i o un pdSrc accept cause val hform htrap => ?_, fun s i o accept others cause val hform htrap => ?_⟩
  · obtain ⟨go, hexec⟩ := exec_v3_checks hform s
    exact traps_of_lineTrap hexec htrap
  · obtain ⟨go, hexec⟩ := exec_vu_checks hform s
    exact traps_of_lineTrap hexec htrap

theorem heldModifiers : HeldModifiers := by
  refine ⟨fun s i o un pdSrc accept hform htrap hbad => ?_, fun s i o accept others hform htrap hbad => ?_⟩
  · obtain ⟨go, hexec⟩ := exec_v3_checks hform s
    refine traps_of_heldPm hexec htrap ?_
    obtain ha | ⟨rfl, hb⟩ := hbad
    · rw [ha, Bool.false_and]
    · rw [if_neg Bool.false_ne_true, hb, Bool.and_false]
  · obtain ⟨go, hexec⟩ := exec_vu_checks hform s
    exact traps_of_heldPm hexec htrap hbad

/-! Instructions that complete (R211, R214, R215). -/

theorem Res.forM_ok {α : Type} {l : List α} {f : α → Res Unit} (h : ∀ x ∈ l, f x = .ok ()) : (forM l f : Res Unit) = .ok () := by
  induction l with
  | nil => rfl
  | cons x l ih =>
    rw [List.forM_cons, h x List.mem_cons_self, Res.bind_ok]
    exact ih fun y hy => h y (List.mem_cons_of_mem _ hy)

theorem needAccepted_of_sourceOk {t : Strand} {l : LineRef} {accept : List (BitVec 4)} (h : sourceOk t l accept) :
    needAccepted t accept l.pn = .ok () := by
  obtain ⟨-, rfl | h0 | hin⟩ := h
  · rfl
  · exact needAccepted_of_good (by simp [badTag, h0])
  · exact needAccepted_of_good (by simp [badTag, hin])

/-- Lines inside the window of accepted tags pass their checks. -/
theorem lineChecks_ok {s : State} {dest : LineRef} {srcs : List LineRef} {more : List LineRef} {accept : List (BitVec 4)}
    (hdest : dest.pn.toNat < s.me.win.pl) (hsrcs : ∀ l ∈ srcs, sourceOk s.me l accept) (hmore : ∀ l ∈ more, sourceOk s.me l accept) :
    lineChecks s dest (srcs.map some) [] more accept = .ok () := by
  have hnamed : (srcs.map some).filterMap id = srcs := by simp
  have hplanes : (forM (dest.pn :: srcs.map (·.pn) ++ []) (needPlane s.me) : Res Unit) = .ok () := by
    refine Res.forM_ok fun p hp => needPlane_of_lt ?_
    simp only [List.append_nil, List.mem_cons, List.mem_map] at hp
    obtain rfl | ⟨l, hl, rfl⟩ := hp
    · exact hdest
    · exact (hsrcs l hl).1
  have htags : (forM (srcs ++ more) (fun x => needAccepted s.me accept x.pn) : Res Unit) = .ok () :=
    Res.forM_ok fun l hl => needAccepted_of_sourceOk ((List.mem_append.mp hl).elim (hsrcs l) (hmore l))
  have hempty : (srcs.map some).contains none = false := by simp
  rw [lineChecks, hnamed, hplanes, htags, hempty]
  rfl

/-- The lines of a V3 syllable that is ready. -/
theorem State.v3Lines_ok {s : State} {o : FmtV3} {un : Bool} {w : Nat} {accept : List (BitVec 4)} {a b : LineRef}
    (h : V3Ready s o un false w accept a b) : s.v3Lines un false accept o = .ok {
      d := lineOf o.pd o.xd, a := a, b := b,
      pa := heldPm s 0 o.pa o.xa, pb := if un then heldPm s 0 o.pa o.xa else heldPm s 1 o.pb o.xb } := by
  have hsrcB := h.srcB
  rw [State.v3Lines_eq, v3Srcs, h.srcA]
  cases un with
  | true =>
    have hchecks := lineChecks_ok (srcs := [a]) (more := []) h.dest (by simpa using h.okA) (by simp)
    obtain rfl : b = a := hsrcB
    exact congrArg (· >>= _) hchecks
  | false =>
    have hchecks := lineChecks_ok (srcs := [a, b]) (more := []) h.dest (by simpa using ⟨h.okA, h.okB rfl⟩) (by simp)
    have hsrcB' : sourceLine s 1 o.pb o.xb = some b := hsrcB
    rw [if_neg Bool.false_ne_true, if_neg Bool.false_ne_true, hsrcB']
    exact congrArg (· >>= _) hchecks

/-- Whole elements are read under no modifier (R152). -/
theorem pmSrcOk_whole {pm : BitVec 3} (h : pmSrcOk 32 pm = true) : pm = 0 := by simpa [pmSrcOk] using h

theorem heldPm_whole {s : State} {o : FmtV3} {un : Bool} {accept : List (BitVec 4)} {a b : LineRef}
    (h : V3Ready s o un false 32 accept a b) :
    heldPm s 0 o.pa o.xa = 0 ∧ (if un then heldPm s 0 o.pa o.xa else heldPm s 1 o.pb o.xb) = 0 := by
  have ha := pmSrcOk_whole h.pmA
  refine ⟨ha, ?_⟩
  cases un with
  | true => exact ha
  | false => exact pmSrcOk_whole (h.pmB rfl)

theorem Strand.line_length (t : Strand) (l : LineRef) : (t.line l).length = 32 := by simp [Strand.line]

/-- A line result lane by lane. -/
theorem lineOp_spec (w : Nat) (f : Nat → Nat → Nat → FRes) : ∀ as bs ds : List Elem, as.length = bs.length → as.length = ds.length →
    (lineOp w f as bs ds).1.length = as.length ∧ ∀ k, k < as.length →
      (lineOp w f as bs ds).1.getD k 0 = (laneOp w f (as.getD k 0) (bs.getD k 0) (ds.getD k 0)).1
  | [], _, _, _, _ => ⟨by simp [lineOp], fun k hk => absurd hk (by simp)⟩
  | _ :: _, [], _, hb, _ => absurd hb (by simp)
  | _ :: _, _ :: _, [], _, hd => absurd hd (by simp)
  | a :: as, b :: bs, d :: ds, hb, hd => by
    obtain ⟨hlength, hlane⟩ := lineOp_spec w f as bs ds (Nat.succ.inj hb) (Nat.succ.inj hd)
    refine ⟨congrArg (· + 1) hlength, fun k hk => ?_⟩
    cases k with
    | zero => rfl
    | succ k => exact hlane k (Nat.lt_of_succ_lt_succ hk)

theorem lineOp_flags {w : Nat} {f : Nat → Nat → Nat → FRes} (h : ∀ a b d, (laneOp w f a b d).2 = 0) :
    ∀ as bs ds : List Elem, (lineOp w f as bs ds).2 = 0
  | [], _, _ => by simp [lineOp]
  | _ :: _, [], _ => by simp [lineOp]
  | _ :: _, _ :: _, [] => by simp [lineOp]
  | a :: as, b :: bs, d :: ds => by
    rw [lineOp, h, lineOp_flags h as bs ds]
    rfl

/-- A bitwise operation on whole elements raises no flag. -/
theorem laneOp_bitwise (f : Elem → Elem → Elem → Elem) (a b d : Elem) :
    laneOp 32 (fun a b d => { bits := (f (BitVec.ofNat 32 a) (BitVec.ofNat 32 b) (BitVec.ofNat 32 d)).toNat }) a b d = (f a b d, 0) := by
  have hitem (x : Elem) : BitVec.ofNat 32 (itemAt 32 0 x) = x := by
    apply BitVec.eq_of_toNat_eq
    have := x.isLt
    simp only [itemAt, BitVec.toNat_ofNat]
    omega
  have hrange : List.range (32 / 32) = [0] := rfl
  unfold laneOp
  rw [hrange]
  have hbits (x : Elem) : BitVec.ofNat 32 (x.toNat % 4294967296) = x := by
    rw [Nat.mod_eq_of_lt x.isLt, BitVec.ofNat_toNat, BitVec.setWidth_eq]
  simp [hitem, hbits]

theorem vecB_done {s : State} {o : FmtV3} {un : Bool} {a b : LineRef} (f : Elem → Elem → Elem → Elem) (h : V3Ready s o un false 32 [] a b) :
    ∃ vals, vecB un f o s = .next ((s.v3Latch un o).land 2 (wholeLine (lineOf o.pd o.xd) (s.me.tagOf a.pn) vals)) ∧
      vals.length = 32 ∧ ∀ k, k < 32 → vals.getD k 0 =
        f ((s.me.line a).getD k 0) ((s.me.line b).getD k 0) ((s.me.line (lineOf o.pd o.xd)).getD k 0) := by
  obtain ⟨ha, hb⟩ := heldPm_whole h
  let g : Nat → Nat → Nat → FRes := fun a b d => { bits := (f (BitVec.ofNat 32 a) (BitVec.ofNat 32 b) (BitVec.ofNat 32 d)).toNat }
  have hlane := laneOp_bitwise f
  obtain ⟨hlength, hvals⟩ := lineOp_spec 32 g (s.me.line a) (s.me.line b) (s.me.line (lineOf o.pd o.xd)) (by simp [Strand.line_length])
    (by simp [Strand.line_length])
  have hflags : (lineOp 32 g (s.me.line a) (s.me.line b) (s.me.line (lineOf o.pd o.xd))).2 = 0 :=
    lineOp_flags (fun x y z => congrArg Prod.snd (hlane x y z)) _ _ _
  refine ⟨(lineOp 32 g (s.me.line a) (s.me.line b) (s.me.line (lineOf o.pd o.xd))).1, ?_, ?_, fun k hk => ?_⟩
  · rw [vecB, vec3, State.v3Lines_ok h, hb, ha]
    show Host.Outcome.next ((s.v3Latch un o).land 2 _ (lineOp 32 g (s.me.line a) (s.me.line b) (s.me.line (lineOf o.pd o.xd))).2) = _
    rw [hflags]
    rfl
  · rw [hlength, Strand.line_length]
  · rw [hvals k (by rwa [Strand.line_length])]
    exact congrArg Prod.fst (hlane _ _ _)

theorem lineBitwise : LineBitwise := by
  refine ⟨fun s i o un f a b hrule hready => ?_, fun s o a b hready => ?_⟩
  · rw [exec_of_vecBRule hrule]
    exact vecB_done f hready
  · obtain ⟨ha, hb⟩ := heldPm_whole hready
    refine ⟨(s.me.line b).map (fun x => elemAt (s.me.line a) (x.toNat % 32)), ?_, by simp [Strand.line_length], fun k hk => ?_⟩
    · rw [exec_vperm, execVperm, State.v3Lines_ok hready, hb, ha]
      rfl
    · have hlane : k < (s.me.line b).length := by rwa [Strand.line_length]
      simp [List.getD, hlane, elemAt]

/-! Moves (R215). -/

/-- The item in every place of an element. -/
def repeatSum (w v n : Nat) : Nat := (List.range n).foldl (fun acc j => acc + v * 2 ^ (w * j)) 0

theorem repeatSum_succ (w v n : Nat) : repeatSum w v (n + 1) = repeatSum w v n + v * 2 ^ (w * n) := by
  simp [repeatSum, List.range_succ]

theorem repeatSum_lt {w v : Nat} (hv : v < 2 ^ w) (n : Nat) : repeatSum w v n < 2 ^ (w * n) := by
  induction n with
  | zero => simp [repeatSum]
  | succ n ih =>
    have hle : (v + 1) * 2 ^ (w * n) ≤ 2 ^ w * 2 ^ (w * n) := Nat.mul_le_mul_right _ hv
    rw [repeatSum_succ, Nat.mul_succ, Nat.pow_add, Nat.mul_comm (2 ^ (w * n))]
    rw [Nat.succ_mul] at hle
    omega

theorem repeatSum_item {w v : Nat} (hv : v < 2 ^ w) {n j : Nat} (hj : j < n) : repeatSum w v n / 2 ^ (w * j) % 2 ^ w = v := by
  induction n with
  | zero => exact absurd hj (by omega)
  | succ n ih =>
    rw [repeatSum_succ]
    by_cases hlast : j = n
    · subst hlast
      rw [Nat.add_mul_div_right _ _ (Nat.two_pow_pos _), Nat.div_eq_of_lt (repeatSum_lt hv j), Nat.zero_add, Nat.mod_eq_of_lt hv]
    · have hsplit : v * 2 ^ (w * n) = 2 ^ w * (v * 2 ^ (w * (n - j - 1))) * 2 ^ (w * j) := by
        obtain ⟨m, rfl⟩ : ∃ m, n = j + m + 1 := ⟨n - j - 1, by omega⟩
        rw [show j + m + 1 - j - 1 = m by omega, show w * (j + m + 1) = w + w * m + w * j by ring, Nat.pow_add, Nat.pow_add]
        ring
      rw [hsplit, Nat.add_mul_div_right _ _ (Nat.two_pow_pos _), Nat.add_mul_mod_self_left]
      exact ih (by omega)

theorem tagWidth_mul (tag : BitVec 4) : tagWidth tag * (32 / tagWidth tag) = 32 := by
  revert tag
  decide

theorem item_repeatItem (tag : BitVec 4) {v j : Nat} (hv : v < 2 ^ tagWidth tag) (hj : j < 32 / tagWidth tag) :
    item (tagWidth tag) j (repeatItem (tagWidth tag) v) = v := by
  have hsum : repeatSum (tagWidth tag) v (32 / tagWidth tag) < 2 ^ 32 := by
    have h := repeatSum_lt hv (32 / tagWidth tag)
    rwa [tagWidth_mul] at h
  have hbits : (repeatItem (tagWidth tag) v).toNat = repeatSum (tagWidth tag) v (32 / tagWidth tag) :=
    (BitVec.toNat_ofNat _ _).trans (Nat.mod_eq_of_lt hsum)
  rw [item, hbits]
  exact repeatSum_item hv hj

/-- The source of a VU syllable that is ready, and its checks. -/
theorem vuChecked_ok {α : Type} {s : State} {o : FmtVU} {accept : List (BitVec 4)} {a : LineRef} (h : VUReady s o accept a)
    (go : Source → Res α) : (s.vuSource o >>= fun a => needAccepted s.me accept a.line.pn >>= fun _ => go a) =
      go { line := a, pm := sourcePm s 0 o.pa o.xa o.pm, held := heldPm s 0 o.pa o.xa } := by
  have hchecks := lineChecks_ok (srcs := [a]) (more := []) h.dest (by simpa using h.ok) (by simp)
  rw [State.vuSource_checks, vuRead, h.src]
  exact congrArg (· >>= _) hchecks

theorem vectorMoves : VectorMoves := by
  refine fun s o a => ⟨fun hready hheld => ?_, fun hready hlegal => ?_⟩
  · refine ⟨(List.range 32).map (fun k => elemAt (s.me.line a) ((k + ((s.me.line (auxOf a o)).getD 0 0).toNat % 32) % 32)), ?_, by simp,
      fun k hk => by simp [List.getD, hk, elemAt]⟩
    rw [exec_vrot, execVrot]
    have hdone := congrArg (finish s) (vuChecked_ok hready fun x => s.needHeldPm (pmSrcOk 32 x.held) >>= fun _ =>
      .ok ((s.loadLatch 0 o.pa o.xa o.pm).land latVI (wholeLine (lineOf o.pd o.xd) (s.me.tagOf x.line.pn)
        ((List.range 32).map (fun k => elemAt (s.me.line x.line) ((k + (elemAt (s.me.line (auxLine x.line o.sl)) 0).toNat % 32) % 32))))))
    refine Eq.trans hdone ?_
    rw [hheld]
    rfl
  · refine ⟨List.replicate 32 (repeatItem (tagWidth o.df) (itemAt (tagWidth o.df) (sourcePm s 0 o.pa o.xa o.pm).toNat
      (elemAt (s.me.line a) (((s.me.line (auxOf a o)).getD 0 0).toNat % 32)))), ?_, by simp, fun k j hk hj => ?_⟩
    · rw [exec_vbcst, execVbcst]
      simp only [needAccepted_any]
      rw [vuChecked_ok hready, hlegal]
      rfl
    · have hlane (e : Elem) : (List.replicate 32 e).getD k 0 = e := by
        rw [List.getD_eq_getElem?_getD, List.getElem?_replicate, if_pos hk, Option.getD_some]
      rw [hlane]
      exact item_repeatItem o.df (Nat.mod_lt _ (Nat.two_pow_pos _)) hj

/-- Settles O18: the checks of slot V are one chain that traps as `lineTrap` says, and then the modifiers of the latches. -/
theorem vectorBitwise : Obligations.VectorBitwise := by
  unfold Obligations.VectorBitwise
  exact ⟨lineBitwise, vectorMoves, lineTraps, heldModifiers⟩

end Sys2Proof.Machine
end

section
/-! O22: the vector memory accesses of a scratchpad (R64, R81 to R85, R224 to R227). -/

namespace Sys2Proof.Machine

open Sys2Proof.Claims

/-! The active lanes (R225). -/

/-- The active lanes of an access, each with its word. -/
def laneWords (t : Strand) (ix : Option LineRef) : List (Nat × Nat) :=
  (List.range 32).filterMap (fun k => (laneWord t ix k).map (fun n => (k, n)))

theorem activeLanes_eq (t : Strand) (ix : Option LineRef) : activeLanes (ix.map t.line) = laneWords t ix := by
  cases ix with
  | none => rfl
  | some l =>
    have hlane (k : Nat) : (laneWord t (some l) k).map (fun n => (k, n)) =
        if (elemAt (t.line l) k).toNat ≠ 0xFFFFFFFF then some (k, (elemAt (t.line l) k).toNat) else none := by
      have hnull : (elemAt (t.line l) k = 0xFFFFFFFF) ↔ (elemAt (t.line l) k).toNat = 0xFFFFFFFF :=
        ⟨fun h => by rw [h]; rfl, fun h => BitVec.eq_of_toNat_eq h⟩
      rw [laneWord]
      show Option.map _ (if elemAt (t.line l) k = _ then _ else _) = _
      by_cases h : elemAt (t.line l) k = 0xFFFFFFFF
      · rw [if_pos h, if_neg (not_not.mpr (hnull.mp h))]
        rfl
      · rw [if_neg h, if_pos (mt hnull.mpr h)]
        rfl
    rw [laneWords, Option.map_some, activeLanes, ← List.filterMap_eq_filter, List.filterMap_map]
    refine congrArg (List.filterMap · _) (funext fun k => ?_)
    rw [hlane]
    simp [Option.guard]

theorem mem_laneWords {t : Strand} {ix : Option LineRef} {p : Nat × Nat} :
    p ∈ laneWords t ix ↔ p.1 < 32 ∧ laneWord t ix p.1 = some p.2 := by
  obtain ⟨k, n⟩ := p
  simp only [laneWords, List.mem_filterMap, List.mem_range, Option.map_eq_some_iff, Prod.mk.injEq]
  constructor
  · rintro ⟨j, hj, m, hm, rfl, rfl⟩
    exact ⟨hj, hm⟩
  · rintro ⟨hk, hn⟩
    exact ⟨k, hk, n, hn, rfl, rfl⟩

/-- The lanes stand in ascending order. -/
theorem laneWords_ascending (t : Strand) (ix : Option LineRef) : (laneWords t ix).Pairwise (fun p q => p.1 < q.1) := by
  refine List.Pairwise.filterMap _ (fun j k hjk p hp q hq => ?_) List.pairwise_lt_range
  simp only [Option.map_eq_some_iff] at hp hq
  obtain ⟨-, -, rfl⟩ := hp
  obtain ⟨-, -, rfl⟩ := hq
  exact hjk

theorem laneWords_words (t : Strand) (ix : Option LineRef) : (List.range 32).filterMap (laneWord t ix) = (laneWords t ix).map (·.2) := by
  simp [laneWords, List.map_filterMap, Function.comp_def]

theorem laneWords_find (t : Strand) (ix : Option LineRef) {k : Nat} (hk : k < 32) :
    (laneWords t ix).find? (fun p => p.1 = k) = (laneWord t ix k).map (fun n => (k, n)) := by
  cases hn : laneWord t ix k with
  | none =>
    refine List.find?_eq_none.mpr fun p hp => ?_
    have hlane := (mem_laneWords.mp hp).2
    intro h
    obtain rfl : p.1 = k := by simpa using h
    rw [hn] at hlane
    cases hlane
  | some n =>
    have hmem : (k, n) ∈ laneWords t ix := mem_laneWords.mpr ⟨hk, hn⟩
    cases hfound : (laneWords t ix).find? (fun p => p.1 = k) with
    | none => exact absurd (decide_eq_true rfl) (List.find?_eq_none.mp hfound _ hmem)
    | some p =>
      obtain rfl : p.1 = k := by simpa using List.find?_some hfound
      have hlane := (mem_laneWords.mp (List.mem_of_find?_eq_some hfound)).2
      rw [hn] at hlane
      cases hlane
      rfl

/-! The checks of an access (R64, R82, R84, R227). -/

/-- The strand whose window an address names, unless it has ended (R82, R84). -/
def gsWindow (s : State) (x : Nat) : Option Nat :=
  if x / 2 ^ 17 = 127 then some s.cur else (s.gang.strands[x / 2 ^ 17]?).filter (fun k => (tget s.strands k).st ≠ 5)

/-- The window of an access; one without active lanes reaches none. -/
def gsTargetOf (s : State) (x : Nat) : Nat := (gsWindow s x).getD s.cur

/-- The checks of a scratchpad access in their order. -/
def gsChecks (s : State) (d : LineRef) (ix : Option LineRef) (x : Nat) : Res Nat := do
  forM (d.pn :: ix.toList.map (·.pn)) (needPlane s.me)
  s.gsTarget x (laneWords s.me ix)

/-- These checks trap as `gsTrap` says. -/
theorem gsChecks_eq (s : State) (d : LineRef) (ix : Option LineRef) (x : Nat) :
    gsChecks s d ix x = match gsTrap s d ix x with
      | some (c, v) => trapE c v
      | none => .ok (gsTargetOf s x) := by
  unfold gsChecks gsTrap State.gsTarget gsTargetOf
  dsimp only
  rw [forM_needPlane, laneWords_words, ← gsWindow]
  cases (d.pn :: ix.toList.map (·.pn)).find? (fun p => s.me.win.pl ≤ p.toNat) with
  | some p => rfl
  | none =>
    by_cases hx : 2 ^ 24 ≤ x
    · have hlt : decide (x < 2 ^ 24) = false := by simpa using hx
      simp only [hlt, hx, if_true]
      rfl
    · have hlt : decide (x < 2 ^ 24) = true := by simpa using hx
      by_cases hal : x % 4 = 0
      · simp only [hlt, hx, hal, if_false, decide_true, need_true, Res.bind_ok, ne_eq, not_true_eq_false]
        cases gsWindow s x with
        | none =>
          cases laneWords s.me ix with
          | nil => rfl
          | cons p l => rfl
        | some k =>
          simp only [List.find?_map, Function.comp_def]
          cases (laneWords s.me ix).find? (fun p => decide (4096 * (tget s.strands k).win.sb < x % 2 ^ 17 + 4 * p.2 + 4)) <;> rfl
      · simp only [hlt, hx, hal, if_false, decide_false, need_true, Res.bind_ok, ne_eq, not_false_eq_true, if_true]
        rfl

/-- An access that is ready passes them, and reaches its window if a lane is active. -/
theorem gsChecks_ok {s : State} {d : LineRef} {ix : Option LineRef} {x k : Nat} (h : GSReady s d ix x k) :
    gsChecks s d ix x = .ok (gsTargetOf s x) ∧ (laneWords s.me ix ≠ [] → gsTargetOf s x = k) := by
  have hwindow {p : Nat × Nat} (hp : p ∈ laneWords s.me ix) :
      gsWindow s x = some k ∧ x % 2 ^ 17 + 4 * p.2 + 4 ≤ 4096 * (tget s.strands k).win.sb := by
    obtain ⟨hlane, hword⟩ := mem_laneWords.mp hp
    obtain ⟨htarget, hinside⟩ := h.target p.1 p.2 hlane hword
    refine ⟨?_, hinside⟩
    unfold gsWindow
    by_cases hown : x / 2 ^ 17 = 127
    · rw [if_pos hown] at htarget ⊢
      rw [htarget]
    · rw [if_neg hown] at htarget ⊢
      rw [htarget.1]
      simpa using htarget.2
  have htarget : laneWords s.me ix ≠ [] → gsTargetOf s x = k := by
    intro hne
    obtain ⟨p, hp⟩ := List.exists_mem_of_ne_nil _ hne
    rw [gsTargetOf, (hwindow hp).1]
    rfl
  refine ⟨?_, htarget⟩
  have hplanes : (d.pn :: ix.toList.map (·.pn)).find? (fun p => s.me.win.pl ≤ p.toNat) = none := by
    refine List.find?_eq_none.mpr fun p hp => ?_
    simp only [List.mem_cons, List.mem_map, Option.mem_toList] at hp
    obtain rfl | ⟨l, hl, rfl⟩ := hp
    · simpa using h.lines.dest
    · simpa using h.lines.index l hl
  have hinside : ¬ 2 ^ 24 ≤ x := Nat.not_le.mpr h.inside
  have htrap : gsTrap s d ix x = none := by
    unfold gsTrap
    dsimp only
    rw [hplanes, laneWords_words, ← gsWindow]
    simp only [hinside, h.aligned, if_false, ne_eq, not_true_eq_false]
    cases hwords : laneWords s.me ix with
    | nil => cases gsWindow s x <;> rfl
    | cons p l =>
      rw [(hwindow (hwords ▸ List.mem_cons_self)).1]
      refine congrArg (Option.map _) (List.find?_eq_none.mpr fun n hn => ?_)
      obtain ⟨q, hq, rfl⟩ := List.mem_map.mp hn
      simpa using (hwindow (hwords ▸ hq)).2
  rw [gsChecks_eq, htrap]

/-! The forms of an access. -/

/-- The index line of a form. -/
def indexOf (ixd : Bool) (o : FmtGS) : Option LineRef := if ixd then some (lineOf o.pi o.xi) else none

/-- The checks as the meanings of the instructions make them. -/
theorem gsChecks_bind {α : Type} (s : State) (d : LineRef) (ixd : Bool) (o : FmtGS) (x : Nat) (go : List (Nat × Nat) → Nat → Res α) :
    (needPlane s.me d.pn >>= fun _ => s.indexLine ixd o.pi o.xi >>= fun l => s.gsTarget x (activeLanes l) >>= go (activeLanes l)) =
      gsChecks s d (indexOf ixd o) x >>= go (laneWords s.me (indexOf ixd o)) := by
  unfold gsChecks State.indexLine
  rw [← activeLanes_eq]
  cases ixd <;> simp [indexOf]

/-- The line that a load delivers from the words it finds. -/
def loadLine (o : FmtGS) (act : List (Nat × Nat)) (word : Nat → Nat) : Dest :=
  lineDest (lineOf o.pl o.xl) (tagWidth o.ft) o.pm o.ft (loadItems (tagWidth o.ft) o.pm act (fun i => BitVec.ofNat 32 (word i)))

theorem gsLoad_eq (ixd : Bool) (o : FmtGS) (s : State) : gsLoad ixd o s =
    finish s (gsChecks s (lineOf o.pl o.xl) (indexOf ixd o) (s.reg o.sa).toNat >>= fun k =>
      let x := (s.reg o.sa).toNat
      let dest := loadLine o (laneWords s.me (indexOf ixd o)) (fun i => cnum (tget s.strands k).smem (x % 2 ^ 17 + 4 * i) 4)
      if x / 2 ^ 17 = 127 then .ok (s.land latGS dest) else needLd s.me >>= fun _ => .ok (s.pushLd dest)) := by
  rw [← gsChecks_bind s (lineOf o.pl o.xl) ixd o (s.reg o.sa).toNat fun act k =>
      let x := (s.reg o.sa).toNat
      let dest := loadLine o act (fun i => cnum (tget s.strands k).smem (x % 2 ^ 17 + 4 * i) 4)
      if x / 2 ^ 17 = 127 then .ok (s.land latGS dest) else needLd s.me >>= fun _ => .ok (s.pushLd dest)]
  rfl

/-- What a store leaves of a word: the item of the lane in it (R224). -/
def putLane (w : Nat) (pm : BitVec 3) (l : List Elem) (x : Nat) (m : Cells 8) (p : Nat × Nat) : Cells 8 :=
  cwrite m (x % 2 ^ 17 + 4 * p.2 + (itemBytes w pm.toNat).1)
    (storeItem w pm (BitVec.ofNat 32 (cnum m (x % 2 ^ 17 + 4 * p.2) 4)) (elemAt l p.1))

/-- A store whose checks pass. -/
def State.putLanes (s : State) (w : Nat) (pm : BitVec 3) (d : LineRef) (x k : Nat) (act : List (Nat × Nat)) : State :=
  s.onStrand k (fun t => { t with smem := act.foldl (putLane w pm (s.me.line d) x) t.smem })

theorem gsStore_eq {o : FmtGS} {s : State} (ixd : Bool) (h : pmDstOk (tagWidth (s.me.tagOf (lineOf o.pl o.xl).pn)) o.pm = true) :
    gsStore ixd o s = finish s (gsChecks s (lineOf o.pl o.xl) (indexOf ixd o) (s.reg o.sa).toNat >>= fun k =>
      let x := (s.reg o.sa).toNat
      let s' := s.putLanes (tagWidth (s.me.tagOf (lineOf o.pl o.xl).pn)) o.pm (lineOf o.pl o.xl) x k (laneWords s.me (indexOf ixd o))
      if x / 2 ^ 17 = 127 then .ok s' else needSt s.me >>= fun _ => .ok s'.pushSt) := by
  rw [← gsChecks_bind s (lineOf o.pl o.xl) ixd o (s.reg o.sa).toNat fun act k =>
      let x := (s.reg o.sa).toNat
      let s' := s.putLanes (tagWidth (s.me.tagOf (lineOf o.pl o.xl).pn)) o.pm (lineOf o.pl o.xl) x k act
      if x / 2 ^ 17 = 127 then .ok s' else needSt s.me >>= fun _ => .ok s'.pushSt]
  unfold gsStore State.needStorePm
  simp only [h, need_true, Res.bind_ok]
  rfl

/-! Loads (R224, R225). -/

/-- The item of each lane. -/
theorem loadItems_lane {t : Strand} {ix : Option LineRef} {w : Nat} {pm : BitVec 3} {word : Nat → Nat} (hpm : pmDstOk w pm = true)
    {j : Nat} (hj : j < 32) :
    ((loadItems w pm (laneWords t ix) (fun i => BitVec.ofNat 32 (word i))).map (pmPlace w pm)).getD j 0 =
      laneItem w pm word (laneWord t ix j) := by
  have hplace : (if w = 32 then 0 else pm.toNat) = pm.toNat := by
    split
    next h =>
      subst h
      obtain rfl : pm = 0 := by simpa [pmDstOk] using hpm
      rfl
    next => rfl
  rw [loadItems, List.getD_eq_getElem?_getD, List.getElem?_map, List.getElem?_map, List.getElem?_range hj]
  simp only [Option.map_some, Option.getD_some, laneWords_find t ix hj, hplace]
  cases laneWord t ix j <;> rfl

/-- What a word read through an access without active lanes is does not matter. -/
theorem loadLine_congr (o : FmtGS) {act : List (Nat × Nat)} {f g : Nat → Nat} (h : act ≠ [] → f = g) : loadLine o act f = loadLine o act g := by
  cases act with
  | nil => rfl
  | cons p l => rw [h (List.cons_ne_nil p l)]

theorem gsLoad_done {s : State} {ixd : Bool} {o : FmtGS} {k : Nat}
    (hready : GSReady s (lineOf o.pl o.xl) (indexOf ixd o) (s.reg o.sa).toNat k) (hpm : pmDstOk (tagWidth o.ft) o.pm = true)
    (hld : (s.reg o.sa).toNat / 2 ^ 17 ≠ 127 → s.me.ldq.length < 63) : ∃ vals : List Elem, vals.length = 32 ∧
      (∀ j, j < 32 → vals.getD j 0 = laneItem (tagWidth o.ft) o.pm
        (fun n => cnum (tget s.strands k).smem ((s.reg o.sa).toNat % 2 ^ 17 + 4 * n) 4) (laneWord s.me (indexOf ixd o) j)) ∧
      let dest : Dest := .line (lineOf o.pl o.xl) o.pm vals (List.replicate 32 (pmMask (tagWidth o.ft) o.pm)) o.ft
      gsLoad ixd o s = .next (if (s.reg o.sa).toNat / 2 ^ 17 = 127 then s.land 6 dest else s.pushLd dest) := by
  obtain ⟨hchecks, htarget⟩ := gsChecks_ok hready
  refine ⟨_, ?_, fun j hj => loadItems_lane hpm hj, ?_⟩
  · simp [loadItems]
  · rw [gsLoad_eq, hchecks, Res.bind_ok]
    dsimp only
    rw [loadLine_congr o (g := fun i => cnum (tget s.strands k).smem ((s.reg o.sa).toNat % 2 ^ 17 + 4 * i) 4)
      (fun hne => by rw [htarget hne])]
    by_cases hown : (s.reg o.sa).toNat / 2 ^ 17 = 127
    · rw [if_pos hown, if_pos hown]
      rfl
    · rw [if_neg hown, if_neg hown, needLd, decide_eq_true (hld hown)]
      rfl

theorem scratchVectorReads : ScratchVectorReads := by
  intro s i o ix k hform
  dsimp only
  intro hready hpm hld
  obtain ⟨rfl, rfl⟩ | ⟨rfl, rfl⟩ := hform
  · exact gsLoad_done (ixd := false) hready hpm hld
  · exact gsLoad_done (ixd := true) hready hpm hld

theorem traps_of_gsTrap {s : State} {i : Instr} {d : LineRef} {ix : Option LineRef} {x : Nat} {go : Nat → Res State} {cause : BitVec 16}
    {val : Word} (hexec : exec i s = finish s (gsChecks s d ix x >>= go)) (htrap : gsTrap s d ix x = some (cause, val)) :
    Traps i s cause val := by
  rw [gsChecks_eq, htrap] at hexec
  exact traps_of_finish hexec

theorem scratchVectorTraps : ScratchVectorTraps := by
  intro s i o ix cause val hform hpm htrap
  obtain ⟨rfl | rfl, rfl⟩ | ⟨rfl | rfl, rfl⟩ := hform
  · exact traps_of_gsTrap (gsLoad_eq false o s) htrap
  · exact traps_of_gsTrap (gsStore_eq false (hpm (.inl rfl))) htrap
  · exact traps_of_gsTrap (gsLoad_eq true o s) htrap
  · exact traps_of_gsTrap (gsStore_eq true (hpm (.inr rfl))) htrap

/-! Stores (R224 to R226). -/

/-- The bytes of an item hold every bit that its store writes. -/
theorem pmMask_outside : ∀ (tag : BitVec 4) (pm : BitVec 3), pmDstOk (tagWidth tag) pm = true →
    (itemBytes (tagWidth tag) pm.toNat).1 + (itemBytes (tagWidth tag) pm.toNat).2 ≤ 4 ∧
    ∀ i < 4, ¬((itemBytes (tagWidth tag) pm.toNat).1 ≤ i ∧ i < (itemBytes (tagWidth tag) pm.toNat).1 + (itemBytes (tagWidth tag) pm.toNat).2) →
      (pmMask (tagWidth tag) pm).extractLsb' (8 * i) 8 = 0 := by decide

theorem mergeBits_outside {old new mask : Elem} {i : Nat} (h : mask.extractLsb' (8 * i) 8 = 0) :
    (mergeBits old new mask).extractLsb' (8 * i) 8 = old.extractLsb' (8 * i) 8 := by
  apply BitVec.eq_of_getLsbD_eq
  intro j hj
  have hbit : mask.getLsbD (8 * i + j) = false := by
    have := congrArg (fun x => x.getLsbD j) h
    simpa [hj] using this
  simp only [BitVec.getLsbD_extractLsb', hj, decide_true, Bool.true_and, mergeBits, BitVec.getLsbD_or, BitVec.getLsbD_and, BitVec.getLsbD_not,
    hbit, Bool.not_false, Bool.and_true, Bool.and_false, Bool.or_false]
  by_cases hlt : 8 * i + j < 32
  · simp [hlt]
  · simp [BitVec.getLsbD_of_ge _ _ (Nat.le_of_not_lt hlt)]

theorem mergeBits_again (old a b mask : Elem) : mergeBits (mergeBits old a mask) b mask = mergeBits old b mask := by
  apply BitVec.eq_of_getLsbD_eq
  intro j hj
  simp only [mergeBits, BitVec.getLsbD_or, BitVec.getLsbD_and, BitVec.getLsbD_not]
  cases mask.getLsbD j <;> simp

theorem wBytes_getD (e : Elem) {i : Nat} (h : i < 4) : (wBytes e).getD i 0 = e.extractLsb' (8 * i) 8 := by
  rw [wBytes, leBytes_getD 4 e.toNat i h]
  apply BitVec.eq_of_toNat_eq
  rw [BitVec.toNat_ofNat, BitVec.extractLsb'_toNat, Nat.shiftRight_eq_div_pow, Nat.pow_mul]

/-- The word at an address. -/
def wordAt (m : Cells 8) (a : Nat) : Elem := BitVec.ofNat 32 (cnum m a 4)

theorem leBytes_leNat : ∀ l : List Byte, leBytes l.length (leNat l) = l
  | [] => rfl
  | b :: l => by
    have hb := b.isLt
    have hhead : BitVec.ofNat 8 (b.toNat + 256 * leNat l) = b := by
      apply BitVec.eq_of_toNat_eq
      rw [BitVec.toNat_ofNat]
      omega
    rw [List.length_cons, leNat, leBytes, hhead, show (b.toNat + 256 * leNat l) / 256 = leNat l by omega, leBytes_leNat l]

theorem wBytes_wordAt (m : Cells 8) (a : Nat) : wBytes (wordAt m a) = cread m a 4 := by
  have hlength := cread_length m a 4
  have hlt : leNat (cread m a 4) < 2 ^ 32 := by
    have := leNat_lt (cread m a 4)
    rwa [hlength] at this
  have hbytes := leBytes_leNat (cread m a 4)
  rw [hlength] at hbytes
  rw [wBytes, wordAt, cnum, BitVec.toNat_ofNat, Nat.mod_eq_of_lt hlt, hbytes]

theorem wordAt_byte (m : Cells 8) (a : Nat) {i : Nat} (h : i < 4) : (wordAt m a).extractLsb' (8 * i) 8 = cget m (a + i) := by
  rw [← wBytes_getD _ h, wBytes_wordAt, List.getD_eq_getElem?_getD, cread_getElem? _ _ _ _ h, Option.getD_some]

/-- A word is known by its bytes. -/
theorem cnum_of_bytes {m : Cells 8} {a : Nat} {e : Elem} (h : ∀ i, i < 4 → cget m (a + i) = e.extractLsb' (8 * i) 8) :
    cnum m a 4 = e.toNat := by
  have hbytes : cread m a 4 = wBytes e := by
    refine List.ext_getElem? fun i => ?_
    by_cases hi : i < 4
    · rw [cread_getElem? _ _ _ _ hi, h i hi, ← wBytes_getD e hi, List.getD_eq_getElem?_getD, List.getElem?_eq_getElem (by simpa [wBytes, leBytes_length] using hi)]
      rfl
    · rw [List.getElem?_eq_none (by simpa using hi), List.getElem?_eq_none (by simpa [wBytes, leBytes_length] using hi)]
  rw [cnum, hbytes, wBytes, leNat_leBytes]
  exact Nat.mod_eq_of_lt e.isLt

theorem wordAt_of_bytes {m : Cells 8} {a : Nat} {e : Elem} (h : ∀ i, i < 4 → cget m (a + i) = e.extractLsb' (8 * i) 8) : wordAt m a = e := by
  rw [wordAt, cnum_of_bytes h, BitVec.ofNat_toNat, BitVec.setWidth_eq]

/-- A store writes of each byte of its word the byte of the merged word, or none. -/
theorem cget_putLane {tag : BitVec 4} {pm : BitVec 3} (hpm : pmDstOk (tagWidth tag) pm = true) (l : List Elem) (x : Nat) (m : Cells 8)
    (p : Nat × Nat) (a : Nat) : cget (putLane (tagWidth tag) pm l x m p) a =
      if x % 2 ^ 17 + 4 * p.2 ≤ a ∧ a < x % 2 ^ 17 + 4 * p.2 + 4 then
        (mergeBits (wordAt m (x % 2 ^ 17 + 4 * p.2)) (l.getD p.1 0) (pmMask (tagWidth tag) pm)).extractLsb' (8 * (a - (x % 2 ^ 17 + 4 * p.2))) 8
      else cget m a := by
  obtain ⟨hfit, hmask⟩ := pmMask_outside tag pm hpm
  revert hfit hmask
  unfold putLane storeItem
  generalize itemBytes (tagWidth tag) pm.toNat = b
  generalize hw : x % 2 ^ 17 + 4 * p.2 = w
  intro hfit hmask
  rw [← wordAt]
  generalize hM : mergeBits (wordAt m w) (l.getD p.1 0) (pmMask (tagWidth tag) pm) = M
  have hbytes : (wBytes (mergeBits (wordAt m w) (elemAt l p.1) (pmMask (tagWidth tag) pm))) = wBytes M := congrArg wBytes hM
  have hlength : ((wBytes M).drop b.1 |>.take b.2).length = b.2 := by
    simp only [List.length_take, List.length_drop, wBytes, leBytes_length]
    omega
  simp only [hbytes, cget_cwrite, hlength]
  by_cases hin : w + b.1 ≤ a ∧ a < w + b.1 + b.2
  · rw [if_pos hin, if_pos (by omega), List.getD_eq_getElem?_getD, List.getElem?_take_of_lt (by omega), List.getElem?_drop,
      ← List.getD_eq_getElem?_getD, wBytes_getD _ (by omega)]
    congr 2
    omega
  · rw [if_neg hin]
    split
    next hword =>
      rw [← hM, mergeBits_outside (hmask (a - w) (by omega) (by omega)), wordAt_byte _ _ (by omega)]
      congr 1
      omega
    next => rfl

/-- The word of a lane takes the bits of its item. -/
theorem putLane_word {tag : BitVec 4} {pm : BitVec 3} (hpm : pmDstOk (tagWidth tag) pm = true) (l : List Elem) (x : Nat) (m : Cells 8)
    (p : Nat × Nat) : wordAt (putLane (tagWidth tag) pm l x m p) (x % 2 ^ 17 + 4 * p.2) =
      mergeBits (wordAt m (x % 2 ^ 17 + 4 * p.2)) (l.getD p.1 0) (pmMask (tagWidth tag) pm) := by
  refine wordAt_of_bytes fun i hi => ?_
  rw [cget_putLane hpm, if_pos (by omega), Nat.add_sub_cancel_left]

theorem wordAt_congr {m m' : Cells 8} {a : Nat} (h : ∀ i, i < 4 → cget m' (a + i) = cget m (a + i)) : wordAt m' a = wordAt m a :=
  wordAt_of_bytes fun i hi => (h i hi).trans (wordAt_byte m a hi).symm

/-- Another word stays. -/
theorem putLane_other {tag : BitVec 4} {pm : BitVec 3} (hpm : pmDstOk (tagWidth tag) pm = true) (l : List Elem) (x : Nat) (m : Cells 8)
    {p : Nat × Nat} {n : Nat} (hn : p.2 ≠ n) :
    wordAt (putLane (tagWidth tag) pm l x m p) (x % 2 ^ 17 + 4 * n) = wordAt m (x % 2 ^ 17 + 4 * n) := by
  refine wordAt_congr fun i hi => ?_
  rw [cget_putLane hpm, if_neg (by omega)]

/-- Bytes outside the words of a store stay. -/
theorem putLanes_outside {tag : BitVec 4} {pm : BitVec 3} (hpm : pmDstOk (tagWidth tag) pm = true) (l : List Elem) (x : Nat) {a : Nat} :
    ∀ (act : List (Nat × Nat)) (m : Cells 8), (∀ p ∈ act, ¬(x % 2 ^ 17 + 4 * p.2 ≤ a ∧ a < x % 2 ^ 17 + 4 * p.2 + 4)) →
      cget (act.foldl (putLane (tagWidth tag) pm l x) m) a = cget m a
  | [], _, _ => rfl
  | p :: act, m, h => by
    rw [List.foldl_cons, putLanes_outside hpm l x act _ fun q hq => h q (List.mem_cons_of_mem _ hq), cget_putLane hpm,
      if_neg (h p List.mem_cons_self)]

/-- Words that no lane of a store addresses stay. -/
theorem putLanes_others {tag : BitVec 4} {pm : BitVec 3} (hpm : pmDstOk (tagWidth tag) pm = true) (l : List Elem) (x : Nat) {n : Nat} :
    ∀ (act : List (Nat × Nat)) (m : Cells 8), (∀ p ∈ act, p.2 ≠ n) →
      wordAt (act.foldl (putLane (tagWidth tag) pm l x) m) (x % 2 ^ 17 + 4 * n) = wordAt m (x % 2 ^ 17 + 4 * n)
  | [], _, _ => rfl
  | p :: act, m, h => by
    rw [List.foldl_cons, putLanes_others hpm l x act _ fun q hq => h q (List.mem_cons_of_mem _ hq),
      putLane_other hpm l x m (h p List.mem_cons_self)]

/-- What lower lanes have stored is lost where a higher one stores (R226). -/
theorem putLanes_lost {tag : BitVec 4} {pm : BitVec 3} (hpm : pmDstOk (tagWidth tag) pm = true) (l : List Elem) (x n : Nat) (e : Elem) :
    ∀ (act : List (Nat × Nat)) (m : Cells 8),
      mergeBits (wordAt (act.foldl (putLane (tagWidth tag) pm l x) m) (x % 2 ^ 17 + 4 * n)) e (pmMask (tagWidth tag) pm) =
        mergeBits (wordAt m (x % 2 ^ 17 + 4 * n)) e (pmMask (tagWidth tag) pm)
  | [], _ => rfl
  | p :: act, m => by
    rw [List.foldl_cons, putLanes_lost hpm l x n e act]
    by_cases hn : p.2 = n
    · subst hn
      rw [putLane_word hpm, mergeBits_again]
    · rw [putLane_other hpm l x m hn]

/-- Of every word addressed the item of its highest lane is stored. -/
theorem putLanes_highest {tag : BitVec 4} {pm : BitVec 3} (hpm : pmDstOk (tagWidth tag) pm = true) (l : List Elem) (x : Nat) (m : Cells 8)
    {t : Strand} {ix : Option LineRef} {j n : Nat} (hj : j < 32) (h : highest t ix j n) :
    wordAt ((laneWords t ix).foldl (putLane (tagWidth tag) pm l x) m) (x % 2 ^ 17 + 4 * n) =
      mergeBits (wordAt m (x % 2 ^ 17 + 4 * n)) (l.getD j 0) (pmMask (tagWidth tag) pm) := by
  obtain ⟨hlane, hlast⟩ := h
  obtain ⟨pre, post, hact⟩ := List.append_of_mem (mem_laneWords.mpr ⟨hj, hlane⟩ : (j, n) ∈ laneWords t ix)
  have hascending := laneWords_ascending t ix
  rw [hact, List.pairwise_append, List.pairwise_cons] at hascending
  obtain ⟨-, ⟨habove, -⟩, -⟩ := hascending
  have hpost : ∀ p ∈ post, p.2 ≠ n := by
    rintro p hp rfl
    have hmem : p ∈ laneWords t ix := by
      rw [hact]
      exact List.mem_append_right _ (List.mem_cons_of_mem _ hp)
    obtain ⟨hp32, hplane⟩ := mem_laneWords.mp hmem
    exact hlast p.1 (habove p hp) hp32 hplane
  rw [hact, List.foldl_append, List.foldl_cons, putLanes_others hpm l x post _ hpost]
  exact (putLane_word hpm l x _ (j, n)).trans (putLanes_lost hpm l x n _ pre m)

theorem tmod_id {α : Type} (t : Table α) (k : Nat) : tmod t k (fun x => x) = t := by
  have hid : ∀ p ∈ t, (if p.1 = k then (k, p.2) else p) = p := by
    rintro ⟨j, x⟩ -
    split
    next h => exact congrArg (·, x) h.symm
    next => rfl
  exact (List.map_congr_left hid).trans (List.map_id t)

/-- A store without active lanes does nothing, whichever window it names. -/
theorem State.putLanes_congr (s : State) (w : Nat) (pm : BitVec 3) (d : LineRef) (x : Nat) {act : List (Nat × Nat)} {k j : Nat}
    (h : act ≠ [] → k = j) : s.putLanes w pm d x k act = s.putLanes w pm d x j act := by
  cases act with
  | nil =>
    have hnone (k : Nat) : s.putLanes w pm d x k [] = { s with strands := tmod s.strands k (fun t => t) } := rfl
    rw [hnone, hnone, tmod_id, tmod_id]
  | cons p l => rw [h (List.cons_ne_nil p l)]

/-- The own strand once a store is counted, where it is. -/
def State.storeCounted (s : State) (own : Prop) [Decidable own] : State := if own then s else s.pushSt

theorem gsStore_done {s : State} {ixd : Bool} {o : FmtGS} {k : Nat}
    (hready : GSReady s (lineOf o.pl o.xl) (indexOf ixd o) (s.reg o.sa).toNat k)
    (hpm : pmDstOk (tagWidth (s.me.tagOf (lineOf o.pl o.xl).pn)) o.pm = true)
    (hst : (s.reg o.sa).toNat / 2 ^ 17 ≠ 127 → s.me.stq.length < 63) :
    gsStore ixd o s = .next ((s.putLanes (tagWidth (s.me.tagOf (lineOf o.pl o.xl).pn)) o.pm (lineOf o.pl o.xl) (s.reg o.sa).toNat k
      (laneWords s.me (indexOf ixd o))).storeCounted ((s.reg o.sa).toNat / 2 ^ 17 = 127)) := by
  obtain ⟨hchecks, htarget⟩ := gsChecks_ok hready
  rw [gsStore_eq ixd hpm, hchecks, Res.bind_ok]
  dsimp only
  rw [s.putLanes_congr _ _ _ _ htarget, State.storeCounted]
  by_cases hown : (s.reg o.sa).toNat / 2 ^ 17 = 127
  · rw [if_pos hown, if_pos hown]
    rfl
  · rw [if_neg hown, if_neg hown, needSt, decide_eq_true (hst hown)]
    rfl

/-- Counting a store changes nothing else of any strand. -/
theorem State.storeCounted_keeps {α : Type} (s : State) (own : Prop) [Decidable own] (g : Strand → α) (h : ∀ (t : Strand) l, g { t with stq := l } = g t)
    (m : Nat) : g (tget (s.storeCounted own).strands m) = g (tget s.strands m) := by
  unfold State.storeCounted
  split
  · rfl
  · show g (tget (tset s.strands s.cur _) m) = _
    rw [tget_tset]
    split
    next hm =>
      rw [h, hm]
      rfl
    next => rfl

theorem State.storeCounted_me (s : State) (own : Prop) [Decidable own] :
    (s.storeCounted own).me.stq = s.me.stq ++ (if own then [] else [({} : StOp)]) := by
  unfold State.storeCounted
  split
  · exact (List.append_nil _).symm
  · exact congrArg Strand.stq (State.onMe_me s _)

theorem State.storeCounted_memSame (s : State) (own : Prop) [Decidable own] : MemSame s (s.storeCounted own) := by
  unfold State.storeCounted
  split <;> exact memSame_of_eq rfl rfl

theorem exec_of_gsStore {i : Instr} {o : FmtGS} {ix : Option LineRef} (h : (i = .vst o ∧ ix = none) ∨ (i = .vscat o ∧ ix = some (lineOf o.pi o.xi)))
    (s : State) : ∃ ixd, exec i s = gsStore ixd o s ∧ ix = indexOf ixd o := by
  obtain ⟨rfl, rfl⟩ | ⟨rfl, rfl⟩ := h
  · exact ⟨false, exec_vst s o, rfl⟩
  · exact ⟨true, exec_vscat s o, rfl⟩

theorem scratchVectorStores : ScratchVectorStores := by
  intro s i o ix k hform d w x hready hk hpm hst
  obtain ⟨ixd, hexec, rfl⟩ := exec_of_gsStore hform s
  let act := laneWords s.me (indexOf ixd o)
  let put (t : Strand) : Strand := { t with smem := act.foldl (putLane w o.pm (s.me.line d) x) t.smem }
  let y : State := s.onStrand k put
  have hkeeps {α : Type} (g : Strand → α) (hput : ∀ t, g (put t) = g t) (m : Nat) : g (tget y.strands m) = g (tget s.strands m) :=
    tget_tmod_of_eq s.strands k m put g hput
  have hsmem (m : Nat) : (tget (y.storeCounted (x / 2 ^ 17 = 127)).strands m).smem = (tget y.strands m).smem :=
    y.storeCounted_keeps _ Strand.smem (fun _ _ => rfl) m
  have hyk : (tget y.strands k).smem = act.foldl (putLane w o.pm (s.me.line d) x) (tget s.strands k).smem :=
    congrArg Strand.smem (s.tget_onStrand put hk)
  refine ⟨y.storeCounted (x / 2 ^ 17 = 127), hexec.trans (gsStore_done hready hpm hst), ?_, fun j n hj hhigh => ?_, fun m a hout => ?_, ?_,
    fun m => ⟨?_, ?_⟩⟩
  · obtain ⟨hmem, hcache⟩ := y.storeCounted_memSame (x / 2 ^ 17 = 127)
    exact ⟨hmem, hcache⟩
  · rw [hsmem, hyk]
    exact cnum_of_bytes fun i hi => (wordAt_byte _ _ hi).symm.trans
      (congrArg (BitVec.extractLsb' (8 * i) 8) (putLanes_highest hpm (s.me.line d) x _ hj hhigh))
  · rw [hsmem]
    by_cases hm : m = k
    · subst hm
      rw [hyk]
      exact putLanes_outside hpm _ x act _ fun p hp hin =>
        hout ⟨rfl, p.1, p.2, (mem_laneWords.mp hp).1, (mem_laneWords.mp hp).2, hin⟩
    · exact congrArg (fun t : Strand => cget t.smem a) (tget_tmod_of_ne s.strands put hm)
  · rw [State.storeCounted_me]
    exact congrArg (· ++ _) (hkeeps Strand.stq (fun _ => rfl) s.cur)
  · exact (y.storeCounted_keeps _ Strand.s (fun _ _ => rfl) m).trans (hkeeps Strand.s (fun _ => rfl) m)
  · exact (y.storeCounted_keeps _ Strand.planes (fun _ _ => rfl) m).trans (hkeeps Strand.planes (fun _ => rfl) m)

/-- Settles O22: the checks are one chain that traps as `gsTrap` says; a store keeps of every word the item of its highest lane. -/
theorem scratchVectorAccesses : Obligations.ScratchVectorAccesses := by
  unfold Obligations.ScratchVectorAccesses
  exact ⟨scratchVectorReads, scratchVectorStores, scratchVectorTraps⟩

end Sys2Proof.Machine
end

section
/-! O30: what the end of a command leaves (R72, R87, R88). -/

namespace Sys2Proof.Machine

open Sys2Proof.Claims

/-! One strand changes. -/

/-- Of memory, gangs, stationary latches and other strands nothing has changed, and strand `k` has changed as `f` says. -/
structure StrandStep (k : Nat) (f : Strand → Strand) (s t : State) : Prop where
  strand : tfind t.strands k = (tfind s.strands k).map f
  other : ∀ j, j ≠ k → tfind t.strands j = tfind s.strands j
  mem : t.mem = s.mem
  gangs : t.gangs = s.gangs
  latches : ∀ i, (tget t.cores i).latches = (tget s.cores i).latches

theorem StrandStep.refl (k : Nat) (s : State) : StrandStep k id s s := ⟨by simp, fun _ _ => rfl, rfl, rfl, fun _ => rfl⟩

theorem StrandStep.trans {k : Nat} {f g : Strand → Strand} {s t u : State} (h : StrandStep k f s t) (h' : StrandStep k g t u) :
    StrandStep k (g ∘ f) s u where
  strand := by rw [h'.strand, h.strand, Option.map_map]
  other j hj := (h'.other j hj).trans (h.other j hj)
  mem := h'.mem.trans h.mem
  gangs := h'.gangs.trans h.gangs
  latches i := (h'.latches i).trans (h.latches i)

/-- Two states with the same strands, gangs, memory and cores. -/
theorem StrandStep.of_same (k : Nat) {s t : State} (hstrands : t.strands = s.strands) (hmem : t.mem = s.mem) (hgangs : t.gangs = s.gangs)
    (hcores : t.cores = s.cores) : StrandStep k id s t :=
  ⟨by rw [hstrands, Option.map_id]; rfl, fun _ _ => by rw [hstrands], hmem, hgangs, fun _ => by rw [hcores]⟩

theorem StrandStep.onStrand (k : Nat) (f : Strand → Strand) (s : State) : StrandStep k f s (s.onStrand k f) :=
  ⟨by rw [State.tfind_onStrand, if_pos rfl], fun j hj => by rw [State.tfind_onStrand, if_neg hj], rfl, rfl, fun _ => rfl⟩

theorem StrandStep.noteErrors (k : Nat) (s : State) (j : Nat) (l : List ArrayRun) : StrandStep k id s (s.noteErrors j l) :=
  have h := s.noteErrors_same j l
  .of_same k h.strands h.mem h.gangs h.cores

theorem StrandStep.tget {k : Nat} {f : Strand → Strand} {s t : State} (h : StrandStep k f s t) (hk : (tfind s.strands k).isSome) :
    tget t.strands k = f (tget s.strands k) := by
  obtain ⟨x, hx⟩ := Option.isSome_iff_exists.mp hk
  simp [Sys2Proof.Machine.tget, h.strand, hx]

/-- What the tile commands leave of their strand. -/
structure TileStep (x y : Strand) : Prop where
  s : y.s = x.s
  planes : y.planes = x.planes
  smem : y.smem = x.smem
  tlq : y.tlq = x.tlq
  cpq : y.cpq = x.cpq
  gang : y.gang = x.gang
  pend : ∀ th, (y.tile th).pend = [] ∨ (y.tile th).pend = (x.tile th).pend

theorem TileStep.refl (x : Strand) : TileStep x x := ⟨rfl, rfl, rfl, rfl, rfl, rfl, fun _ => .inr rfl⟩

theorem TileStep.trans {x y z : Strand} (h : TileStep x y) (h' : TileStep y z) : TileStep x z where
  s := h'.s.trans h.s
  planes := h'.planes.trans h.planes
  smem := h'.smem.trans h.smem
  tlq := h'.tlq.trans h.tlq
  cpq := h'.cpq.trans h.cpq
  gang := h'.gang.trans h.gang
  pend th := (h'.pend th).elim .inl fun he => (h.pend th).imp he.trans he.trans

@[simp] theorem Strand.tile_onTile (t : Strand) (th u : BitVec 5) (f : Tile → Tile) :
    (t.onTile th f).tile u = if u = th then f (t.tile th) else t.tile u := by
  rw [Strand.tile, Strand.onTile]
  dsimp only
  rw [tget_tset]
  by_cases h : u = th
  · simp [h]
  · have hne : ¬ u.toNat = th.toNat := fun e => h (BitVec.eq_of_toNat_eq e)
    rw [if_neg hne, if_neg h, Strand.tile]

theorem TileStep.onTile (x : Strand) (th : BitVec 5) {f : Tile → Tile} (h : (f (x.tile th)).pend = [] ∨ (f (x.tile th)).pend = (x.tile th).pend) :
    TileStep x (x.onTile th f) := by
  refine ⟨rfl, rfl, rfl, rfl, rfl, rfl, fun u => ?_⟩
  rw [Strand.tile_onTile]
  split
  next hu => rwa [hu]
  next => exact .inr rfl

theorem TileStep.setBuf (x : Strand) (tk : BitVec 2) (m : Cells 8) : TileStep x (x.setBuf tk m) := by
  unfold Strand.setBuf
  split
  · exact ⟨rfl, rfl, rfl, rfl, rfl, rfl, fun _ => .inr rfl⟩
  · split <;> exact ⟨rfl, rfl, rfl, rfl, rfl, rfl, fun _ => .inr rfl⟩

/-- No command waits to move a tile of strand `k`. -/
def Still (s : State) (k : Nat) : Prop := (tfind s.strands k).isSome ∧ ∀ th, ((tget s.strands k).tile th).pend = []

theorem still_of_calm {s : State} {k : Nat} (h : Calm s k) : Still s k := ⟨h.1, h.2.1⟩

/-- A strand on whose tiles no command waits stays so (R87). -/
theorem still_step {s t : State} {k : Nat} {f : Strand → Strand} (h : Still s k) (hstep : StrandStep k f s t)
    (hf : TileStep (tget s.strands k) (f (tget s.strands k))) : Still t k := by
  obtain ⟨hk, hpend⟩ := h
  refine ⟨?_, fun th => ?_⟩
  · rw [hstep.strand]
    simpa using hk
  · rw [hstep.tget hk]
    exact (hf.pend th).elim id fun he => he.trans (hpend th)

theorem calm_step {s t : State} {k : Nat} {f : Strand → Strand} (h : Calm s k) (hstep : StrandStep k f s t)
    (hf : TileStep (tget s.strands k) (f (tget s.strands k))) : Calm t k := by
  obtain ⟨hk, hpend⟩ := still_step (still_of_calm h) hstep hf
  refine ⟨hk, hpend, ?_⟩
  rw [hstep.tget h.1, hstep.gangs, hf.gang]
  exact h.2.2

/-! The end of a command. -/

theorem State.settleTile_still {s : State} {k : Nat} {th : BitVec 5} (h : ((tget s.strands k).tile th).pend = []) : s.settleTile k th = s := by
  rw [State.settleTile, h]
  rfl

/-- A strand whose source tile is read by one command fewer (R88). -/
def Strand.unread (o : Option (BitVec 5)) (t : Strand) : Strand := match o with
  | none => t
  | some th => t.onTile th (fun e => { e with rc := e.rc - 1 })

theorem TileStep.unread (x : Strand) (o : Option (BitVec 5)) : TileStep x (x.unread o) := by
  cases o with
  | none => exact .refl x
  | some th => exact .onTile x th (f := fun e => { e with rc := e.rc - 1 }) (.inr rfl)

theorem State.onStrand_id (s : State) (k : Nat) : s.onStrand k (fun t => t) = s := by rw [State.onStrand, tmod_id]

theorem State.unreadTile_still {s : State} {k : Nat} (h : Still s k) (o : Option (BitVec 5)) :
    s.unreadTile k o = s.onStrand k (Strand.unread o) := by
  cases o with
  | none => exact (s.onStrand_id k).symm
  | some th =>
    obtain ⟨-, hpend⟩ := still_step h (.onStrand k (Strand.unread (some th)) s) (.unread _ _)
    exact State.settleTile_still (s := s.onStrand k (Strand.unread (some th))) (hpend th)

/-- A strand whose command leaves its tile (R87). -/
def Strand.leaveTile (n : Nat) (c : Cmd) (t : Strand) : Strand := match c.td with
  | none => t
  | some th => if c.op = .talloc then t else t.onTile th (fun e => e.leave n c)

theorem Tile.leave_pend (e : Tile) (n : Nat) (c : Cmd) (h : e.pend = []) : (e.leave n c).pend = [] := by
  unfold Tile.leave
  split
  · simp [h]
  · split <;> exact h

theorem TileStep.leaveTile {x : Strand} (n : Nat) (c : Cmd) (h : ∀ th, (x.tile th).pend = []) : TileStep x (x.leaveTile n c) := by
  unfold Strand.leaveTile
  split
  · exact .refl x
  · split
    · exact .refl x
    · exact .onTile x _ (.inl (Tile.leave_pend _ n c (h _)))

theorem State.countWrite_step (s : State) (k j : Nat) (e : Tile) : StrandStep k id s (s.countWrite j e) := by
  unfold State.countWrite
  dsimp only
  split
  · refine ⟨by simp, fun _ _ => rfl, rfl, rfl, fun i => ?_⟩
    rw [State.onCore]
    dsimp only
    rw [tget_tset]
    split
    next h => rw [h]
    next => rfl
  · exact .refl k s

/-- A strand with one command of a counter fewer (R72). -/
def Strand.lessCmd (n : Nat) (c : Cmd) (t : Strand) : Strand :=
  if c.op.isTl then { t with tlq := popDone (fun o => o.done) (t.tlq.map (fun o => if o.cmd = n then { o with done := true } else o)) }
  else { t with cpq := t.cpq.filter (· ≠ n) }

/-- A strand one of whose commands has ended. -/
def Strand.endCmd (n : Nat) (c : Cmd) (t : Strand) : Strand :=
  (((((t.leaveTile n c).unread c.ta).unread c.ta2).unread c.tb).lessCmd n c)

/-- Its tiles, before the counter. -/
theorem TileStep.endTiles {x : Strand} (n : Nat) (c : Cmd) (h : ∀ th, (x.tile th).pend = []) :
    TileStep x ((((x.leaveTile n c).unread c.ta).unread c.ta2).unread c.tb) :=
  (((TileStep.leaveTile n c h).trans (.unread _ _)).trans (.unread _ _)).trans (.unread _ _)

/-- A command leaves its tile, and its core counts what it has written (R87, R242). -/
def State.leaveTile (s : State) (n : Nat) (c : Cmd) : State := match c.td with
  | none => s
  | some th => if c.op = .talloc then s
    else ((if c.active && !c.op.isDrain then s.countWrite c.strand ((tget s.strands c.strand).tile th) else s
      ).onStrand c.strand (fun t => t.onTile th (fun e => e.leave n c))).settleTile c.strand th

theorem State.countWrite_cmds (s : State) (j : Nat) (e : Tile) : (s.countWrite j e).cmds = s.cmds := by
  unfold State.countWrite
  dsimp only
  split <;> rfl

theorem State.leaveTile_step {s : State} {n : Nat} {c : Cmd} (h : Still s c.strand) :
    StrandStep c.strand (Strand.leaveTile n c) s (s.leaveTile n c) ∧ (s.leaveTile n c).cmds = s.cmds := by
  unfold State.leaveTile Strand.leaveTile
  cases c.td with
  | none => exact ⟨.refl _ s, rfl⟩
  | some th =>
    by_cases hop : c.op = .talloc
    · simp only [hop, if_true]
      exact ⟨.refl _ s, trivial⟩
    · simp only [hop, if_false]
      let u : State := if c.active && !c.op.isDrain then s.countWrite c.strand ((tget s.strands c.strand).tile th) else s
      have hu : StrandStep c.strand id s u ∧ u.cmds = s.cmds :=
        iteInduction (motive := fun u : State => StrandStep c.strand id s u ∧ u.cmds = s.cmds)
          (fun _ => ⟨s.countWrite_step _ _ _, s.countWrite_cmds _ _⟩) fun _ => ⟨.refl _ s, rfl⟩
      have hstep := hu.1.trans (.onStrand c.strand (fun t => t.onTile th (fun e => e.leave n c)) u)
      obtain ⟨-, hpend⟩ := still_step h hstep (.onTile _ th (f := fun e => e.leave n c) (.inl (Tile.leave_pend _ n c (h.2 th))))
      rw [State.settleTile_still (hpend th)]
      exact ⟨hstep, hu.2⟩

/-- The end of a command on whose strand's tiles none waits, up to the halt that may wait for it (R74). -/
theorem State.endCmd_still {s : State} {n : Nat} {c : Cmd} (hc : tfind s.cmds n = some c) (hstill : Still s c.strand) :
    ∃ u : State, s.endCmd n = u.haltStep (tget u.strands c.strand).gang ∧ StrandStep c.strand (Strand.endCmd n c) s u ∧
      u.cmds = tdel s.cmds n := by
  let k := c.strand
  let u₀ : State := { s with cmds := tdel s.cmds n }
  let u₁ : State := u₀.leaveTile n c
  obtain ⟨h₁, hcmds⟩ := State.leaveTile_step (s := u₀) (n := n) (c := c) hstill
  have hstill₁ : Still u₁ k := still_step (s := u₀) hstill h₁ (.leaveTile n c hstill.2)
  let u₂ : State := u₁.onStrand k (Strand.unread c.ta)
  have hstill₂ : Still u₂ k := still_step hstill₁ (.onStrand k _ u₁) (.unread _ _)
  let u₃ : State := u₂.onStrand k (Strand.unread c.ta2)
  have hstill₃ : Still u₃ k := still_step hstill₂ (.onStrand k _ u₂) (.unread _ _)
  let u₄ : State := u₃.onStrand k (Strand.unread c.tb)
  let u : State := (u₄.onStrand k (Strand.lessCmd n c)).onDev
    (fun d => { d with invals := tmap d.invals (fun _ i => { i with cmds := i.cmds.filter (· ≠ n) }) })
  have hs : StrandStep k id s u₀ := .of_same k rfl rfl rfl rfl
  have hu : StrandStep k id (u₄.onStrand k (Strand.lessCmd n c)) u := .of_same k rfl rfl rfl rfl
  have hstep : StrandStep k (Strand.endCmd n c) s u :=
    (((((hs.trans h₁).trans (.onStrand k (Strand.unread c.ta) u₁)).trans (.onStrand k (Strand.unread c.ta2) u₂)).trans
      (.onStrand k (Strand.unread c.tb) u₃)).trans (.onStrand k (Strand.lessCmd n c) u₄)).trans hu
  have hunread : ((u₁.unreadTile k c.ta).unreadTile k c.ta2).unreadTile k c.tb = u₄ := by
    rw [State.unreadTile_still hstill₁, State.unreadTile_still hstill₂, State.unreadTile_still hstill₃]
  refine ⟨u, ?_, hstep, hcmds⟩
  unfold State.endCmd
  simp only [tget_of_tfind hc]
  show ((((((u₁.unreadTile k c.ta).unreadTile k c.ta2).unreadTile k c.tb).onStrand k (Strand.lessCmd n c)).onDev _).haltStep
    (tget ((((((u₁.unreadTile k c.ta).unreadTile k c.ta2).unreadTile k c.tb).onStrand k (Strand.lessCmd n c)).onDev _).strands) k).gang) = _
  rw [hunread]

/-- Its strand stays in its gang. -/
theorem Strand.endCmd_gang {x : Strand} (n : Nat) (c : Cmd) (h : ∀ th, (x.tile th).pend = []) : (x.endCmd n c).gang = x.gang := by
  rw [Strand.endCmd, Strand.lessCmd]
  have htiles := (TileStep.endTiles n c h).gang
  split <;> exact htiles

/-- Where no halt waits for it, that is all. -/
theorem State.endCmd_step {s : State} {n : Nat} {c : Cmd} (hc : tfind s.cmds n = some c) (hcalm : Calm s c.strand) :
    StrandStep c.strand (Strand.endCmd n c) s (s.endCmd n) ∧ (s.endCmd n).cmds = tdel s.cmds n := by
  obtain ⟨u, hend, hstep, hcmds⟩ := State.endCmd_still hc (still_of_calm hcalm)
  have hhalt : (tget u.gangs (tget u.strands c.strand).gang).halt = none := by
    rw [hstep.gangs, hstep.tget hcalm.1, Strand.endCmd_gang n c hcalm.2.1]
    exact hcalm.2.2
  rw [hend, State.haltStep_none hhalt]
  exact ⟨hstep, hcmds⟩

/-! What the end of a command leaves of its strand. -/

theorem Strand.unread_tile (t : Strand) (o : Option (BitVec 5)) (th : BitVec 5) : ∃ r, (t.unread o).tile th = { t.tile th with rc := r } := by
  cases o with
  | none => exact ⟨_, rfl⟩
  | some u =>
    rw [Strand.unread, Strand.tile_onTile]
    split
    next h =>
      subst h
      exact ⟨_, rfl⟩
    next => exact ⟨_, rfl⟩

theorem Strand.unread_eq (t : Strand) (o : Option (BitVec 5)) : ∃ l, t.unread o = { t with tiles := l } := by
  cases o <;> exact ⟨_, rfl⟩

theorem Strand.leaveTile_eq (t : Strand) (n : Nat) (c : Cmd) : ∃ l, t.leaveTile n c = { t with tiles := l } := by
  unfold Strand.leaveTile
  split
  · exact ⟨_, rfl⟩
  · split <;> exact ⟨_, rfl⟩

/-- Only its tiles and its counter change. -/
theorem Strand.endCmd_eq (t : Strand) (n : Nat) (c : Cmd) : ∃ l, t.endCmd n c = ({ t with tiles := l } : Strand).lessCmd n c := by
  obtain ⟨l₁, h₁⟩ := t.leaveTile_eq n c
  obtain ⟨l₂, h₂⟩ := (t.leaveTile n c).unread_eq c.ta
  obtain ⟨l₃, h₃⟩ := ((t.leaveTile n c).unread c.ta).unread_eq c.ta2
  obtain ⟨l₄, h₄⟩ := (((t.leaveTile n c).unread c.ta).unread c.ta2).unread_eq c.tb
  refine ⟨l₄, ?_⟩
  rw [Strand.endCmd, h₄, h₃, h₂, h₁]

theorem Strand.endCmd_bufMem (t : Strand) (n : Nat) (c : Cmd) (tk : BitVec 2) : (t.endCmd n c).bufMem tk = t.bufMem tk := by
  obtain ⟨l, h⟩ := t.endCmd_eq n c
  rw [h, Strand.lessCmd]
  split <;> rfl

theorem Strand.endCmd_smem (t : Strand) (n : Nat) (c : Cmd) : (t.endCmd n c).smem = t.smem := by
  obtain ⟨l, h⟩ := t.endCmd_eq n c
  rw [h, Strand.lessCmd]
  split <;> rfl

/-- A tile but for its readers. -/
theorem Strand.endCmd_tile (t : Strand) (n : Nat) (c : Cmd) (th : BitVec 5) :
    ∃ r, (t.endCmd n c).tile th = { (t.leaveTile n c).tile th with rc := r } := by
  obtain ⟨r₁, h₁⟩ := (t.leaveTile n c).unread_tile c.ta th
  obtain ⟨r₂, h₂⟩ := ((t.leaveTile n c).unread c.ta).unread_tile c.ta2 th
  obtain ⟨r₃, h₃⟩ := (((t.leaveTile n c).unread c.ta).unread c.ta2).unread_tile c.tb th
  have hless (x : Strand) : (x.lessCmd n c).tile th = x.tile th := by
    unfold Strand.lessCmd
    split <;> rfl
  exact ⟨r₃, by rw [Strand.endCmd, hless, h₃, h₂, h₁]⟩

/-- A writer that is the only one leaves its tile ready, a drain that releases it leaves it empty (R87). -/
theorem Strand.endCmd_ready {t : Strand} {n : Nat} {c : Cmd} {th : BitVec 5} (htd : c.td = some th) (hactive : c.active = true)
    (hop : c.op ≠ .talloc) (hdrain : c.op.isDrain = false) (hts : (t.tile th).ts = 1) (hdc : (t.tile th).dc = 1) :
    ((t.endCmd n c).tile th).ts = 2 ∧ ((t.endCmd n c).tile th).ft = (t.tile th).ft := by
  obtain ⟨r, hr⟩ := t.endCmd_tile n c th
  have hleave : (t.leaveTile n c).tile th = { t.tile th with dc := 0, ts := 2 } := by
    rw [Strand.leaveTile, htd]
    simp only [hop, if_false, Strand.tile_onTile, if_true]
    simp [Tile.leave, hactive, hdrain, hdc, hts]
  rw [hr, hleave]
  exact ⟨rfl, rfl⟩

theorem Strand.endCmd_empty {t : Strand} {n : Nat} {c : Cmd} {th : BitVec 5} (htd : c.td = some th) (hactive : c.active = true)
    (hop : c.op = .tfree) : ((t.endCmd n c).tile th).ts = 0 := by
  obtain ⟨r, hr⟩ := t.endCmd_tile n c th
  have hleave : (t.leaveTile n c).tile th = { t.tile th with ts := 0 } := by
    rw [Strand.leaveTile, htd]
    simp [hop, Tile.leave, hactive, CmdOp.isDrain]
  rw [hr, hleave]

/-! The counter (R72). -/

theorem underTl_eq (op : CmdOp) : underTl op = op.isTl := by cases op <;> rfl

theorem popDone_of_head {n : Nat} {rest : List TlOp} (h : ∀ o ∈ rest, o.done = false ∧ o.cmd ≠ n) :
    popDone (fun o => o.done) ((({ cmd := n } : TlOp) :: rest).map (fun o => if o.cmd = n then { o with done := true } else o)) = rest := by
  have hrest : rest.map (fun o => if o.cmd = n then { o with done := true } else o) = rest := by
    refine (List.map_congr_left fun o ho => ?_).trans (List.map_id rest)
    rw [if_neg (h o ho).2]
    rfl
  rw [List.map_cons, hrest, if_pos rfl, popDone, if_pos rfl]
  cases rest with
  | nil => rfl
  | cons o rest => rw [popDone, (h o List.mem_cons_self).1, if_neg Bool.false_ne_true]

/-- A command that was performed on its own strand has ended (R72, R232). -/
theorem ended_of_step {s u : State} {n : Nat} {c : Cmd} {f : Strand → Strand} (hcalm : Calm s c.strand) (hstep : StrandStep c.strand f s u)
    (hf : TileStep (tget s.strands c.strand) (f (tget s.strands c.strand))) (hn : tfind u.cmds n = some c)
    (hothers : ∀ m, m ≠ n → tfind u.cmds m = tfind s.cmds m) : Ended s (u.endCmd n) n c ∧ (u.endCmd n).mem = s.mem ∧
      tget (u.endCmd n).strands c.strand = (f (tget s.strands c.strand)).endCmd n c ∧
      ∀ i, (tget (u.endCmd n).cores i).latches = (tget u.cores i).latches := by
  obtain ⟨hend, hcmds⟩ := State.endCmd_step hn (calm_step hcalm hstep hf)
  have htotal := hstep.trans hend
  have hme : tget (u.endCmd n).strands c.strand = (f (tget s.strands c.strand)).endCmd n c := htotal.tget hcalm.1
  obtain ⟨l, hl⟩ := (f (tget s.strands c.strand)).endCmd_eq n c
  refine ⟨⟨?_, fun m hm => ?_, htotal.other, ?_, ?_, ?_⟩, htotal.mem, hme, hend.latches⟩
  · rw [hcmds, tfind_tdel, if_pos rfl]
  · rw [hcmds, tfind_tdel, if_neg hm, hothers m hm]
  · rw [hme, hl, Strand.lessCmd]
    split <;> exact hf.s
  · rw [hme, hl, Strand.lessCmd]
    split <;> exact hf.planes
  · rw [hme, hl, Strand.lessCmd, underTl_eq]
    split
    · intro rest hhead hrest
      show popDone _ ((f (tget s.strands c.strand)).tlq.map _) = rest
      rw [hf.tlq, hhead]
      exact popDone_of_head hrest
    · exact congrArg (List.filter _) hf.cpq

/-! A command that writes its tile (R87, R237, R240, R246). -/

theorem Strand.bufMem_setBuf (t : Strand) (tk : BitVec 2) (m : Cells 8) : (t.setBuf tk m).bufMem tk = m := by
  unfold Strand.setBuf Strand.bufMem
  by_cases h0 : tk = 0
  · simp only [h0, if_true]
  · by_cases h1 : tk = 1
    · simp only [h1, if_true]
      rfl
    · simp only [h0, h1, if_false]

theorem Strand.tile_setBuf (t : Strand) (tk : BitVec 2) (m : Cells 8) (th : BitVec 5) : (t.setBuf tk m).tile th = t.tile th := by
  unfold Strand.setBuf
  split
  · rfl
  · split <;> rfl

/-- A strand whose tile has new bytes and a new format. -/
def Strand.putTile (t : Strand) (th : BitVec 5) (m : Cells 8) (ft : BitVec 4) : Strand :=
  (t.setBuf (t.tile th).tk m).onTile th (fun e => { e with ft := ft })

theorem TileStep.putTile (x : Strand) (th : BitVec 5) (m : Cells 8) (ft : BitVec 4) : TileStep x (x.putTile th m ft) :=
  (TileStep.setBuf x _ m).trans (.onTile _ th (f := fun e => { e with ft := ft }) (.inr rfl))

theorem Strand.putTile_tile (t : Strand) (th : BitVec 5) (m : Cells 8) (ft : BitVec 4) :
    (t.putTile th m ft).tile th = { t.tile th with ft := ft } := by
  rw [Strand.putTile, Strand.tile_onTile, if_pos rfl, Strand.tile_setBuf]

theorem Strand.putTile_bufMem (t : Strand) (th : BitVec 5) (m : Cells 8) (ft : BitVec 4) :
    (t.putTile th m ft).bufMem (t.tile th).tk = m := t.bufMem_setBuf _ m

/-- The command writes its tile alone, and is no drain. -/
structure Writer (x : Strand) (c : Cmd) (th : BitVec 5) : Prop where
  tile : c.td = some th
  active : c.active = true
  op : c.op ≠ .talloc ∧ c.op.isDrain = false
  state : (x.tile th).ts = 1
  alone : (x.tile th).dc = 1

/-- It ends with its tile ready, holding what it wrote. -/
theorem writer_ended {s u : State} {n : Nat} {c : Cmd} {th : BitVec 5} {f : Strand → Strand} {m : Cells 8} {ft : BitVec 4}
    (hw : Writer (tget s.strands c.strand) c th) (hcalm : Calm s c.strand) (hstep : StrandStep c.strand f s u)
    (hf : f (tget s.strands c.strand) = (tget s.strands c.strand).putTile th m ft) (hn : tfind u.cmds n = some c)
    (hothers : ∀ m, m ≠ n → tfind u.cmds m = tfind s.cmds m) :
    let y := tget (u.endCmd n).strands c.strand
    Ended s (u.endCmd n) n c ∧ (u.endCmd n).mem = s.mem ∧ (y.tile th).ts = 2 ∧ y.smem = (tget s.strands c.strand).smem ∧
      (y.tile th).ft = ft ∧ y.bufMem ((tget s.strands c.strand).tile th).tk = m := by
  have hput := TileStep.putTile (tget s.strands c.strand) th m ft
  obtain ⟨hended, hmem, hme, -⟩ := ended_of_step hcalm hstep (hf ▸ hput) hn hothers
  rw [hf] at hme
  have htile := (tget s.strands c.strand).putTile_tile th m ft
  obtain ⟨hts, hft⟩ := Strand.endCmd_ready (t := (tget s.strands c.strand).putTile th m ft) (n := n) hw.tile hw.active hw.op.1 hw.op.2
    ((congrArg Tile.ts htile).trans hw.state) ((congrArg Tile.dc htile).trans hw.alone)
  refine ⟨hended, hmem, ?_, ?_, ?_, ?_⟩
  · rw [hme, hts]
  · rw [hme, Strand.endCmd_smem, hput.smem]
  · rw [hme, hft, htile]
  · rw [hme, Strand.endCmd_bufMem, Strand.putTile_bufMem]

theorem State.setFt_of_td (s : State) {c : Cmd} {th : BitVec 5} (htd : c.td = some th) (ft : BitVec 4) :
    s.setFt c ft = s.onStrand c.strand (fun t => t.onTile th (fun e => { e with ft := ft })) := by
  unfold State.setFt
  rw [htd]

/-- What is done to a tile, and its format. -/
theorem put_step {s v : State} {c : Cmd} {th : BitVec 5} (htd : c.td = some th) (hv : StrandStep c.strand id s v) (g : Strand → Strand)
    (ft : BitVec 4) : StrandStep c.strand (fun t => (g t).onTile th (fun e => { e with ft := ft })) s ((v.onStrand c.strand g).setFt c ft) := by
  rw [State.setFt_of_td _ htd]
  exact (hv.trans (.onStrand c.strand g v)).trans (.onStrand c.strand (fun t => t.onTile th (fun e => { e with ft := ft })) _)

theorem State.setFt_cmds (s : State) (c : Cmd) (ft : BitVec 4) : (s.setFt c ft).cmds = s.cmds := by
  unfold State.setFt
  split <;> rfl

theorem writing_writer {s : State} {n : Nat} {c : Cmd} {th : BitVec 5} (h : Writing s n c th) (hop : c.op ≠ .talloc ∧ c.op.isDrain = false) :
    Writer (tget s.strands c.strand) c th := ⟨h.tile, h.active, hop, h.state, h.alone⟩

theorem writing_tileFree {s : State} {n : Nat} {c : Cmd} {th : BitVec 5} (h : Writing s n c th) : s.tileFree n = true := by
  have hread : s.readEarlier n = false := by
    unfold State.readEarlier
    rw [tget_of_tfind h.known]
    refine List.any_eq_false.mpr fun x hx => ?_
    simp only [Bool.and_eq_true, Bool.or_eq_true, decide_eq_true_eq, h.tile, not_and, and_imp]
    intro hbefore hstrand hreads
    obtain ⟨hta, hta2, htb⟩ := h.unread x hx hbefore hstrand
    exact hreads.elim (fun h => h.elim hta hta2) htb
  unfold State.tileFree
  simp only [tget_of_tfind h.known, h.active, h.first, hread]
  simp

theorem exec_tileOp {s : State} {n : Nat} {c : Cmd} (hc : tfind s.cmds n = some c)
    (hop : c.op = .tzero ∨ c.op = .tcvt ∨ c.op = .tmov ∨ c.op = .txpose) (hfree : s.tileFree n = true) :
    exec (.tileCommandCompletion n) s = .next (((s.noteErrors c.strand (s.tileRuns c)).doTileOp c).endCmd n) := by
  rw [exec_tileCommandCompletion, execTileCommandCompletion, hc]
  obtain h | h | h | h := hop <;> simp only [h, hfree, if_true]

/-- A tile operation puts bytes `m` and a format in its tile. -/
theorem tileOp_done {s : State} {n : Nat} {c : Cmd} {th : BitVec 5} (hcalm : Calm s c.strand) (hw : Writing s n c th)
    (hop : c.op = .tzero ∨ c.op = .tcvt ∨ c.op = .tmov ∨ c.op = .txpose) {g : Strand → Strand} {ft : BitVec 4} {m : Cells 8}
    (hput : ∀ v : State, v.strands = s.strands → v.doTileOp c = (v.onStrand c.strand g).setFt c ft)
    (hg : g (tget s.strands c.strand) = (tget s.strands c.strand).setBuf ((tget s.strands c.strand).tile th).tk m) :
    ∃ t, exec (.tileCommandCompletion n) s = .next t ∧
      let y := tget t.strands c.strand
      Ended s t n c ∧ t.mem = s.mem ∧ (y.tile th).ts = 2 ∧ y.smem = (tget s.strands c.strand).smem ∧
        (y.tile th).ft = ft ∧ y.bufMem ((tget s.strands c.strand).tile th).tk = m := by
  have hsame := s.noteErrors_same c.strand (s.tileRuns c)
  have hstep := put_step hw.tile (.noteErrors c.strand s c.strand (s.tileRuns c)) g ft
  have hcmds : (((s.noteErrors c.strand (s.tileRuns c)).onStrand c.strand g).setFt c ft).cmds = s.cmds :=
    (State.setFt_cmds _ c ft).trans hsame.cmds
  have hkind : c.op ≠ .talloc ∧ c.op.isDrain = false := by obtain h | h | h | h := hop <;> rw [h] <;> exact ⟨by decide, rfl⟩
  refine ⟨_, exec_tileOp hw.known hop (writing_tileFree hw), ?_⟩
  rw [hput _ hsame.strands]
  exact writer_ended (writing_writer hw hkind) hcalm hstep (by rw [hg, Strand.putTile]) (by rw [hcmds]; exact hw.known) fun m _ => by rw [hcmds]

end Sys2Proof.Machine
end

section
/-! O30: what each tile and matrix command does to its tile (R237, R240, R241, R246). -/

namespace Sys2Proof.Machine

open Sys2Proof.Claims

/-! The elements of a tile. -/

/-- Runs of `k` bytes one behind the other. -/
theorem flatMap_range_length {L : Nat → List Byte} {k : Nat} (h : ∀ i, (L i).length = k) (n : Nat) :
    ((List.range n).flatMap L).length = k * n := by
  induction n with
  | zero => rfl
  | succ n ih => rw [List.range_succ, List.flatMap_append, List.length_append, ih, List.flatMap_singleton, h, Nat.mul_succ]

theorem flatMap_range_getD {L : Nat → List Byte} {k : Nat} (h : ∀ i, (L i).length = k) {n i j : Nat} (hi : i < n) (hj : j < k) :
    ((List.range n).flatMap L).getD (k * i + j) 0 = (L i).getD j 0 := by
  induction n with
  | zero => exact absurd hi (by omega)
  | succ n ih =>
    have hlength := flatMap_range_length h n
    rw [List.range_succ, List.flatMap_append, List.flatMap_singleton]
    by_cases hlast : i = n
    · subst hlast
      rw [List.getD_append_right _ _ _ _ (by omega), hlength, Nat.add_sub_cancel_left]
    · have hbound : k * i + j < k * n := by
        have hle : k * (i + 1) ≤ k * n := Nat.mul_le_mul_left k (by omega)
        rw [Nat.mul_succ] at hle
        omega
      rw [List.getD_append _ _ _ _ (by omega), ih (by omega)]

/-- Bytes read from a place are those that were written there. -/
theorem cread_eq_of_cget {c : Cells 8} {a : Nat} {l : List Byte} (h : ∀ j, j < l.length → cget c (a + j) = l.getD j 0) :
    cread c a l.length = l := by
  refine List.ext_getElem? fun j => ?_
  by_cases hj : j < l.length
  · rw [cread_getElem? _ _ _ _ hj, h j hj, List.getD_eq_getElem?_getD, List.getElem?_eq_getElem hj]
    rfl
  · rw [List.getElem?_eq_none (by simpa using hj), List.getElem?_eq_none (by simpa using hj)]

/-- The 1,024 elements of a tile as bytes. -/
def elemBytes (f : Nat → Nat) : List Byte := (List.range 1024).flatMap (fun i => leBytes 4 (f i))

theorem leNat_cread_elemBytes (c : Cells 8) (a : Nat) (f : Nat → Nat) {i : Nat} (hi : i < 1024) :
    leNat (cread (cwrite c a (elemBytes f)) (a + 4 * i) 4) = f i % 2 ^ 32 := by
  have hlength : (elemBytes f).length = 4 * 1024 := flatMap_range_length (fun i => leBytes_length 4 (f i)) 1024
  have hread : cread (cwrite c a (elemBytes f)) (a + 4 * i) 4 = leBytes 4 (f i) := by
    have hfour := leBytes_length 4 (f i)
    refine (congrArg _ hfour.symm).trans (cread_eq_of_cget fun j hj => ?_)
    rw [hfour] at hj
    rw [cget_cwrite, if_pos (by omega), show a + 4 * i + j - a = 4 * i + j by omega]
    exact flatMap_range_getD (fun i => leBytes_length 4 (f i)) hi hj
  rw [hread, leNat_leBytes]
  rfl

theorem tileElem_eq (t : Strand) (e : Tile) (i : Nat) : tileElem t e i = leNat (cread (t.bufMem e.tk) (e.base + 4 * i) 4) := rfl

theorem tileElem_lt (t : Strand) (e : Tile) (i : Nat) : tileElem t e i < 2 ^ 32 := by
  have h := leNat_lt (cread (t.bufMem e.tk) (e.base + 4 * i) 4)
  rw [cread_length] at h
  exact h

theorem cElems_getD (t : Strand) (e : Tile) {i : Nat} (hi : i < 1024) : (t.cElems e).getD i 0 = tileElem t e i := by
  rw [Strand.cElems, List.getD_eq_getElem?_getD, List.getElem?_map, List.getElem?_range hi]
  rfl

/-! Lines of packed items (R109, R246). -/

/-- Items of `w` bits, the first lowest. -/
def packed (w : Nat) (l : List Nat) : Nat := l.foldr (fun x acc => x % 2 ^ w + 2 ^ w * acc) 0

theorem packed_lt (w : Nat) (l : List Nat) : packed w l < 2 ^ (w * l.length) := by
  induction l with
  | nil => simp [packed]
  | cons x l ih =>
    have hx : x % 2 ^ w < 2 ^ w := Nat.mod_lt _ (Nat.two_pow_pos w)
    have hle : 2 ^ w * (packed w l + 1) ≤ 2 ^ w * 2 ^ (w * l.length) := Nat.mul_le_mul_left _ ih
    rw [List.length_cons, Nat.mul_succ, Nat.add_comm (w * l.length), Nat.pow_add]
    rw [Nat.mul_succ] at hle
    show x % 2 ^ w + 2 ^ w * packed w l < _
    omega

theorem packed_item (w : Nat) : ∀ (l : List Nat) (j : Nat), packed w l / 2 ^ (w * j) % 2 ^ w = l.getD j 0 % 2 ^ w
  | [], j => by simp [packed]
  | x :: l, 0 => by
    show (x % 2 ^ w + 2 ^ w * packed w l) / 2 ^ (w * 0) % 2 ^ w = x % 2 ^ w
    rw [Nat.mul_zero, Nat.pow_zero, Nat.div_one, Nat.add_mul_mod_self_left, Nat.mod_mod]
  | x :: l, j + 1 => by
    have hx : (x % 2 ^ w + 2 ^ w * packed w l) / 2 ^ w = packed w l := by
      rw [Nat.add_mul_div_left _ _ (Nat.two_pow_pos w), Nat.div_eq_of_lt (Nat.mod_lt _ (Nat.two_pow_pos w)), Nat.zero_add]
    show (x % 2 ^ w + 2 ^ w * packed w l) / 2 ^ (w * (j + 1)) % 2 ^ w = l.getD j 0 % 2 ^ w
    rw [Nat.mul_succ, Nat.pow_add, Nat.mul_comm (2 ^ (w * j)), ← Nat.div_div_eq_div_mul, hx, packed_item w l j]

/-- Lines of 512 bytes, of which each write fills the same part. -/
theorem cget_putItems_fold {w base p : Nat} (hfit : 4 * w * p + 4 * w ≤ 512) (items : Nat → List Nat) (m : Cells 8) :
    ∀ (N i j : Nat), i < N → j < 4 * w →
      cget ((List.range N).foldl (fun m i => putItems w base (32 * p) m i (items i)) m) (base + (512 * i + 4 * w * p) + j) =
        (leBytes (4 * w) (packed w (items i))).getD j 0
  | 0, i, _, hi, _ => absurd hi (by omega)
  | N + 1, i, j, hi, hj => by
    have hpos : w * (32 * p) / 8 = 4 * w * p := by
      rw [show w * (32 * p) = 4 * w * p * 8 by ring, Nat.mul_div_cancel _ (by decide)]
    have hlength := leBytes_length (4 * w) (packed w (items N))
    rw [List.range_succ, List.foldl_append, List.foldl_cons, List.foldl_nil]
    generalize hm : (List.range N).foldl (fun m i => putItems w base (32 * p) m i (items i)) m = m'
    have hput : putItems w base (32 * p) m' N (items N) =
        cwrite m' (base + 512 * N + w * (32 * p) / 8) (leBytes (4 * w) (packed w (items N))) := rfl
    rw [hput, hpos, cget_cwrite, hlength]
    by_cases hlast : i = N
    · subst hlast
      rw [if_pos (by omega)]
      congr 1
      omega
    · rw [if_neg (by omega), ← hm]
      exact cget_putItems_fold hfit items m N i j (by omega) hj

theorem leNat_putItems_fold {w base p : Nat} (hfit : 4 * w * p + 4 * w ≤ 512) (items : Nat → List Nat) (m : Cells 8) {N i : Nat} (hi : i < N)
    (hitems : (items i).length = 32) :
    leNat (cread ((List.range N).foldl (fun m i => putItems w base (32 * p) m i (items i)) m) (base + (512 * i + 4 * w * p)) (4 * w)) =
      packed w (items i) := by
  have hlength := leBytes_length (4 * w) (packed w (items i))
  have hread : cread ((List.range N).foldl (fun m i => putItems w base (32 * p) m i (items i)) m) (base + (512 * i + 4 * w * p)) (4 * w) =
      leBytes (4 * w) (packed w (items i)) := by
    refine (congrArg _ hlength.symm).trans (cread_eq_of_cget fun j hj => ?_)
    exact cget_putItems_fold hfit items m N i j hi (by omega)
  have hlt := packed_lt w (items i)
  rw [hitems] at hlt
  rw [hread, leNat_leBytes, show (256 : Nat) = 2 ^ 8 from rfl, ← Nat.pow_mul, Nat.mod_eq_of_lt]
  rwa [show 8 * (4 * w) = w * 32 by ring]

/-! The operations (R237, R246). -/

/-- Command `n` is over, and its tile is ready. -/
def TileDone (s : State) (n : Nat) (c : Cmd) (th : BitVec 5) (t : State) : Prop :=
  exec (.tileCommandCompletion n) s = .next t ∧ Ended s t n c ∧ t.mem = s.mem ∧ ((tget t.strands c.strand).tile th).ts = 2 ∧
    (tget t.strands c.strand).smem = (tget s.strands c.strand).smem

section
variable {s : State} {n : Nat} {c : Cmd} {th : BitVec 5}

theorem tzero_done (hcalm : Calm s c.strand) (hw : Writing s n c th) (hop : c.op = .tzero) :
    let e := (tget s.strands c.strand).tile th
    ∃ t, TileDone s n c th t ∧ ((tget t.strands c.strand).tile th).ft = c.fmt.setWidth 4 ∧
      ∀ i, i < bufBytes e.tk → cget ((tget t.strands c.strand).bufMem e.tk) (e.base + i) = 0 := by
  intro e
  obtain ⟨t, hexec, hended, hmem, hts, hsmem, hft, hbuf⟩ := tileOp_done hcalm hw (.inl hop)
    (g := fun t => t.setBuf e.tk (cclear (t.bufMem e.tk) e.base (bufBytes e.tk))) (ft := c.fmt.setWidth 4)
    (m := cclear ((tget s.strands c.strand).bufMem e.tk) e.base (bufBytes e.tk))
    (fun v hv => by
      unfold State.doTileOp
      rw [hv, hop, hw.tile]) rfl
  refine ⟨t, ⟨hexec, hended, hmem, hts, hsmem⟩, hft, fun i hi => ?_⟩
  rw [hbuf, cget_cclear, if_pos (by omega)]

theorem tmov_done (hcalm : Calm s c.strand) (hw : Writing s n c th) (hop : c.op = .tmov) :
    let x := tget s.strands c.strand
    let e := x.tile th
    let src := x.tile (c.ta.getD 0)
    ∃ t, TileDone s n c th t ∧ ((tget t.strands c.strand).tile th).ft = src.ft ∧
      (tget t.strands c.strand).tileBytes e 0 (bufBytes e.tk) = x.tileBytes src 0 (bufBytes e.tk) := by
  intro x e src
  obtain ⟨t, hexec, hended, hmem, hts, hsmem, hft, hbuf⟩ := tileOp_done hcalm hw (.inr (.inr (.inl hop)))
    (g := fun t => t.writeTile e 0 (t.tileBytes src 0 (bufBytes e.tk))) (ft := src.ft)
    (m := cwrite (x.bufMem e.tk) (e.base + 0) (x.tileBytes src 0 (bufBytes e.tk)))
    (fun v hv => by
      unfold State.doTileOp
      rw [hv, hop, hw.tile]) rfl
  refine ⟨t, ⟨hexec, hended, hmem, hts, hsmem⟩, hft, ?_⟩
  have hlength : (x.tileBytes src 0 (bufBytes e.tk)).length = bufBytes e.tk := cread_length _ _ _
  have hread := cread_cwrite_self (x.bufMem e.tk) (e.base + 0) (x.tileBytes src 0 (bufBytes e.tk))
  rw [hlength] at hread
  rw [Strand.tileBytes, hbuf, hread]

theorem txpose_done (hcalm : Calm s c.strand) (hw : Writing s n c th) (hop : c.op = .txpose) :
    let x := tget s.strands c.strand
    let e := x.tile th
    let src := x.tile (c.ta.getD 0)
    ∃ t, TileDone s n c th t ∧ ((tget t.strands c.strand).tile th).ft = src.ft ∧
      ∀ i j, i < 32 → j < 32 → tileElem (tget t.strands c.strand) e (32 * i + j) = tileElem x src (32 * j + i) := by
  intro x e src
  let f (i : Nat) : Nat := (x.cElems src).getD (32 * (i % 32) + i / 32) 0
  obtain ⟨t, hexec, hended, hmem, hts, hsmem, hft, hbuf⟩ := tileOp_done hcalm hw (.inr (.inr (.inr hop)))
    (g := fun t => t.writeTile e 0 (elemBytes f)) (ft := src.ft) (m := cwrite (x.bufMem e.tk) e.base (elemBytes f))
    (fun v hv => by
      unfold State.doTileOp
      rw [hv, hop, hw.tile]
      rfl) rfl
  refine ⟨t, ⟨hexec, hended, hmem, hts, hsmem⟩, hft, fun i j hi hj => ?_⟩
  have helem : f (32 * i + j) = tileElem x src (32 * j + i) := by
    rw [← cElems_getD x src (show 32 * j + i < 1024 by omega)]
    show (x.cElems src).getD (32 * ((32 * i + j) % 32) + (32 * i + j) / 32) 0 = _
    rw [show 32 * ((32 * i + j) % 32) + (32 * i + j) / 32 = 32 * j + i by omega]
  rw [tileElem_eq, hbuf, leNat_cread_elemBytes _ _ f (by omega), helem, Nat.mod_eq_of_lt (tileElem_lt _ _ _)]

theorem tcvt_done (hcalm : Calm s c.strand) (hw : Writing s n c th) (hop : c.op = .tcvt) :
    let x := tget s.strands c.strand
    let e := x.tile th
    let src := x.tile (c.ta.getD 0)
    let ft : BitVec 4 := c.fmt.setWidth 4
    let w := tagWidth ft
    ∃ t, TileDone s n c th t ∧ ((tget t.strands c.strand).tile th).ft = ft ∧
      (32 * w * (c.imm.toNat % 32) + 32 * w ≤ 4096 → ∀ i j, i < 32 → j < 32 →
        leNat ((tget t.strands c.strand).tileBytes e (512 * i + 4 * w * (c.imm.toNat % 32)) (4 * w)) / 2 ^ (w * j) % 2 ^ w =
          (convertTo ft c.rm (hash32 (c.a.extractLsb' 0 32) (32 * i + j))
            (valueOf (if ft = 10 then 8 else 1) (tileElem x src (32 * i + j)))).bits % 2 ^ w) := by
  intro x e src ft w
  let item (i j : Nat) : Nat := (convertTo ft c.rm (hash32 (c.a.extractLsb' 0 32) (32 * i + j))
    (valueOf (if ft = 10 then 8 else 1) ((x.cElems src).getD (32 * i + j) 0))).bits
  let put (m : Cells 8) : Cells 8 := (List.range 32).foldl (fun m i =>
    putItems w e.base (32 * (c.imm.toNat % 32)) m i ((List.range 32).map (item i))) m
  obtain ⟨t, hexec, hended, hmem, hts, hsmem, hft, hbuf⟩ := tileOp_done hcalm hw (.inr (.inl hop))
    (g := fun t => t.setBuf e.tk (put (t.bufMem e.tk))) (ft := ft) (m := put (x.bufMem e.tk))
    (fun v hv => by
      unfold State.doTileOp
      rw [hv, hop, hw.tile]) rfl
  refine ⟨t, ⟨hexec, hended, hmem, hts, hsmem⟩, hft, fun hfit i j hi hj => ?_⟩
  have hitem : ((List.range 32).map (item i)).getD j 0 = item i j := by
    rw [List.getD_eq_getElem?_getD, List.getElem?_map, List.getElem?_range hj]
    rfl
  rw [Strand.tileBytes, hbuf]
  show leNat (cread (put (x.bufMem e.tk)) _ _) / _ % _ = _
  rw [leNat_putItems_fold (by rw [Nat.mul_assoc] at hfit ⊢; omega) (fun i => (List.range 32).map (item i)) _ hi (by simp), packed_item, hitem]
  show (convertTo ft c.rm _ (valueOf _ ((x.cElems src).getD (32 * i + j) 0))).bits % _ = _
  rw [cElems_getD x src (show 32 * i + j < 1024 by omega)]

/-! Matrix operations (R240, R241, R244). -/

/-- Element `n` of an accumulator tile after the steps of `m`. -/
def accElem (m : MatIn) (t : Strand) (e : Tile) (n : Nat) : Nat :=
  accFirst m.i8 (m.a.getD (n / 32) []).length (m.a.getD (n / 32) []) (m.b.getD (n % 32) []) ((t.cElems e).getD n 0)

theorem accElem_eq (m : MatIn) (t : Strand) (e : Tile) {i j : Nat} (hi : i < 32) (hj : j < 32) : accElem m t e (32 * i + j) =
    accFirst m.i8 (m.a.getD i []).length (m.a.getD i []) (m.b.getD j []) (tileElem t e (32 * i + j)) := by
  rw [accElem, cElems_getD t e (by omega), show (32 * i + j) / 32 = i by omega, show (32 * i + j) % 32 = j by omega]

/-- A strand whose accumulator tile has taken the steps of `m`. -/
def Strand.accumulate (th : BitVec 5) (m : MatIn) (t : Strand) : Strand :=
  t.writeTile (t.tile th) 0 (elemBytes (accElem m t (t.tile th)))

theorem State.accumulate_eq (s : State) {c : Cmd} {th : BitVec 5} (htd : c.td = some th) (m : MatIn) :
    s.accumulate c m = s.onStrand c.strand (Strand.accumulate th m) := by
  have hrun (l : List Nat) : (m.run l).flatMap (leBytes 4) = (List.range 1024).flatMap (fun n => leBytes 4
      (accFirst m.i8 (m.a.getD (n / 32) []).length (m.a.getD (n / 32) []) (m.b.getD (n % 32) []) (l.getD n 0))) := by
    rw [MatIn.run, List.flatMap_map]
  unfold State.accumulate
  rw [htd]
  simp only [hrun]
  rfl

/-- The buffer that holds the tile afterwards. -/
def accBuf (x : Strand) (th : BitVec 5) (m : MatIn) : Cells 8 :=
  cwrite (x.bufMem (x.tile th).tk) (x.tile th).base (elemBytes (accElem m x (x.tile th)))

theorem accBuf_elem {x y : Strand} {th : BitVec 5} {m : MatIn} (hbuf : y.bufMem (x.tile th).tk = accBuf x th m) {i j : Nat} (hi : i < 32)
    (hj : j < 32) : tileElem y (x.tile th) (32 * i + j) =
      accFirst m.i8 (m.a.getD i []).length (m.a.getD i []) (m.b.getD j []) (tileElem x (x.tile th) (32 * i + j)) % 2 ^ 32 := by
  rw [tileElem_eq, hbuf, accBuf, leNat_cread_elemBytes _ _ _ (by omega), accElem_eq m x _ hi hj]

theorem mma_done (hcalm : Calm s c.strand) (hw : Writing s n c th) (hop : c.op = .mma) (hstate : c.state = .started) :
    let x := tget s.strands c.strand
    let e := x.tile th
    ∃ t, TileDone s n c th t ∧ ((tget t.strands c.strand).tile th).ft = accFormat c.mfmt ∧
      let m := s.tileOperands c
      ∀ i j, i < 32 → j < 32 → tileElem (tget t.strands c.strand) e (32 * i + j) =
        accFirst m.i8 (m.a.getD i []).length (m.a.getD i []) (m.b.getD j []) (tileElem x e (32 * i + j)) % 2 ^ 32 := by
  intro x e
  have hsame := s.noteErrors_same c.strand (s.tileRuns c)
  have hexec : exec (.tileCommandCompletion n) s = .next ((((s.noteErrors c.strand (s.tileRuns c)).onStrand c.strand
      (Strand.accumulate th (s.tileOperands c))).setFt c (accTag c.mfmt)).endCmd n) := by
    rw [exec_tileCommandCompletion, execTileCommandCompletion, hw.known]
    simp only [hop, hstate, if_true, State.accumulate_eq _ hw.tile]
  have hstep := put_step hw.tile (.noteErrors c.strand s c.strand (s.tileRuns c)) (Strand.accumulate th (s.tileOperands c)) (accTag c.mfmt)
  have hcmds : (((s.noteErrors c.strand (s.tileRuns c)).onStrand c.strand
      (Strand.accumulate th (s.tileOperands c))).setFt c (accTag c.mfmt)).cmds = s.cmds := (State.setFt_cmds _ c _).trans hsame.cmds
  obtain ⟨hended, hmem, hts, hsmem, hft, hbuf⟩ := writer_ended (writing_writer hw (by rw [hop]; exact ⟨by decide, rfl⟩)) hcalm hstep
    (m := accBuf x th (s.tileOperands c)) (ft := accTag c.mfmt) rfl (by rw [hcmds]; exact hw.known) (fun m _ => by rw [hcmds])
  exact ⟨_, ⟨hexec, hended, hmem, hts, hsmem⟩, hft, fun i j hi hj => accBuf_elem hbuf hi hj⟩

theorem State.charge_sameButLanes (s : State) (part : Nat) (ten : BitVec 4) (kind pa bytes : Nat) :
    s.SameButLanes (s.charge part ten kind pa bytes) := by
  unfold State.charge
  split
  · exact .refl s
  · exact s.chargeAt_sameButLanes ..

/-- A state once a slab has been read and counted (R325, R406). -/
def State.slabRead (s : State) (c : Cmd) : State :=
  (s.slabRuns c c.prog).foldl (fun s r => s.charge c.part c.tenant r.spc r.lo r.n)
    (s.noteErrors c.strand (s.tileRuns c ++ s.slabRuns c c.prog ++ s.slabWalks c c.prog))

theorem State.slabRead_same (s : State) (c : Cmd) : s.SameButLanes (s.slabRead c) :=
  foldl_inv (fun x : State => s.SameButLanes x) _ (fun x _ hx => hx.trans (x.charge_sameButLanes _ _ _ _ _)) _ _ (s.noteErrors_same _ _)

theorem StrandStep.onCmd (k : Nat) (s : State) (n : Nat) (f : Cmd → Cmd) : StrandStep k id s (s.onCmd n f) := .of_same k rfl rfl rfl rfl

/-- A state once a slab is in the sum. -/
def State.slabAdded (s : State) (n : Nat) (c : Cmd) (th : BitVec 5) (m : MatIn) : State :=
  ((s.slabRead c).onStrand c.strand (Strand.accumulate th m)).onCmd n (fun c => { c with prog := c.prog + 1 })

theorem State.nextSlab_eq {s : State} {c : Cmd} {th : BitVec 5} {m : MatIn} (n : Nat) (htd : c.td = some th)
    (hslab : s.slabOperands c c.prog = .ok m) : s.nextSlab n c =
      if descNR c.cap ≤ c.prog + 1 then ((s.slabAdded n c th m).setFt c (accTag c.mfmt)).endCmd n else s.slabAdded n c th m := by
  unfold State.nextSlab
  rw [hslab]
  simp only [State.accumulate_eq _ htd]
  rfl

theorem mmas_done (hcalm : Calm s c.strand) (hw : Writing s n c th) (hop : c.op = .mmas) (hstate : c.state = .started) {m : MatIn}
    (hslab : s.slabOperands c c.prog = .ok m) (hheld : s.slabHeld c = false) :
    let x := tget s.strands c.strand
    let e := x.tile th
    ∃ t, exec (.tileCommandCompletion n) s = .next t ∧ t.mem = s.mem ∧
      (∀ i j, i < 32 → j < 32 → tileElem (tget t.strands c.strand) e (32 * i + j) =
        accFirst m.i8 (m.a.getD i []).length (m.a.getD i []) (m.b.getD j []) (tileElem x e (32 * i + j)) % 2 ^ 32) ∧
      (c.prog + 1 < descNR c.cap → tfind t.cmds n = some { c with prog := c.prog + 1 }) ∧
      (descNR c.cap ≤ c.prog + 1 → Ended s t n c ∧ ((tget t.strands c.strand).tile th).ts = 2) := by
  intro x e
  have hsame := s.slabRead_same c
  have hexec : exec (.tileCommandCompletion n) s = .next (s.nextSlab n c) := by
    rw [exec_tileCommandCompletion, execTileCommandCompletion, hw.known]
    simp only [hop, hstate, hslab, hheld]
    rfl
  have hread : StrandStep c.strand id s (s.slabRead c) := .of_same _ hsame.strands hsame.mem hsame.gangs hsame.cores
  have hadded : StrandStep c.strand (Strand.accumulate th m) s (s.slabAdded n c th m) := by
    have hsum := (hread.trans (.onStrand c.strand (Strand.accumulate th m) (s.slabRead c))).trans
      (.onCmd c.strand _ n (fun c => { c with prog := c.prog + 1 }))
    rwa [Function.id_comp, Function.comp_id] at hsum
  have hcmds : (s.slabAdded n c th m).cmds = tmod s.cmds n (fun c => { c with prog := c.prog + 1 }) := by rw [← hsame.cmds]; rfl
  have hn : tfind (s.slabAdded n c th m).cmds n = some { c with prog := c.prog + 1 } := by
    rw [hcmds, tfind_tmod, if_pos rfl, hw.known]
    rfl
  have hothers : ∀ j, j ≠ n → tfind (s.slabAdded n c th m).cmds j = tfind s.cmds j := fun j hj => by
    rw [hcmds, tfind_tmod, if_neg hj]
  rw [hexec, State.nextSlab_eq n hw.tile hslab]
  by_cases hlast : descNR c.cap ≤ c.prog + 1
  · let c' : Cmd := { c with prog := c.prog + 1 }
    let u : State := (s.slabAdded n c th m).setFt c (accTag c.mfmt)
    have hstep : StrandStep c.strand (fun t => (t.accumulate th m).onTile th (fun e => { e with ft := accTag c.mfmt })) s u := by
      rw [show u = _ from State.setFt_of_td _ hw.tile _]
      exact hadded.trans (.onStrand c.strand (fun t => t.onTile th (fun e => { e with ft := accTag c.mfmt })) _)
    have hucmds : u.cmds = (s.slabAdded n c th m).cmds := State.setFt_cmds _ c _
    have hw' : Writer x c' th := ⟨hw.tile, hw.active, by rw [show c'.op = _ from hop]; exact ⟨by decide, rfl⟩, hw.state, hw.alone⟩
    obtain ⟨hended, hmem, hts, -, -, hbuf⟩ := writer_ended (c := c') hw' hcalm hstep (m := accBuf x th m) (ft := accTag c.mfmt) rfl
      (by rw [hucmds]; exact hn) (fun j hj => by rw [hucmds, hothers j hj])
    rw [if_pos hlast]
    exact ⟨_, rfl, hmem, fun i j hi hj => accBuf_elem hbuf hi hj, fun h => absurd h (Nat.not_lt.mpr hlast), fun _ => ⟨hended, hts⟩⟩
  · rw [if_neg hlast]
    refine ⟨_, rfl, hadded.mem, fun i j hi hj => ?_, fun _ => hn, fun h => absurd h hlast⟩
    refine accBuf_elem ?_ hi hj
    rw [hadded.tget hcalm.1]
    exact Strand.bufMem_setBuf _ _ _

theorem talloc_done (hcalm : Calm s c.strand) (hc : tfind s.cmds n = some c) (hop : c.op = .talloc) :
    ∃ t, exec (.tileCommandCompletion n) s = .next t ∧ Ended s t n c ∧ t.mem = s.mem := by
  obtain ⟨hended, hmem, -, -⟩ := ended_of_step hcalm (.refl c.strand s) (.refl _) hc fun _ _ => rfl
  refine ⟨_, ?_, hended, hmem⟩
  rw [exec_tileCommandCompletion, execTileCommandCompletion, hc]
  simp only [hop]

theorem tfree_done (hcalm : Calm s c.strand) (hc : tfind s.cmds n = some c) (hop : c.op = .tfree) (htd : c.td = some th)
    (hactive : c.active = true) (hbehind : s.behindOnTile n = false) (hread : s.readEarlier n = false) :
    ∃ t, exec (.tileCommandCompletion n) s = .next t ∧ Ended s t n c ∧ t.mem = s.mem ∧ ((tget t.strands c.strand).tile th).ts = 0 := by
  obtain ⟨hended, hmem, hme, -⟩ := ended_of_step hcalm (.refl c.strand s) (.refl _) hc fun _ _ => rfl
  have hfree : s.tileFree n = true := by
    unfold State.tileFree
    simp only [tget_of_tfind hc, hactive, hbehind, hread]
    simp
  refine ⟨_, ?_, hended, hmem, ?_⟩
  · rw [exec_tileCommandCompletion, execTileCommandCompletion, hc]
    simp only [hop, hfree, if_true]
  · rw [hme]
    exact Strand.endCmd_empty htd hactive hop

theorem ended_of_same {s u t : State} (hstrands : u.strands = s.strands) (hcmds : u.cmds = s.cmds) (h : Ended u t n c) : Ended s t n c := by
  unfold Ended at h ⊢
  rwa [hstrands, hcmds] at h

theorem cread_cwrite_tileBytes (t : Strand) (e : Tile) (k : Nat) : cread (cwrite [] 0 (t.tileBytes e 0 k)) 0 k = t.tileBytes e 0 k := by
  have hread := cread_cwrite_self [] 0 (t.tileBytes e 0 k)
  rwa [Strand.tileBytes, cread_length] at hread

/-- What MLATCH leaves in a latch (R242). -/
def latchOf (s : State) (c : Cmd) (tb : BitVec 5) : StatLatch :=
  let t := tget s.strands c.strand
  let e := t.tile tb
  { bytes := cwrite [] 0 (t.tileBytes e 0 wTileBytes), ctx := some c.strand, th := tb, bi := e.bi,
    wc := tget (tget s.cores c.core).wcount (32 * t.ctx + e.bi.toNat) }

theorem latchOf_bytes (s : State) (c : Cmd) (tb : BitVec 5) : cread (latchOf s c tb).bytes 0 16384 =
    (tget s.strands c.strand).tileBytes ((tget s.strands c.strand).tile tb) 0 16384 := by
  unfold latchOf wTileBytes
  dsimp only
  rw [cread_cwrite_tileBytes]

theorem mlatch_done {tb : BitVec 5} (hcalm : Calm s c.strand) (hc : tfind s.cmds n = some c) (hop : c.op = .mlatch) (htb : c.tb = some tb) :
    let x := tget s.strands c.strand
    ∃ t, exec (.tileCommandCompletion n) s = .next t ∧ Ended s t n c ∧ t.mem = s.mem ∧
      let l := tget (tget t.cores c.core).latches (c.imm.toNat % 4)
      l.ctx = some c.strand ∧ l.th = tb ∧ l.bi = (x.tile tb).bi ∧ cread l.bytes 0 16384 = x.tileBytes (x.tile tb) 0 16384 := by
  intro x
  have hsame := s.noteErrors_same c.strand (s.tileRuns c)
  let u : State := (s.noteErrors c.strand (s.tileRuns c)).onCore c.core
    (fun k => { k with latches := tset k.latches (c.imm.toNat % 4) (latchOf s c tb) })
  have hstrands : u.strands = s.strands := hsame.strands
  have hcmds : u.cmds = s.cmds := hsame.cmds
  have hlatch : tget (tget u.cores c.core).latches (c.imm.toNat % 4) = latchOf s c tb := by
    rw [show u.cores = tset _ c.core _ from rfl, tget_tset_self]
    exact tget_tset_self _ _ _
  have hcalm' : Calm u c.strand := by
    rw [Calm, hstrands, show u.gangs = s.gangs from hsame.gangs]
    exact hcalm
  obtain ⟨hended, hmem, -, hlatches⟩ := ended_of_step hcalm' (.refl c.strand u) (.refl _) (by rw [hcmds]; exact hc) fun _ _ => rfl
  refine ⟨u.endCmd n, ?_, ?_, hmem.trans hsame.mem, ?_⟩
  · rw [exec_tileCommandCompletion, execTileCommandCompletion, hc]
    simp only [hop, htb]
    rfl
  · exact ended_of_same hstrands hcmds hended
  · rw [hlatches, hlatch]
    exact ⟨rfl, rfl, rfl, latchOf_bytes s c tb⟩

theorem tilesCompleted : TilesCompleted := by
  intro s n c hcalm x
  refine ⟨fun th hw => ?_, talloc_done hcalm, fun th hc hop htd => tfree_done hcalm hc hop htd,
    fun tb hc hop htb _ _ _ _ => mlatch_done hcalm hc hop htb⟩
  intro e src done
  exact ⟨tzero_done hcalm hw, tmov_done hcalm hw, fun hop _ => txpose_done hcalm hw hop, fun hop _ => tcvt_done hcalm hw hop,
    fun hop hstate _ => mma_done hcalm hw hop hstate, fun m hop hstate _ hslab hheld => mmas_done hcalm hw hop hstate hslab hheld⟩

end

end Sys2Proof.Machine
end

section
/-! O30: what the halt of a gang leaves of tiles, commands and waiting records (R74, R382). -/

namespace Sys2Proof.Machine

open Sys2Proof.Claims

/-! Records that wait to be posted (R381). -/

theorem State.postFatal_waiting (s : State) (r : Record) : (s.postFatal r).dev.waiting = s.dev.waiting := by
  unfold State.postFatal
  dsimp only
  split <;> split <;> rfl

theorem State.noteAs_waiting (s : State) (q : Record) (l : List ArrayRun) : (s.noteAs q l).dev.waiting = s.dev.waiting := by
  unfold State.noteAs
  refine foldl_inv (fun x : State => x.dev.waiting = s.dev.waiting) _ (fun x u hx => ?_) _ _ rfl
  split
  · exact (x.postFatal_waiting _).trans hx
  · exact hx

theorem State.noteFound_waiting (s : State) (part : Nat) (runs : List ArrayRun) (w : Walk) :
    (s.noteFound part runs w).dev.waiting = s.dev.waiting := by
  unfold State.noteFound
  dsimp only
  split
  · exact (State.postFatal_waiting _ _).trans (s.noteAs_waiting _ _)
  · exact s.noteAs_waiting _ _

theorem State.noteFound_same (s : State) (part : Nat) (runs : List ArrayRun) (w : Walk) : s.SameButLanes (s.noteFound part runs w) := by
  unfold State.noteFound
  dsimp only
  split
  · exact (s.noteAs_same _ _).trans (State.badEntry_same _ _)
  · exact s.noteAs_same _ _

theorem State.noteRun_waiting (s : State) (part va n : Nat) : (s.noteRun part va n).dev.waiting = s.dev.waiting :=
  foldl_inv (fun x : State => x.dev.waiting = s.dev.waiting) _ (fun x _ hx => (x.noteFound_waiting _ _ _).trans hx) _ _ rfl

/-! What keeps tiles, commands and waiting records. -/

/-- The tile table, its buffers, the restart record and the gang of a strand are as before. -/
structure StrandKept (x y : Strand) : Prop where
  tiles : y.tiles = x.tiles
  wmem : y.wmem = x.wmem
  amem : y.amem = x.amem
  cmem : y.cmem = x.cmem
  restart : y.restart = x.restart
  gang : y.gang = x.gang

theorem StrandKept.refl (x : Strand) : StrandKept x x := ⟨rfl, rfl, rfl, rfl, rfl, rfl⟩

theorem StrandKept.trans {x y z : Strand} (h : StrandKept x y) (h' : StrandKept y z) : StrandKept x z :=
  ⟨h'.tiles.trans h.tiles, h'.wmem.trans h.wmem, h'.amem.trans h.amem, h'.cmem.trans h.cmem, h'.restart.trans h.restart, h'.gang.trans h.gang⟩

theorem StrandKept.bufMem {x y : Strand} (h : StrandKept x y) (tk : BitVec 2) : y.bufMem tk = x.bufMem tk := by
  rw [Strand.bufMem, Strand.bufMem, h.wmem, h.amem, h.cmem]

theorem StrandKept.tile {x y : Strand} (h : StrandKept x y) (th : BitVec 5) : y.tile th = x.tile th := by
  rw [Strand.tile, Strand.tile, h.tiles]

/-- Every strand keeps its tiles, and commands and waiting records are as before. -/
structure TilesKept (s t : State) : Prop where
  strand : ∀ k, StrandKept (tget s.strands k) (tget t.strands k)
  there : ∀ k, (tfind t.strands k).isSome = (tfind s.strands k).isSome
  cmds : t.cmds = s.cmds
  waiting : t.dev.waiting = s.dev.waiting

theorem TilesKept.refl (s : State) : TilesKept s s := ⟨fun _ => .refl _, fun _ => rfl, rfl, rfl⟩

theorem TilesKept.trans {s t u : State} (h : TilesKept s t) (h' : TilesKept t u) : TilesKept s u :=
  ⟨fun k => (h.strand k).trans (h'.strand k), fun k => (h'.there k).trans (h.there k), h'.cmds.trans h.cmds, h'.waiting.trans h.waiting⟩

theorem TilesKept.of_same {s t : State} (hstrands : t.strands = s.strands) (hcmds : t.cmds = s.cmds)
    (hwaiting : t.dev.waiting = s.dev.waiting) : TilesKept s t :=
  ⟨fun k => by rw [hstrands]; exact .refl _, fun k => by rw [hstrands], hcmds, hwaiting⟩

theorem TilesKept.onStrand (s : State) (k : Nat) {f : Strand → Strand} (h : ∀ x, StrandKept x (f x)) : TilesKept s (s.onStrand k f) := by
  refine ⟨fun j => ?_, fun j => ?_, rfl, rfl⟩
  · rw [tget, tget, State.tfind_onStrand]
    split
    next hj =>
      subst hj
      cases tfind s.strands j with
      | none => exact .refl _
      | some x => exact h x
    next => exact .refl _
  · rw [State.tfind_onStrand]
    split
    next hj =>
      subst hj
      exact Option.isSome_map
    next => rfl

theorem TilesKept.foldl {β : Type} {f : State → β → State} (h : ∀ s b, TilesKept s (f s b)) (l : List β) (s : State) : TilesKept s (l.foldl f s) :=
  foldl_keeps TilesKept .refl (fun _ _ _ => .trans) f h l s

/-! Results that land (R59). -/

theorem StrandKept.putDest (x : Strand) (d : Dest) : StrandKept x (x.putDest d) := by
  cases d with
  | scalar r v =>
    show StrandKept x (x.setReg r v)
    unfold Strand.setReg
    split
    · exact .refl x
    · exact ⟨rfl, rfl, rfl, rfl, rfl, rfl⟩
  | _ => exact ⟨rfl, rfl, rfl, rfl, rfl, rfl⟩

theorem StrandKept.landOne (x : Strand) (l : Landing) : StrandKept x (x.landOne l) := by
  refine (StrandKept.putDest x l.dest).trans ?_
  unfold Strand.landOne Strand.orFlags
  dsimp only
  split <;> exact ⟨rfl, rfl, rfl, rfl, rfl, rfl⟩

theorem StrandKept.foldl {β : Type} {f : Strand → β → Strand} (h : ∀ x b, StrandKept x (f x b)) (l : List β) (x : Strand) :
    StrandKept x (l.foldl f x) := foldl_keeps StrandKept .refl (fun _ _ _ => .trans) f h l x

theorem StrandKept.landDue (x : Strand) : StrandKept x x.landDue := by
  unfold Strand.landDue
  refine .trans ?_ (.foldl .landOne _ _)
  exact ⟨rfl, rfl, rfl, rfl, rfl, rfl⟩

theorem StrandKept.landAll (x : Strand) : StrandKept x x.landAll := by
  unfold Strand.landAll
  refine .trans ?_ (.foldl .landOne _ _)
  exact ⟨rfl, rfl, rfl, rfl, rfl, rfl⟩

theorem StrandKept.landLane (x : Strand) (l : LaneLanding) : StrandKept x (x.landLane l) := by
  unfold Strand.landLane
  dsimp only
  split <;> exact ⟨rfl, rfl, rfl, rfl, rfl, rfl⟩

theorem StrandKept.landLanes (x : Strand) : StrandKept x x.landLanes := by
  unfold Strand.landLanes
  refine .trans ?_ (.foldl .landLane _ _)
  exact ⟨rfl, rfl, rfl, rfl, rfl, rfl⟩

theorem StrandKept.suspended (x : Strand) (st : BitVec 4) : StrandKept x (x.suspended st) := by
  have hlanded : StrandKept x (if x.micro.mv then x.landLanes else x.landLanes.landDue) :=
    iteInduction (motive := fun y : Strand => StrandKept x y) (fun _ => .landLanes x) fun _ => (StrandKept.landLanes x).trans (.landDue _)
  exact hlanded.trans ⟨rfl, rfl, rfl, rfl, rfl, rfl⟩

/-! A strand that leaves its context (R48, R74). -/

theorem TilesKept.noteErrors (s : State) (k : Nat) (l : List ArrayRun) : TilesKept s (s.noteErrors k l) :=
  .of_same (s.noteErrors_same k l).strands (s.noteErrors_same k l).cmds (s.noteAs_waiting _ l)

theorem State.devWrite_waiting (s : State) (part va : Nat) (l : List Byte) : (s.devWrite part va l).dev.waiting = s.dev.waiting := by
  obtain ⟨m, hm⟩ := s.devWrite_eq part va l
  rw [hm]

theorem TilesKept.writeFolio (s : State) (t : Strand) : TilesKept s (s.writeFolio t) :=
  .of_same (s.writeFolio_same t).strands (s.writeFolio_same t).cmds (by rw [State.writeFolio, State.devWrite_waiting, State.noteRun_waiting])

theorem TilesKept.writeFrame (s : State) (t : Strand) : TilesKept s (s.writeFrame t) :=
  .of_same (s.writeFrame_same t).strands (s.writeFrame_same t).cmds (by rw [State.writeFrame, State.devWrite_waiting, State.noteRun_waiting])

/-- A fault takes a strand out with its tiles. -/
theorem TilesKept.freeContext (s : State) (k : Nat) : TilesKept s (s.freeContext k) := by
  unfold State.freeContext
  dsimp only
  generalize hu : s.onCore _ _ = u
  have hsu : TilesKept s u := by
    subst hu
    exact .of_same rfl rfl rfl
  exact hsu.trans (.onStrand u k fun _ => ⟨rfl, rfl, rfl, rfl, rfl, rfl⟩)

theorem TilesKept.retire (s : State) (k : Nat) : TilesKept s (s.retire k) := by
  unfold State.retire
  dsimp only
  refine .trans (.trans (.onStrand s k fun x => ?_) (.writeFolio _ _)) (.freeContext _ k)
  exact (StrandKept.landAll x).trans ⟨rfl, rfl, rfl, rfl, rfl, rfl⟩

theorem State.takeOut_three {s : State} {k : Nat} (hended : (tget s.strands k).ended = false) :
    let y := s.onStrand k (fun t => t.suspended 3)
    s.takeOut k 3 = (((y.noteErrors k (tget y.strands k).arrayRuns).writeFrame (tget y.strands k)).writeFolio (tget y.strands k)).freeContext k := by
  have hnever : ((3 : BitVec 4) = 2) = False ∧ ((3 : BitVec 4) = 4) = False ∧ ((3 : BitVec 4) = 8) = False := by decide
  unfold State.takeOut
  simp only [hended, hnever, decide_false, Bool.and_false, Bool.false_eq_true, if_false]
  rfl

theorem TilesKept.takeOut (s : State) (k : Nat) : TilesKept s (s.takeOut k 3) := by
  cases hended : (tget s.strands k).ended with
  | true =>
    have hretire : s.takeOut k 3 = s.retire k := by rw [State.takeOut, hended, if_pos rfl]
    rw [hretire]
    exact .retire s k
  | false =>
    rw [State.takeOut_three hended]
    exact ((((TilesKept.onStrand s k fun x => .suspended x 3).trans (.noteErrors _ _ _)).trans (.writeFrame _ _)).trans (.writeFolio _ _)).trans
      (.freeContext _ k)

/-- It changes no gang. -/
theorem State.takeOut_gangs (s : State) (k : Nat) : (s.takeOut k 3).gangs = s.gangs := by
  cases hended : (tget s.strands k).ended with
  | true =>
    have hretire : s.takeOut k 3 = s.retire k := by rw [State.takeOut, hended, if_pos rfl]
    rw [hretire]
    exact (State.writeFolio_same _ _).gangs
  | false => exact (State.takeOut_suspended hended).2.1

/-! What changes neither strands nor gangs, commands or waiting records. -/

/-- Strands, gangs, commands and waiting records are as before. -/
structure WorkKept (s t : State) : Prop where
  strands : t.strands = s.strands
  gangs : t.gangs = s.gangs
  cmds : t.cmds = s.cmds
  waiting : t.dev.waiting = s.dev.waiting

theorem WorkKept.refl (s : State) : WorkKept s s := ⟨rfl, rfl, rfl, rfl⟩

theorem WorkKept.trans {s t u : State} (h : WorkKept s t) (h' : WorkKept t u) : WorkKept s u :=
  ⟨h'.strands.trans h.strands, h'.gangs.trans h.gangs, h'.cmds.trans h.cmds, h'.waiting.trans h.waiting⟩

theorem WorkKept.foldl {β : Type} {f : State → β → State} (h : ∀ s b, WorkKept s (f s b)) (l : List β) (s : State) : WorkKept s (l.foldl f s) :=
  foldl_keeps WorkKept .refl (fun _ _ _ => .trans) f h l s

theorem WorkKept.tiles {s t : State} (h : WorkKept s t) : TilesKept s t := .of_same h.strands h.cmds h.waiting

theorem WorkKept.withdraw (s : State) (part k : Nat) : WorkKept s (s.withdraw part k) := by
  unfold State.withdraw
  refine .foldl (fun s e => ?_) _ s
  split <;> exact ⟨rfl, rfl, rfl, rfl⟩

theorem WorkKept.keepStores (s : State) (g : Nat) : WorkKept s (s.keepStores g) := by
  unfold State.keepStores State.flush
  refine .foldl (fun s ln => ?_) _ s
  show WorkKept s (s.writeBack _ ln)
  unfold State.writeBack
  split <;> exact ⟨rfl, rfl, rfl, rfl⟩

theorem WorkKept.transfer (s : State) (first last : Nat) : WorkKept s (s.transfer first last) := by
  unfold State.transfer
  dsimp only
  split <;> exact ⟨rfl, rfl, rfl, rfl⟩

theorem WorkKept.endRounds (s : State) (bt : Nat) : WorkKept s (s.endRounds bt) := by
  refine .foldl (fun s r => ?_) _ s
  refine iteInduction (motive := fun u => WorkKept s u) (fun _ => .refl s) fun _ =>
    iteInduction (motive := fun u => WorkKept s u) (fun _ => ?_) fun _ => ⟨rfl, rfl, rfl, rfl⟩
  refine .trans ?_ (.transfer _ _ _)
  exact ⟨rfl, rfl, rfl, rfl⟩

theorem WorkKept.offsetsIdle (s : State) (part : Nat) : WorkKept s (s.offsetsIdle part) := by
  unfold State.offsetsIdle
  split <;> exact ⟨rfl, rfl, rfl, rfl⟩

theorem WorkKept.requeue (s : State) (g : Nat) : WorkKept s (s.requeue g) := ⟨rfl, rfl, rfl, rfl⟩

/-! The halt of a gang for a fault (R74, R382). -/

/-- Tiles, commands and waiting records are as before, and no gang has begun to halt. -/
structure HaltKept (s t : State) : Prop extends TilesKept s t where
  halts : ∀ g, (tget t.gangs g).halt = none ∨ (tget t.gangs g).halt = (tget s.gangs g).halt

theorem HaltKept.refl (s : State) : HaltKept s s := ⟨.refl s, fun _ => .inr rfl⟩

theorem HaltKept.trans {s t u : State} (h : HaltKept s t) (h' : HaltKept t u) : HaltKept s u :=
  ⟨h.toTilesKept.trans h'.toTilesKept, fun g => (h'.halts g).elim .inl fun he => (h.halts g).imp he.trans he.trans⟩

theorem HaltKept.foldl {β : Type} {f : State → β → State} (h : ∀ s b, HaltKept s (f s b)) (l : List β) (s : State) : HaltKept s (l.foldl f s) :=
  foldl_keeps HaltKept .refl (fun _ _ _ => .trans) f h l s

theorem HaltKept.of_gangs {s t : State} (h : TilesKept s t) (hgangs : t.gangs = s.gangs) : HaltKept s t :=
  ⟨h, fun _ => .inr (by rw [hgangs])⟩

theorem WorkKept.halt {s t : State} (h : WorkKept s t) : HaltKept s t := .of_gangs h.tiles h.gangs

theorem HaltKept.onGang (s : State) (g : Nat) {f : Gang → Gang} (h : ∀ x, (f x).halt = none ∨ (f x).halt = x.halt) :
    HaltKept s (s.onGang g f) := by
  refine ⟨.of_same rfl rfl rfl, fun j => ?_⟩
  show (tget (tmod s.gangs g f) j).halt = none ∨ (tget (tmod s.gangs g f) j).halt = (tget s.gangs j).halt
  by_cases hj : j = g
  · subst hj
    cases hg : tfind s.gangs j with
    | none =>
      have hnone : tfind (tmod s.gangs j f) j = none := by rw [tfind_tmod, if_pos rfl, hg, Option.map_none]
      rw [tget, hnone]
      exact .inl rfl
    | some x =>
      rw [tget_tmod _ _ (by rw [hg]; rfl)]
      exact h _
  · rw [tget_tmod_of_ne _ _ hj]
    exact .inr rfl

theorem HaltKept.takeOut (s : State) (k : Nat) : HaltKept s (s.takeOut k 3) := .of_gangs (.takeOut s k) (s.takeOut_gangs k)

theorem HaltKept.restamp (s : State) (k : Nat) : HaltKept s (s.restamp k 3) := by
  refine iteInduction (motive := fun u => HaltKept s u) (fun _ => .refl s) fun _ => ?_
  let u : State := if (tget s.strands k).fs then s else (s.noteErrors k (tget s.strands k).arrayRuns).writeFrame (tget s.strands k)
  have hu : HaltKept s u := by
    refine iteInduction (motive := fun u => HaltKept s u) (fun _ => .refl s) fun _ => ?_
    exact .of_gangs ((TilesKept.noteErrors s k _).trans (.writeFrame _ _))
      ((State.writeFrame_same _ _).gangs.trans (s.noteErrors_same k _).gangs)
  let v : State := u.onStrand k (fun t => { t with st := 3, fs := true })
  have hv : HaltKept u v := .of_gangs (.onStrand u k fun _ => ⟨rfl, rfl, rfl, rfl, rfl, rfl⟩) rfl
  exact (hu.trans hv).trans (.of_gangs (.writeFolio v _) (v.writeFolio_same _).gangs)

theorem HaltKept.gangOver (s : State) (g : Nat) : HaltKept s (s.gangOver g) := by
  let x := tget s.gangs g
  let y : State := { s with batches := tmod s.batches x.batch (fun b => { b with gangsEnded := b.gangsEnded + 1 }) }
  let z : State := y.onGang g (fun x => { x with
    placed := false, gate := false, pipes := [], bars := [], blocks := [], pre := none, halt := none })
  have hy : HaltKept s y := WorkKept.halt ⟨rfl, rfl, rfl, rfl⟩
  have hz : HaltKept y z := .onGang y g fun _ => .inl rfl
  exact (hy.trans hz).trans ((WorkKept.endRounds z x.batch).trans (.offsetsIdle _ x.part)).halt

theorem HaltKept.leave (s : State) (g : Nat) : HaltKept s (s.leave g { st := 3 }) := by
  let y : State := (tget s.gangs g).strands.foldl (fun s k => s.restamp k 3) s
  let z : State := (y.keepStores g).onGang g (fun x => { x with placed := false, gate := false, halt := none, pre := none })
  let r : State := (z.endRounds (tget y.gangs g).batch).offsetsIdle (tget y.gangs g).part
  have hr : HaltKept s r :=
    (((HaltKept.foldl .restamp _ s).trans (WorkKept.keepStores y g).halt).trans (.onGang _ g fun _ => .inl rfl)).trans
      ((WorkKept.endRounds z _).trans (.offsetsIdle _ _)).halt
  have hleave : s.leave g { st := 3 } =
      if y.gangDone g then r.gangOver g else r.onGang g (fun x => { x with answer := true }) := rfl
  rw [hleave]
  split
  · exact hr.trans (.gangOver r g)
  · exact hr.trans (.onGang r g fun _ => .inr rfl)

/-- The gang is not halted but for a fault. -/
def FaultOnly (s : State) (g : Nat) : Prop := ∀ h, (tget s.gangs g).halt = some h → h = { st := 3 }

theorem FaultOnly.step {s t : State} {g : Nat} (h : FaultOnly s g) (hkept : HaltKept s t) : FaultOnly t g := fun x hx =>
  h x ((hkept.halts g).elim (fun hnone => absurd (hnone.symm.trans hx) nofun) fun he => he.symm.trans hx)

theorem HaltKept.haltStep {s : State} {g : Nat} (h : FaultOnly s g) : HaltKept s (s.haltStep g) := by
  unfold State.haltStep
  split
  next => exact .refl s
  next x hx =>
    obtain rfl := h x hx
    refine iteInduction (motive := fun u => HaltKept s u) (fun _ => .refl s) fun _ => ?_
    dsimp only
    have htaken : HaltKept s ((tget s.gangs g).strands.foldl (fun s k => if (tget s.strands k).mayLeave then s.takeOut k 3 else s) s) :=
      .foldl (fun s k => iteInduction (motive := fun u => HaltKept s u) (fun _ => .takeOut s k) fun _ => .refl s) _ s
    split
    · exact htaken.trans (.leave _ g)
    · exact htaken

/-- A gang asked to halt for a fault: a halt in progress goes on, but for a request to leave (R382; log 60). -/
def Gang.faulted (x : Gang) : Gang := { x with halt := match x.halt with
  | some h => if (3 : BitVec 4) = 8 || ((3 : BitVec 4) = 3 && h.st = 4) then some { st := 3 } else some h
  | none => some { st := 3 } }

theorem Gang.faulted_halt {x : Gang} (h : x.halt = none) : x.faulted.halt = some { st := 3 } := by
  rw [Gang.faulted, h]

/-- The halt of a gang for a fault begins. -/
theorem State.haltBegun_kept {s : State} {g : Nat} (hhalt : (tget s.gangs g).halt = none) :
    TilesKept s (s.haltBegun g 3) ∧ FaultOnly (s.haltBegun g 3) g := by
  let y : State := (tget s.gangs g).strands.foldl (fun u k =>
    let t := tget u.strands k
    if t.written || t.halted then u
    else
      let fin := u.grantWaits t.part k || (tget s.gangs g).bars.any (fun b => b.2.released.contains t.rank)
      (u.withdraw t.part k).onStrand k (fun t => { t with halted := true, finishing := fin && !t.ended })) s
  have hy : HaltKept s y := by
    refine .foldl (fun u k => ?_) _ s
    refine iteInduction (motive := fun v => HaltKept u v) (fun _ => .refl u) fun _ => ?_
    exact (WorkKept.withdraw u _ k).halt.trans (.of_gangs (.onStrand _ k fun _ => ⟨rfl, rfl, rfl, rfl, rfl, rfl⟩) rfl)
  let z : State := y.onGang g (fun x => { x with bars := tmap x.bars (fun _ b => { b with waiting := [] }) })
  have hz : HaltKept s z := hy.trans (.onGang y g fun _ => .inr rfl)
  have hbegun : s.haltBegun g 3 = z.onGang g Gang.faulted := rfl
  rw [hbegun]
  refine ⟨hz.toTilesKept.trans (.of_same rfl rfl rfl), fun h hh => ?_⟩
  have hnone : (tget z.gangs g).halt = none := (hz.halts g).elim id fun he => he.trans hhalt
  cases hg : tfind z.gangs g with
  | none =>
    have hmissing : tfind (z.onGang g Gang.faulted).gangs g = none := by
      show tfind (tmod z.gangs g Gang.faulted) g = none
      rw [tfind_tmod, if_pos rfl, hg, Option.map_none]
    rw [tget, hmissing] at hh
    exact absurd hh nofun
  | some x =>
    rw [z.tget_onGang _ (by rw [hg]; rfl), Gang.faulted_halt hnone] at hh
    exact (Option.some.inj hh).symm

theorem State.haltGang_kept {s : State} {g : Nat} (hhalt : (tget s.gangs g).halt = none) :
    TilesKept s (s.haltGang g 3) ∧ FaultOnly (s.haltGang g 3) g := by
  cases hgone : (tget s.gangs g).killed || (tget s.gangs g).stopped with
  | true =>
    have hsame : s.haltGang g 3 = s := by simp [State.haltGang, hgone]
    rw [hsame]
    exact ⟨.refl s, fun h hh => absurd (hhalt.symm.trans hh) nofun⟩
  | false =>
    rw [State.haltGang_begun 3 hgone]
    obtain ⟨hkept, honly⟩ := State.haltBegun_kept hhalt
    have hstep := HaltKept.haltStep honly
    exact ⟨hkept.trans hstep.toTilesKept, honly.step hstep⟩

end Sys2Proof.Machine
end

section
/-! O30: streaming operations that cannot read a slab (R395, R400, R401). -/

namespace Sys2Proof.Machine

open Sys2Proof.Claims

/-! The end of any command. -/

/-- Restart records, gangs and waiting records are as before, and no command appears. -/
structure RestartKept (s t : State) : Prop where
  restart : ∀ k, (tget t.strands k).restart = (tget s.strands k).restart
  gang : ∀ k, (tget t.strands k).gang = (tget s.strands k).gang
  gangs : t.gangs = s.gangs
  waiting : t.dev.waiting = s.dev.waiting
  gone : ∀ n, tfind s.cmds n = none → tfind t.cmds n = none

theorem RestartKept.refl (s : State) : RestartKept s s := ⟨fun _ => rfl, fun _ => rfl, rfl, rfl, fun _ => id⟩

theorem RestartKept.trans {s t u : State} (h : RestartKept s t) (h' : RestartKept t u) : RestartKept s u :=
  ⟨fun k => (h'.restart k).trans (h.restart k), fun k => (h'.gang k).trans (h.gang k), h'.gangs.trans h.gangs,
    h'.waiting.trans h.waiting, fun n hn => h'.gone n (h.gone n hn)⟩

theorem RestartKept.onStrand (s : State) (k : Nat) {f : Strand → Strand} (hrestart : ∀ x, (f x).restart = x.restart)
    (hgang : ∀ x, (f x).gang = x.gang) : RestartKept s (s.onStrand k f) :=
  ⟨fun j => tget_tmod_of_eq s.strands k j f Strand.restart hrestart, fun j => tget_tmod_of_eq s.strands k j f Strand.gang hgang, rfl, rfl,
    fun _ => id⟩

theorem RestartKept.onTile (s : State) (k : Nat) (th : BitVec 5) (f : Tile → Tile) : RestartKept s (s.onStrand k (fun t => t.onTile th f)) :=
  .onStrand s k (fun _ => rfl) fun _ => rfl

theorem RestartKept.onCmd (s : State) (n : Nat) (f : Cmd → Cmd) : RestartKept s (s.onCmd n f) := by
  refine ⟨fun _ => rfl, fun _ => rfl, rfl, rfl, fun m hm => ?_⟩
  show tfind (tmod s.cmds n f) m = none
  rw [tfind_tmod]
  split
  next h => rw [← h, hm, Option.map_none]
  next => exact hm

theorem Strand.setBuf_restart (x : Strand) (tk : BitVec 2) (m : Cells 8) : (x.setBuf tk m).restart = x.restart := by
  unfold Strand.setBuf
  split
  · rfl
  · split <;> rfl

theorem RestartKept.moveTile {s u : State} {k : Nat} {th : BitVec 5} (h : s.moveTile k th = some u) : RestartKept s u := by
  unfold State.moveTile at h
  dsimp only at h
  split at h
  next => exact absurd h nofun
  next n rest _ =>
    split at h
    · split at h
      · obtain rfl := Option.some.inj h
        exact (RestartKept.onTile s k th _).trans (.onCmd _ n _)
      · exact absurd h nofun
    · split at h
      · exact absurd h nofun
      · obtain rfl := Option.some.inj h
        refine .trans (.onStrand s k (fun x => ?_) fun x => ?_) (.onCmd _ n _)
        · show (ite _ _ x : Strand).restart = _
          split
          · exact x.setBuf_restart _ _
          · rfl
        · show (ite _ _ x : Strand).gang = _
          split
          · exact (TileStep.setBuf x _ _).gang
          · rfl

theorem RestartKept.moveTiles (n : Nat) (s : State) (k : Nat) (th : BitVec 5) : RestartKept s (State.moveTiles n s k th) := by
  induction n generalizing s with
  | zero => exact .refl s
  | succ n ih =>
    rw [State.moveTiles]
    split
    next u hu => exact (RestartKept.moveTile hu).trans (ih u)
    next => exact .refl s

theorem RestartKept.settleTile (s : State) (k : Nat) (th : BitVec 5) : RestartKept s (s.settleTile k th) := .moveTiles _ s k th

theorem RestartKept.unreadTile (s : State) (k : Nat) (o : Option (BitVec 5)) : RestartKept s (s.unreadTile k o) := by
  cases o with
  | none => exact .refl s
  | some th => exact (RestartKept.onTile s k th _).trans (.settleTile _ k th)

theorem RestartKept.countWrite (s : State) (k : Nat) (e : Tile) : RestartKept s (s.countWrite k e) := by
  unfold State.countWrite
  dsimp only
  split <;> exact ⟨fun _ => rfl, fun _ => rfl, rfl, rfl, fun _ => id⟩

theorem RestartKept.leaveTile (s : State) (n : Nat) (c : Cmd) : RestartKept s (s.leaveTile n c) := by
  unfold State.leaveTile
  split
  next => exact .refl s
  next th _ =>
    refine iteInduction (motive := fun u => RestartKept s u) (fun _ => .refl s) fun _ => ?_
    refine .trans (.trans ?_ (.onTile _ c.strand th _)) (.settleTile _ c.strand th)
    exact iteInduction (motive := fun u => RestartKept s u) (fun _ => .countWrite s _ _) fun _ => .refl s

/-- The end of a command, up to the halt that may wait for it (R72, R74). -/
theorem State.endCmd_kept {s : State} {n : Nat} {c : Cmd} (hc : tfind s.cmds n = some c) :
    ∃ u : State, s.endCmd n = u.haltStep (tget u.strands c.strand).gang ∧ RestartKept s u ∧ tfind u.cmds n = none := by
  let k := c.strand
  let u₀ : State := { s with cmds := tdel s.cmds n }
  let u₁ : State := u₀.leaveTile n c
  let u₂ : State := ((u₁.unreadTile k c.ta).unreadTile k c.ta2).unreadTile k c.tb
  let u₃ : State := u₂.onStrand k (Strand.lessCmd n c)
  let u : State := u₃.onDev (fun d => { d with invals := tmap d.invals (fun _ i => { i with cmds := i.cmds.filter (· ≠ n) }) })
  have hless (x : Strand) : (x.lessCmd n c).restart = x.restart ∧ (x.lessCmd n c).gang = x.gang := by
    unfold Strand.lessCmd
    split <;> exact ⟨rfl, rfl⟩
  have h₀ : RestartKept s u₀ := by
    refine ⟨fun _ => rfl, fun _ => rfl, rfl, rfl, fun m hm => ?_⟩
    show tfind (tdel s.cmds n) m = none
    rw [tfind_tdel, hm, ite_self]
  have h₃ : RestartKept u₀ u₃ :=
    ((((RestartKept.leaveTile u₀ n c).trans (.unreadTile u₁ k c.ta)).trans (.unreadTile _ k c.ta2)).trans (.unreadTile _ k c.tb)).trans
      (.onStrand u₂ k (fun x => (hless x).1) fun x => (hless x).2)
  have hu : RestartKept u₃ u := ⟨fun _ => rfl, fun _ => rfl, rfl, rfl, fun _ => id⟩
  refine ⟨u, ?_, (h₀.trans h₃).trans hu, hu.gone n (h₃.gone n ?_)⟩
  · unfold State.endCmd
    simp only [tget_of_tfind hc]
    rfl
  · show tfind (tdel s.cmds n) n = none
    rw [tfind_tdel, if_pos rfl]

/-! The restart record (R396, R401). -/

/-- Doubleword 5 of a descriptor with `r` as its RP0. -/
def progressWord (w : Word) (r : Nat) : Word := (w &&& ~~~ (0xFFFF0000 : Word)) ||| BitVec.ofNat 64 (r * 2 ^ 16)

theorem fld_eq_extract (v : Word) (lo len : Nat) : fld v lo len = (v.extractLsb' lo len).toNat := by
  rw [fld, BitVec.extractLsb'_toNat, Nat.shiftRight_eq_div_pow]

theorem fld_progressWord {w : Word} {r : Nat} (h : r < 2 ^ 16) :
    fld (progressWord w r) 16 16 = r ∧ fld (progressWord w r) 0 16 = fld w 0 16 := by
  have hcleared : (~~~ (0xFFFF0000 : Word)).extractLsb' 16 16 = 0#16 ∧ (~~~ (0xFFFF0000 : Word)).extractLsb' 0 16 = BitVec.allOnes 16 := by decide
  have hrp : (BitVec.ofNat 64 (r * 2 ^ 16)).extractLsb' 16 16 = BitVec.ofNat 16 r := by
    refine BitVec.eq_of_toNat_eq ?_
    rw [BitVec.extractLsb'_toNat, Nat.shiftRight_eq_div_pow, BitVec.toNat_ofNat, BitVec.toNat_ofNat]
    omega
  have hnr : (BitVec.ofNat 64 (r * 2 ^ 16)).extractLsb' 0 16 = 0#16 := by
    refine BitVec.eq_of_toNat_eq ?_
    rw [BitVec.extractLsb'_toNat, Nat.shiftRight_eq_div_pow, BitVec.toNat_ofNat]
    show r * 2 ^ 16 % 2 ^ 64 / 2 ^ 0 % 2 ^ 16 = 0
    omega
  simp only [fld_eq_extract, progressWord, BitVec.extractLsb'_or, BitVec.extractLsb'_and, hcleared, hrp, hnr, BitVec.and_zero,
    BitVec.zero_or, BitVec.and_allOnes, BitVec.or_zero, and_true]
  exact Nat.mod_eq_of_lt h

/-- The restart record of a streaming operation: its descriptor with its progress as RP0. -/
def Cmd.restartAt (c : Cmd) : Restart :=
  { fv := true, td := c.td.getD 0, x := c.isX, fm := c.mfmt, ord := c.ord,
    desc := (List.range 5).map (fun i => dwAt c.cap (8 * i)) ++ [progressWord (dwAt c.cap 0x28) c.prog], lit := c.lit }

/-! The stream fault (R400). -/

/-- The record of a slab that cannot be read. -/
def State.slabRecord (s : State) (c : Cmd) (va : Nat) : Record :=
  s.recordOf c.strand { cause := 0x0041, val := BitVec.ofNat 64 va, slot := 7, aux := BitVec.ofNat 64 (5 * 2 ^ 52 + 2 ^ 49 + c.prog) }

/-- That record waits to be posted. -/
def State.slabPosted (s : State) (c : Cmd) (va : Nat) : State := (s.noteCmdWalk c va).postReplay (s.slabRecord c va)

/-- And the strand keeps the restart record, unless its gang is gone. -/
def State.slabKept (s : State) (c : Cmd) (va : Nat) : State :=
  let x := tget (s.slabPosted c va).gangs (tget (s.slabPosted c va).strands c.strand).gang
  if x.killed || x.stopped then s.slabPosted c va else (s.slabPosted c va).onStrand c.strand (fun t => { t with restart := c.restartAt })

/-- And the gang is halted, and the tile takes the format of its sum. -/
def State.slabHalted (s : State) (c : Cmd) (va : Nat) : State :=
  ((s.slabKept c va).haltGang (tget (s.slabKept c va).strands c.strand).gang 3).setFt c (accTag c.mfmt)

theorem exec_streamFault_of_fault {s : State} {n : Nat} {c : Cmd} {va : Nat} (hc : tfind s.cmds n = some c) (hop : c.op = .mmas)
    (hstate : c.state = .started) (hfault : s.slabFault c = some va) :
    exec (.streamFault n) s = .next ((s.slabHalted c va).endCmd n) := by
  rw [exec_streamFault, execStreamFault, hc]
  simp only [hop, hstate, hfault, decide_true, Bool.and_self, if_true]
  rfl

theorem State.slabPosted_same (s : State) (c : Cmd) (va : Nat) :
    (s.slabPosted c va).strands = s.strands ∧ (s.slabPosted c va).gangs = s.gangs ∧ (s.slabPosted c va).cmds = s.cmds := by
  have hwalk : s.SameButLanes (s.noteCmdWalk c va) :=
    iteInduction (motive := fun u => s.SameButLanes u) (fun _ => .refl s) fun _ => s.noteFound_same _ _ _
  exact ⟨hwalk.strands, hwalk.gangs, hwalk.cmds⟩

theorem State.slabPosted_waiting (s : State) (c : Cmd) (va : Nat) :
    ∃ r ∈ (s.slabPosted c va).dev.waiting, r.cause = 0x0041 ∧ r.val = BitVec.ofNat 64 va ∧ r.strand = c.strand ∧ r.slt = 7 :=
  ⟨_, List.mem_append_right _ (List.mem_singleton_self _), rfl, rfl, rfl, rfl⟩

/-- What a strand keeps of a stream fault before its gang halts. -/
theorem State.slabKept_same (s : State) (c : Cmd) (va : Nat) :
    (s.slabKept c va).gangs = s.gangs ∧ (s.slabKept c va).cmds = s.cmds ∧ (s.slabKept c va).dev.waiting = (s.slabPosted c va).dev.waiting ∧
      ∃ f : Strand → Strand, (s.slabKept c va).strands = tmod s.strands c.strand f ∧ ∀ x, ∃ r, f x = { x with restart := r } := by
  obtain ⟨hstrands, hgangs, hcmds⟩ := s.slabPosted_same c va
  refine iteInduction (motive := fun u : State => u.gangs = s.gangs ∧ u.cmds = s.cmds ∧ u.dev.waiting = (s.slabPosted c va).dev.waiting ∧
    ∃ f : Strand → Strand, u.strands = tmod s.strands c.strand f ∧ ∀ x, ∃ r, f x = { x with restart := r })
    (fun _ => ⟨hgangs, hcmds, rfl, id, ?_, fun x => ⟨x.restart, rfl⟩⟩) fun _ =>
      ⟨hgangs, hcmds, rfl, fun t => { t with restart := c.restartAt }, ?_, fun x => ⟨_, rfl⟩⟩
  · rw [hstrands]
    exact (tmod_id _ _).symm
  · rw [← hstrands]
    rfl

/-- A strand as it is but for its restart record. -/
theorem State.slabKept_strand {s : State} {c : Cmd} (va : Nat) (hk : (tfind s.strands c.strand).isSome) :
    (tfind (s.slabKept c va).strands c.strand).isSome ∧ ∃ r, tget (s.slabKept c va).strands c.strand = { tget s.strands c.strand with restart := r } := by
  obtain ⟨-, -, -, f, hstrands, hf⟩ := s.slabKept_same c va
  rw [hstrands, isSome_tfind_tmod, tget_tmod _ _ hk]
  exact ⟨hk, hf _⟩

theorem State.slabKept_restart {s : State} {c : Cmd} (va : Nat) (hk : (tfind s.strands c.strand).isSome) :
    let x := tget s.gangs (tget s.strands c.strand).gang
    if x.killed = true ∨ x.stopped = true then (tget (s.slabKept c va).strands c.strand).restart = (tget s.strands c.strand).restart
    else (tget (s.slabKept c va).strands c.strand).restart = c.restartAt := by
  obtain ⟨hstrands, hgangs, -⟩ := s.slabPosted_same c va
  have hkept : s.slabKept c va = if (tget s.gangs (tget s.strands c.strand).gang).killed || (tget s.gangs (tget s.strands c.strand).gang).stopped
      then s.slabPosted c va else (s.slabPosted c va).onStrand c.strand (fun t => { t with restart := c.restartAt }) := by
    rw [← hgangs, ← hstrands]
    rfl
  dsimp only
  rw [hkept]
  by_cases hgone : (tget s.gangs (tget s.strands c.strand).gang).killed = true ∨ (tget s.gangs (tget s.strands c.strand).gang).stopped = true
  · rw [if_pos hgone, if_pos (by simpa using hgone), hstrands]
  · rw [if_neg hgone, if_neg (by simpa using hgone), State.tget_onStrand _ _ (by rw [hstrands]; exact hk)]

/-- The halt of a gang that has been killed or stopped is nothing (R411). -/
theorem State.haltGang_gone {s : State} {g : Nat} (h : (tget s.gangs g).killed = true ∨ (tget s.gangs g).stopped = true) (st : BitVec 4) :
    s.haltGang g st = s := by
  unfold State.haltGang
  rw [if_pos (by simpa using h)]

/-! A command that ends while its gang halts for a fault. -/

theorem RestartKept.setFt (s : State) (c : Cmd) (ft : BitVec 4) : RestartKept s (s.setFt c ft) := by
  unfold State.setFt
  split
  · exact .onTile s _ _ _
  · exact .refl s

theorem FaultOnly.of_gangs {s t : State} {g : Nat} (h : FaultOnly s g) (hgangs : t.gangs = s.gangs) : FaultOnly t g := by
  unfold FaultOnly
  rw [hgangs]
  exact h

/-- It goes, and restart records and waiting records stay. -/
theorem endCmd_faulted {v : State} {n : Nat} {c : Cmd} {ft : BitVec 4} (hc : tfind v.cmds n = some c)
    (hfault : FaultOnly v (tget v.strands c.strand).gang) :
    let t := (v.setFt c ft).endCmd n
    tfind t.cmds n = none ∧ t.dev.waiting = v.dev.waiting ∧ (tget t.strands c.strand).restart = (tget v.strands c.strand).restart ∧
      ((tget v.gangs (tget v.strands c.strand).gang).halt = none → t.gangs = v.gangs) := by
  have hset := RestartKept.setFt v c ft
  obtain ⟨u, hend, hkept, hgone⟩ := State.endCmd_kept (s := v.setFt c ft) (n := n) (by rw [State.setFt_cmds]; exact hc)
  have htotal := hset.trans hkept
  rw [htotal.gang] at hend
  have hlast := HaltKept.haltStep (hfault.of_gangs htotal.gangs)
  rw [← hend] at hlast
  refine ⟨?_, hlast.waiting.trans htotal.waiting, (hlast.strand _).restart.trans (htotal.restart _), fun hnone => ?_⟩
  · rw [hlast.cmds, hgone]
  · rw [hend, State.haltStep_none (by rw [htotal.gangs, hnone])]
    exact htotal.gangs

/-- Where a tile stands does not change. -/
theorem Strand.endCmd_place (t : Strand) (n : Nat) (c : Cmd) (th : BitVec 5) :
    ((t.endCmd n c).tile th).tk = (t.tile th).tk ∧ ((t.endCmd n c).tile th).bi = (t.tile th).bi := by
  have hleave (e : Tile) : (e.leave n c).tk = e.tk ∧ (e.leave n c).bi = e.bi := by
    unfold Tile.leave
    split
    · exact ⟨rfl, rfl⟩
    · split <;> exact ⟨rfl, rfl⟩
  obtain ⟨r, hr⟩ := t.endCmd_tile n c th
  rw [hr]
  show ((t.leaveTile n c).tile th).tk = _ ∧ ((t.leaveTile n c).tile th).bi = _
  unfold Strand.leaveTile
  split
  · exact ⟨rfl, rfl⟩
  · split
    · exact ⟨rfl, rfl⟩
    · rw [Strand.tile_onTile]
      split
      next h =>
        subst h
        exact hleave _
      next => exact ⟨rfl, rfl⟩

/-- Its tile is ready and holds what it held. -/
theorem endCmd_faulted_tile {v : State} {n : Nat} {c : Cmd} {ft : BitVec 4} {th : BitVec 5} (hc : tfind v.cmds n = some c)
    (hfault : FaultOnly v (tget v.strands c.strand).gang) (hw : Writer (tget v.strands c.strand) c th) (hstill : Still v c.strand) :
    let x := tget v.strands c.strand
    let y := tget ((v.setFt c ft).endCmd n).strands c.strand
    (y.tile th).ts = 2 ∧ (y.tile th).ft = ft ∧ ∀ i, tileElem y (y.tile th) i = tileElem x (x.tile th) i := by
  intro x y
  let z : Strand := x.onTile th (fun e => { e with ft := ft })
  have hput : StrandStep c.strand (fun t => t.onTile th (fun e => { e with ft := ft })) v (v.setFt c ft) := by
    rw [State.setFt_of_td _ hw.tile]
    exact .onStrand _ _ v
  have hz : z.tile th = { x.tile th with ft := ft } := by rw [Strand.tile_onTile, if_pos rfl]
  have hstillPut : Still (v.setFt c ft) c.strand := still_step hstill hput (.onTile _ th (f := fun e => { e with ft := ft }) (.inr rfl))
  obtain ⟨u, hend, hstep, -⟩ := State.endCmd_still (n := n) (by rw [State.setFt_cmds]; exact hc) hstillPut
  have hzput : tget (v.setFt c ft).strands c.strand = z := hput.tget hstill.1
  have hu : tget u.strands c.strand = z.endCmd n c := (hstep.tget hstillPut.1).trans (by rw [hzput])
  have hgang : (tget u.strands c.strand).gang = x.gang := by
    rw [hu, Strand.endCmd_gang n c (by rw [← hzput]; exact hstillPut.2)]
    rfl
  rw [hgang] at hend
  have hlast := HaltKept.haltStep (hfault.of_gangs (hstep.gangs.trans hput.gangs))
  rw [← hend] at hlast
  have hy : StrandKept (z.endCmd n c) y := hu ▸ hlast.strand c.strand
  obtain ⟨hts, hft⟩ := Strand.endCmd_ready (t := z) (n := n) hw.tile hw.active hw.op.1 hw.op.2
    ((congrArg Tile.ts hz).trans hw.state) ((congrArg Tile.dc hz).trans hw.alone)
  obtain ⟨htk, hbi⟩ := z.endCmd_place n c th
  rw [hz] at htk hbi
  refine ⟨?_, ?_, fun i => ?_⟩
  · rw [hy.tile, hts]
  · rw [hy.tile, hft, hz]
  · rw [tileElem_eq, tileElem_eq, hy.tile, hy.bufMem, Strand.endCmd_bufMem, Tile.base, htk, hbi]
    rfl

/-- A strand but for its restart record keeps its tiles while its gang halts. -/
theorem State.slabHalt_strand {s v : State} {c : Cmd} {va : Nat} (hk : (tfind s.strands c.strand).isSome) (hv : TilesKept (s.slabKept c va) v) :
    (tfind v.strands c.strand).isSome ∧ (tget v.strands c.strand).gang = (tget s.strands c.strand).gang ∧
      (∀ th, (tget v.strands c.strand).tile th = (tget s.strands c.strand).tile th) ∧
      ∀ tk, (tget v.strands c.strand).bufMem tk = (tget s.strands c.strand).bufMem tk := by
  obtain ⟨hthere, r, hr⟩ := State.slabKept_strand va hk
  have hkept := hv.strand c.strand
  rw [hr] at hkept
  exact ⟨(hv.there _).trans hthere, hkept.gang, hkept.tile, hkept.bufMem⟩

theorem streamFaults : StreamFaults := by
  intro s n c va hc hop hstate hslab hk hhalt
  obtain ⟨hgangs, hcmds, hwaiting, -⟩ := s.slabKept_same c va
  let v : State := (s.slabKept c va).haltGang (tget (s.slabKept c va).strands c.strand).gang 3
  obtain ⟨-, r, hr⟩ := State.slabKept_strand va hk
  have hgang : (tget (s.slabKept c va).strands c.strand).gang = (tget s.strands c.strand).gang := by rw [hr]
  obtain ⟨hv, honly⟩ : TilesKept (s.slabKept c va) v ∧ FaultOnly v (tget (s.slabKept c va).strands c.strand).gang :=
    State.haltGang_kept (by rw [hgang, hgangs, hhalt])
  obtain ⟨hthere, hvgang, htile, hbuf⟩ := State.slabHalt_strand hk hv
  rw [hgang, ← hvgang] at honly
  have hcv : tfind v.cmds n = some c := by rw [hv.cmds, hcmds, hc]
  obtain ⟨hgone, hlanes, hrestart, hsame⟩ := endCmd_faulted (ft := accTag c.mfmt) hcv honly
  refine ⟨_, exec_streamFault_of_fault hc hop hstate hslab, hgone, ?_, fun th hw hpend => ?_, ?_⟩
  · show ∃ r ∈ ((v.setFt c (accTag c.mfmt)).endCmd n).dev.waiting, _
    rw [hlanes, hv.waiting, hwaiting]
    exact s.slabPosted_waiting c va
  · have hwriter : Writer (tget v.strands c.strand) c th := by
      have hs := writing_writer hw (by rw [hop]; exact ⟨by decide, rfl⟩)
      exact ⟨hs.tile, hs.active, hs.op, by rw [htile, hs.state], by rw [htile, hs.alone]⟩
    obtain ⟨hts, hft, helems⟩ := endCmd_faulted_tile (ft := accTag c.mfmt) hcv honly hwriter ⟨hthere, fun u => by rw [htile, hpend]⟩
    refine ⟨hts, hft, fun i _ => (helems i).trans ?_⟩
    rw [tileElem_eq, tileElem_eq, htile, hbuf]
  · have hkept := State.slabKept_restart (s := s) va hk
    have hchain : (tget ((v.setFt c (accTag c.mfmt)).endCmd n).strands c.strand).restart = (tget (s.slabKept c va).strands c.strand).restart :=
      hrestart.trans (hv.strand _).restart
    dsimp only at hkept ⊢
    split at hkept
    next hover =>
      rw [if_pos hover]
      have hvs : v = s.slabKept c va := State.haltGang_gone (by rw [hgang, hgangs]; exact hover) 3
      refine ⟨(hsame ?_).trans (by rw [hvs, hgangs]), hchain.trans hkept⟩
      rw [hvgang, hvs, hgangs, hhalt]
    next hover =>
      rw [if_neg hover]
      have hrecord : (tget ((s.slabHalted c va).endCmd n).strands c.strand).restart = c.restartAt := hchain.trans hkept
      rw [hrecord]
      refine ⟨rfl, rfl, rfl, rfl, rfl, rfl, fun i hi => ?_, fun hprog => fld_progressWord hprog⟩
      rw [Cmd.restartAt, List.getD_append _ _ _ _ (by simpa using hi), List.getD_eq_getElem?_getD, List.getElem?_map, List.getElem?_range hi]
      rfl

/-- Settles O30: while no halt waits, a command that ends changes its own strand alone; the halt that a stream fault begins takes strands
out of their contexts, and keeps their tiles, their restart records and the records that wait. -/
theorem tileCompletions : Obligations.TileCompletions := by
  unfold Obligations.TileCompletions
  exact ⟨tilesCompleted, streamFaults⟩

end Sys2Proof.Machine
end

section
/-! O8: the checks of an access through a handle (R103, R230, R379, R395, R396). -/

namespace Sys2Proof.Machine

open Sys2Proof.Claims

/-! The checks of the handle, once and for every access (R103). -/

/-- Rights asked for as a set and as a test of the handle. -/
def Asks (rq : BitVec 3) (right : Handle → Bool) : Prop := ∀ h : Handle, h.allows rq = right h

theorem asks_read : Asks 1 Handle.pr := fun h => by simp [Handle.allows, bitAt]
theorem asks_write : Asks 2 Handle.pw := fun h => by simp [Handle.allows, bitAt]
theorem asks_atomic : Asks 4 Handle.pa := fun h => by simp [Handle.allows, bitAt]

/-- The first of checks 1 to 4 that an access at offset `off` fails, page faults left out. -/
def openTrap (h : Handle) (hd : BitVec 4) (off : Nat) (right : Handle → Bool) : Option (BitVec 16 × Word) :=
  let va : Word := BitVec.ofNat 64 (h.vb.toNat * 4096 + off)
  if h.hs = 0 then some (0x000A, hd.setWidth 64)
  else if h.hs ≠ 1 then none
  else if 2 ≤ h.kd.toNat then some (0x0009, va)
  else if right h = false then some (0x0008, va)
  else none

/-- Checks 1 to 4 in their order. -/
theorem State.hOpen_eq {rq : BitVec 3} {right : Handle → Bool} (hr : Asks rq right) (s : State) (hd : BitVec 4) (off : Nat) :
    s.hOpen hd off rq = match openTrap (s.me.handle hd) hd off right with
      | some (c, v) => trapE c v
      | none => if (s.me.handle hd).hs ≠ 1 then pageFault (BitVec.ofNat 64 ((s.me.handle hd).vb.toNat * 4096)) 0 rq hd.toNat
        else .ok (s.me.handle hd) := by
  have hright := hr (s.me.handle hd)
  rw [Handle.allows] at hright
  unfold State.hOpen openTrap
  dsimp only
  rw [hright]
  by_cases hempty : (s.me.handle hd).hs = 0
  · simp only [hempty, if_true, ne_eq, not_true_eq_false, decide_false, need_false, Res.bind_error]
    rfl
  by_cases hvalid : (s.me.handle hd).hs = 1
  · by_cases hkind : 2 ≤ (s.me.handle hd).kd.toNat
    · simp only [hvalid, hkind, Nat.not_lt.mpr hkind, decide_false, need_false, Res.bind_error, if_true]
      rfl
    · simp only [hvalid, hkind, Nat.not_le.mp hkind, decide_true, need_true, Res.bind_ok, if_false]
      cases right (s.me.handle hd) <;> rfl
  · simp only [hempty, hvalid, if_true, if_false, ne_eq, not_false_eq_true, decide_true, need_true, Res.bind_ok, pageFault, Res.bind_error]

/-- The page fault of a handle is that of its page (R396). -/
theorem handleFaults_of_finish {i : Instr} {s : State} {hd : BitVec 4} {rq : BitVec 3}
    (h : exec i s = finish s (pageFault (BitVec.ofNat 64 ((s.me.handle hd).vb.toNat * 4096)) 0 rq hd.toNat)) :
    HandleFaults i s hd rq.toNat := by
  have hslot : (0 : BitVec 3) ≠ 7 := by decide
  rw [pageFault, finish_trap _ _ hslot] at h
  refine ⟨_, h, ?_⟩
  simp only [faultAux, Nat.zero_mul, Nat.zero_add]
  rfl

section
variable {rq : BitVec 3} {right : Handle → Bool} (hr : Asks rq right) {i : Instr} {s : State} {hd : BitVec 4}
include hr

theorem State.hOpen_failed (h : 2 ≤ (s.me.handle hd).hs.toNat) (off : Nat) :
    s.hOpen hd off rq = pageFault (BitVec.ofNat 64 ((s.me.handle hd).vb.toNat * 4096)) 0 rq hd.toNat := by
  have hempty : (s.me.handle hd).hs ≠ 0 := fun he => by rw [he] at h; exact absurd h (by decide)
  have hvalid : (s.me.handle hd).hs ≠ 1 := fun he => by rw [he] at h; exact absurd h (by decide)
  rw [s.hOpen_eq hr, openTrap, if_neg hempty, if_pos hvalid]
  exact if_pos hvalid

theorem State.hOpen_valid (hvalid : (s.me.handle hd).hs = 1) {off : Nat} (h : openTrap (s.me.handle hd) hd off right = none) :
    s.hOpen hd off rq = .ok (s.me.handle hd) := by
  rw [s.hOpen_eq hr, h]
  exact if_neg (not_not.mpr hvalid)

theorem State.hOpen_trap {off : Nat} {c : BitVec 16} {v : Word} (h : openTrap (s.me.handle hd) hd off right = some (c, v)) :
    s.hOpen hd off rq = trapE c v := by
  rw [s.hOpen_eq hr, h]

/-! One place (R103). -/

omit hr in
theorem handleTrap_eq (s : State) (hd : BitVec 4) (off n : Nat) (right : Handle → Bool) : handleTrap s hd off n right =
    match openTrap (s.me.handle hd) hd off right with
    | some x => some x
    | none =>
      if (s.me.handle hd).hs ≠ 1 then none
      else if 2 ^ pageBits (s.me.handle hd).ps.toNat < off + n then some (0x0007, BitVec.ofNat 64 off)
      else if off % n ≠ 0 then some (0x0006, BitVec.ofNat 64 off) else none := by
  unfold handleTrap openTrap
  dsimp only
  split_ifs <;> rfl

/-- The first check that fails is the one that traps. -/
theorem State.hPlace_trap {off n : Nat} {c : BitVec 16} {v : Word} (h : handleTrap s hd off n right = some (c, v)) :
    s.hPlace hd off n n rq = trapE c v := by
  rw [State.hPlace]
  rw [handleTrap_eq] at h
  cases hopen : openTrap (s.me.handle hd) hd off right with
  | some x =>
    rw [hopen] at h
    cases h
    rw [State.hOpen_trap hr hopen]
    rfl
  | none =>
    rw [hopen] at h
    dsimp only at h
    split at h
    next => cases h
    next hvalid =>
      rw [State.hOpen_valid hr (not_not.mp hvalid) hopen, Res.bind_ok]
      split at h
      next hbounds =>
        cases h
        rw [decide_eq_false (Nat.not_le.mpr hbounds)]
        rfl
      next hbounds =>
        rw [decide_eq_true (Nat.not_lt.mp hbounds), need_true, Res.bind_ok]
        split at h
        next halign =>
          cases h
          rw [decide_eq_false halign]
          rfl
        next => cases h

theorem traps_of_handleTrap {off n : Nat} {go : Place → Res State} (hexec : exec i s = finish s (s.hPlace hd off n n rq >>= go)) :
    (∀ c v, handleTrap s hd off n right = some (c, v) → Traps i s c v) ∧
    (2 ≤ (s.me.handle hd).hs.toNat → HandleFaults i s hd rq.toNat) := by
  refine ⟨fun c v h => ?_, fun h => ?_⟩
  · rw [State.hPlace_trap hr h] at hexec
    exact traps_of_finish hexec
  · rw [State.hPlace, State.hOpen_failed hr h] at hexec
    exact handleFaults_of_finish hexec

/-! A place for each active lane (R230). -/

omit hr in
theorem lanesTrap_eq (s : State) (ix : Option LineRef) (hd : BitVec 4) (base : Nat) (right : Handle → Bool) :
    lanesTrap s ix hd base right =
      let offs := (laneWords s.me ix).map (fun p => (p.1, base + 4 * p.2))
      match openTrap (s.me.handle hd) hd (offs.headD (0, base)).2 right with
      | some x => some x
      | none =>
        if (s.me.handle hd).hs ≠ 1 then none
        else match offs.find? (fun p => 2 ^ pageBits (s.me.handle hd).ps.toNat < p.2 + 4) with
          | some p => some (0x0007, BitVec.ofNat 64 p.2)
          | none => (offs.find? (fun p => p.2 % 4 ≠ 0)).map (fun p => (0x0006, BitVec.ofNat 64 p.2)) := by
  have hoffs : ((List.range 32).filterMap (laneWord s.me ix)).map (fun n => base + 4 * n) =
      ((laneWords s.me ix).map (fun p => (p.1, base + 4 * p.2))).map Prod.snd := by
    rw [laneWords_words, List.map_map, List.map_map]
    rfl
  unfold lanesTrap openTrap
  dsimp only
  rw [hoffs]
  generalize (laneWords s.me ix).map (fun p => (p.1, base + 4 * p.2)) = offs
  have hhead : (offs.map Prod.snd).headD base = (offs.headD (0, base)).2 := by cases offs <;> rfl
  have hfind (p : Nat → Bool) : (offs.map Prod.snd).find? p = (offs.find? (fun x => p x.2)).map Prod.snd := by
    rw [List.find?_map]
    rfl
  simp only [hhead, hfind, Option.map_map]
  split_ifs
  · rfl
  · rfl
  · rfl
  · rfl
  · rfl
  · cases offs.find? (fun p => decide (2 ^ pageBits (s.me.handle hd).ps.toNat < p.2 + 4)) <;> rfl

/-- The first check that fails for an active lane is the one that traps. -/
theorem State.ghPlaces_trap {ix : Option LineRef} {base : Nat} {c : BitVec 16} {v : Word}
    (h : lanesTrap s ix hd base right = some (c, v)) : s.ghPlaces hd base (laneWords s.me ix) rq = trapE c v := by
  rw [lanesTrap_eq] at h
  rw [State.ghPlaces]
  revert h
  dsimp only
  generalize (laneWords s.me ix).map (fun p => (p.1, base + 4 * p.2)) = offs
  intro h
  cases hopen : openTrap (s.me.handle hd) hd (offs.headD (0, base)).2 right with
  | some x =>
    rw [hopen] at h
    cases h
    rw [State.hOpen_trap hr hopen]
    rfl
  | none =>
    rw [hopen] at h
    dsimp only at h
    split at h
    next => cases h
    next hvalid =>
      rw [State.hOpen_valid hr (not_not.mp hvalid) hopen, Res.bind_ok]
      revert h
      cases offs.find? (fun p => decide (2 ^ pageBits (s.me.handle hd).ps.toNat < p.2 + 4)) with
      | some p =>
        intro h
        cases h
        rfl
      | none =>
        cases offs.find? (fun p => decide (p.2 % 4 ≠ 0)) with
        | some p =>
          intro h
          cases h
          rfl
        | none => nofun

theorem traps_of_lanesTrap {ix : Option LineRef} {base : Nat} {go : List (Nat × Place) → Res State}
    (hexec : exec i s = finish s (s.ghPlaces hd base (laneWords s.me ix) rq >>= go)) :
    (∀ c v, lanesTrap s ix hd base right = some (c, v) → Traps i s c v) ∧
    (2 ≤ (s.me.handle hd).hs.toNat → HandleFaults i s hd rq.toNat) := by
  refine ⟨fun c v h => ?_, fun h => ?_⟩
  · rw [State.ghPlaces_trap hr h] at hexec
    exact traps_of_finish hexec
  · rw [State.ghPlaces, State.hOpen_failed hr h] at hexec
    exact handleFaults_of_finish hexec

end

/-! The instructions (R190, R191, R194, R230). -/

theorem exec_of_loadRule {i : Instr} {o : FmtLH} {sg : Bool} {n : Nat} (h : loadRule i = some (o, sg, n)) (s : State) :
    exec i s = loadH sg n o s := by
  unfold loadRule at h
  split at h <;> cases h <;> rfl

theorem exec_of_storeRule {i : Instr} {o : FmtLH} {n : Nat} (h : storeRule i = some (o, n)) (s : State) :
    exec i s = storeH n o s := by
  unfold storeRule at h
  split at h <;> cases h <;> rfl

/-- The new value of an atomic: the model's and the rule's (R195, R196). -/
theorem exec_of_atomicRule {i : Instr} {o : FmtLA} {f : Nat → Nat → Nat → Nat → Nat} (h : atomicRule i = some (o, f)) (s : State) :
    ∃ op, exec i s = atomic op o s := by
  unfold atomicRule at h
  split at h <;> cases h <;> exact ⟨_, rfl⟩

/-- The index line of a form through a handle. -/
def indexOfGH (ixd : Bool) (o : FmtGH) : Option LineRef := if ixd then some (lineOf o.pi o.xi) else none

/-- The planes of an access through a handle in its window. -/
theorem indexLine_of_lines {α : Type} {s : State} {d : LineRef} {ixd : Bool} {o : FmtGH} (h : GLines s.me d (indexOfGH ixd o))
    (go : List (Nat × Nat) → Res α) :
    (needPlane s.me d.pn >>= fun _ => s.indexLine ixd o.pi o.xi >>= fun l => go (activeLanes l)) = go (laneWords s.me (indexOfGH ixd o)) := by
  rw [needPlane_of_lt h.dest, Res.bind_ok, ← activeLanes_eq, State.indexLine]
  cases ixd with
  | false => rfl
  | true =>
    rw [if_pos rfl, needPlane_of_lt (h.index _ rfl)]
    rfl

/-- The access of a load or gather through a handle. -/
def ghRead (s : State) (hi : Bool) (o : FmtGH) (ps : List (Nat × Place)) : HeldAccess where
  work := .line (lineOf o.pl o.xl) (tagWidth o.ft) (ghPm hi o) o.ft
  spans := ghSpans ps
  page := (s.me.handle o.hd).page

/-- The access of a store or scatter through a handle. -/
def ghWrite (s : State) (hi : Bool) (o : FmtGH) (ps : List (Nat × Place)) : HeldAccess where
  work := .scatter (tagWidth (s.me.tagOf (lineOf o.pl o.xl).pn)) (ghPm hi o) (s.me.line (lineOf o.pl o.xl))
  spans := ghSpans ps
  page := (s.me.handle o.hd).page

theorem ghLoad_eq {s : State} {ixd : Bool} {o : FmtGH} (hi : Bool) (h : GLines s.me (lineOf o.pl o.xl) (indexOfGH ixd o)) :
    ghLoad ixd hi o s = finish s (s.ghPlaces o.hd (s.reg o.sa).toNat (laneWords s.me (indexOfGH ixd o)) 1 >>= fun ps =>
      needLd s.me >>= fun _ => s.accessIssue (ghRead s hi o ps)) := by
  rw [← indexLine_of_lines h fun act => s.ghPlaces o.hd (s.reg o.sa).toNat act 1 >>= fun ps =>
    needLd s.me >>= fun _ => s.accessIssue (ghRead s hi o ps)]
  rfl

theorem ghStore_eq {s : State} {ixd hi : Bool} {o : FmtGH} (h : GLines s.me (lineOf o.pl o.xl) (indexOfGH ixd o))
    (hpm : pmDstOk (tagWidth (s.me.tagOf (lineOf o.pl o.xl).pn)) (pmOf hi o) = true) :
    ghStore ixd hi o s = finish s (s.ghPlaces o.hd (s.reg o.sa).toNat (laneWords s.me (indexOfGH ixd o)) 2 >>= fun ps =>
      needSt s.me >>= fun _ => s.accessIssue (ghWrite s hi o ps)) := by
  have hstore : s.needStorePm (lineOf o.pl o.xl).pn (ghPm hi o) = .ok () := by rw [State.needStorePm, ← pmOf, hpm, need_true]
  rw [← indexLine_of_lines h fun act => s.ghPlaces o.hd (s.reg o.sa).toNat act 2 >>= fun ps =>
    needSt s.me >>= fun _ => s.accessIssue (ghWrite s hi o ps)]
  simp only [ghStore, hstore, Res.bind_ok]
  rfl

theorem exec_of_ghLoad {i : Instr} {o : FmtGH} {ix : Option LineRef} {hi : Bool}
    (h : (i = (if hi then .vldhPm4 o else .vldh o) ∧ ix = none) ∨ (i = (if hi then .vgathhPm4 o else .vgathh o) ∧ ix = some (lineOf o.pi o.xi)))
    (s : State) : ∃ ixd, exec i s = ghLoad ixd hi o s ∧ ix = indexOfGH ixd o := by
  obtain ⟨rfl, rfl⟩ | ⟨rfl, rfl⟩ := h
  · exact ⟨false, by cases hi <;> rfl, rfl⟩
  · exact ⟨true, by cases hi <;> rfl, rfl⟩

theorem exec_of_ghStore {i : Instr} {o : FmtGH} {ix : Option LineRef} {hi : Bool}
    (h : (i = (if hi then .vsthPm4 o else .vsth o) ∧ ix = none) ∨ (i = (if hi then .vscathPm4 o else .vscath o) ∧ ix = some (lineOf o.pi o.xi)))
    (s : State) : ∃ ixd, exec i s = ghStore ixd hi o s ∧ ix = indexOfGH ixd o := by
  obtain ⟨rfl, rfl⟩ | ⟨rfl, rfl⟩ := h
  · exact ⟨false, by cases hi <;> rfl, rfl⟩
  · exact ⟨true, by cases hi <;> rfl, rfl⟩

/-- Settles O8: checks 1 to 4 are one chain for all accesses; one place or all lanes follow it. -/
theorem handleTraps : Obligations.HandleTraps := by
  unfold Obligations.HandleTraps
  refine ⟨fun s i o n right rq hform => ?_, fun s i o f hf hsp => ?_, fun s i o ix hi right rq => ?_⟩
  · obtain ⟨⟨sg, hrule⟩, rfl, rfl⟩ | ⟨hrule, rfl, rfl⟩ := hform
    · exact traps_of_handleTrap asks_read (exec_of_loadRule hrule s)
    · exact traps_of_handleTrap asks_write (exec_of_storeRule hrule s)
  · obtain ⟨op, hexec⟩ := exec_of_atomicRule hf s
    have hne : ¬ o.sp = 1 := by rw [hsp]; decide
    rw [atomic, if_neg hne] at hexec
    exact traps_of_handleTrap asks_atomic hexec
  · dsimp only
    rintro (⟨hform, rfl, rfl⟩ | ⟨hform, rfl, rfl, hpm⟩) hlines
    · obtain ⟨ixd, hexec, rfl⟩ := exec_of_ghLoad hform s
      exact traps_of_lanesTrap asks_read (hexec.trans (ghLoad_eq hi hlines))
    · obtain ⟨ixd, hexec, rfl⟩ := exec_of_ghStore hform s
      exact traps_of_lanesTrap asks_write (hexec.trans (ghStore_eq hlines hpm))

end Sys2Proof.Machine
end

section
/-! O6, O7: loads and stores through handles (R103, R190, R191, R326, R414). -/

namespace Sys2Proof.Machine

open Sys2Proof.Claims

/-! What changes no byte and no strand (R93, R325, R414). -/

/-- Memory reads as before to everyone, and the strands are as they were. -/
structure Quiet (s t : State) : Prop where
  mem : MemSame s t
  strands : t.strands = s.strands
  cur : t.cur = s.cur

theorem Quiet.refl (s : State) : Quiet s s := ⟨⟨rfl, fun _ _ => rfl⟩, rfl, rfl⟩

theorem Quiet.trans {s t u : State} (h : Quiet s t) (h' : Quiet t u) : Quiet s u where
  mem := ⟨h'.mem.1.trans h.mem.1, fun c pa => (h'.mem.2 c pa).trans (h.mem.2 c pa)⟩
  strands := h'.strands.trans h.strands
  cur := h'.cur.trans h.cur

theorem Quiet.me {s t : State} (h : Quiet s t) : t.me = s.me := by rw [State.me, h.strands, h.cur, State.me]

theorem Quiet.cl {s t : State} (h : Quiet s t) : t.cl = s.cl := by rw [State.cl, h.me, State.cl]

theorem seen_of_memSame {s t : State} (h : MemSame s t) (c kind pa : Nat) : seen t c kind pa = seen s c kind pa := by
  rw [seen, seen, h.1, h.2]

theorem State.touch_quiet (s : State) (c kind pa n : Nat) : Quiet s (s.touch c kind pa n) := by
  obtain ⟨hmem, hstrands, hcur, hcache⟩ := s.touch_same c kind pa n
  exact ⟨⟨hmem, hcache⟩, hstrands, hcur⟩

theorem State.charge_quiet (s : State) (part : Nat) (ten : BitVec 4) (kind pa n : Nat) : Quiet s (s.charge part ten kind pa n) := by
  obtain ⟨hmem, hclusters, hstrands, hcur⟩ := s.charge_same part ten kind pa n
  exact ⟨memSame_of_eq hmem hclusters, hstrands, hcur⟩

theorem State.logAll_quiet (s : State) (part : Nat) (ten : BitVec 4) (l : List (Nat × Nat)) : Quiet s (s.logAll part ten l).1 := by
  obtain ⟨hmem, hclusters, hstrands, hcur⟩ := State.logAll_same part ten l s
  exact ⟨memSame_of_eq hmem hclusters, hstrands, hcur⟩

/-- A run of quiet steps is quiet. -/
theorem Quiet.foldl {α : Type} {f : State → α → State} (hf : ∀ s a, Quiet s (f s a)) (l : List α) (s : State) : Quiet s (l.foldl f s) :=
  foldl_keeps Quiet .refl (fun _ _ _ => .trans) f hf l s

/-! The issue of an access whose places have been checked (R72, R326, R414). -/

theorem HeldAccess.places_of_work {h : HeldAccess} (hwork : h.work ≠ .atomic) : h.places = h.spans := if_neg hwork

/-- A load of the issuing strand that is counted, and nothing else of it. -/
theorem onlyMe_pushLd {s x : State} (hx : x.strands = s.strands) (hcur : x.cur = s.cur) (d : Dest) (wo : Bool) (held : Option HeldAccess) :
    OnlyMe s (x.pushLd d wo held) { s.me with ldq := s.me.ldq ++ [{ dest := d, lanes := BitVec.allOnes 32, wo := wo, held := held }] } := by
  have hme : x.me = s.me := by rw [State.me, hx, hcur, State.me]
  refine ⟨?_, hcur, fun k hk => ?_⟩
  · rw [State.pushLd, State.onMe_me, hme]
  · rw [State.pushLd, x.onMe_other _ (hcur.symm ▸ hk), hx]

/-- A store of the issuing strand that is counted. -/
theorem onlyMe_pushSt {s x : State} (hx : x.strands = s.strands) (hcur : x.cur = s.cur) (held : Option HeldAccess) :
    OnlyMe s (x.pushSt held) { s.me with stq := s.me.stq ++ [{ held := held }] } := by
  have hme : x.me = s.me := by rw [State.me, hx, hcur, State.me]
  refine ⟨?_, hcur, fun k hk => ?_⟩
  · rw [State.pushSt, State.onMe_me, hme]
  · rw [State.pushSt, x.onMe_other _ (hcur.symm ▸ hk), hx]

section
variable {i : Instr} {s : State} {h : HeldAccess} {wo : Bool} (hexec : exec i s = finish s (s.accessIssue h wo))
  (hwork : h.work ≠ .atomic) (hclash : ∀ p ∈ h.spans, s.me.heldClash p.kind p.pa p.n = false)
include hexec hclash

omit hexec in
theorem spans_clash : (!h.spans.any (fun p => s.me.heldClash p.kind p.pa p.n)) = true := by
  simpa using hclash

include hwork in
/-- Where the tenant is at its cap the access is held. -/
theorem isHeld_of_capped (hcap : Capped s (h.spans.map (fun p => (p.kind, p.pa)))) :
    IsHeld i s (!h.writes) wo (h.spans.map (fun p => (p.kind, p.pa))) := by
  obtain ⟨res, hres⟩ := State.heldBy_of_capped hcap
  have hissue : s.accessIssue h wo = .ok (if h.writes then
      ({ s with nextId := s.nextId + 1 } : State).pushSt (some { h with res := res, num := s.nextId })
    else ({ s with nextId := s.nextId + 1 } : State).pushLd .none wo (some { h with res := res, num := s.nextId })) := by
    rw [State.accessIssue]
    simp only [spans_clash hclash, needReady_true, Res.bind_ok, hres]
    rfl
  rw [hissue, finish_ok] at hexec
  refine ⟨_, { h with res := res, num := s.nextId }, hexec, ?_, ?_, ?_, hwork, ?_⟩
  · split <;> exact memSame_of_eq rfl rfl
  · exact congrArg (List.map _) (HeldAccess.places_of_work (h := { h with res := res, num := s.nextId }) hwork)
  · exact (Bool.not_not _).symm
  · cases hwrites : h.writes with
    | true => exact onlyMe_pushSt rfl rfl _
    | false => exact onlyMe_pushLd rfl rfl _ _ _

section
variable (hserved : Served s (h.spans.map (fun p => (p.kind, p.pa))))
include hserved

omit hexec in
/-- Where the arbiters serve it, the access is performed once its pages are logged. -/
theorem State.accessIssue_served : s.accessIssue h wo =
    match s.logAll s.me.part (s.tenantOf s.me) h.pages with
    | (x, false) => .ok x.waiting
    | (x, true) => .ok (if h.writes then (x.accessDo x.cl s.me.part (s.tenantOf s.me) h).2.pushSt
        else (x.accessDo x.cl s.me.part (s.tenantOf s.me) h).2.pushLd (x.accessDo x.cl s.me.part (s.tenantOf s.me) h).1 wo) := by
  rw [State.accessIssue]
  simp only [spans_clash hclash, needReady_true, Res.bind_ok, State.heldBy_of_served hserved]
  rfl

/-- A store whose pages the log cannot take waits. -/
theorem waits_of_log_full (hlog : (s.logAll s.me.part (s.tenantOf s.me) h.pages).2 = false) :
    ∃ t, exec i s = .next t ∧ t.issue.status = .wait ∧ MemSame s t ∧ t.strands = s.strands := by
  have hquiet := s.logAll_quiet s.me.part (s.tenantOf s.me) h.pages
  rw [State.accessIssue_served hclash hserved] at hexec
  revert hexec hlog hquiet
  generalize s.logAll s.me.part (s.tenantOf s.me) h.pages = x
  obtain ⟨x, b⟩ := x
  rintro hexec (rfl : b = false) hquiet
  exact ⟨_, hexec, rfl, hquiet.mem, hquiet.strands⟩

/-- A load is performed at once. -/
theorem exec_of_served_load (hwrites : h.writes = false) :
    exec i s = .next ((s.accessDo s.cl s.me.part (s.tenantOf s.me) h).2.pushLd (s.accessDo s.cl s.me.part (s.tenantOf s.me) h).1 wo) := by
  have hpages : h.pages = [] := by rw [HeldAccess.pages, hwrites]; rfl
  rw [hexec, State.accessIssue_served hclash hserved, hpages]
  show finish s (.ok (if h.writes = true then _ else _)) = _
  rw [hwrites]
  rfl

/-- A store is performed where the log has taken its pages. -/
theorem exec_of_served_store (hwrites : h.writes = true) (hlog : (s.logAll s.me.part (s.tenantOf s.me) h.pages).2 = true) :
    ∃ x, Quiet s x ∧ exec i s = .next (x.accessDo s.cl s.me.part (s.tenantOf s.me) h).2.pushSt := by
  have hquiet := s.logAll_quiet s.me.part (s.tenantOf s.me) h.pages
  rw [State.accessIssue_served hclash hserved] at hexec
  revert hexec hlog hquiet
  generalize s.logAll s.me.part (s.tenantOf s.me) h.pages = x
  obtain ⟨x, b⟩ := x
  rintro hexec (rfl : b = true) hquiet
  refine ⟨x, hquiet, hexec.trans ?_⟩
  dsimp only
  rw [hwrites, if_pos rfl, hquiet.cl, finish_ok]

end

end

/-! The bytes of a run (R91 to R93, R190). -/

/-- An aligned run lies wholly inside the reach table or outside it. -/
theorem reach_apart {pa n : Nat} (halign : pa % n = 0) (hn : n ∣ 8) : reachBase ≤ pa ∨ pa + n ≤ reachBase := by
  obtain ⟨a, rfl⟩ := Nat.dvd_of_mod_eq_zero halign
  obtain ⟨b, hb⟩ := hn.trans (by decide : 8 ∣ reachBase)
  rw [hb]
  rcases Nat.lt_or_ge a b with h | h
  · exact .inr (by rw [← Nat.mul_succ]; exact Nat.mul_le_mul_left n h)
  · exact .inl (Nat.mul_le_mul_left n h)

/-- The bytes of such a run are those that its cluster sees. -/
theorem viewBytes_eq_seen (s : State) (c : Nat) {kind pa n : Nat} (hreach : reachBase ≤ pa ∨ pa + n ≤ reachBase) :
    s.viewBytes c kind pa n = (List.range n).map (fun j => seen s c kind (pa + j)) := by
  unfold State.viewBytes State.readMem
  by_cases hhbm : kind = 0
  · simp only [hhbm, if_true, seen]
  rw [if_neg hhbm]
  refine List.ext_getElem? fun j => ?_
  by_cases hj : j < n
  · have hbytes (f : Nat → Byte) : ((List.range n).map f)[j]? = some (f j) := by
      rw [List.getElem?_map, List.getElem?_range hj, Option.map_some]
    rw [hbytes, seen, if_neg hhbm]
    by_cases htable : kind = 1 ∧ reachBase ≤ pa
    · have hin : kind = 1 ∧ reachBase ≤ pa + j := ⟨htable.1, Nat.le_add_right_of_le htable.2⟩
      rw [if_pos (by simpa using htable), if_pos hin, hbytes, Nat.sub_add_comm htable.2]
    · have hout : ¬(kind = 1 ∧ reachBase ≤ pa + j) := by
        rintro ⟨hk, hle⟩
        exact htable ⟨hk, hreach.resolve_right (by omega)⟩
      rw [if_neg (by simpa using htable), if_neg hout, cread_getElem? _ _ _ _ hj, memKey, memKey, Nat.add_assoc]
  · rw [List.getElem?_eq_none (by split <;> simpa using hj), List.getElem?_eq_none (by simpa using hj)]

/-- Sign and zero extension (R190). -/
theorem extend_eq_extended (sg : Bool) {n : Nat} (l : List Byte) (hl : l.length = n) : extend sg n (leNat l) = extended sg n l := by
  have hlt : leNat l < 2 ^ (8 * n) := by
    rw [Nat.pow_mul, ← hl]
    exact leNat_lt l
  cases sg with
  | false =>
    rw [extend, extended, intVal, Nat.mod_eq_of_lt hlt]
    exact BitVec.ofInt_natCast 64 (leNat l)
  | true =>
    rw [extend, extended, if_pos rfl, BitVec.signExtend, intVal, BitVec.toInt_eq_toNat_cond, BitVec.toNat_ofNat, Nat.mod_eq_of_lt hlt]
    congr 1
    cases n with
    | zero => 
      obtain rfl := List.eq_nil_of_length_eq_zero hl
      rfl
    | succ n =>
      have hpow : 2 ^ (8 * (n + 1)) = 2 * 2 ^ (8 * (n + 1) - 1) := by rw [← Nat.pow_succ']; rfl
      simp only [Bool.true_and, decide_eq_true_eq]
      split <;> split <;> omega

/-! A store as the clusters see it (R91, R93). -/

/-- Bytes below 2^52 of different kinds have different keys. -/
theorem memKey_inj {k k' a a' : Nat} (ha : a < 2 ^ 52) (ha' : a' < 2 ^ 52) : memKey k a = memKey k' a' ↔ k = k' ∧ a = a' := by
  unfold memKey
  omega

theorem writeMem_memKey (s : State) {kind pa : Nat} {l : List Byte} (hfit : pa + l.length ≤ 2 ^ 52) (k : Nat) {x : Nat} (hx : x < 2 ^ 52) :
    cget (s.writeMem kind pa l).mem (memKey k x) =
      if k = kind ∧ pa ≤ x ∧ x < pa + l.length then l.getD (x - pa) 0 else cget s.mem (memKey k x) := by
  rw [State.writeMem_byte]
  by_cases hin : k = kind ∧ pa ≤ x ∧ x < pa + l.length
  · obtain ⟨rfl, hle, hlt⟩ := hin
    have hrange : memKey k pa ≤ memKey k x ∧ memKey k x < memKey k pa + l.length := by
      unfold memKey
      omega
    rw [if_pos hrange, if_pos ⟨rfl, hle, hlt⟩, memKey, memKey, Nat.add_sub_add_left]
  · have hrange : ¬(memKey kind pa ≤ memKey k x ∧ memKey k x < memKey kind pa + l.length) := by
      unfold memKey
      omega
    rw [if_neg hrange, if_neg hin]

theorem reachBase_lt : reachBase < 2 ^ 52 := by decide

theorem seen_storeVia (s : State) (c : Nat) {kind pa : Nat} {l : List Byte} (hkind : kind < 2) (hw : Writable kind pa l.length)
    (c' k : Nat) {x : Nat} (hx : x < 2 ^ 52) : seen (s.storeVia c kind pa l) c' k x =
      if k = kind ∧ (kind = 0 → c' = c) ∧ pa ≤ x ∧ x < pa + l.length then l.getD (x - pa) 0 else seen s c' k x := by
  unfold State.storeVia
  by_cases hhbm : kind = 0
  · subst hhbm
    rw [if_pos rfl, seen, seen, State.cachePut_cacheByte, (State.cachePut_same c l s pa).1]
    by_cases hk : k = 0
    · simp [hk]
    · simp only [hk, false_and, if_false]
  · obtain rfl : kind = 1 := by omega
    have hfit : pa + l.length ≤ 2 ^ 52 := (hw rfl).trans reachBase_lt.le
    have hcache : (s.writeMem 1 pa l).cacheByte c' x = s.cacheByte c' x := by
      have hhome := writeMem_memKey s (kind := 1) hfit 0 hx
      rw [if_neg (fun h => absurd h.1 (by decide))] at hhome
      simp only [memKey, Nat.zero_mul, Nat.zero_add] at hhome
      unfold State.cacheByte
      rw [hhome]
      rfl
    rw [if_neg (by decide), seen, seen, hcache, writeMem_memKey s hfit k hx]
    by_cases hk : k = 1
    · subst hk
      have htable : reachBase ≤ x → ¬(pa ≤ x ∧ x < pa + l.length) := by
        have := hw rfl
        omega
      by_cases hr : reachBase ≤ x
      · simp only [hr, htable hr, and_false, if_true, if_false, Nat.one_ne_zero, true_and]
      · simp only [hr, false_implies, true_and, if_false, Nat.one_ne_zero]
    · simp only [hk, false_and, if_false]

/-! Scalar loads and stores (R190, R191). -/

theorem hPlace_of_ready {s : State} {hd : BitVec 4} {off n : Nat} {right : Handle → Bool} {rq : BitVec 3} (hr : Asks rq right)
    (h : HandleReady s hd off n right) : s.hPlace hd off n n rq = .ok ((s.me.handle hd).place off) :=
  (s.hPlace_ok hd off n n rq _).mpr ⟨h.valid, h.kind, (hr _).trans h.granted, h.bounds, h.aligned, h.backed, rfl⟩

theorem pageOffset_dvd {n : Nat} (hn : n ∣ 8) (pb off : Nat) (h : off % n = 0) : (pb * 4096 + off) % n = 0 :=
  Nat.mod_eq_zero_of_dvd (Nat.dvd_add (Dvd.dvd.mul_left (hn.trans (by decide)) pb) (Nat.dvd_of_mod_eq_zero h))

/-- The bytes at the place of a handle access are those its cluster sees. -/
theorem viewBytes_of_ready {s : State} {hd : BitVec 4} {off n : Nat} {right : Handle → Bool} (h : HandleReady s hd off n right)
    (hn : n ∣ 8) (t : State) (c kind : Nat) :
    t.viewBytes c kind (physOf s hd off) n = (List.range n).map (fun j => seen t c kind (physOf s hd off + j)) :=
  viewBytes_eq_seen t c (reach_apart (pageOffset_dvd hn _ _ h.aligned) hn)

/-- A place that exists lies below 2^52 (R14). -/
theorem lt_of_paExists {kind pa n j : Nat} (h : paExists kind pa n = true) (hj : j < n) : pa + j < 2 ^ 52 := by
  have hbytes : kindBytes kind ≤ 2 ^ 42 := by
    unfold kindBytes
    split <;> decide
  have hfit : pa + n ≤ kindBytes kind := of_decide_eq_true h
  omega

/-- The one span of a scalar access. -/
def scalarSpan (s : State) (hd : BitVec 4) (off n : Nat) : HeldSpan :=
  { kind := (s.me.handle hd).kd.toNat, pa := physOf s hd off, va := (s.me.handle hd).vb.toNat * 4096 + off, n := n }

theorem clash_of_ready {s : State} {hd : BitVec 4} {off n : Nat} {right : Handle → Bool} (h : HandleReady s hd off n right) :
    ∀ p ∈ [scalarSpan s hd off n], s.me.heldClash p.kind p.pa p.n = false := by
  simpa [scalarSpan, physOf] using h.free

/-- The access of a scalar load through a handle. -/
def loadAccess (s : State) (sg : Bool) (n : Nat) (o : FmtLH) : HeldAccess where
  work := .load o.sd sg
  spans := [scalarSpan s o.hd (offsetOf s o) n]
  page := (s.me.handle o.hd).page

/-- The access of a scalar store through a handle. -/
def storeAccess (s : State) (n : Nat) (o : FmtLH) : HeldAccess where
  work := .store (s.reg o.sd)
  spans := [scalarSpan s o.hd (offsetOf s o) n]
  page := (s.me.handle o.hd).page

theorem loadH_ready {s : State} {sg : Bool} {n : Nat} {o : FmtLH} (h : HandleReady s o.hd (offsetOf s o) n Handle.pr)
    (hld : s.me.ldq.length < 63) : loadH sg n o s = finish s (s.accessIssue (loadAccess s sg n o)) := by
  rw [loadH, ← offsetOf, hPlace_of_ready asks_read h, Res.bind_ok, needLd, decide_eq_true hld]
  rfl

theorem storeH_ready {s : State} {n : Nat} {o : FmtLH} (h : HandleReady s o.hd (offsetOf s o) n Handle.pw)
    (hst : s.me.stq.length < 63) : storeH n o s = finish s (s.accessIssue (storeAccess s n o)) := by
  rw [storeH, ← offsetOf, hPlace_of_ready asks_write h, Res.bind_ok, needSt, decide_eq_true hst]
  rfl

theorem loadRule_size {i : Instr} {o : FmtLH} {sg : Bool} {n : Nat} (h : loadRule i = some (o, sg, n)) : n ∣ 8 := by
  unfold loadRule at h
  split at h <;> cases h <;> decide

theorem storeRule_size {i : Instr} {o : FmtLH} {n : Nat} (h : storeRule i = some (o, n)) : n ∣ 8 := by
  unfold storeRule at h
  split at h <;> cases h <;> decide

/-- A load through a handle delivers its bytes extended, and changes nothing but the tallies of its bytes. -/
theorem accessDo_load {s : State} {sg : Bool} {n : Nat} {o : FmtLH} {right : Handle → Bool} (h : HandleReady s o.hd (offsetOf s o) n right)
    (hn : n ∣ 8) (part : Nat) (ten : BitVec 4) :
    (s.accessDo s.cl part ten (loadAccess s sg n o)).1 = .scalar o.sd (extended sg n ((List.range n).map (fun j =>
      seen s s.cl (s.me.handle o.hd).kd.toNat (physOf s o.hd (offsetOf s o) + j)))) ∧
    Quiet s (s.accessDo s.cl part ten (loadAccess s sg n o)).2 := by
  constructor
  · rw [← viewBytes_of_ready h hn s s.cl, ← extend_eq_extended sg _ (by simp [viewBytes_of_ready h hn s s.cl])]
    rfl
  · exact (s.touch_quiet _ _ _ _).trans (State.charge_quiet _ _ _ _ _ _)

/-- A store through a handle stores its bytes, and changes nothing else but the tallies of its bytes. -/
theorem accessDo_store (s x : State) (n : Nat) (o : FmtLH) (c part : Nat) (ten : BitVec 4) :
    Quiet (x.storeVia c (s.me.handle o.hd).kd.toNat (physOf s o.hd (offsetOf s o)) (leBytes n (s.reg o.sd).toNat))
      (x.accessDo c part ten (storeAccess s n o)).2 :=
  State.charge_quiet _ _ _ _ _ _

theorem State.storeVia_same (s : State) (c kind pa : Nat) (l : List Byte) :
    (s.storeVia c kind pa l).strands = s.strands ∧ (s.storeVia c kind pa l).cur = s.cur := by
  unfold State.storeVia
  split
  · exact (State.cachePut_same c l s pa).2
  · exact ⟨rfl, rfl⟩

/-- Settles O6: an access that its arbiters serve delivers what its cluster sees, one at a cap is held. -/
theorem handleLoads : Obligations.HandleLoads := by
  unfold Obligations.HandleLoads
  intro s i o sg n hrule hready hld
  have hexec := (exec_of_loadRule hrule s).trans (loadH_ready hready hld)
  refine ⟨isHeld_of_capped hexec nofun (clash_of_ready hready), fun hserved => ?_⟩
  have hdone := exec_of_served_load hexec (clash_of_ready hready) hserved rfl
  obtain ⟨hvalue, hquiet⟩ := accessDo_load (sg := sg) hready (loadRule_size hrule) s.me.part (s.tenantOf s.me)
  rw [hvalue] at hdone
  exact ⟨_, hdone, hquiet.mem, onlyMe_pushLd hquiet.strands hquiet.cur _ _ _⟩

/-- Settles O7: an access whose pages are logged stores its bytes in what its cluster sees, one at a cap is held. -/
theorem handleStores : Obligations.HandleStores := by
  unfold Obligations.HandleStores
  intro s i o n hrule hready hst hw logged place
  have hexec := (exec_of_storeRule hrule s).trans (storeH_ready hready hst)
  have hpages : (storeAccess s n o).pages = pagesOf (s.me.handle o.hd).kd.toNat ((s.me.handle o.hd).vb.toNat * 4096 + offsetOf s o) n :=
    List.append_nil _
  refine ⟨isHeld_of_capped hexec nofun (clash_of_ready hready), fun hserved hfull => ?_, fun hserved hroom => ?_⟩
  · exact waits_of_log_full hexec (clash_of_ready hready) hserved (hpages ▸ hfull)
  · obtain ⟨x, hx, hdone⟩ := exec_of_served_store hexec (clash_of_ready hready) hserved rfl (hpages ▸ hroom)
    obtain ⟨hstrands, hcur⟩ := x.storeVia_same s.cl (s.me.handle o.hd).kd.toNat (physOf s o.hd (offsetOf s o)) (leBytes n (s.reg o.sd).toNat)
    have hcharged := accessDo_store s x n o s.cl s.me.part (s.tenantOf s.me)
    have hlen : (leBytes n (s.reg o.sd).toNat).length = n := leBytes_length _ _
    have hseen (c k pa : Nat) (hpa : pa < 2 ^ 52) := (seen_of_memSame hcharged.mem c k pa).trans
      (seen_storeVia x s.cl hready.kind (hlen.symm ▸ hw) c k hpa)
    simp only [hlen, seen_of_memSame hx.mem] at hseen
    refine ⟨_, hdone, onlyMe_pushSt (hcharged.strands.trans (hstrands.trans hx.strands)) (hcharged.cur.trans (hcur.trans hx.cur)) _,
      fun j hj => ?_, fun k pa hpa hout => ?_, fun c pa hc hpa => ?_⟩
    · have hpa : physOf s o.hd (offsetOf s o) + j < 2 ^ 52 := lt_of_paExists hready.backed hj
      refine (hseen _ _ _ hpa).trans ?_
      rw [if_pos ⟨rfl, fun _ => rfl, Nat.le_add_right _ j, Nat.add_lt_add_left hj _⟩, Nat.add_sub_cancel_left, leBytes_toNat_getD _ _ _ hj]
    · refine (hseen _ _ _ hpa).trans (if_neg ?_)
      rintro ⟨hk, -, hin⟩
      exact hout ⟨hk, hin⟩
    · refine (hseen _ _ _ hpa).trans (if_neg ?_)
      rintro ⟨hk, hown, -⟩
      exact hc (hown hk.symm)

end Sys2Proof.Machine
end

section
/-! O24: vector access through handles (R103, R224 to R226, R230, R326, R414). -/

namespace Sys2Proof.Machine

open Sys2Proof.Claims

/-! The places of the active lanes (R225, R230). -/

theorem foldE_ok {α ε : Type} {f : Unit → α → Except ε Unit} : ∀ {l : List α}, (∀ x ∈ l, f () x = .ok ()) → foldE f l () = .ok ()
  | [], _ => rfl
  | x :: l, h => by
    rw [foldE, h x List.mem_cons_self]
    exact foldE_ok fun y hy => h y (List.mem_cons_of_mem _ hy)

/-- The span of an active lane of an access through a handle. -/
def laneSpan (s : State) (hd : BitVec 4) (base : Nat) (p : Nat × Nat) : HeldSpan :=
  { scalarSpan s hd (base + 4 * p.2) 4 with lane := p.1 }

/-- The spans of an access through a handle. -/
def laneSpans (s : State) (ix : Option LineRef) (hd : BitVec 4) (base : Nat) : List HeldSpan :=
  (laneWords s.me ix).map (laneSpan s hd base)

theorem laneSpans_places (s : State) (ix : Option LineRef) (hd : BitVec 4) (base : Nat) :
    (laneSpans s ix hd base).map (fun p => (p.kind, p.pa)) = lanePlaces s ix hd base := by
  rw [lanePlaces, laneWords_words, laneSpans, List.map_map, List.map_map]
  rfl

section
variable {s : State} {d : LineRef} {ix : Option LineRef} {hd : BitVec 4} {base : Nat} {right : Handle → Bool}
  (h : GHReady s d ix hd base right)
include h

theorem lane_ready {p : Nat × Nat} (hp : p ∈ laneWords s.me ix) : HandleReady s hd (base + 4 * p.2) 4 right :=
  h.lanes p.1 p.2 (mem_laneWords.mp hp).1 (mem_laneWords.mp hp).2

theorem laneSpans_clash : ∀ p ∈ laneSpans s ix hd base, s.me.heldClash p.kind p.pa p.n = false := by
  intro q hq
  obtain ⟨p, hp, rfl⟩ := List.mem_map.mp hq
  exact (lane_ready h hp).free

/-- An access that is ready passes every check. -/
theorem ghPlaces_of_ready {rq : BitVec 3} (hr : Asks rq right) :
    ∃ ps, s.ghPlaces hd base (laneWords s.me ix) rq = .ok ps ∧ ghSpans ps = laneSpans s ix hd base := by
  refine ⟨((laneWords s.me ix).map (fun p => (p.1, base + 4 * p.2))).map (fun p => (p.1, (s.me.handle hd).place p.2)), ?_, ?_⟩
  · have hopen (off : Nat) : openTrap (s.me.handle hd) hd off right = none := by
      have hempty : (s.me.handle hd).hs ≠ 0 := by rw [h.valid]; decide
      rw [openTrap, if_neg hempty, if_neg (not_not.mpr h.valid), if_neg (Nat.not_le.mpr h.kind), h.granted]
      rfl
    have hlane : ∀ q ∈ (laneWords s.me ix).map (fun p => (p.1, base + 4 * p.2)), HandleReady s hd q.2 4 right := by
      intro q hq
      obtain ⟨p, hp, rfl⟩ := List.mem_map.mp hq
      exact lane_ready h hp
    rw [State.ghPlaces]
    dsimp only
    revert hlane
    generalize (laneWords s.me ix).map (fun p => (p.1, base + 4 * p.2)) = offs
    intro hlane
    have hbounds : offs.find? (fun p => decide (2 ^ pageBits (s.me.handle hd).ps.toNat < p.2 + 4)) = none :=
      List.find?_eq_none.mpr fun q hq => by simpa using (hlane q hq).bounds
    have halign : offs.find? (fun p => decide (p.2 % 4 ≠ 0)) = none :=
      List.find?_eq_none.mpr fun q hq => by simpa using (hlane q hq).aligned
    have hbacked : foldE (fun (_ : Unit) (p : Nat × Nat) =>
        needPa (s.me.handle hd).kd.toNat ((s.me.handle hd).pb.toNat * 4096 + p.2) 4) offs () = .ok () :=
      foldE_ok fun q hq => needPa_ok.mpr (hlane q hq).backed
    rw [State.hOpen_valid hr h.valid (hopen _), Res.bind_ok, hbounds, halign, hbacked]
    rfl
  · rw [laneSpans, ghSpans, List.map_map, List.map_map]
    rfl

end

/-! Loads (R224, R225). -/

/-- The line of a load is that of the words its cluster sees. -/
theorem loadItems_spans (s : State) (ix : Option LineRef) (hd : BitVec 4) (base w : Nat) (pm : BitVec 3) (word : Nat → Elem)
    (view : HeldSpan → Elem) (hview : ∀ p, view (laneSpan s hd base p) = word p.2) :
    loadItems w pm ((laneSpans s ix hd base).map (fun p => (p.lane, p.lane)))
      (fun k => match (laneSpans s ix hd base).find? (fun p => p.lane = k) with
        | some p => view p
        | none => 0) = loadItems w pm (laneWords s.me ix) word := by
  refine List.map_congr_left fun k hk => ?_
  have hspan : (laneSpans s ix hd base).find? (fun p => p.lane = k) =
      (laneWord s.me ix k).map (fun n => laneSpan s hd base (k, n)) := by
    rw [laneSpans, List.find?_map]
    show ((laneWords s.me ix).find? (fun p => p.1 = k)).map _ = _
    rw [laneWords_find s.me ix (List.mem_range.mp hk), Option.map_map]
    rfl
  have hlane : ((laneSpans s ix hd base).map (fun p => (p.lane, p.lane))).find? (fun p => p.1 = k) =
      (laneWord s.me ix k).map (fun _ => (k, k)) := by
    rw [List.find?_map]
    show ((laneSpans s ix hd base).find? (fun p => p.lane = k)).map _ = _
    rw [hspan, Option.map_map]
    rfl
  rw [hlane, laneWords_find s.me ix (List.mem_range.mp hk)]
  cases hword : laneWord s.me ix k with
  | none => rfl
  | some n =>
    rw [hword] at hspan
    simp only [Option.map_some, hspan, hview]

/-- A load through a handle delivers the items of its lanes, and changes nothing but the tallies of its bytes. -/
theorem accessDo_line {s : State} {ix : Option LineRef} {hd : BitVec 4} {base : Nat} {l : LineRef} {w : Nat} {pm : BitVec 3}
    {ft : BitVec 4} {a : HeldAccess}
    (hwork : a.work = .line l w pm ft) (hspans : a.spans = laneSpans s ix hd base) (part : Nat) (ten : BitVec 4) :
    (s.accessDo s.cl part ten a).1 = lineDest l w pm ft (loadItems w pm (laneWords s.me ix) (fun n =>
      BitVec.ofNat 32 (leNat (s.viewBytes s.cl (s.me.handle hd).kd.toNat (physOf s hd (base + 4 * n)) 4)))) ∧
    Quiet s (s.accessDo s.cl part ten a).2 := by
  unfold State.accessDo
  rw [hwork, hspans]
  constructor
  · refine congrArg (lineDest l w pm ft) ?_
    exact loadItems_spans s ix hd base w pm _ (fun p => BitVec.ofNat 32 (leNat (s.viewBytes s.cl p.kind p.pa p.n))) fun p => rfl
  · exact (Quiet.foldl (fun x p => x.touch_quiet _ _ _ _) _ s).trans (.foldl (fun x p => x.charge_quiet _ _ _ _ _) _ _)

theorem handleVectorReads : HandleVectorReads := by
  intro s i o ix hi hform w pm d base places hready hpm hld
  obtain ⟨ixd, hexec, rfl⟩ := exec_of_ghLoad hform s
  obtain ⟨ps, hps, hspans⟩ := ghPlaces_of_ready hready asks_read
  rw [ghLoad_eq hi hready.lines, hps, Res.bind_ok, needLd, decide_eq_true hld, needReady_true, Res.bind_ok] at hexec
  have hplaces : (ghRead s hi o ps).spans.map (fun p => (p.kind, p.pa)) = places :=
    (congrArg (List.map _) hspans).trans (laneSpans_places s _ o.hd base)
  have hclash : ∀ p ∈ (ghRead s hi o ps).spans, s.me.heldClash p.kind p.pa p.n = false :=
    fun p hp => laneSpans_clash hready p (hspans ▸ hp)
  refine ⟨fun hcap => ?_, fun hserved => ?_⟩
  · rw [← hplaces] at hcap ⊢
    exact isHeld_of_capped hexec nofun hclash hcap
  · rw [← hplaces] at hserved
    have hdone := exec_of_served_load hexec hclash hserved rfl
    obtain ⟨hvalue, hquiet⟩ := accessDo_line (a := ghRead s hi o ps) rfl hspans s.me.part (s.tenantOf s.me)
    rw [hvalue] at hdone
    refine ⟨_, _, hdone, hquiet.mem, by simp [loadItems], onlyMe_pushLd hquiet.strands hquiet.cur _ _ _, fun j hj => ?_⟩
    refine (loadItems_lane (word := fun n => leNat (s.viewBytes s.cl (s.me.handle o.hd).kd.toNat (physOf s o.hd (base + 4 * n)) 4))
      hpm hj).trans ?_
    cases hword : laneWord s.me (indexOfGH ixd o) j with
    | none => rfl
    | some n =>
      simp only [laneItem]
      rw [viewBytes_of_ready (hready.lanes j n hj hword) (by decide)]

/-! Stores (R224 to R226): what a run of lanes leaves of the bytes that the cluster sees is what it leaves of a table of them. -/

/-- The table `m` holds the bytes from place `P` on, as cluster `c` sees them. -/
def Mirrors (s : State) (c kind P N : Nat) (m : Cells 8) : Prop := ∀ a, a < N → P + a < 2 ^ 52 → seen s c kind (P + a) = cget m a

/-- Some table does. -/
theorem exists_mirrors (s : State) (c kind P N : Nat) : ∃ m, Mirrors s c kind P N m := by
  refine ⟨cwrite [] 0 ((List.range N).map (fun a => seen s c kind (P + a))), fun a ha _ => ?_⟩
  rw [cget_cwrite, if_pos (by simpa using ha), List.getD_eq_getElem?_getD, Nat.sub_zero, List.getElem?_map, List.getElem?_range ha]
  rfl

/-- The store of a lane's item at a word of a place. -/
def storeLane (c kind P w : Nat) (pm : BitVec 3) (l : List Elem) (s : State) (p : Nat × Nat) : State :=
  s.storeVia c kind (P + 4 * p.2 + (itemBytes w pm.toNat).1)
    (storeItem w pm (BitVec.ofNat 32 (leNat (s.viewBytes c kind (P + 4 * p.2) 4))) (elemAt l p.1))

theorem storeItem_length {tag : BitVec 4} {pm : BitVec 3} (hpm : pmDstOk (tagWidth tag) pm = true) (old data : Elem) :
    (itemBytes (tagWidth tag) pm.toNat).1 + (storeItem (tagWidth tag) pm old data).length ≤ 4 := by
  have hfit := (pmMask_outside tag pm hpm).1
  unfold storeItem
  simp only [List.length_take, List.length_drop, wBytes, leBytes_length]
  omega

/-- A word that a store through a handle may write. -/
structure WordReady (kind P N n : Nat) : Prop where
  inside : 4 * n + 4 ≤ N
  backed : P + 4 * n + 4 ≤ 2 ^ 52
  writable : Writable kind (P + 4 * n) 4
  apart : reachBase ≤ P + 4 * n ∨ P + 4 * n + 4 ≤ reachBase

section
variable {c kind P N : Nat} (hkind : kind < 2) {tag : BitVec 4} {pm : BitVec 3} (hpm : pmDstOk (tagWidth tag) pm = true) (l : List Elem)
include hkind hpm

/-- What any cluster sees of the store of a lane. -/
theorem seen_storeLane (s : State) {p : Nat × Nat} (hp : WordReady kind P N p.2) (c' k : Nat) {x : Nat} (hx : x < 2 ^ 52) :
    let b := (itemBytes (tagWidth tag) pm.toNat).1
    let bytes := storeItem (tagWidth tag) pm (BitVec.ofNat 32 (leNat (s.viewBytes c kind (P + 4 * p.2) 4))) (elemAt l p.1)
    seen (storeLane c kind P (tagWidth tag) pm l s p) c' k x =
      if k = kind ∧ (kind = 0 → c' = c) ∧ P + 4 * p.2 + b ≤ x ∧ x < P + 4 * p.2 + b + bytes.length then bytes.getD (x - (P + 4 * p.2 + b)) 0
      else seen s c' k x := by
  intro b bytes
  have hlen : b + bytes.length ≤ 4 := storeItem_length hpm _ _
  refine seen_storeVia s c hkind (fun hk => ?_) c' k hx
  have hfit := hp.writable hk
  show P + 4 * p.2 + b + bytes.length ≤ reachBase
  omega

theorem storeLane_mirrors {s : State} {m : Cells 8} {p : Nat × Nat} (hp : WordReady kind P N p.2) (h : Mirrors s c kind P N m) :
    Mirrors (storeLane c kind P (tagWidth tag) pm l s p) c kind P N (putLane (tagWidth tag) pm l 0 m p) := by
  intro a ha hlt
  have hold : s.viewBytes c kind (P + 4 * p.2) 4 = cread m (0 % 2 ^ 17 + 4 * p.2) 4 := by
    rw [viewBytes_eq_seen s c hp.apart, Nat.zero_mod, Nat.zero_add]
    refine List.map_congr_left fun j hj => ?_
    have hj4 := List.mem_range.mp hj
    have hin := hp.inside
    have hback := hp.backed
    rw [Nat.add_assoc, h _ (by omega) (by omega)]
  have hstore := seen_storeLane (c := c) (N := N) hkind hpm l s hp c kind hlt
  dsimp only at hstore
  rw [hold] at hstore
  rw [hstore, putLane, cget_cwrite, ← cnum, Nat.zero_mod, Nat.zero_add, h a ha hlt]
  generalize storeItem (tagWidth tag) pm (BitVec.ofNat 32 (cnum m (4 * p.2) 4)) (elemAt l p.1) = bytes
  generalize (itemBytes (tagWidth tag) pm.toNat).1 = b
  by_cases hin : 4 * p.2 + b ≤ a ∧ a < 4 * p.2 + b + bytes.length
  · have hin' : kind = kind ∧ (kind = 0 → c = c) ∧ P + 4 * p.2 + b ≤ P + a ∧ P + a < P + 4 * p.2 + b + bytes.length :=
      ⟨rfl, fun _ => rfl, by omega, by omega⟩
    rw [if_pos hin', if_pos hin, Nat.add_assoc, Nat.add_sub_add_left]
  · rw [if_neg hin, if_neg (by omega)]

theorem storeLanes_mirrors : ∀ {act : List (Nat × Nat)} {s : State} {m : Cells 8}, (∀ p ∈ act, WordReady kind P N p.2) →
    Mirrors s c kind P N m → Mirrors (act.foldl (storeLane c kind P (tagWidth tag) pm l) s) c kind P N
      (act.foldl (putLane (tagWidth tag) pm l 0) m)
  | [], _, _, _, h => h
  | p :: act, _, _, hact, h => storeLanes_mirrors (act := act) (fun q hq => hact q (List.mem_cons_of_mem p hq))
      (storeLane_mirrors hkind hpm l (hact p List.mem_cons_self) h)

/-- Bytes outside the words of a store stay. -/
theorem seen_storeLanes (c' k : Nat) {x : Nat} (hx : x < 2 ^ 52) : ∀ {act : List (Nat × Nat)} (s : State),
    (∀ p ∈ act, WordReady kind P N p.2) →
    (∀ p ∈ act, ¬(k = kind ∧ (kind = 0 → c' = c) ∧ P + 4 * p.2 ≤ x ∧ x < P + 4 * p.2 + 4)) →
    seen (act.foldl (storeLane c kind P (tagWidth tag) pm l) s) c' k x = seen s c' k x
  | [], _, _, _ => rfl
  | p :: act, s, hact, hout => by
    rw [List.foldl_cons, seen_storeLanes c' k hx _ (fun q hq => hact q (List.mem_cons_of_mem _ hq))
      (fun q hq => hout q (List.mem_cons_of_mem _ hq))]
    refine (seen_storeLane hkind hpm l s (hact p List.mem_cons_self) c' k hx).trans (if_neg ?_)
    rintro ⟨hk, hc, hle, hlt⟩
    have hlen := storeItem_length hpm (BitVec.ofNat 32 (leNat (s.viewBytes c kind (P + 4 * p.2) 4))) (elemAt l p.1)
    exact hout p List.mem_cons_self ⟨hk, hc, by omega, by omega⟩

end

theorem storeLanes_same (c kind P w : Nat) (pm : BitVec 3) (l : List Elem) (act : List (Nat × Nat)) (s : State) :
    (act.foldl (storeLane c kind P w pm l) s).strands = s.strands ∧ (act.foldl (storeLane c kind P w pm l) s).cur = s.cur := by
  refine foldl_inv (fun t : State => t.strands = s.strands ∧ t.cur = s.cur) _ (fun t p ht => ?_) _ _ ⟨rfl, rfl⟩
  obtain ⟨hstrands, hcur⟩ := t.storeVia_same c kind (P + 4 * p.2 + (itemBytes w pm.toNat).1)
    (storeItem w pm (BitVec.ofNat 32 (leNat (t.viewBytes c kind (P + 4 * p.2) 4))) (elemAt l p.1))
  exact ⟨hstrands.trans ht.1, hcur.trans ht.2⟩

/-- A word of a table by its bytes. -/
theorem cnum_eq_wordAt (m : Cells 8) (a : Nat) : cnum m a 4 = (wordAt m a).toNat := cnum_of_bytes fun _ hi => (wordAt_byte m a hi).symm

/-- A store through a handle stores its lanes in ascending order, and changes nothing else but the tallies of its bytes. -/
theorem accessDo_scatter (s x : State) (ix : Option LineRef) (hd : BitVec 4) (base : Nat) {w : Nat} {pm : BitVec 3} {l : List Elem}
    {a : HeldAccess} (hwork : a.work = .scatter w pm l) (hspans : a.spans = laneSpans s ix hd base) (c part : Nat) (ten : BitVec 4) :
    Quiet ((laneWords s.me ix).foldl (storeLane c (s.me.handle hd).kd.toNat (physOf s hd base) w pm l) x) (x.accessDo c part ten a).2 := by
  unfold State.accessDo
  rw [hwork, hspans]
  have hfold : (laneWords s.me ix).foldl (storeLane c (s.me.handle hd).kd.toNat (physOf s hd base) w pm l) x =
      (laneSpans s ix hd base).foldl (fun s p => s.storeVia c p.kind (p.pa + (itemBytes w pm.toNat).1)
        (storeItem w pm (BitVec.ofNat 32 (leNat (s.viewBytes c p.kind p.pa 4))) (l.getD p.lane 0))) x := by
    rw [laneSpans, List.foldl_map]
    simp only [laneSpan, scalarSpan, physOf, ← Nat.add_assoc]
    rfl
  rw [hfold]
  exact .foldl (fun y p => y.charge_quiet _ _ _ _ _) _ _

/-- The word of a lane of an access that is ready. -/
theorem wordReady_of_ready {s : State} {hd : BitVec 4} {base n : Nat} {right : Handle → Bool} (h : HandleReady s hd (base + 4 * n) 4 right)
    (hw : Writable (s.me.handle hd).kd.toNat (physOf s hd (base + 4 * n)) 4) :
    WordReady (s.me.handle hd).kd.toNat (physOf s hd base) (2 ^ pageBits (s.me.handle hd).ps.toNat) n := by
  have hpa : physOf s hd (base + 4 * n) = physOf s hd base + 4 * n := (Nat.add_assoc _ _ _).symm
  have hlast := lt_of_paExists (j := 3) h.backed (by decide)
  rw [← physOf] at hlast
  have haligned := pageOffset_dvd (n := 4) (by decide) (s.me.handle hd).pb.toNat (base + 4 * n) h.aligned
  have hapart := reach_apart haligned (by decide)
  have hbounds := h.bounds
  rw [← physOf] at hapart
  rw [hpa] at hw hlast hapart
  exact ⟨by omega, by omega, hw, hapart⟩

theorem handleVectorStores : HandleVectorStores := by
  intro s i o ix hi hform d w pm base kd word hready hpm hst hw places
  obtain ⟨ixd, hexec, rfl⟩ := exec_of_ghStore hform s
  obtain ⟨ps, hps, hspans⟩ := ghPlaces_of_ready hready asks_write
  rw [ghStore_eq hready.lines hpm, hps, Res.bind_ok, needSt, decide_eq_true hst, needReady_true, Res.bind_ok] at hexec
  have hplaces : (ghWrite s hi o ps).spans.map (fun p => (p.kind, p.pa)) = places :=
    (congrArg (List.map _) hspans).trans (laneSpans_places s _ o.hd base)
  have hclash : ∀ p ∈ (ghWrite s hi o ps).spans, s.me.heldClash p.kind p.pa p.n = false :=
    fun p hp => laneSpans_clash hready p (hspans ▸ hp)
  refine ⟨fun hcap => ?_, fun hserved hroom => ?_⟩
  · rw [← hplaces] at hcap ⊢
    exact isHeld_of_capped hexec nofun hclash hcap
  · rw [← hplaces] at hserved
    have hpages : (ghWrite s hi o ps).pages = ((List.range 32).filterMap (laneWord s.me (indexOfGH ixd o))).flatMap (fun n =>
        pagesOf kd ((s.me.handle o.hd).vb.toNat * 4096 + (base + 4 * n)) 4) := by
      show (ghSpans ps).flatMap (fun p => pagesOf p.kind p.va p.n) = _
      rw [hspans, laneSpans, laneWords_words, List.flatMap_map, List.flatMap_map]
      rfl
    obtain ⟨x, hx, hdone⟩ := exec_of_served_store hexec hclash hserved rfl (hpages ▸ hroom)
    let N := 2 ^ pageBits (s.me.handle o.hd).ps.toNat
    let act := laneWords s.me (indexOfGH ixd o)
    let y := act.foldl (storeLane s.cl kd (physOf s o.hd base) w pm (s.me.line d)) x
    have hcharged : Quiet y (x.accessDo s.cl s.me.part (s.tenantOf s.me) (ghWrite s hi o ps)).2 :=
      accessDo_scatter s x _ o.hd base rfl hspans s.cl _ _
    obtain ⟨hstrands, hcur⟩ := storeLanes_same s.cl kd (physOf s o.hd base) w pm (s.me.line d) act x
    have hact : ∀ p ∈ act, WordReady kd (physOf s o.hd base) N p.2 := fun p hp =>
      wordReady_of_ready (lane_ready hready hp) (hw p.1 p.2 (mem_laneWords.mp hp).1 (mem_laneWords.mp hp).2)
    have hpa (n : Nat) : physOf s o.hd (base + 4 * n) = physOf s o.hd base + 4 * n := (Nat.add_assoc _ _ _).symm
    refine ⟨_, hdone, onlyMe_pushSt (hcharged.strands.trans (hstrands.trans hx.strands)) (hcharged.cur.trans (hcur.trans hx.cur)) _,
      fun j n hj hhigh => ?_, fun k pa hlt hout => ?_, fun c pa hc hlt => ?_⟩
    · obtain ⟨m, hm⟩ := exists_mirrors s s.cl kd (physOf s o.hd base) N
      have hmx : Mirrors x s.cl kd (physOf s o.hd base) N m := fun a ha hlt => (seen_of_memSame hx.mem _ _ _).trans (hm a ha hlt)
      have hmy := storeLanes_mirrors (c := s.cl) hready.kind hpm (s.me.line d) hact hmx
      have hn := hact _ (mem_laneWords.mpr ⟨hj, hhigh.1⟩ : (j, n) ∈ act)
      have hword {t : State} {m : Cells 8} (h : Mirrors t s.cl kd (physOf s o.hd base) N m) : word t n = cnum m (0 % 2 ^ 17 + 4 * n) 4 := by
        refine congrArg leNat (List.map_congr_left fun b hb => ?_)
        have hb4 := List.mem_range.mp hb
        have hin := hn.inside
        have hback := hn.backed
        rw [hpa, Nat.add_assoc, h _ (by omega) (by omega), Nat.zero_mod, Nat.zero_add]
      have hsame : word (x.accessDo s.cl s.me.part (s.tenantOf s.me) (ghWrite s hi o ps)).2.pushSt n = word y n :=
        congrArg leNat (List.map_congr_left fun b _ => seen_of_memSame hcharged.mem _ _ _)
      rw [hsame, hword hmy, cnum_eq_wordAt, putLanes_highest hpm _ _ _ hj hhigh, hword hm]
      rfl
    · refine (seen_of_memSame hcharged.mem _ _ _).trans ((seen_storeLanes hready.kind hpm _ _ k hlt x hact fun p hp hin => ?_).trans
        (seen_of_memSame hx.mem _ _ _))
      obtain ⟨hk, -, hle, hlt⟩ := hin
      obtain ⟨hj, hlane⟩ := mem_laneWords.mp hp
      exact hout ⟨hk, p.1, p.2, hj, hlane, by rw [hpa]; exact hle, by rw [hpa]; exact hlt⟩
    · refine (seen_of_memSame hcharged.mem _ _ _).trans ((seen_storeLanes hready.kind hpm _ _ 0 hlt x hact fun p hp hin => ?_).trans
        (seen_of_memSame hx.mem _ _ _))
      obtain ⟨hk, hown, -⟩ := hin
      exact hc (hown hk.symm)

/-- Settles O24: the checks pass for all active lanes at once; a run of stores is followed on a table of the bytes that the cluster sees. -/
theorem handleVectorAccesses : Obligations.HandleVectorAccesses := by
  unfold Obligations.HandleVectorAccesses
  exact ⟨handleVectorReads, handleVectorStores⟩

end Sys2Proof.Machine
end

section
/-! O12: translations (R98, R101, R102, R198, R199, R367). -/

namespace Sys2Proof.Machine

open Sys2Proof.Claims

/-- The handle of a translation that fails (R102). -/
def failedHandle (va : BitVec 56) (rq : BitVec 3) : Handle := { hs := 3, vb := va.extractLsb' 12 44, rq := rq }

/-- The handle of a page (R101). -/
def pageHandle (l : Leaf) (rq : BitVec 3) : Handle :=
  { hs := 1, ps := BitVec.ofNat 3 l.ps, kd := BitVec.ofNat 3 l.kd, pr := l.pr, pw := l.pw, pa := l.pa,
    pb := BitVec.ofNat 40 (l.base / 4096), vb := BitVec.ofNat 44 (l.vbase / 4096), rq := rq }

/-- A translation that succeeds: no route window holds the address, and its walk ends in a leaf that grants the rights. -/
def State.Translates (s : State) (part : Nat) (va : BitVec 56) (rq : BitVec 3) (l : Leaf) : Prop :=
  s.routeOf part va.toNat = none ∧ s.walk part va = .leaf l ∧ l.grants rq = true

theorem State.translate_of_translates {s : State} {part : Nat} {va : BitVec 56} {rq : BitVec 3} {l : Leaf} (h : s.Translates part va rq l) :
    s.translate part va rq = pageHandle l rq := by
  obtain ⟨hroute, hwalk, hgrants⟩ := h
  rw [State.translate, hroute, hwalk]
  exact if_pos hgrants

theorem State.translate_of_not {s : State} {part : Nat} {va : BitVec 56} {rq : BitVec 3} (h : ∀ l, ¬ s.Translates part va rq l) :
    s.translate part va rq = failedHandle va rq := by
  rw [State.translate]
  cases hroute : s.routeOf part va.toNat with
  | some r => rfl
  | none =>
    cases hwalk : s.walk part va with
    | leaf l => exact if_neg fun hgrants => h l ⟨hroute, hwalk, hgrants⟩
    | absent => rfl
    | bad a => rfl

/-- Settles O12: the walk of a translation leaves at most a report, and the handle that lands is the page's or a failed one. -/
theorem translations : Obligations.Translations := by
  unfold Obligations.Translations
  intro s o
  refine ⟨exec_hrel s o, ?_⟩
  let va : BitVec 56 := (s.reg o.sa).setWidth 56
  let s' := if fld (s.reg o.sa) 56 8 = 0 then s.noteWalk s.me.part ((s.reg o.sa).extractLsb' 0 56) else s
  have hquiet : s.SameButLanes s' := by
    show s.SameButLanes (if fld (s.reg o.sa) 56 8 = 0 then _ else s)
    split
    · exact s.noteWalk_same _ _
    · exact .refl s
  have hva : (s.reg o.sa).extractLsb' 0 56 = va := by
    apply BitVec.eq_of_toNat_eq
    simp [va]
  have hlow : fld (s.reg o.sa) 56 8 = 0 ↔ (s.reg o.sa).toNat < 2 ^ 56 := by
    have := (s.reg o.sa).isLt
    unfold fld
    omega
  refine ⟨_, s.xlateResult (s.reg o.sa) o.rq, exec_xlate s o, hquiet.mem, hquiet.clusters, ⟨?_, hquiet.cur, fun k hk => ?_⟩, ?_⟩
  · exact (s'.onMe_me _).trans (hquiet.me ▸ rfl)
  · exact (s'.onMe_other _ (hquiet.cur.symm ▸ hk)).trans (congrArg (tfind · k) hquiet.strands)
  · rw [State.xlateResult, hva]
    by_cases h : fld (s.reg o.sa) 56 8 = 0
    · rw [if_neg (not_not.mpr h)]
      by_cases htrans : ∃ l, s.Translates s.me.part va o.rq l
      · obtain ⟨l, hl⟩ := htrans
        rw [State.translate_of_translates hl]
        obtain ⟨hroute, hwalk, hgrants⟩ := hl
        refine ⟨rfl, .inl rfl, ⟨fun _ => ⟨hlow.mp h, hroute, l, hwalk, hgrants⟩, fun _ => rfl⟩, fun _ l' hl' => ?_⟩
        obtain rfl : l = l' := Walk.leaf.inj (hwalk.symm.trans hl')
        exact ⟨rfl, rfl, rfl, rfl, rfl, rfl, rfl⟩
      · rw [State.translate_of_not fun l hl => htrans ⟨l, hl⟩]
        refine ⟨rfl, .inr rfl, ⟨nofun, fun ⟨_, hroute, l, hwalk, hgrants⟩ => absurd ⟨l, hroute, hwalk, hgrants⟩ htrans⟩, nofun⟩
    · rw [if_pos h]
      exact ⟨rfl, .inr rfl, ⟨nofun, fun hlt => absurd (hlow.mpr hlt.1) h⟩, nofun⟩

end Sys2Proof.Machine
end

section
/-! O26: queries of engine state (R86, R235, R237, R245, R256, R259). -/

namespace Sys2Proof.Machine

open Sys2Proof.Claims

/-! Tiles (R86, R237, R245). -/

theorem needTile_of_lt {t : Strand} {th : BitVec 5} (h : th.toNat < t.win.th) : needTile t th = .ok () := (needTile_ok t th ()).mpr h

/-- The fields of a tile's status word (R86). -/
theorem packTile_fields (e : Tile) (tg : BitVec 32) : (packTile e tg).extractLsb' 62 2 = e.ts ∧ (packTile e tg).extractLsb' 60 2 = e.tk ∧
    (packTile e tg).extractLsb' 55 5 = e.bi ∧ (packTile e tg).extractLsb' 51 4 = e.ft ∧ (packTile e tg).extractLsb' 48 3 = 0 ∧
    (packTile e tg).extractLsb' 40 8 = BitVec.ofNat 8 e.rc ∧ (packTile e tg).extractLsb' 32 8 = BitVec.ofNat 8 e.dc ∧
    (packTile e tg).extractLsb' 0 32 = tg := by
  unfold packTile
  refine ⟨?_, ?_, ?_, ?_, ?_, ?_, ?_, ?_⟩
  all_goals
    simp (disch := decide) only [extractLsb'_append_hi, extractLsb'_append_lo, Nat.reduceSub]
    exact BitVec.extractLsb'_eq_self

theorem State.streamOn_of_none {s : State} {th : BitVec 5}
    (h : ∀ x ∈ s.cmds, ¬(x.2.strand = s.cur ∧ x.2.op = .mmas ∧ x.2.td = some th)) : s.streamOn th = none := by
  rw [State.streamOn, Option.map_eq_none_iff, List.find?_eq_none]
  intro x hx hfound
  exact h x hx (by simpa [and_assoc] using hfound)

theorem State.streamOn_of_only {s : State} {th : BitVec 5} {n : Nat} {c : Cmd} (hmem : (n, c) ∈ s.cmds) (hstrand : c.strand = s.cur)
    (hop : c.op = .mmas) (htd : c.td = some th)
    (honly : ∀ x ∈ s.cmds, x.2.strand = s.cur → x.2.op = .mmas → x.2.td = some th → x.2 = c) : s.streamOn th = some c := by
  rw [State.streamOn]
  cases hfind : s.cmds.find? (fun e => e.2.strand = s.cur && e.2.op = .mmas && e.2.td = some th) with
  | none => exact absurd (List.find?_eq_none.mp hfind _ hmem) (by simp [hstrand, hop, htd])
  | some x =>
    have hfound := List.find?_some hfind
    simp only [Bool.and_eq_true, decide_eq_true_eq] at hfound
    obtain ⟨⟨hxs, hxo⟩, hxt⟩ := hfound
    rw [Option.map_some, honly x (List.mem_of_find?_eq_some hfind) hxs hxo hxt]

/-! Masks (R256, R259). -/

/-- The number whose bit `i`, below `n`, tells whether `p` holds of `i`. -/
def maskOf (p : Nat → Bool) : Nat → Nat
  | 0 => 0
  | n + 1 => maskOf p n + if p n then 2 ^ n else 0

theorem maskOf_lt (p : Nat → Bool) : ∀ n, maskOf p n < 2 ^ n
  | 0 => Nat.one_pos
  | n + 1 => by
    have hn := maskOf_lt p n
    have hpow : 2 ^ (n + 1) = 2 * 2 ^ n := Nat.pow_succ'
    rw [maskOf]
    split <;> omega

theorem testBit_maskOf (p : Nat → Bool) : ∀ n i, (maskOf p n).testBit i = (decide (i < n) && p i)
  | 0, i => by simp [maskOf]
  | n + 1, i => by
    have hlt := maskOf_lt p n
    rcases Nat.lt_trichotomy i n with hi | rfl | hi
    · have hbit : (maskOf p (n + 1)).testBit i = (maskOf p n).testBit i := by
        rw [maskOf]
        split
        · rw [Nat.add_comm, Nat.testBit_two_pow_add_gt hi]
        · rfl
      rw [hbit, testBit_maskOf p n i]
      simp [hi, Nat.lt_succ_of_lt hi]
    · rw [maskOf]
      split
      next h => rw [Nat.add_comm, Nat.testBit_two_pow_add_eq, Nat.testBit_lt_two_pow hlt]; simp [h]
      next h => rw [Nat.add_zero, Nat.testBit_lt_two_pow hlt]; simp [h]
    · have hhigh := Nat.lt_of_lt_of_le (maskOf_lt p (n + 1)) (Nat.pow_le_pow_right (by decide) (Nat.succ_le_of_lt hi))
      rw [Nat.testBit_lt_two_pow hhigh]
      simp only [Nat.not_lt.mpr (Nat.succ_le_of_lt hi), decide_false, Bool.false_and]

theorem maskOf_eq_foldl (p : Nat → Bool) (n : Nat) : ((List.range n).filter p).foldl (fun m i => m + 2 ^ i) 0 = maskOf p n := by
  induction n with
  | zero => rfl
  | succ n ih =>
    rw [List.range_succ, List.filter_append, List.foldl_append, ih, maskOf]
    cases h : p n <;> simp [h]

theorem maskOf_not_eq_foldl (p : Nat → Bool) (n : Nat) :
    (List.range n).foldl (fun m i => if p i then m else m + 2 ^ i) 0 = maskOf (fun i => !p i) n := by
  induction n with
  | zero => rfl
  | succ n ih =>
    rw [List.range_succ, List.foldl_append, ih, maskOf]
    cases h : p n <;> simp [h]

/-- The low mask of a word with one above it. -/
theorem testBit_masks {a : Nat} (ha : a < 2 ^ 16) (b : Nat) {i : Nat} (hi : i < 16) :
    (a + 2 ^ 16 * b).testBit i = a.testBit i ∧ (a + 2 ^ 16 * b).testBit (16 + i) = b.testBit i := by
  have hbit := Nat.testBit_two_pow_mul_add b ha
  rw [Nat.add_comm] at hbit
  refine ⟨?_, ?_⟩
  · rw [hbit, if_pos hi]
  · rw [hbit, if_neg (by omega), Nat.add_sub_cancel_left]

/-- A word that holds two masks of 16 bits below bit 63. -/
theorem maskWord_bits {a b : Nat} (ha : a < 2 ^ 16) (hb : b < 2 ^ 16) :
    let v : Word := BitVec.ofNat 64 (2 ^ 63 + a + 2 ^ 16 * b)
    v.getLsbD 63 = true ∧ v.extractLsb' 32 31 = 0 ∧
      ∀ i, i < 16 → v.getLsbD i = a.testBit i ∧ v.getLsbD (16 + i) = b.testBit i := by
  have hsplit : 2 ^ 63 + a + 2 ^ 16 * b = a + 2 ^ 16 * (b + 2 ^ 16 * 2 ^ 31) := by omega
  refine ⟨?_, ?_, fun i hi => ?_⟩
  · rw [BitVec.getLsbD_ofNat, Nat.testBit_eq_decide_div_mod_eq]
    simp only [Nat.reduceLT, decide_true, Bool.true_and, decide_eq_true_eq]
    omega
  · apply BitVec.eq_of_toNat_eq
    rw [BitVec.extractLsb'_toNat, BitVec.toNat_ofNat, Nat.shiftRight_eq_div_pow]
    show _ = 0
    omega
  · obtain ⟨hlow, hhigh⟩ := testBit_masks ha (b + 2 ^ 16 * 2 ^ 31) hi
    rw [BitVec.getLsbD_ofNat, BitVec.getLsbD_ofNat, hsplit, hlow, hhigh, (testBit_masks hb (2 ^ 31) hi).1]
    have h16 : 16 + i < 64 := by omega
    simp only [Nat.lt_trans hi (by decide : 16 < 64), h16, decide_true, Bool.true_and, and_self]

/-! Queues of a copy engine (R235, R256). -/

theorem State.needEngine_eq (s : State) (e : Nat) : s.needEngine e =
    if (tget s.parts s.me.part).res.engines.contains e = true then .ok () else trapE 0x0015 (BitVec.ofNat 64 e) := by
  rw [State.needEngine]
  cases (tget s.parts s.me.part).res.engines.contains e <;> rfl

/-- Does a queue begin with a wait (R256)? -/
def headWaits (l : List (Nat × Cmd)) : Bool := match l with
  | (_, c) :: _ => c.op = .sqwait
  | [] => false

theorem headWaits_iff (l : List (Nat × Cmd)) : headWaits l = true ↔ ∃ x, l.head? = some x ∧ x.2.op = .sqwait := by
  cases l with
  | nil => simp [headWaits]
  | cons x l => simp [headWaits]

/-- The status of a queue (R256). -/
def queueStatus (l : List (Nat × Cmd)) : Word :=
  BitVec.ofNat 64 (l.length % 65536 + (if headWaits l then 2 ^ 62 else 0) + (if l.any (fun c => c.2.op = .sqkill) then 2 ^ 61 else 0))

theorem queueStatus_bits (l : List (Nat × Cmd)) : (queueStatus l).extractLsb' 0 16 = BitVec.ofNat 16 l.length ∧
    (queueStatus l).extractLsb' 16 45 = 0 ∧ (queueStatus l).getLsbD 63 = false ∧ (queueStatus l).getLsbD 62 = headWaits l ∧
    (queueStatus l).getLsbD 61 = l.any (fun c => c.2.op = .sqkill) := by
  have hlen := Nat.mod_lt l.length (by decide : 0 < 65536)
  unfold queueStatus
  generalize headWaits l = a
  generalize l.any (fun c => c.2.op = .sqkill) = b
  refine ⟨?_, ?_, ?_, ?_, ?_⟩
  case refine_1 =>
    apply BitVec.eq_of_toNat_eq
    rw [BitVec.extractLsb'_toNat, BitVec.toNat_ofNat, BitVec.toNat_ofNat, Nat.shiftRight_eq_div_pow]
    cases a <;> cases b <;> simp only [if_true, if_false, Bool.false_eq_true] <;> omega
  case refine_2 =>
    apply BitVec.eq_of_toNat_eq
    rw [BitVec.extractLsb'_toNat, BitVec.toNat_ofNat, Nat.shiftRight_eq_div_pow]
    show _ = 0
    cases a <;> cases b <;> simp only [if_true, if_false, Bool.false_eq_true] <;> omega
  all_goals
    rw [BitVec.getLsbD_ofNat, Nat.testBit_eq_decide_div_mod_eq]
    cases a <;> cases b <;>
      simp only [if_true, if_false, Bool.false_eq_true, Nat.reduceLT, decide_true, Bool.true_and, decide_eq_true_eq, decide_eq_false_iff_not] <;>
      omega

/-- The queues of an engine that are not empty, as a mask (R256). -/
def busyQueues (s : State) (e : Nat) : Nat := maskOf (fun q => !(queueList s e q).isEmpty) 16

theorem busyQueues_lt (s : State) (e : Nat) : busyQueues s e < 2 ^ 16 := maskOf_lt _ 16

theorem busyQueues_bits (s : State) (e : Nat) :
    let v : Word := BitVec.ofNat 64 (2 ^ 63 + busyQueues s e)
    v.getLsbD 63 = true ∧ v.extractLsb' 16 47 = 0 ∧ ∀ q, q < 16 → (v.getLsbD q = true ↔ queueList s e q ≠ []) := by
  have hlt := busyQueues_lt s e
  obtain ⟨htop, -, hbits⟩ := maskWord_bits hlt (Nat.two_pow_pos 16)
  refine ⟨htop, ?_, fun q hq => (Bool.eq_iff_iff.mp (hbits q hq).1).trans ?_⟩
  · apply BitVec.eq_of_toNat_eq
    rw [BitVec.extractLsb'_toNat, BitVec.toNat_ofNat, Nat.shiftRight_eq_div_pow]
    show _ = 0
    omega
  · rw [busyQueues, testBit_maskOf]
    simp [hq]

theorem execCpyq_eq (s : State) (o : FmtEA) : execCpyq o s = .next (s.landS 1 o.sd
    (if (tget s.parts s.me.part).res.engines.contains (o.imm.toNat % 32) = true then
      BitVec.ofNat 64 (2 ^ 63 + busyQueues s (o.imm.toNat % 32)) else 0)) := by
  rw [execCpyq, busyQueues, ← maskOf_not_eq_foldl]
  simp only [State.queueOf_eq]
  rfl

theorem execSqstat_eq (s : State) (o : FmtEA) : execSqstat o s = finish s (s.needEngine (o.imm.toNat % 32) >>= fun _ =>
    .ok (s.landS 1 o.sd (queueStatus (queueList s (o.imm.toNat % 32) (o.imm.toNat / 32 % 16))))) := by
  rw [execSqstat, ← State.queueOf_eq]
  rfl

/-! Pooling (R259, R418). -/

/-- The lattice drivers of a plan, and those of them that have failed, as masks. -/
def planMasks (s : State) (n : Nat) : Nat × Nat :=
  let lds := (tget (tget s.parts s.me.part).plans n).segs.map (fun g => g.ld)
  (maskOf (fun i => lds.contains i) 16, maskOf (fun i => lds.contains i && s.dev.failed.contains i) 16)

theorem planMasks_lt (s : State) (n : Nat) : (planMasks s n).1 < 2 ^ 16 ∧ (planMasks s n).2 < 2 ^ 16 := by
  unfold planMasks
  exact ⟨maskOf_lt _ 16, maskOf_lt _ 16⟩

theorem execSfstat_eq (s : State) (o : FmtEA) : execSfstat o s = .next (s.landS 1 o.sd
    (match tfind (tget s.parts s.me.part).pools ((s.reg o.sa).toNat % 2 ^ 16) with
    | none => 0
    | some n => BitVec.ofNat 64 (2 ^ 63 + (planMasks s n).1 + 2 ^ 16 * (planMasks s n).2))) := by
  have htid : fld (s.reg o.sa) 0 16 = (s.reg o.sa).toNat % 2 ^ 16 := by rw [fld, Nat.pow_zero, Nat.div_one]
  rw [execSfstat, htid]
  dsimp only
  cases tfind (tget s.parts s.me.part).pools ((s.reg o.sa).toNat % 2 ^ 16) with
  | none => rfl
  | some n =>
    simp only [planMasks, ← maskOf_eq_foldl]
    rfl

/-- Settles O26: each query delivers the fields of its rule at once; the masks are read bit by bit. -/
theorem engineQueries : Obligations.EngineQueries := by
  unfold Obligations.EngineQueries
  refine ⟨fun s o hth => ?_, fun s o => ?_⟩
  · have hfields := packTile_fields (s.me.tile o.td) 0
    refine ⟨⟨packTile (s.me.tile o.td) 0, ?_, hfields⟩, fun hts => ?_, fun hts => ?_, fun hnone => ?_,
      fun c ⟨n, hmem⟩ hstrand hop htd honly => ?_⟩
    · rw [exec_tstat, execTstat, needTile_of_lt hth]
      rfl
    · have hready : (decide ((s.me.tile o.td).ts = 0) || decide ((s.me.tile o.td).ts = 2)) = true := by simpa using hts
      rw [exec_twait, execTwait, needTile_of_lt hth, Res.bind_ok, hready]
      rfl
    · have hbusy : (decide ((s.me.tile o.td).ts = 0) || decide ((s.me.tile o.td).ts = 2)) = false := by
        rcases hts with h | h <;> rw [h] <;> decide
      refine waits_of_finish ?_
      rw [exec_twait, execTwait, needTile_of_lt hth, Res.bind_ok, hbusy]
      rfl
    · rw [exec_trowp, execTrowp, needTile_of_lt hth, State.streamOn_of_none hnone]
      rfl
    · rw [exec_trowp, execTrowp, needTile_of_lt hth, State.streamOn_of_only hmem hstrand hop htd honly]
      rfl
  · refine ⟨fun hown => ⟨?_, traps_of_finish ?_⟩, fun hown => ?_, fun hpool => ?_, fun n hpool => ?_⟩
    · rw [exec_cpyq, execCpyq_eq, hown]
      rfl
    · rw [exec_sqstat, execSqstat_eq, State.needEngine_eq, hown]
      rfl
    · obtain ⟨htop, hgap, hbusy⟩ := busyQueues_bits s (o.imm.toNat % 32)
      obtain ⟨hcount, hrest, hnot, hwait, hkill⟩ := queueStatus_bits (queueList s (o.imm.toNat % 32) (o.imm.toNat / 32 % 16))
      refine ⟨BitVec.ofNat 64 (2 ^ 63 + busyQueues s (o.imm.toNat % 32)), queueStatus _, ?_, htop, hgap, hbusy, ?_,
        hcount, hrest, hnot, ?_, ?_⟩
      · rw [exec_cpyq, execCpyq_eq, if_pos hown]
      · rw [exec_sqstat, execSqstat_eq, State.needEngine_eq, if_pos hown]
        rfl
      · rw [hwait, headWaits_iff]
      · rw [hkill]
        simp
    · rw [exec_sfstat, execSfstat_eq, hpool]
    · obtain ⟨htop, hgap, hbits⟩ := maskWord_bits (planMasks_lt s n).1 (planMasks_lt s n).2
      refine ⟨_, ?_, htop, hgap, fun i hi => ?_⟩
      · rw [exec_sfstat, execSfstat_eq, hpool]
      · obtain ⟨hlow, hhigh⟩ := hbits i hi
        rw [hlow, hhigh, planMasks, testBit_maskOf, testBit_maskOf]
        simp [hi]

end Sys2Proof.Machine
end

section
/-! O23: vector access to tiles (R88, R229). -/

namespace Sys2Proof.Machine

open Sys2Proof.Claims

/-! The checks (R64, R88, R229). -/

/-- The checks of an access to a tile, in their order. -/
def tileChecks (s : State) (d : LineRef) (th : BitVec 5) (kind : BitVec 2) (want found : BitVec 4) : Res Unit := do
  needPlane s.me d.pn
  needTile s.me th
  needKind s.me th (fun k => k = kind)
  needSameTag th want found
  needReady88 s.me th

theorem tileChecks_ok {s : State} {d : LineRef} {th : BitVec 5} {kind : BitVec 2} {want found : BitVec 4}
    (hd : d.pn.toNat < s.me.win.pl) (hth : th.toNat < s.me.win.th) (hkind : (s.me.tile th).tk = kind)
    (htag : want = found ∨ want = 0 ∨ found = 0) (hready : (s.me.tile th).ts = 2 ∧ (s.me.tile th).qc = 0) :
    tileChecks s d th kind want found = .ok () := by
  have hsame : (decide (want = found) || decide (want = 0) || decide (found = 0)) = true := by
    simpa [or_assoc] using htag
  rw [tileChecks, needPlane_of_lt hd, needTile_of_lt hth, needKind, decide_eq_true hkind, needSameTag, hsame,
    (needReady88_ok s.me th ()).mpr hready]
  rfl

section
variable {s : State} {d : LineRef} {th : BitVec 5} {kind : BitVec 2} {want found : BitVec 4} (hd : d.pn.toNat < s.me.win.pl)
  (hth : th.toNat < s.me.win.th)
include hd hth

/-- A tile of another kind (R170). -/
theorem tileChecks_kind (hkind : (s.me.tile th).tk ≠ kind) : tileChecks s d th kind want found = trapE 0x0009 (th.setWidth 64) := by
  rw [tileChecks, needPlane_of_lt hd, needTile_of_lt hth, needKind, decide_eq_false hkind]
  rfl

/-- An empty tile (R88). -/
theorem tileChecks_empty (hkind : (s.me.tile th).tk = kind) (htag : want = 0 ∨ found = 0) (hts : (s.me.tile th).ts = 0)
    (hdc : (s.me.tile th).dc = 0) (hqc : (s.me.tile th).qc = 0) :
    tileChecks s d th kind want found = trapE 0x0005 (th.setWidth 64) := by
  have hsame : (decide (want = found) || decide (want = 0) || decide (found = 0)) = true := by
    rcases htag with h | h <;> simp [h]
  have hempty : needReady88 s.me th = trapE 0x0005 (th.setWidth 64) := by
    rw [needReady88, hts, hdc, hqc]
    rfl
  rw [tileChecks, needPlane_of_lt hd, needTile_of_lt hth, needKind, decide_eq_true hkind, needSameTag, hsame, hempty]
  rfl

end

theorem tileLoad_eq (kind : BitVec 2) (mem : Strand → Cells 8) (size row : Nat) (o : FmtGA) (s : State) :
    tileLoad kind mem size row o s = finish s (tileChecks s (lineOf o.pl o.xl) o.th kind o.ft (s.me.tile o.th).ft >>= fun _ =>
      .ok (s.land 6 (wholeLine (lineOf o.pl o.xl) o.ft
        (spanElems (mem s.me) (size * (s.me.tile o.th).bi.toNat + row * o.row.toNat + 128 * o.qw.toNat))))) := by
  rw [tileLoad, tileChecks]
  simp only [bind_assoc]
  rfl

/-- Where a span of an A-tile begins (R229). -/
def spanAddr (s : State) (o : FmtGA) : Nat := 16384 * (s.me.tile o.th).bi.toNat + 512 * o.row.toNat + 128 * o.qw.toNat

/-- The machine after a store to a tile. -/
def spanStored (s : State) (o : FmtGA) : State :=
  s.onMe (fun t => { t with amem := cwrite t.amem (spanAddr s o) ((t.line (lineOf o.pl o.xl)).flatMap wBytes) })

theorem execVsta_eq (o : FmtGA) (s : State) :
    execVsta o s = finish s (tileChecks s (lineOf o.pl o.xl) o.th 1 (s.me.tagOf (lineOf o.pl o.xl).pn) (s.me.tile o.th).ft >>= fun _ =>
      needReady ((s.me.tile o.th).rc = 0) >>= fun _ => .ok (spanStored s o)) := by
  rw [execVsta, tileChecks]
  simp only [bind_assoc]
  rfl

/-! The span (R229). -/

theorem spanElems_getD (m : Cells 8) (a : Nat) {k : Nat} (hk : k < 32) : (spanElems m a).getD k 0 = BitVec.ofNat 32 (cnum m (a + 4 * k) 4) := by
  rw [spanElems, List.getD_eq_getElem?_getD, List.getElem?_map, List.getElem?_range hk]
  rfl

theorem flatMap_wBytes (l : LineRef) (t : Strand) :
    (t.line l).flatMap wBytes = (List.range 32).flatMap (fun k => wBytes ((t.line l).getD k 0)) := by
  rw [Strand.line, List.flatMap_map]
  refine List.flatMap_congr fun k hk => ?_
  rw [List.getD_eq_getElem?_getD, List.getElem?_map, List.getElem?_range (List.mem_range.mp hk)]
  rfl

/-- The bytes of a line written at an address. -/
theorem cget_lineWritten (m : Cells 8) (a : Nat) (t : Strand) (l : LineRef) (x : Nat) :
    cget (cwrite m a ((t.line l).flatMap wBytes)) x =
      if a ≤ x ∧ x < a + 128 then (wBytes ((t.line l).getD ((x - a) / 4) 0)).getD ((x - a) % 4) 0 else cget m x := by
  have hfour (k : Nat) : (wBytes ((t.line l).getD k 0)).length = 4 := leBytes_length 4 _
  rw [cget_cwrite, flatMap_wBytes, flatMap_range_length hfour]
  split
  next h =>
    have hbyte := flatMap_range_getD hfour (n := 32) (i := (x - a) / 4) (j := (x - a) % 4) (by omega) (Nat.mod_lt _ (by decide))
    rwa [Nat.div_add_mod] at hbyte
  next => rfl

/-- Settles O23: the checks are one chain; the words of the span are the elements of the line. -/
theorem tileVectors : Obligations.TileVectors := by
  unfold Obligations.TileVectors
  intro s o d e aBase cBase
  refine ⟨fun h => ?_, fun h hqw => ?_, fun h hrc => ?_, fun hd hth => ⟨fun hkind => ⟨?_, ?_⟩, fun hkind => ?_,
    fun hts hdc hqc hft => ⟨fun hkind => ⟨?_, ?_⟩, fun hkind => ?_⟩⟩⟩
  · refine ⟨spanElems s.me.amem aBase, ?_, by simp [spanElems], fun k hk => spanElems_getD _ _ hk⟩
    rw [exec_vlda, execVlda, tileLoad_eq, tileChecks_ok h.dest h.inside h.kind h.format h.ready]
    rfl
  · have hbase : 4096 * e.bi.toNat + 128 * o.row.toNat + 128 * o.qw.toNat = cBase := by rw [hqw]; rfl
    refine ⟨spanElems s.me.cmem cBase, ?_, by simp [spanElems], fun k hk => spanElems_getD _ _ hk⟩
    rw [exec_vldc, execVldc, tileLoad_eq, tileChecks_ok h.dest h.inside h.kind h.format h.ready, ← hbase]
    rfl
  · have hme : (spanStored s o).me = { s.me with amem := cwrite s.me.amem aBase ((s.me.line d).flatMap wBytes) } := s.onMe_me _
    refine ⟨spanStored s o, ?_, memSame_of_eq rfl rfl, ⟨?_, rfl, fun k hk => s.onMe_other _ hk⟩, fun k hk => cnum_of_bytes fun i hi => ?_,
      fun a ha => ?_⟩
    · rw [exec_vsta, execVsta_eq, tileChecks_ok h.dest h.inside h.kind h.format h.ready, Res.bind_ok, decide_eq_true hrc]
      rfl
    · rw [hme]
    · rw [hme, cget_lineWritten, if_pos (by omega), wBytes_getD _ (Nat.mod_lt _ (by decide)),
        show (aBase + 4 * k + i - aBase) / 4 = k by omega, show (aBase + 4 * k + i - aBase) % 4 = i by omega]
    · rw [hme, cget_lineWritten, if_neg ha]
  · exact traps_of_finish (by rw [exec_vlda, execVlda, tileLoad_eq, tileChecks_kind hd hth hkind]; rfl)
  · exact traps_of_finish (by rw [exec_vsta, execVsta_eq, tileChecks_kind hd hth hkind]; rfl)
  · exact traps_of_finish (by rw [exec_vldc, execVldc, tileLoad_eq, tileChecks_kind hd hth hkind]; rfl)
  · exact traps_of_finish (by rw [exec_vlda, execVlda, tileLoad_eq, tileChecks_empty hd hth hkind (.inr hft) hts hdc hqc]; rfl)
  · exact traps_of_finish (by rw [exec_vsta, execVsta_eq, tileChecks_empty hd hth hkind (.inr hft) hts hdc hqc]; rfl)
  · exact traps_of_finish (by rw [exec_vldc, execVldc, tileLoad_eq, tileChecks_empty hd hth hkind (.inr hft) hts hdc hqc]; rfl)

end Sys2Proof.Machine
end

section
/-! O9: scalar accesses of a scratchpad (R82 to R85, R192, R197). -/

namespace Sys2Proof.Machine

open Sys2Proof.Claims

/-! The checks of an S address (R82, R84). -/

/-- The checks in their order: inside the address space, of a window, inside it, aligned. -/
theorem State.sPlace_eq (s : State) (x n : Nat) : s.sPlace x n =
    if 2 ^ 24 ≤ x then trapE 0x0003 (BitVec.ofNat 64 x)
    else match gsWindow s x with
      | none => trapE 0x0003 (BitVec.ofNat 64 x)
      | some k => if 4096 * (tget s.strands k).win.sb < x % 2 ^ 17 + n then trapE 0x0003 (BitVec.ofNat 64 x)
        else if x % 2 ^ 17 % n ≠ 0 then trapE 0x0006 (BitVec.ofNat 64 x)
        else .ok { strand := k, sof := x % 2 ^ 17, own := decide (x / 2 ^ 17 = 127) } := by
  have hrest (k : Nat) : (do
      need (x % 2 ^ 17 + n ≤ 4096 * (tget s.strands k).win.sb) cWindow (BitVec.ofNat 64 x)
      need (x % 2 ^ 17 % n = 0) cAlign (BitVec.ofNat 64 x)
      return { strand := k, sof := x % 2 ^ 17, own := decide (x / 2 ^ 17 = 127) } : Res SPlace) =
      if 4096 * (tget s.strands k).win.sb < x % 2 ^ 17 + n then trapE 0x0003 (BitVec.ofNat 64 x)
      else if x % 2 ^ 17 % n ≠ 0 then trapE 0x0006 (BitVec.ofNat 64 x)
      else .ok { strand := k, sof := x % 2 ^ 17, own := decide (x / 2 ^ 17 = 127) } := by
    by_cases hin : 4096 * (tget s.strands k).win.sb < x % 2 ^ 17 + n
    · rw [decide_eq_false (Nat.not_le.mpr hin), if_pos hin]
      rfl
    · rw [decide_eq_true (Nat.not_lt.mp hin), if_neg hin]
      by_cases hal : x % 2 ^ 17 % n = 0
      · rw [decide_eq_true hal, if_neg (not_not.mpr hal)]
        rfl
      · rw [decide_eq_false hal, if_pos hal]
        rfl
  rw [State.sPlace]
  by_cases hx : 2 ^ 24 ≤ x
  · rw [decide_eq_false (Nat.not_lt.mpr hx), if_pos hx]
    rfl
  · rw [decide_eq_true (Nat.not_le.mp hx), need_true, Res.bind_ok, if_neg hx]
    by_cases hown : x / 2 ^ 17 = 127
    · have hwindow : gsWindow s x = some s.cur := if_pos hown
      rw [hwindow]
      simp only [if_pos hown, Res.bind_ok]
      exact hrest s.cur
    · have hwindow : gsWindow s x = (s.gang.strands[x / 2 ^ 17]?).filter (fun k => (tget s.strands k).st ≠ 5) := if_neg hown
      rw [hwindow]
      simp only [if_neg hown]
      cases s.gang.strands[x / 2 ^ 17]? with
      | none => rfl
      | some k =>
        by_cases hend : (tget s.strands k).st = 5
        · simp only [hend, if_true, Option.filter_some, ne_eq, not_true_eq_false, decide_false, Bool.false_eq_true, if_false]
          rfl
        · simp only [hend, if_false, Option.filter_some, ne_eq, not_false_eq_true, decide_true, if_true, Res.bind_ok]
          exact hrest k

/-- The first check that fails is the one that traps. -/
theorem State.sPlace_trap {s : State} {x n : Nat} {c : BitVec 16} (h : scratchTrap s x n = some c) :
    s.sPlace x n = trapE c (BitVec.ofNat 64 x) := by
  unfold scratchTrap at h
  rw [← gsWindow] at h
  rw [State.sPlace_eq]
  split at h
  next hx =>
    cases h
    rw [if_pos hx]
  next hx =>
    rw [if_neg hx]
    cases hwindow : gsWindow s x with
    | none =>
      rw [hwindow] at h
      cases h
      rfl
    | some k =>
      rw [hwindow] at h
      dsimp only at h ⊢
      split at h
      next hin =>
        cases h
        rw [if_pos hin]
      next hin =>
        rw [if_neg hin]
        split at h
        next hal =>
          cases h
          rw [if_pos hal]
        next => cases h

theorem traps_of_scratchTrap {i : Instr} {s : State} {x n : Nat} {c : BitVec 16} {go : SPlace → Res State}
    (hexec : exec i s = finish s (s.sPlace x n >>= go)) (h : scratchTrap s x n = some c) : Traps i s c (BitVec.ofNat 64 x) := by
  rw [State.sPlace_trap h] at hexec
  exact traps_of_finish hexec

/-- The place that an S address names in the window of a strand. -/
def scratchPlace (x k : Nat) : SPlace := { strand := k, sof := x % 2 ^ 17, own := decide (x / 2 ^ 17 = 127) }

theorem sPlace_of_ready {s : State} {x n k : Nat} (h : SReady s x n k) : s.sPlace x n = .ok (scratchPlace x k) :=
  (s.sPlace_ok x n _).mpr ⟨h.inside, k, h.target, h.bounds, h.aligned, rfl⟩

/-! What a write of a window leaves (R85). -/

/-- A strand with bytes of its window written. -/
def windowPut (p : SPlace) (l : List Byte) (t : Strand) : Strand := { t with smem := cwrite t.smem p.sof l }

theorem State.sWrite_strands (s : State) (p : SPlace) (l : List Byte) :
    (s.sWrite p l).strands = tmod s.strands p.strand (windowPut p l) := rfl

theorem State.cget_sWrite (s : State) {p : SPlace} (hp : (tfind s.strands p.strand).isSome) (l : List Byte) (m a : Nat) :
    cget (tget (s.sWrite p l).strands m).smem a =
      if m = p.strand ∧ p.sof ≤ a ∧ a < p.sof + l.length then l.getD (a - p.sof) 0 else cget (tget s.strands m).smem a := by
  rw [State.sWrite_strands]
  by_cases hm : m = p.strand
  · subst hm
    rw [tget_tmod s.strands _ hp, windowPut, cget_cwrite]
    simp only [true_and]
  · rw [if_neg fun h => hm h.1, tget_tmod_of_ne s.strands _ hm]

theorem State.sWrite_keeps {α : Type} (s : State) (p : SPlace) (l : List Byte) (g : Strand → α)
    (h : ∀ (t : Strand) m, g { t with smem := m } = g t) (m : Nat) : g (tget (s.sWrite p l).strands m) = g (tget s.strands m) :=
  tget_tmod_of_eq s.strands p.strand m (windowPut p l) g fun t => h t (cwrite t.smem p.sof l)

/-! The instructions (R192). -/

theorem exec_of_loadSRule {i : Instr} {o : FmtLS} {sg : Bool} {n : Nat} (h : loadSRule i = some (o, sg, n)) (s : State) :
    exec i s = loadS sg n o s := by
  unfold loadSRule at h
  split at h <;> cases h <;> rfl

theorem exec_of_storeSRule {i : Instr} {o : FmtLS} {n : Nat} (h : storeSRule i = some (o, n)) (s : State) :
    exec i s = storeS n o s := by
  unfold storeSRule at h
  split at h <;> cases h <;> rfl

theorem scratchReads : ScratchReads := by
  intro s i o sg n k hrule hready x v
  have hplace : s.sPlace ((s.reg o.sa).toNat + o.imm.toNat) n = .ok (scratchPlace x k) := sPlace_of_ready hready
  have hvalue : extend sg n (leNat (s.sRead (scratchPlace x k) n)) = v := extend_eq_extended sg _ (cread_length _ _ _)
  rw [exec_of_loadSRule hrule, loadS, hplace, Res.bind_ok, hvalue]
  refine ⟨fun hown => ?_, fun hown hld => ?_⟩
  · have : (scratchPlace x k).own = true := decide_eq_true hown
    rw [this]
    rfl
  · have : (scratchPlace x k).own = false := decide_eq_false hown
    rw [this, needLd, decide_eq_true hld]
    rfl

/-- A store of a window, counted where it is a sibling's. -/
theorem storeS_ready {s : State} {o : FmtLS} {n k : Nat} (hready : SReady s ((s.reg o.sa).toNat + o.imm.toNat) n k)
    (hst : ((s.reg o.sa).toNat + o.imm.toNat) / 2 ^ 17 ≠ 127 → s.me.stq.length < 63) :
    storeS n o s = .next ((s.sWrite (scratchPlace ((s.reg o.sa).toNat + o.imm.toNat) k) (leBytes n (s.reg o.sd).toNat)).storeCounted
      (((s.reg o.sa).toNat + o.imm.toNat) / 2 ^ 17 = 127)) := by
  rw [storeS, sPlace_of_ready hready, Res.bind_ok, State.storeCounted]
  by_cases hown : ((s.reg o.sa).toNat + o.imm.toNat) / 2 ^ 17 = 127
  · have : (scratchPlace ((s.reg o.sa).toNat + o.imm.toNat) k).own = true := decide_eq_true hown
    rw [if_pos hown, this]
    rfl
  · have : (scratchPlace ((s.reg o.sa).toNat + o.imm.toNat) k).own = false := decide_eq_false hown
    rw [if_neg hown, this, needSt, decide_eq_true (hst hown)]
    rfl

theorem scratchStores : ScratchStores := by
  intro s i o n k hrule hready hk hst x
  let y : State := s.sWrite (scratchPlace x k) (leBytes n (s.reg o.sd).toNat)
  have hsmem (m a : Nat) : cget (tget (y.storeCounted (x / 2 ^ 17 = 127)).strands m).smem a =
      if m = k ∧ x % 2 ^ 17 ≤ a ∧ a < x % 2 ^ 17 + n then (leBytes n (s.reg o.sd).toNat).getD (a - x % 2 ^ 17) 0
      else cget (tget s.strands m).smem a := by
    rw [y.storeCounted_keeps _ Strand.smem (fun _ _ => rfl) m, s.cget_sWrite hk, leBytes_length]
    rfl
  refine ⟨y.storeCounted (x / 2 ^ 17 = 127), (exec_of_storeSRule hrule s).trans (storeS_ready hready hst), ?_, fun j hj => ?_,
    fun m a hout => ?_, ?_, fun m => ⟨?_, ?_⟩⟩
  · obtain ⟨hmem, hcache⟩ := y.storeCounted_memSame (x / 2 ^ 17 = 127)
    exact ⟨hmem, hcache⟩
  · rw [hsmem, if_pos ⟨rfl, Nat.le_add_right _ _, Nat.add_lt_add_left hj _⟩, Nat.add_sub_cancel_left, leBytes_toNat_getD _ _ _ hj]
  · rw [hsmem, if_neg hout]
  · rw [State.storeCounted_me]
    exact congrArg (· ++ _) (s.sWrite_keeps _ _ Strand.stq (fun _ _ => rfl) s.cur)
  · exact (y.storeCounted_keeps _ Strand.s (fun _ _ => rfl) m).trans (s.sWrite_keeps _ _ Strand.s (fun _ _ => rfl) m)
  · exact (y.storeCounted_keeps _ Strand.planes (fun _ _ => rfl) m).trans (s.sWrite_keeps _ _ Strand.planes (fun _ _ => rfl) m)

theorem scratchTraps : ScratchTraps := by
  refine ⟨fun s i o n cause hrule => fun htrap => ?_, fun s i o f cause hrule hsp => fun htrap => ?_⟩
  · obtain ⟨sg, hload⟩ | hstore := hrule
    · exact traps_of_scratchTrap (exec_of_loadSRule hload s) htrap
    · exact traps_of_scratchTrap (exec_of_storeSRule hstore s) htrap
  · obtain ⟨op, hexec⟩ := exec_of_atomicRule hrule s
    rw [atomic, if_pos hsp] at hexec
    exact traps_of_scratchTrap hexec htrap

/-- Settles O9: the checks are one chain that traps as `scratchTrap` says; a store writes its bytes of one window. -/
theorem scratchAccesses : Obligations.ScratchAccesses := by
  unfold Obligations.ScratchAccesses
  exact ⟨scratchReads, scratchStores, scratchTraps⟩

end Sys2Proof.Machine
end

section
/-! O11: atomics on a scratchpad, and what they share with those through handles (R93, R141 to R144, R194 to R197). -/

namespace Sys2Proof.Machine

open Sys2Proof.Claims

/-! Lines written back and dropped (R93, R141). -/

/-- Of cluster `c` the lines that `p` names are written back and gone; nothing else of memory and of the caches changes. -/
structure Flushed (c : Nat) (p : Nat → Bool) (s t : State) : Prop where
  mem : ∀ k, cget t.mem k = if p (k / 64) then homeByte s c k else cget s.mem k
  lines : ∀ j, tfind (tget t.clusters c).lines j = if p j then none else tfind (tget s.clusters c).lines j
  other : ∀ m, m ≠ c → tget t.clusters m = tget s.clusters m

theorem Flushed.of_eq {s t : State} (c : Nat) (hmem : t.mem = s.mem) (hclusters : t.clusters = s.clusters) :
    Flushed c (fun _ => false) s t where
  mem k := by rw [hmem, if_neg Bool.false_ne_true]
  lines j := by rw [hclusters, if_neg Bool.false_ne_true]
  other m _ := by rw [hclusters]

/-- What the homes of bytes will hold is not changed. -/
theorem Flushed.home {c : Nat} {p : Nat → Bool} {s t : State} (h : Flushed c p s t) (pa : Nat) : homeByte t c pa = homeByte s c pa := by
  rw [homeByte, h.lines, h.mem]
  cases hp : p (pa / 64) with
  | true => rfl
  | false => rfl

theorem Flushed.trans {c : Nat} {p q : Nat → Bool} {s t u : State} (h : Flushed c p s t) (h' : Flushed c q t u) :
    Flushed c (fun j => p j || q j) s u where
  mem k := by
    rw [h'.mem, h.home, h.mem]
    cases p (k / 64) <;> cases q (k / 64) <;> rfl
  lines j := by
    rw [h'.lines, h.lines]
    cases p j <;> cases q j <;> rfl
  other m hm := (h'.other m hm).trans (h.other m hm)

theorem State.dropLine_flushed (s : State) (c ln : Nat) : Flushed c (fun j => j = ln) s ((s.writeBack c ln).dropLine c ln) where
  mem k := (s.writeBack_mem c ln k).trans (by simp only [decide_eq_true_eq])
  lines j := by
    rw [State.dropLine_line, s.writeBack_line]
    by_cases hj : j = ln
    · simp [hj]
    · cases tfind (tget s.clusters c).lines j <;> simp [hj]
  other m hm := (State.dropLine_other _ ln hm).trans (s.writeBack_other ln hm)

/-- The fence of a scope. -/
theorem State.fenceCache_flushed (s : State) (c scope : Nat) : Flushed c (fun _ => 2 ≤ scope) s (s.fenceCache c scope) := by
  by_cases hscope : 2 ≤ scope
  · obtain ⟨-, hhome, hline, hother⟩ := foldl_dropLine c (((tget s.clusters c).lines.map (·.1)).filter (fun _ => true)) s
    have hflush : s.fenceCache c scope = (((tget s.clusters c).lines.map (·.1)).filter (fun _ => true)).foldl
        (fun s ln => (s.writeBack c ln).dropLine c ln) s := if_pos hscope
    rw [← hflush] at hhome hline hother
    have hnone (j : Nat) : tfind (tget (s.fenceCache c scope).clusters c).lines j = none := by
      rw [hline]
      split
      · rfl
      · rename_i hj
        refine Option.eq_none_iff_forall_not_mem.mpr fun l hl => hj ?_
        exact List.mem_filter.mpr ⟨mem_keys_of_tfind hl, rfl⟩
    refine ⟨fun k => ?_, fun j => ?_, hother⟩
    · rw [if_pos (decide_eq_true hscope), ← hhome k, homeByte, hnone]
    · rw [if_pos (decide_eq_true hscope), hnone]
  · have hsame : s.fenceCache c scope = s := if_neg hscope
    rw [hsame, decide_eq_false hscope]
    exact .of_eq c rfl rfl

theorem State.fenceCache_withHome (s : State) (c scope : Nat) : ∃ m k, s.fenceCache c scope = s.withHome m k := by
  by_cases hscope : 2 ≤ scope
  · obtain ⟨⟨m, k, heq⟩, -⟩ := foldl_dropLine c (((tget s.clusters c).lines.map (·.1)).filter (fun _ => true)) s
    exact ⟨m, k, (if_pos hscope : s.fenceCache c scope = _).trans heq⟩
  · exact ⟨s.mem, s.clusters, if_neg hscope⟩

/-- The fence that an order field holds in front of its access or behind it (R143). -/
def State.fenceIf (s : State) (b : Bool) (c scope : Nat) : State := if b then s.fenceCache c scope else s

theorem State.fenceIf_flushed (s : State) (b : Bool) (c scope : Nat) : Flushed c (fun _ => b && 2 ≤ scope) s (s.fenceIf b c scope) := by
  cases b with
  | false => exact .of_eq c rfl rfl
  | true => exact s.fenceCache_flushed c scope

theorem State.fenceIf_withHome (s : State) (b : Bool) (c scope : Nat) : ∃ m k, s.fenceIf b c scope = s.withHome m k := by
  cases b with
  | false => exact ⟨s.mem, s.clusters, rfl⟩
  | true => exact s.fenceCache_withHome c scope

theorem State.fenceIf_same (s : State) (b : Bool) (c scope : Nat) :
    (s.fenceIf b c scope).strands = s.strands ∧ (s.fenceIf b c scope).cur = s.cur ∧ (s.fenceIf b c scope).me = s.me := by
  obtain ⟨m, k, h⟩ := s.fenceIf_withHome b c scope
  rw [h]
  exact ⟨rfl, rfl, rfl⟩

/-- An order field's fences together. -/
theorem flushes_eq (ord : BitVec 5) : (bitAt ord 3 && decide (2 ≤ (ord.extractLsb' 0 3).toNat) ||
    bitAt ord 4 && decide (2 ≤ (ord.extractLsb' 0 3).toNat)) = flushes ord := by
  rw [flushes, bitAt, bitAt, Bool.and_or_distrib_right]

/-- Bytes beyond HBM have no line. -/
theorem homeByte_lines {s : State} {c k : Nat} (h : ∀ e ∈ (tget s.clusters c).lines, e.1 < 2 ^ 33) (b : Bool) :
    (if b then homeByte s c k else cget s.mem k) = if k < 2 ^ 39 ∧ b = true then homeByte s c k else cget s.mem k := by
  by_cases hk : k < 2 ^ 39
  · simp only [hk, true_and]
  · rw [if_neg fun hb : k < 2 ^ 39 ∧ b = true => hk hb.1, homeByte_of_le h (Nat.not_lt.mp hk), ite_self]

/-! How an atomic is counted (R72, R143, R197). -/

/-- The issuing strand once an atomic is counted, its acquire's hold included. -/
def atomicCounted (t : Strand) (ord : BitVec 5) (sd : BitVec 6) (v : Word) : Strand :=
  { t with
    stq := t.stq ++ (if sd = 0 then [({} : StOp)] else []),
    ldq := t.ldq ++ (if sd = 0 then [] else [{ dest := .scalar sd v, lanes := BitVec.allOnes 32 }]),
    fenced := t.fenced || (bitAt ord 4 && anyHeld t),
    fenceScope := if bitAt ord 4 && anyHeld t then max t.fenceScope (ord.extractLsb' 0 3).toNat else t.fenceScope }

/-- The machine once an atomic is counted. -/
def State.countAtomic (s : State) (ord : BitVec 5) (sd : BitVec 6) (v : Word) : State :=
  let s := if bitAt ord 4 then s.fenceMe (ord.extractLsb' 0 3).toNat else s
  if sd = 0 then s.pushSt else s.pushLd (.scalar sd v)

/-- The strand that an acquire leaves. -/
theorem fencedBy_eq (s : State) (scope : Nat) : fencedBy s scope s.me =
    { s.me with fenced := s.me.fenced || anyHeld s.me, fenceScope := if anyHeld s.me then max s.me.fenceScope scope else s.me.fenceScope } := by
  unfold fencedBy
  rw [← anyHeld]
  cases anyHeld s.me with
  | true => simp
  | false => simp

theorem State.countAtomic_me (s : State) (ord : BitVec 5) (sd : BitVec 6) (v : Word) :
    (s.countAtomic ord sd v).me = atomicCounted s.me ord sd v := by
  have hfence : (if bitAt ord 4 then s.fenceMe (ord.extractLsb' 0 3).toNat else s).me =
      { s.me with
        fenced := s.me.fenced || (bitAt ord 4 && anyHeld s.me),
        fenceScope := if bitAt ord 4 && anyHeld s.me then max s.me.fenceScope (ord.extractLsb' 0 3).toNat else s.me.fenceScope } := by
    cases bitAt ord 4 with
    | true => exact (s.fenceMe_me _).trans (fencedBy_eq s _)
    | false => simp
  rw [State.countAtomic, atomicCounted]
  by_cases hsd : sd = 0
  · rw [if_pos hsd, State.pushSt_me, hfence]
    simp only [hsd, if_true, List.append_nil]
  · rw [if_neg hsd, State.pushLd_me, hfence]
    simp only [hsd, if_false, List.append_nil]

theorem State.countAtomic_same (s : State) (ord : BitVec 5) (sd : BitVec 6) (v : Word) :
    (s.countAtomic ord sd v).mem = s.mem ∧ (s.countAtomic ord sd v).clusters = s.clusters ∧ (s.countAtomic ord sd v).cur = s.cur := by
  unfold State.countAtomic
  cases bitAt ord 4 <;> by_cases hsd : sd = 0 <;> simp only [hsd, if_true, if_false, Bool.false_eq_true] <;> exact ⟨rfl, rfl, rfl⟩

theorem State.countAtomic_other (s : State) (ord : BitVec 5) (sd : BitVec 6) (v : Word) {k : Nat} (hk : k ≠ s.cur) :
    tfind (s.countAtomic ord sd v).strands k = tfind s.strands k := by
  have hfence : tfind (if bitAt ord 4 then s.fenceMe (ord.extractLsb' 0 3).toNat else s).strands k = tfind s.strands k := by
    cases bitAt ord 4 with
    | true => exact s.fenceMe_other _ hk
    | false => rfl
  have hcur : k ≠ (if bitAt ord 4 then s.fenceMe (ord.extractLsb' 0 3).toNat else s).cur := by
    cases bitAt ord 4 <;> exact hk
  rw [State.countAtomic]
  by_cases hsd : sd = 0
  · rw [if_pos hsd]
    exact (State.onMe_other _ _ hcur).trans hfence
  · rw [if_neg hsd]
    exact (State.onMe_other _ _ hcur).trans hfence

/-- Counting an atomic changes nothing else of any strand. -/
theorem State.countAtomic_keeps {α : Type} (s : State) (ord : BitVec 5) (sd : BitVec 6) (v : Word) (g : Strand → α)
    (h : g (atomicCounted s.me ord sd v) = g s.me) (m : Nat) : g (tget (s.countAtomic ord sd v).strands m) = g (tget s.strands m) := by
  by_cases hm : m = s.cur
  · subst hm
    have hme := s.countAtomic_me ord sd v
    rw [State.me, (s.countAtomic_same ord sd v).2.2] at hme
    rw [hme, h, State.me]
  · rw [tget, tget, s.countAtomic_other ord sd v hm]

/-! The new value (R195, R196). -/

/-- Equal numbers of a width from equal integers. -/
theorem intVal_inj {w a b : Nat} (ha : a < 2 ^ w) (hb : b < 2 ^ w) (h : intVal true w a = intVal true w b) : a = b := by
  unfold intVal at h
  rw [Nat.mod_eq_of_lt ha, Nat.mod_eq_of_lt hb] at h
  split at h <;> split at h <;> omega

/-- An atomic is the operation of an opcode whose new value is that of its rule. -/
theorem exec_of_atomic {i : Instr} {o : FmtLA} {f : Nat → Nat → Nat → Nat → Nat} (h : atomicRule i = some (o, f)) (s : State) :
    ∃ op, exec i s = atomic op o s ∧ ∀ n v x y, v < 2 ^ (8 * n) → x < 2 ^ (8 * n) → atomicNew op n v x y = f n v x y := by
  unfold atomicRule at h
  split at h
  case h_3 =>
    cases h
    refine ⟨34, rfl, fun n v x y hv hx => ?_⟩
    show (if intVal true (8 * n) v ≤ intVal true (8 * n) x then x else v) =
      if intVal true (8 * n) x ≤ intVal true (8 * n) v then v else x
    split <;> split
    · exact (intVal_inj hv hx (by omega)).symm
    · rfl
    · rfl
    · omega
  case h_4 =>
    cases h
    exact ⟨35, rfl, fun n v x y _ _ => Nat.min_def⟩
  case h_5 =>
    cases h
    refine ⟨36, rfl, fun n v x y _ _ => ?_⟩
    show max v x = if x ≤ v then v else x
    rw [Nat.max_comm, Nat.max_def]
  all_goals
    cases h
  all_goals
    exact ⟨_, rfl, fun n v x y _ _ => rfl⟩

/-! On a scratchpad (R197). -/

theorem atomSize_cases (o : FmtLA) : atomSize o = 4 ∨ atomSize o = 8 := by
  unfold atomSize
  split
  · exact .inr rfl
  · exact .inl rfl

/-- What an atomic of an opcode stores. -/
def atomicBytes (op n v : Nat) (b c : Word) : List Byte := leBytes n (atomicNew op n v (b.toNat % 2 ^ (8 * n)) (c.toNat % 2 ^ (8 * n)))

theorem atomicBytes_getD {op n v : Nat} {f : Nat → Nat → Nat → Nat → Nat}
    (hnew : ∀ n v x y, v < 2 ^ (8 * n) → x < 2 ^ (8 * n) → atomicNew op n v x y = f n v x y) (hv : v < 2 ^ (8 * n)) (b c : Word) {j : Nat}
    (hj : j < n) : (atomicBytes op n v b c).getD j 0 =
      BitVec.ofNat 8 (f n v (b.toNat % 2 ^ (8 * n)) (c.toNat % 2 ^ (8 * n)) / 256 ^ j) := by
  rw [atomicBytes, leBytes_getD _ _ _ hj, hnew n v _ _ hv (Nat.mod_lt _ (Nat.two_pow_pos _))]

/-- Room in the counter of an atomic (R72, R197). -/
theorem atomic_counts {s : State} {sd : BitVec 6} (h : if sd = 0 then s.me.stq.length < 63 else s.me.ldq.length < 63) :
    (if sd = 0 then needSt s.me else needLd s.me) = .ok () := by
  by_cases hsd : sd = 0
  · rw [if_pos hsd] at h ⊢
    rw [needSt, decide_eq_true h, needReady_true]
  · rw [if_neg hsd] at h ⊢
    rw [needLd, decide_eq_true h, needReady_true]

/-- A release waits for the strand's held accesses (R143). -/
theorem release_ready {s : State} {ord : BitVec 5} (h : bitAt ord 3 = true → anyHeld s.me = false) :
    (!(bitAt ord 3 && s.me.holding)) = true := by
  show (!(bitAt ord 3 && anyHeld s.me)) = true
  cases hb : bitAt ord 3 with
  | false => rfl
  | true => rw [h hb]; rfl

/-- The fence in front of an atomic. -/
def State.releaseFence (s : State) (ord : BitVec 5) : State := s.fenceIf (bitAt ord 3) s.cl (ord.extractLsb' 0 3).toNat

/-- The fence behind an atomic of a strand of cluster `c`. -/
def State.acquireFence (s : State) (ord : BitVec 5) (c : Nat) : State := s.fenceIf (bitAt ord 4) c (ord.extractLsb' 0 3).toNat

/-- What a window holds. -/
def scratchValue (s : State) (x k n : Nat) : Nat := leNat (cread (tget s.strands k).smem (x % 2 ^ 17) n)

/-- The bytes that an atomic on a window stores. -/
def scratchBytes (op : Nat) (o : FmtLA) (x k : Nat) (s : State) : List Byte :=
  atomicBytes op (atomSize o) (scratchValue s x k (atomSize o)) (s.reg o.sa) (s.reg o.sb)

/-- The machine once an atomic has written a window. -/
def scratchWritten (op : Nat) (o : FmtLA) (x k : Nat) (s : State) : State :=
  (s.releaseFence o.ord).sWrite (scratchPlace x k) (scratchBytes op o x k s)

/-- The machine with the fence behind the atomic done too. -/
def scratchFenced (op : Nat) (o : FmtLA) (x k : Nat) (s : State) : State := (scratchWritten op o x k s).acquireFence o.ord s.cl

section
variable (op : Nat) (o : FmtLA) (x k : Nat) (s : State)

theorem scratchWritten_same : (scratchWritten op o x k s).cur = s.cur ∧
    (scratchWritten op o x k s).strands = tmod s.strands k (windowPut (scratchPlace x k) (scratchBytes op o x k s)) := by
  obtain ⟨hstrands, hcur, -⟩ := s.fenceIf_same (bitAt o.ord 3) s.cl (o.ord.extractLsb' 0 3).toNat
  exact ⟨hcur, congrArg (tmod · k (windowPut (scratchPlace x k) (scratchBytes op o x k s))) hstrands⟩

theorem scratchFenced_same : (scratchFenced op o x k s).cur = s.cur ∧
    (scratchFenced op o x k s).strands = tmod s.strands k (windowPut (scratchPlace x k) (scratchBytes op o x k s)) := by
  obtain ⟨hcur, hstrands⟩ := scratchWritten_same op o x k s
  obtain ⟨hstrands', hcur', -⟩ := (scratchWritten op o x k s).fenceIf_same (bitAt o.ord 4) s.cl (o.ord.extractLsb' 0 3).toNat
  exact ⟨hcur'.trans hcur, hstrands'.trans hstrands⟩

theorem scratchFenced_flushed : Flushed s.cl (fun _ => flushes o.ord) s (scratchFenced op o x k s) := by
  have hrel := s.fenceIf_flushed (bitAt o.ord 3) s.cl (o.ord.extractLsb' 0 3).toNat
  have hwrite : Flushed s.cl (fun _ => false) (s.releaseFence o.ord) (scratchWritten op o x k s) := .of_eq s.cl rfl rfl
  have hacq := (scratchWritten op o x k s).fenceIf_flushed (bitAt o.ord 4) s.cl (o.ord.extractLsb' 0 3).toNat
  have hall := (hrel.trans hwrite).trans hacq
  simp only [Bool.or_false, flushes_eq] at hall
  exact hall

theorem scratchWritten_cl : (scratchWritten op o x k s).cl = s.cl := by
  obtain ⟨hcur, hstrands⟩ := scratchWritten_same op o x k s
  unfold State.cl State.me
  rw [hcur, hstrands]
  exact congrArg clusterOf (tget_tmod_of_eq s.strands k s.cur _ Strand.core fun _ => rfl)

end

/-- An atomic on a scratchpad that is ready writes the window between its fences and is counted. -/
theorem atomicS_ready {s : State} {o : FmtLA} {x k : Nat} (op : Nat) (hx : x = (s.reg o.sc).toNat + o.imm.toNat * atomSize o)
    (hready : SReady s x (atomSize o) k) (hroom : if o.sd = 0 then s.me.stq.length < 63 else s.me.ldq.length < 63)
    (hrel : bitAt o.ord 3 = true → anyHeld s.me = false) :
    atomicS op o s = .ok ((scratchFenced op o x k s).countAtomic o.ord o.sd (BitVec.ofNat 64 (scratchValue s x k (atomSize o)))) := by
  obtain ⟨hstrands, hcur, hme⟩ := s.fenceIf_same (bitAt o.ord 3) s.cl (o.ord.extractLsb' 0 3).toNat
  have hbind : atomicS op o s = (s.sPlace x (atomSize o) >>= fun p =>
      (if o.sd = 0 then needSt s.me else needLd s.me) >>= fun _ => needReady (!(bitAt o.ord 3 && s.me.holding)) >>= fun _ =>
        let z := s.releaseFence o.ord
        let v := leNat (z.sRead p (atomSize o))
        let y := z.sWrite p (atomicBytes op (atomSize o) v (z.reg o.sa) (z.reg o.sb))
        let y := if bitAt o.ord 4 then (y.fenceCache y.cl (o.ord.extractLsb' 0 3).toNat).fenceMe (o.ord.extractLsb' 0 3).toNat else y
        .ok (if o.sd = 0 then y.pushSt else y.pushLd (.scalar o.sd (BitVec.ofNat 64 v)))) := by
    rw [atomicS, hx]
    by_cases hsd : o.sd = 0
    · simp only [hsd, if_true]
      rfl
    · simp only [hsd, if_false]
      rfl
  have hread : leNat ((s.releaseFence o.ord).sRead (scratchPlace x k) (atomSize o)) = scratchValue s x k (atomSize o) := by
    rw [State.sRead, State.releaseFence, hstrands]
    rfl
  have hreg (r : BitVec 6) : (s.releaseFence o.ord).reg r = s.reg r := by
    rw [State.reg, State.releaseFence, hme, State.reg]
  rw [hbind, sPlace_of_ready hready, atomic_counts hroom, release_ready hrel]
  simp only [Res.bind_ok, needReady_true, hread, hreg]
  rw [← scratchBytes, ← scratchWritten, scratchWritten_cl, State.countAtomic, scratchFenced, State.acquireFence]
  cases bitAt o.ord 4 <;> rfl

/-- A strand's window once bytes of a window are written. -/
theorem cget_windowPut (t : Table Strand) {p : SPlace} {k : Nat} (hk : (tfind t k).isSome) (l : List Byte) (m a : Nat) :
    cget (tget (tmod t k (windowPut p l)) m).smem a =
      if m = k ∧ p.sof ≤ a ∧ a < p.sof + l.length then l.getD (a - p.sof) 0 else cget (tget t m).smem a := by
  by_cases hm : m = k
  · subst hm
    rw [tget_tmod t _ hk, windowPut, cget_cwrite]
    simp only [true_and]
  · rw [if_neg fun h : m = k ∧ _ => hm h.1, tget_tmod_of_ne t _ hm]

/-- Settles O11: the window is written between the two fences, which change memory alone; the strand is then counted. -/
theorem scratchAtomics : Obligations.ScratchAtomics := by
  unfold Obligations.ScratchAtomics
  intro s i o f k hrule hsp n x hready hk hroom hlines hrel v
  obtain ⟨op, hexec, hnew⟩ := exec_of_atomic hrule s
  rw [atomic, if_pos hsp, atomicS_ready op rfl hready hroom hrel, finish_ok] at hexec
  obtain ⟨hcur, hstrands⟩ := scratchFenced_same op o x k s
  have hflushed := scratchFenced_flushed op o x k s
  have hlen : (scratchBytes op o x k s).length = n := leBytes_length _ _
  have hv : v < 2 ^ (8 * n) := by
    have := leNat_lt (cread (tget s.strands k).smem (x % 2 ^ 17) n)
    rwa [cread_length, ← Nat.pow_mul 2 8] at this
  have hkeeps {α : Type} (g : Strand → α) (h : ∀ t, g (windowPut (scratchPlace x k) (scratchBytes op o x k s) t) = g t) (m : Nat) :
      g (tget (scratchFenced op o x k s).strands m) = g (tget s.strands m) :=
    (congrArg (fun l => g (tget l m)) hstrands).trans (tget_tmod_of_eq s.strands k m _ g h)
  have hme {α : Type} (g : Strand → α) (h : ∀ t, g (windowPut (scratchPlace x k) (scratchBytes op o x k s) t) = g t) :
      g (scratchFenced op o x k s).me = g s.me :=
    (congrArg (fun c => g (tget (scratchFenced op o x k s).strands c)) hcur).trans (hkeeps g h s.cur)
  revert hexec hkeeps hme hflushed hstrands
  generalize scratchFenced op o x k s = y
  intro hexec hstrands hflushed hkeeps hme
  have hsmem (m a : Nat) : cget (tget (y.countAtomic o.ord o.sd (BitVec.ofNat 64 v)).strands m).smem a =
      if m = k ∧ x % 2 ^ 17 ≤ a ∧ a < x % 2 ^ 17 + n then (scratchBytes op o x k s).getD (a - x % 2 ^ 17) 0
      else cget (tget s.strands m).smem a := by
    rw [y.countAtomic_keeps _ _ _ Strand.smem rfl m, hstrands, cget_windowPut _ hk, hlen]
    rfl
  have hcounted := y.countAtomic_me o.ord o.sd (BitVec.ofNat 64 v)
  have hheld : anyHeld y.me = anyHeld s.me := hme anyHeld fun _ => rfl
  refine ⟨y.countAtomic o.ord o.sd (BitVec.ofNat 64 v), hexec, fun j hj => ?_, fun m a hout => ?_, ?_, ?_, ?_, fun hacq hany => ?_,
    fun a => ?_, fun m => ⟨?_, ?_⟩⟩
  · rw [hsmem, if_pos ⟨rfl, Nat.le_add_right _ _, Nat.add_lt_add_left hj _⟩, Nat.add_sub_cancel_left]
    exact atomicBytes_getD hnew hv _ _ hj
  · rw [hsmem, if_neg hout]
  · rw [hcounted, atomicCounted, hme Strand.stq fun _ => rfl]
  · rw [hcounted, atomicCounted, hme Strand.ldq fun _ => rfl]
  · rw [hcounted, atomicCounted, hheld, hme Strand.fenced fun _ => rfl]
  · rw [hcounted, atomicCounted, hheld, hme Strand.fenceScope fun _ => rfl, hacq, hany]
    rfl
  · rw [(y.countAtomic_same _ _ _).1, hflushed.mem]
    exact homeByte_lines hlines _
  · exact (y.countAtomic_keeps _ _ _ Strand.s rfl m).trans (hkeeps Strand.s (fun _ => rfl) m)
  · exact (y.countAtomic_keeps _ _ _ Strand.planes rfl m).trans (hkeeps Strand.planes (fun _ => rfl) m)

end Sys2Proof.Machine
end

section
/-! O10: atomics through handles (R93, R103, R142 to R144, R194 to R197). -/

namespace Sys2Proof.Machine

open Sys2Proof.Claims

/-! An atomic at its home (R93, R142). -/

theorem State.atomicFree_withHome (s : State) (m : List Host.Cell) (k : Table Cluster) (p : Nat) (t : BitVec 4) (res : Nat) :
    (s.withHome m k).atomicFree p t res = s.atomicFree p t res := by
  unfold State.atomicFree State.atomicsFree State.firstAt
  simp only [State.heldReady_withHome]
  rfl

/-- The machine once the line of an atomic's place has gone home. -/
def State.lineHome (s : State) (c kind pa : Nat) : State := if kind = 0 then (s.writeBack c (pa / 64)).dropLine c (pa / 64) else s

theorem State.lineHome_flushed (s : State) (c kind pa : Nat) :
    Flushed c (fun j => kind = 0 && j = pa / 64) s (s.lineHome c kind pa) := by
  unfold State.lineHome
  by_cases hkind : kind = 0
  · rw [if_pos hkind, decide_eq_true hkind]
    exact s.dropLine_flushed c (pa / 64)
  · rw [if_neg hkind, decide_eq_false hkind]
    exact .of_eq c rfl rfl

theorem State.lineHome_same (s : State) (c kind pa : Nat) : (s.lineHome c kind pa).strands = s.strands ∧ (s.lineHome c kind pa).cur = s.cur := by
  obtain ⟨m, k, h⟩ := s.writeBack_eq c (pa / 64)
  unfold State.lineHome
  split
  · rw [h]
    exact ⟨rfl, rfl⟩
  · exact ⟨rfl, rfl⟩

/-- What the home of a place holds. -/
def homeValue (s : State) (c kind pa n : Nat) : Nat :=
  leNat ((List.range n).map (fun j => if kind = 0 then homeByte s c (pa + j) else cget s.mem (memKey kind (pa + j))))

/-- The machine once an atomic has written its home, the fence behind it included. -/
def State.atHome (s : State) (c part : Nat) (ten : BitVec 4) (h : HeldAccess) (l : List Byte) : State :=
  (((s.lineHome c h.kind h.pa).writeMem h.kind h.pa l).chargeAtomics part ten h.res 1).acquireFence h.ord c

theorem State.atHome_same (s : State) (c part : Nat) (ten : BitVec 4) (h : HeldAccess) (l : List Byte) :
    (s.atHome c part ten h l).strands = s.strands ∧ (s.atHome c part ten h l).cur = s.cur := by
  obtain ⟨hstrands, hcur, -⟩ := (((s.lineHome c h.kind h.pa).writeMem h.kind h.pa l).chargeAtomics part ten h.res 1).fenceIf_same
    (bitAt h.ord 4) c (h.ord.extractLsb' 0 3).toNat
  have hcharge := State.chargeAtomics_sameButLanes ((s.lineHome c h.kind h.pa).writeMem h.kind h.pa l) part ten h.res 1
  obtain ⟨hline, hlinecur⟩ := s.lineHome_same c h.kind h.pa
  exact ⟨hstrands.trans (hcharge.strands.trans hline), hcur.trans (hcharge.cur.trans hlinecur)⟩

theorem State.atomicDo_eq (s : State) (c part : Nat) (ten : BitVec 4) (h : HeldAccess) : s.atomicDo c part ten h =
    (BitVec.ofNat 64 (leNat ((s.lineHome c h.kind h.pa).readMem h.kind h.pa h.size)),
      s.atHome c part ten h (atomicBytes h.op h.size (leNat ((s.lineHome c h.kind h.pa).readMem h.kind h.pa h.size)) h.b h.c)) := rfl

/-- A place of an atomic: aligned, of the memory that software may write, and of HBM or of a slice (R14, R103, R194). -/
structure AtomicPlace (kind pa n : Nat) : Prop where
  size : n = 4 ∨ n = 8
  kinds : kind < 2
  aligned : pa % n = 0
  writable : Writable kind pa n

section
variable {s : State} {c : Nat} {p : Nat → Bool} {t : State} (ht : Flushed c p s t) (hlines : ∀ e ∈ (tget s.clusters c).lines, e.1 < 2 ^ 33)
  {kind pa n : Nat} (hplace : AtomicPlace kind pa n) (hp : kind = 0 → p (pa / 64) = true)
include ht hlines hplace hp

omit ht in
/-- A byte of the place is of the place's line, or beyond HBM. -/
theorem line_of_place {k : Nat} (hk : memKey kind pa ≤ k ∧ k < memKey kind pa + n) :
    p (k / 64) = true ∨ tfind (tget s.clusters c).lines (k / 64) = none := by
  have hkind := hplace.kinds
  have haligned := hplace.aligned
  unfold memKey at hk
  by_cases hhbm : kind = 0
  · left
    have hline : k / 64 = pa / 64 := by
      rcases hplace.size with h | h <;> rw [h] at haligned hk <;> omega
    rw [hline]
    exact hp hhbm
  · right
    refine Option.eq_none_iff_forall_not_mem.mpr fun l hl => ?_
    obtain ⟨e, he, hek⟩ := List.mem_map.mp (mem_keys_of_tfind hl)
    have hlt := hlines e he
    omega

/-- Once the line has gone home the caches keep no byte of the place. -/
theorem no_line_of_place {k : Nat} (hk : memKey kind pa ≤ k ∧ k < memKey kind pa + n) :
    tfind (tget t.clusters c).lines (k / 64) = none := by
  rw [ht.lines]
  rcases line_of_place hlines hplace hp hk with h | h
  · rw [if_pos h]
  · rw [h, ite_self]

/-- Memory then holds what the home held. -/
theorem readMem_eq_homeValue : leNat (t.readMem kind pa n) = homeValue s c kind pa n := by
  have htable : (decide (kind = 1) && decide (reachBase ≤ pa)) = false := by
    have hsize := hplace.size
    have hfit := hplace.writable
    rw [Bool.and_eq_false_imp]
    intro hk
    have := hfit (of_decide_eq_true hk)
    exact decide_eq_false (by omega)
  unfold State.readMem
  rw [htable, if_neg Bool.false_ne_true]
  refine congrArg leNat (List.map_congr_left fun j hj => ?_)
  have hjn := List.mem_range.mp hj
  rw [ht.mem]
  by_cases hhbm : kind = 0
  · have hkey : memKey kind pa + j = pa + j := by unfold memKey; omega
    rw [if_pos hhbm, hkey]
    rcases line_of_place hlines hplace hp (k := memKey kind pa + j) ⟨by omega, by omega⟩ with h | h <;> rw [hkey] at h
    · rw [if_pos h]
    · rw [homeByte, h, ite_self]
  · have hkey : memKey kind pa + j = memKey kind (pa + j) := Nat.add_assoc _ _ _
    have hbeyond : 2 ^ 39 ≤ memKey kind pa + j := by unfold memKey; omega
    rw [if_neg hhbm, homeByte_of_le hlines hbeyond, ite_self, hkey]

/-- The bytes after a write of the place and another fence. -/
theorem written_then_flushed {l : List Byte} (hl : l.length = n) {u w : State} {q : Nat → Bool}
    (hmem : u.mem = (t.writeMem kind pa l).mem) (hclusters : u.clusters = t.clusters) (hw : Flushed c q u w) (k : Nat) :
    cget w.mem k = if memKey kind pa ≤ k ∧ k < memKey kind pa + n then l.getD (k - memKey kind pa) 0
      else if p (k / 64) || q (k / 64) then homeByte s c k else cget s.mem k := by
  have hbyte : cget u.mem k = if memKey kind pa ≤ k ∧ k < memKey kind pa + n then l.getD (k - memKey kind pa) 0 else cget t.mem k := by
    rw [hmem, State.writeMem_byte, hl]
  rw [hw.mem]
  by_cases hk : memKey kind pa ≤ k ∧ k < memKey kind pa + n
  · rw [if_pos hk] at hbyte ⊢
    rw [homeByte, hclusters, no_line_of_place ht hlines hplace hp hk, ite_self, hbyte]
  · rw [if_neg hk] at hbyte ⊢
    have hhome : homeByte u c k = homeByte s c k := by
      rw [← ht.home, homeByte, homeByte, hclusters, hbyte]
    rw [hhome, hbyte, ht.mem]
    cases p (k / 64) <;> cases q (k / 64) <;> rfl

end

/-! The issue (R72, R143, R197, R326, R414). -/

/-- An atomic that its home may perform now is performed between its fences and counted. -/
theorem atomicIssue_ready {s : State} {h : HeldAccess} {sd : BitVec 6}
    (hroom : if sd = 0 then s.me.stq.length < 63 else s.me.ldq.length < 63) (hclash : s.me.heldClash h.kind h.pa h.size = false)
    (hrel : bitAt h.ord 3 = true → anyHeld s.me = false) (hfree : s.atomicFree s.me.part (s.tenantOf s.me) h.res = true)
    (hlog : (s.logAll s.me.part (s.tenantOf s.me) (pagesOf h.kind h.va h.size)).2 = true) :
    ∃ x : State, x.mem = (s.releaseFence h.ord).mem ∧ x.clusters = (s.releaseFence h.ord).clusters ∧ x.strands = s.strands ∧ x.cur = s.cur ∧
      atomicIssue h sd s = .ok ((x.atomicDo s.cl s.me.part (s.tenantOf s.me) h).2.countAtomic h.ord sd
        (x.atomicDo s.cl s.me.part (s.tenantOf s.me) h).1) := by
  obtain ⟨hstrands, hcur, -⟩ := s.fenceIf_same (bitAt h.ord 3) s.cl (h.ord.extractLsb' 0 3).toNat
  have hbind : atomicIssue h sd s = ((if sd = 0 then needSt s.me else needLd s.me) >>= fun _ =>
      needReady (!s.me.heldClash h.kind h.pa h.size) >>= fun _ => needReady (!(bitAt h.ord 3 && s.me.holding)) >>= fun _ =>
        let z := s.releaseFence h.ord
        if z.atomicFree s.me.part (s.tenantOf s.me) h.res then
          match z.logAll s.me.part (s.tenantOf s.me) (pagesOf h.kind h.va h.size) with
          | (x, false) => .ok x.waiting
          | (x, true) =>
            let d := x.atomicDo x.cl s.me.part (s.tenantOf s.me) h
            let y := if bitAt h.ord 4 then d.2.fenceMe (h.ord.extractLsb' 0 3).toNat else d.2
            .ok (if sd = 0 then y.pushSt else y.pushLd (.scalar sd d.1))
        else
          let y := (z.noBudgetRecord z.cur s.me.part (s.tenantOf s.me) h.res).holdAt h h.res
          let x := if sd = 0 then y.2.pushSt (some y.1) else y.2.pushLd (.scalar sd 0) false (some y.1)
          .ok (if bitAt h.ord 4 then x.fenceMe (h.ord.extractLsb' 0 3).toNat else x)) := by
    rw [atomicIssue]
    by_cases hsd : sd = 0
    · simp only [hsd, if_true]
      rfl
    · simp only [hsd, if_false]
      rfl
  obtain ⟨m, k, hz⟩ := s.fenceIf_withHome (bitAt h.ord 3) s.cl (h.ord.extractLsb' 0 3).toNat
  have hzfree : (s.releaseFence h.ord).atomicFree s.me.part (s.tenantOf s.me) h.res = true := by
    rw [State.releaseFence, hz, State.atomicFree_withHome, hfree]
  have hzlog : ((s.releaseFence h.ord).logAll s.me.part (s.tenantOf s.me) (pagesOf h.kind h.va h.size)).2 = true := by
    rw [State.releaseFence, hz, State.logAll_withHome, hlog]
  obtain ⟨hmem, hclusters, hxstrands, hxcur⟩ :=
    State.logAll_same s.me.part (s.tenantOf s.me) (pagesOf h.kind h.va h.size) (s.releaseFence h.ord)
  rw [hbind, atomic_counts hroom, hclash, release_ready hrel]
  simp only [Res.bind_ok, Bool.not_false, needReady_true, hzfree, if_true]
  revert hzlog hmem hclusters hxstrands hxcur
  generalize (s.releaseFence h.ord).logAll s.me.part (s.tenantOf s.me) (pagesOf h.kind h.va h.size) = x
  obtain ⟨x, b⟩ := x
  rintro (rfl : b = true) hmem hclusters hxstrands hxcur
  have hcl : x.cl = s.cl := by
    have hme : x.me = s.me := by rw [State.me, hxstrands, hxcur, State.releaseFence, hstrands, hcur, State.me]
    rw [State.cl, hme, State.cl]
  exact ⟨x, hmem, hclusters, hxstrands.trans hstrands, hxcur.trans hcur, by rw [← hcl]; rfl⟩

/-- The access of an atomic through a handle. -/
def atomicAccess (s : State) (op : Nat) (o : FmtLA) : HeldAccess :=
  let p := (s.me.handle o.hd).place ((s.reg o.sc).toNat + o.imm.toNat * atomSize o)
  { op := op, kind := p.kind, pa := p.pa, va := p.va, dbl := o.sz = 1, b := s.reg o.sa, c := s.reg o.sb,
    page := (s.me.handle o.hd).page, ord := o.ord, res := (resourceOf p.kind p.pa).getD 0 }

theorem atomicAccess_size (s : State) (op : Nat) (o : FmtLA) : (atomicAccess s op o).size = atomSize o := by
  unfold HeldAccess.size atomSize atomicAccess
  simp only [decide_eq_true_eq]

theorem atomicH_ready {s : State} {o : FmtLA} (op : Nat)
    (h : HandleReady s o.hd ((s.reg o.sc).toNat + o.imm.toNat * atomSize o) (atomSize o) Handle.pa) :
    atomicH op o s = atomicIssue (atomicAccess s op o) o.sd s := by
  have hplace := hPlace_of_ready asks_atomic h
  unfold atomicH
  rw [← atomSize]
  show (s.hPlace o.hd ((s.reg o.sc).toNat + o.imm.toNat * atomSize o) (atomSize o) (atomSize o) 4 >>= _) = _
  rw [hplace]
  rfl

theorem atomicPlace_of_ready {s : State} {hd : BitVec 4} {off n : Nat} {right : Handle → Bool} (h : HandleReady s hd off n right)
    (hn : n = 4 ∨ n = 8) (hw : Writable (s.me.handle hd).kd.toNat (physOf s hd off) n) :
    AtomicPlace (s.me.handle hd).kd.toNat (physOf s hd off) n where
  size := hn
  kinds := h.kind
  aligned := pageOffset_dvd (by rcases hn with rfl | rfl <;> decide) _ _ h.aligned
  writable := hw

/-- Settles O10: the line goes home, the new value is written there between the two fences, and the strand is counted. -/
theorem handleAtomics : Obligations.HandleAtomics := by
  unfold Obligations.HandleAtomics
  intro s i o f hrule hsp hlines n off kd pa hready hw hroom hrel hlog hfree v
  obtain ⟨op, hexec, hnew⟩ := exec_of_atomic hrule s
  have hne : ¬ o.sp = 1 := by rw [hsp]; decide
  have hplace := atomicPlace_of_ready hready (atomSize_cases o) hw
  have hsize : (atomicAccess s op o).size = n := atomicAccess_size s op o
  obtain ⟨x, hxmem, hxclusters, hxstrands, hxcur, hissue⟩ := atomicIssue_ready (h := atomicAccess s op o) hroom
    (hsize.symm ▸ hready.free) hrel hfree (hsize.symm ▸ hlog)
  rw [atomic, if_neg hne, atomicH_ready op hready, hissue, State.atomicDo_eq, hsize, finish_ok] at hexec
  -- the machine up to the write: the fence in front, the log, the line of the place
  have hrelease := (s.fenceIf_flushed (bitAt o.ord 3) s.cl (o.ord.extractLsb' 0 3).toNat).trans (.of_eq s.cl hxmem hxclusters)
  have hhome := hrelease.trans (x.lineHome_flushed s.cl kd pa)
  have hp (hhbm : kd = 0) : (bitAt o.ord 3 && decide (2 ≤ (o.ord.extractLsb' 0 3).toNat) || false ||
      (decide (kd = 0) && decide (pa / 64 = pa / 64))) = true := by simp [hhbm]
  have hv : leNat ((x.lineHome s.cl kd pa).readMem kd pa n) = v := readMem_eq_homeValue hhome hlines hplace hp
  have hvlt : v < 2 ^ (8 * n) := by
    have := leNat_lt ((List.range n).map (fun j => if kd = 0 then homeByte s s.cl (pa + j) else cget s.mem (memKey kd (pa + j))))
    rwa [List.length_map, List.length_range, ← Nat.pow_mul 2 8] at this
  -- the write and the fence behind it
  let l := atomicBytes op n v (s.reg o.sa) (s.reg o.sb)
  let u := ((x.lineHome s.cl kd pa).writeMem kd pa l).chargeAtomics s.me.part (s.tenantOf s.me) (atomicAccess s op o).res 1
  let y := x.atHome s.cl s.me.part (s.tenantOf s.me) (atomicAccess s op o) l
  have hcharge : ((x.lineHome s.cl kd pa).writeMem kd pa l).SameButLanes u := State.chargeAtomics_sameButLanes _ _ _ _ _
  have hacquire : Flushed s.cl (fun _ => bitAt o.ord 4 && decide (2 ≤ (o.ord.extractLsb' 0 3).toNat)) u y := u.fenceIf_flushed _ _ _
  have hmem := written_then_flushed hhome hlines hplace hp (leBytes_length _ _) hcharge.mem hcharge.clusters hacquire
  have hexec' : exec i s = .next (y.countAtomic o.ord o.sd (BitVec.ofNat 64 v)) :=
    hexec.trans (congrArg (fun w => Host.Outcome.next ((x.atHome s.cl s.me.part (s.tenantOf s.me) (atomicAccess s op o)
      (atomicBytes op n w (s.reg o.sa) (s.reg o.sb))).countAtomic o.ord o.sd (BitVec.ofNat 64 w))) hv)
  obtain ⟨hystrands, hycur⟩ := x.atHome_same s.cl s.me.part (s.tenantOf s.me) (atomicAccess s op o) l
  obtain ⟨htmem, htclusters, htcur⟩ := y.countAtomic_same o.ord o.sd (BitVec.ofNat 64 v)
  have hycur' : y.cur = s.cur := hycur.trans hxcur
  have hystrands' : y.strands = s.strands := hystrands.trans hxstrands
  have hme : y.me = s.me := by rw [State.me, hycur', hystrands', State.me]
  refine ⟨_, hexec', ⟨?_, htcur.trans hycur', fun k hk => ?_⟩, fun j hj => ?_, fun k hk => ?_, fun c hc => ?_, fun hhbm => ?_⟩
  · rw [State.countAtomic_me, hme]
    rfl
  · rw [y.countAtomic_other _ _ _ (hycur'.symm ▸ hk), hystrands']
  · have hkey : memKey kd (pa + j) = memKey kd pa + j := (Nat.add_assoc _ _ _).symm
    rw [htmem, hkey, hmem, if_pos ⟨Nat.le_add_right _ j, Nat.add_lt_add_left hj _⟩, Nat.add_sub_cancel_left]
    exact atomicBytes_getD hnew hvlt _ _ hj
  · have hlines' := homeByte_lines (k := k) hlines (flushes o.ord || (decide (kd = 0) && decide (k / 64 = pa / 64)))
    rw [htmem, hmem, if_neg hk, Bool.or_false, Bool.or_right_comm, flushes_eq, hlines']
    simp only [Bool.or_eq_true, Bool.and_eq_true, decide_eq_true_eq]
  · rw [htclusters, hacquire.other c hc, hcharge.clusters]
    exact hhome.other c hc
  · have hgone := hhome.lines (pa / 64)
    rw [if_pos (hp hhbm)] at hgone
    rw [htclusters, hacquire.lines, hcharge.clusters]
    show (if _ then none else tfind (tget (x.lineHome s.cl kd pa).clusters s.cl).lines (pa / 64)) = none
    rw [hgone, ite_self]

end Sys2Proof.Machine
end

section
/-! The placement of an engine command: its counter, its readers and the moves of its tile (R87, R88, R232). -/

namespace Sys2Proof.Machine

open Sys2Proof.Claims

/-! Work on the tiles of the issuing strand. -/

/-- `y` is the strand `x` but for its tile table and its tile buffers. -/
def TilesOnly (x y : Strand) : Prop := y = { x with tiles := y.tiles, wmem := y.wmem, amem := y.amem, cmem := y.cmem }

theorem TilesOnly.refl (x : Strand) : TilesOnly x x := rfl

theorem TilesOnly.trans {x y z : Strand} (h : TilesOnly x y) (h' : TilesOnly y z) : TilesOnly x z := by
  unfold TilesOnly at *
  rw [h] at h'
  exact h'

theorem TilesOnly.onTile (x : Strand) (th : BitVec 5) (f : Tile → Tile) : TilesOnly x (x.onTile th f) := rfl

theorem TilesOnly.setBuf (x : Strand) (tk : BitVec 2) (m : Cells 8) : TilesOnly x (x.setBuf tk m) := by
  unfold Strand.setBuf
  split
  · rfl
  · split <;> rfl

/-- Between two states only the tiles of the issuing strand, and which commands are active, have changed. -/
structure TileWork (s t : State) : Prop where
  me : TilesOnly s.me t.me
  present : (tfind s.strands s.cur).isSome → (tfind t.strands t.cur).isSome
  cur : t.cur = s.cur
  others : ∀ k, k ≠ s.cur → tfind t.strands k = tfind s.strands k
  nextId : t.nextId = s.nextId
  mem : t.mem = s.mem
  clusters : t.clusters = s.clusters
  cmds : ∀ n, (tfind t.cmds n).map bare = (tfind s.cmds n).map bare

theorem TileWork.refl (s : State) : TileWork s s := ⟨.refl _, id, rfl, fun _ _ => rfl, rfl, rfl, rfl, fun _ => rfl⟩

theorem TileWork.trans {s t u : State} (h : TileWork s t) (h' : TileWork t u) : TileWork s u where
  me := h.me.trans h'.me
  present := h'.present ∘ h.present
  cur := h'.cur.trans h.cur
  others k hk := (h'.others k (by rwa [h.cur])).trans (h.others k hk)
  nextId := h'.nextId.trans h.nextId
  mem := h'.mem.trans h.mem
  clusters := h'.clusters.trans h.clusters
  cmds n := (h'.cmds n).trans (h.cmds n)

theorem TileWork.onMe (s : State) {f : Strand → Strand} (hf : TilesOnly s.me (f s.me)) : TileWork s (s.onMe f) where
  me := by rwa [State.onMe_me]
  present _ := by simp [State.onMe, State.setMe]
  cur := rfl
  others _ hk := s.onMe_other f hk
  nextId := rfl
  mem := rfl
  clusters := rfl
  cmds _ := rfl

/-- The issuing strand, where it is in the table, after a change to it. -/
theorem State.onStrand_cur_me {s : State} (hcur : (tfind s.strands s.cur).isSome) (f : Strand → Strand) :
    (s.onStrand s.cur f).me = f s.me := tget_tmod s.strands f hcur

theorem TileWork.onStrand {s : State} (hcur : (tfind s.strands s.cur).isSome) {f : Strand → Strand} (hf : TilesOnly s.me (f s.me)) :
    TileWork s (s.onStrand s.cur f) where
  me := by rwa [s.onStrand_cur_me hcur]
  present _ := by
    show (tfind (tmod s.strands s.cur f) s.cur).isSome
    simpa using hcur
  cur := rfl
  others k hk := by
    show tfind (tmod s.strands s.cur f) k = _
    rw [tfind_tmod, if_neg hk]
  nextId := rfl
  mem := rfl
  clusters := rfl
  cmds _ := rfl

/-- A command that may go on (R87). -/
def State.activate (s : State) (n : Nat) : State := s.onCmd n (fun c => { c with active := true })

theorem TileWork.activate (s : State) (n : Nat) : TileWork s (s.activate n) where
  me := .refl _
  present := id
  cur := rfl
  others _ _ := rfl
  nextId := rfl
  mem := rfl
  clusters := rfl
  cmds m := by
    rw [State.activate, State.tfind_onCmd]
    split
    next h =>
      rw [h, Option.map_map]
      rfl
    next => rfl

/-! Readers (R88). -/

/-- A tile with the readers of a list of tiles more. -/
def Strand.tileReadBy (x : Strand) (l : List (BitVec 5)) (th : BitVec 5) : Tile :=
  { x.tile th with rc := (x.tile th).rc + (l.filter (· = th)).length }

/-- Of the issuing strand's tiles only the numbers of readers rise, by those of a list. -/
structure TilesRead (s t : State) (l : List (BitVec 5)) : Prop extends TileWork s t where
  sameCmds : t.cmds = s.cmds
  buffers : t.me.wmem = s.me.wmem ∧ t.me.amem = s.me.amem ∧ t.me.cmem = s.me.cmem
  tile : ∀ th, t.me.tile th = s.me.tileReadBy l th

theorem State.readTile_me (s : State) (th : BitVec 5) : (s.readTile th).me = s.me.onTile th (fun e => { e with rc := e.rc + 1 }) :=
  s.onMe_me _

/-- R88: each source tile of a list has a reader more for each time it stands there. -/
theorem tilesRead_foldl (l : List (BitVec 5)) (s : State) : TilesRead s (l.foldl State.readTile s) l := by
  induction l generalizing s with
  | nil => exact ⟨.refl s, rfl, ⟨rfl, rfl, rfl⟩, fun _ => rfl⟩
  | cons a l ih =>
    have hrest := ih (s.readTile a)
    refine ⟨(TileWork.onMe s (.onTile _ a _)).trans hrest.toTileWork, hrest.sameCmds, ?_, fun th => ?_⟩
    · have hbuf := hrest.buffers
      rw [s.readTile_me a] at hbuf
      exact hbuf
    · rw [List.foldl_cons, hrest.tile, Strand.tileReadBy, Strand.tileReadBy, s.readTile_me, Strand.tile_onTile]
      by_cases h : a = th
      · simp [h, Nat.add_assoc, Nat.add_comm 1]
      · simp [h, Ne.symm h]

/-! Moves (R87). -/

/-- A command that has moved its tile or waits to. -/
def Awaits (s : State) (th : BitVec 5) (n : Nat) : Prop := (tget s.cmds n).active = true ∨ n ∈ (s.me.tile th).pend

/-- Between two states tile `th` of the issuing strand has made some of its moves. -/
structure Moved (s t : State) (th : BitVec 5) : Prop extends TileWork s t where
  otherTile : ∀ u, u ≠ th → t.me.tile u = s.me.tile u
  awaits : ∀ n, (tfind s.cmds n).isSome → Awaits s th n → Awaits t th n

theorem TileWork.found {s t : State} (h : TileWork s t) {n : Nat} (hn : (tfind s.cmds n).isSome) : (tfind t.cmds n).isSome := by
  have hmap := congrArg Option.isSome (h.cmds n)
  rwa [Option.isSome_map, Option.isSome_map, hn] at hmap

theorem Moved.refl (s : State) (th : BitVec 5) : Moved s s th := ⟨.refl s, fun _ _ => rfl, fun _ _ => id⟩

theorem Moved.trans {s t u : State} {th : BitVec 5} (h : Moved s t th) (h' : Moved t u th) : Moved s u th :=
  ⟨h.toTileWork.trans h'.toTileWork, fun v hv => (h'.otherTile v hv).trans (h.otherTile v hv),
    fun n hn ha => h'.awaits n (h.found hn) (h.awaits n hn ha)⟩

/-- R87: a move takes the first command that waits, changes its tile, and lets the command go on. -/
theorem State.moveTile_eq {s u : State} {k : Nat} {th : BitVec 5} (h : s.moveTile k th = some u) :
    ∃ n rest f, ((tget s.strands k).tile th).pend = n :: rest ∧ u = (s.onStrand k f).activate n ∧
      ∀ x, TilesOnly x (f x) ∧ ((f x).tile th).pend = rest ∧ ∀ v, v ≠ th → (f x).tile v = x.tile v := by
  unfold State.moveTile at h
  dsimp only at h
  split at h
  next => exact absurd h nofun
  next n rest hpend =>
    split at h
    · split at h
      · obtain rfl := Option.some.inj h
        exact ⟨n, rest, _, hpend, rfl, fun x => ⟨.onTile x th _, by simp, fun v hv => by simp [hv]⟩⟩
      · exact absurd h nofun
    · split at h
      · exact absurd h nofun
      · obtain rfl := Option.some.inj h
        refine ⟨n, rest, _, hpend, rfl, fun x => ⟨.trans ?_ (.onTile _ th _), by simp, fun v hv => ?_⟩⟩
        · split
          · exact .setBuf x _ _
          · rfl
        · rw [Strand.tile_onTile, if_neg hv]
          split
          · exact x.tile_setBuf _ _ v
          · rfl

theorem Moved.moveTile {s u : State} {th : BitVec 5} (hcur : (tfind s.strands s.cur).isSome) (h : s.moveTile s.cur th = some u) :
    Moved s u th := by
  obtain ⟨n, rest, f, hpend, rfl, hf⟩ := State.moveTile_eq h
  obtain ⟨honly, hrest, hother⟩ := hf s.me
  have hme : ((s.onStrand s.cur f).activate n).me = f s.me := s.onStrand_cur_me hcur f
  refine ⟨(TileWork.onStrand hcur honly).trans (.activate _ n), fun v hv => ?_, fun m hm ha => ?_⟩
  · rw [hme]
    exact hother v hv
  · unfold Awaits at *
    rw [hme, hrest]
    show (tget (tmod s.cmds n (fun c => { c with active := true })) m).active = true ∨ m ∈ rest
    by_cases hmn : m = n
    · rw [hmn, tget_tmod _ _ (hmn ▸ hm)]
      exact .inl rfl
    · rw [tget_tmod_of_ne _ _ hmn]
      refine ha.imp id fun hmem => ?_
      have hmem : m ∈ n :: rest := hpend ▸ hmem
      exact (List.mem_cons.mp hmem).resolve_left hmn

theorem Moved.moveTiles (n : Nat) {s : State} {th : BitVec 5} (hcur : (tfind s.strands s.cur).isSome) :
    Moved s (State.moveTiles n s s.cur th) th := by
  induction n generalizing s with
  | zero => exact .refl s th
  | succ n ih =>
    rw [State.moveTiles]
    split
    next u hu =>
      have hmove := Moved.moveTile hcur hu
      have hrest := ih (hmove.present hcur)
      rw [hmove.cur] at hrest
      exact hmove.trans hrest
    next => exact .refl s th

theorem Moved.settleTile {s : State} {th : BitVec 5} (hcur : (tfind s.strands s.cur).isSome) : Moved s (s.settleTile s.cur th) th :=
  .moveTiles _ hcur

/-! The placement of a command (R232). -/

theorem underTl_eq_isTl (op : CmdOp) : underTl op = op.isTl := by cases op <;> rfl

/-- R232: a command recorded and counted. -/
def State.counted (s : State) (c : Cmd) : State :=
  ({ s with cmds := tset s.cmds s.nextId c, nextId := s.nextId + 1 } : State).onMe (fun t =>
    if c.op.isTl then { t with tlq := t.tlq ++ [{ cmd := s.nextId }] } else { t with cpq := t.cpq ++ [s.nextId] })

theorem State.counted_me (s : State) (c : Cmd) : (s.counted c).me = { s.me with
    tlq := s.me.tlq ++ (if underTl c.op then [({ cmd := s.nextId } : TlOp)] else []),
    cpq := s.me.cpq ++ (if underTl c.op then [] else [s.nextId]) } := by
  rw [State.counted, State.onMe_me, underTl_eq_isTl]
  cases c.op.isTl
  · simp only [Bool.false_eq_true, if_false, List.append_nil]
    rfl
  · simp only [if_true, List.append_nil]
    rfl

theorem State.counted_other (s : State) (c : Cmd) {k : Nat} (h : k ≠ s.cur) : tfind (s.counted c).strands k = tfind s.strands k :=
  State.onMe_other _ _ h

theorem State.counted_cur_isSome (s : State) (c : Cmd) : (tfind (s.counted c).strands (s.counted c).cur).isSome := by
  simp [State.counted, State.onMe, State.setMe]

/-- A command that its tile's moves wait for. -/
def State.queued (s : State) (th : BitVec 5) (n : Nat) : State :=
  s.onMe (fun t => t.onTile th (fun e => { e with pend := e.pend ++ [n] }))

/-- R232: a placement counts the command, reads its sources, and moves its tile. -/
theorem State.place_eq (s : State) (c : Cmd) : s.place c =
    let x := (sourcesOf c).foldl State.readTile (s.counted c)
    match c.td with
    | none => x
    | some th => if c.op = .talloc then x else (x.queued th s.nextId).settleTile s.cur th := by
  unfold State.place sourcesOf
  dsimp only
  generalize (if c.after.isSome then none else c.ta) = ta
  generalize c.ta2 = ta2
  generalize c.tb = tb
  cases ta <;> cases ta2 <;> cases tb <;> rfl

/-- R232: a placement reads its sources, and then moves its tile where it has one and does not allocate it. -/
theorem State.place_moved (s : State) (c : Cmd) :
    ∃ x, TilesRead (s.counted c) x (sourcesOf c) ∧ TileWork x (s.place c) ∧ (c.td = none → s.place c = x) ∧
      (∀ th, c.td ≠ some th → (s.place c).me.tile th = x.me.tile th) ∧
      (∀ th, c.td = some th → c.op ≠ .talloc → Awaits (s.place c) th s.nextId) := by
  have hread := tilesRead_foldl (sourcesOf c) (s.counted c)
  refine ⟨_, hread, ?_⟩
  rw [s.place_eq]
  dsimp only
  generalize (sourcesOf c).foldl State.readTile (s.counted c) = x at hread
  cases c.td with
  | none => exact ⟨.refl x, fun _ => rfl, fun _ _ => rfl, nofun⟩
  | some th =>
    dsimp only
    split
    next hop => exact ⟨.refl x, nofun, fun _ _ => rfl, fun _ _ hne => absurd hop hne⟩
    next =>
      have hqueue : TileWork x (x.queued th s.nextId) := .onMe x (.onTile _ th _)
      have htile (u : BitVec 5) : (x.queued th s.nextId).me.tile u =
          if u = th then { x.me.tile th with pend := (x.me.tile th).pend ++ [s.nextId] } else x.me.tile u := by
        rw [State.queued, State.onMe_me, Strand.tile_onTile]
      have hcur : (x.queued th s.nextId).cur = s.cur := hread.cur
      have hmoved : Moved (x.queued th s.nextId) ((x.queued th s.nextId).settleTile s.cur th) th := by
        have hsettle := Moved.settleTile (th := th) (hqueue.present (hread.present (s.counted_cur_isSome c)))
        rwa [hcur] at hsettle
      refine ⟨hqueue.trans hmoved.toTileWork, nofun, fun u hu => ?_, fun u hu _ => ?_⟩
      · have hne : u ≠ th := fun h => hu (h ▸ rfl)
        rw [hmoved.otherTile u hne, htile, if_neg hne]
      · obtain rfl := Option.some.inj hu
        refine hmoved.awaits s.nextId ?_ (.inr ?_)
        · show (tfind x.cmds s.nextId).isSome
          rw [hread.sameCmds]
          simp [State.counted]
        · rw [htile, if_pos rfl]
          exact List.mem_append_right _ (List.mem_singleton_self _)

/-- R232, R87, R88: what a placement leaves. -/
theorem places_of_place {i : Instr} {s : State} {c : Cmd} (h : exec i s = .next (s.place c)) : Places i s c := by
  obtain ⟨x, hread, hwork, hnone, htile, hawaits⟩ := s.place_moved c
  have hall := hread.toTileWork.trans hwork
  have hfound : tfind (s.counted c).cmds s.nextId = some c := by simp [State.counted]
  have hcmd := hall.cmds s.nextId
  rw [hfound, Option.map_some, Option.map_eq_some_iff] at hcmd
  obtain ⟨c', hc', hbare⟩ := hcmd
  refine ⟨s.place c, c', h, hall.nextId, hc', hbare, memSame_of_eq hall.mem hall.clusters, ⟨?_, hall.cur, fun k hk => ?_⟩,
    fun htd => ?_, fun th hth => ?_, fun th hth hop => ?_, fun n hn => ?_⟩
  · have hme := hall.me
    rw [s.counted_me c] at hme
    exact hme
  · exact (hall.others k hk).trans (s.counted_other c hk)
  · have hbuf := hread.buffers
    rw [s.counted_me c] at hbuf
    rwa [hnone htd]
  · rw [htile th hth, hread.tile, s.counted_me c]
    rfl
  · have ha := hawaits th hth hop
    rwa [Awaits, tget_of_tfind hc'] at ha
  · rw [hall.cmds n, State.counted, State.onMe_cmds, tfind_tset, if_neg hn]

end Sys2Proof.Machine
end

section
/-! O25: tile and matrix instructions place their commands (R87, R88, R232, R237 to R246). -/

namespace Sys2Proof.Machine

open Sys2Proof.Claims

/-! The checks at issue (R66, R88, R170, R238). -/

theorem needTl_of_lt {t : Strand} (h : t.tlq.length < 63) : needTl t = .ok () := by
  rw [needTl, decide_eq_true h, needReady_true]

theorem needTile_of_tileIs {t : Strand} {th : BitVec 5} {kinds : List (BitVec 2)} {formats : List (BitVec 4)}
    (h : TileIs t th kinds formats) : needTile t th = .ok () := needTile_of_lt h.inside

theorem needKind_of_tileIs {t : Strand} {th : BitVec 5} {kinds : List (BitVec 2)} {formats : List (BitVec 4)} {ok : BitVec 2 → Bool}
    (h : TileIs t th kinds formats) (hok : ∀ k ∈ kinds, ok k = true) : needKind t th ok = .ok () := by
  rw [needKind, hok _ h.kind, need_true]

theorem needTileTag_of_tileIs {t : Strand} {th : BitVec 5} {kinds : List (BitVec 2)} {want : BitVec 4}
    (h : TileIs t th kinds [want]) : needTileTag t th want = .ok () := by
  have hft : (t.tile th).ft = 0 ∨ (t.tile th).ft = want := by simpa using h.format
  exact need_ok.mpr (by simpa using hft)

theorem needReady88_of_readable {t : Strand} {th : BitVec 5} (h : Readable t th) : needReady88 t th = .ok () :=
  (needReady88_ok t th ()).mpr h

/-! The tile table and the operations between tiles (R237, R242, R246). -/

theorem places_tfree {s : State} {o : FmtET} (htd : o.td.toNat < s.me.win.th) (htl : s.me.tlq.length < 63) :
    Places (.tfree o) s { issuedBy s .tfree with td := some o.td } := by
  refine places_of_place ?_
  rw [exec_tfree, execTfree, needTile_of_lt htd, needTl_of_lt htl]
  rfl

theorem places_tzero {s : State} {o : FmtET} (htd : o.td.toNat < s.me.win.th) (htl : s.me.tlq.length < 63) :
    Places (.tzero o) s { issuedBy s .tzero with td := some o.td, fmt := (etF o).setWidth 5 } := by
  refine places_of_place ?_
  rw [exec_tzero, execTzero, needTile_of_lt htd, needTl_of_lt htl]
  rfl

theorem places_mlatch {s : State} {o : FmtET} (htb : TileIs s.me o.tb [0] []) (hready : Readable s.me o.tb)
    (htl : s.me.tlq.length < 63) : Places (.mlatch o) s { issuedBy s .mlatch with tb := some o.tb, imm := o.imm.setWidth 12 } := by
  refine places_of_place ?_
  rw [exec_mlatch, execMlatch, needTile_of_tileIs htb, needKind_of_tileIs htb (by decide), needReady88_of_readable hready, needTl_of_lt htl]
  rfl

theorem places_tcvt {s : State} {o : FmtET} (htd : TileIs s.me o.td [0, 1] [])
    (hta : TileIs s.me o.ta [2] [if etF o = 10 then 8 else 1]) (hready : Readable s.me o.ta) (htl : s.me.tlq.length < 63) :
    Places (.tcvt o) s { issuedBy s .tcvt with
      td := some o.td, ta := some o.ta, fmt := o.fmt, imm := o.imm.setWidth 12, a := s.reg o.sa
      rm := if o.imm.extractLsb' 5 3 = 7 then s.me.rm else o.imm.extractLsb' 5 3 } := by
  refine places_of_place ?_
  rw [exec_tcvt, execTcvt]
  dsimp only
  rw [needTile_of_tileIs htd, needTile_of_tileIs hta, needKind_of_tileIs htd (by decide), needKind_of_tileIs hta (by decide),
    needTileTag_of_tileIs hta, needReady88_of_readable hready, needTl_of_lt htl]
  rfl

theorem places_tmov {s : State} {o : FmtET} (htd : o.td.toNat < s.me.win.th) (hta : o.ta.toNat < s.me.win.th)
    (hkind : (s.me.tile o.td).tk = 2 ↔ (s.me.tile o.ta).tk = 2) (hready : Readable s.me o.ta) (htl : s.me.tlq.length < 63) :
    Places (.tmov o) s { issuedBy s .tmov with td := some o.td, ta := some o.ta } := by
  have hsame : needKind s.me o.td (fun k => (k = 2) == ((s.me.tile o.ta).tk = 2)) = .ok () :=
    need_ok.mpr (by simpa using hkind)
  refine places_of_place ?_
  rw [exec_tmov, execTmov]
  dsimp only
  rw [needTile_of_lt htd, needTile_of_lt hta, hsame, needReady88_of_readable hready, needTl_of_lt htl]
  rfl

theorem places_txpose {s : State} {o : FmtET} (htd : TileIs s.me o.td [2] []) (hta : TileIs s.me o.ta [2] [])
    (hready : Readable s.me o.ta) (htl : s.me.tlq.length < 63) :
    Places (.txpose o) s { issuedBy s .txpose with td := some o.td, ta := some o.ta } := by
  refine places_of_place ?_
  rw [exec_txpose, execTxpose]
  dsimp only
  rw [needTile_of_tileIs htd, needTile_of_tileIs hta, needKind_of_tileIs htd (by decide), needKind_of_tileIs hta (by decide),
    needReady88_of_readable hready, needTl_of_lt htl]
  rfl

/-! Matrix operations (R238 to R240, R243). -/

theorem scaledTag_eq_true {fm : BitVec 4} : (scaledTag fm || fm = 7) = true ↔ fm = 4 ∨ fm = 5 ∨ fm = 6 ∨ fm = 7 := by
  simp [scaledTag, or_assoc]

/-- R111, R239: the sizes of the strips are the model's. -/
theorem stripSizes_eq (fm : BitVec 4) : stripSizes fm = (if fm = 7 then 256 else 32 * stripB fm, 32 * stripB fm) := rfl

/-- A check that is made under VQ2 only (R239, R244). -/
theorem ne_or_of_imp {fm : BitVec 4} {p : Prop} [Decidable p] (h : fm = 7 → p) : (fm ≠ 7 || p) = true := by
  rw [Bool.or_eq_true, decide_eq_true_eq, decide_eq_true_eq]
  exact not_or_of_imp h

/-- R239: a scale word that the rule allows gives its bytes. -/
theorem State.scaleBytes_of_scaleRule {s : State} {fm : BitVec 4} {w : Word} {l : List Byte} (h : scaleRule s fm w = some l) :
    s.scaleBytes fm w = .ok l := by
  unfold scaleRule at h
  rw [stripSizes_eq] at h
  dsimp only at h
  unfold State.scaleBytes
  dsimp only
  generalize (if fm = 7 then 256 else 32 * stripB fm) = na at h ⊢
  split at h
  next hplain =>
    obtain rfl := Option.some.inj h
    rw [Bool.eq_false_iff.mpr (fun e => hplain (scaledTag_eq_true.mp e))]
    rfl
  next hscaled =>
    rw [scaledTag_eq_true.mpr (not_not.mp hscaled)]
    split at h
    next hsp =>
      obtain rfl := Option.some.inj h
      rw [bitAt, hsp]
      rfl
    next hsp =>
      rw [bitAt, Bool.eq_true_of_not_eq_false hsp]
      split at h
      next hfits =>
        obtain ⟨halignA, halignB, hinA, hinB, hvq⟩ := hfits
        obtain rfl := Option.some.inj h
        rw [decide_eq_true halignA, decide_eq_true halignB, ne_or_of_imp (And.left ∘ hvq), decide_eq_true hinA,
          decide_eq_true hinB, ne_or_of_imp (And.right ∘ hvq)]
        rfl
      next => exact absurd h nofun

theorem accTag_eq (fm : BitVec 4) : accTag fm = accFormat fm := rfl

theorem State.scaleBytes_of_isSome {s : State} {fm : BitVec 4} {w : Word} (h : (scaleRule s fm w).isSome) :
    s.scaleBytes fm w = .ok ((scaleRule s fm w).getD []) := by
  obtain ⟨l, hl⟩ := Option.isSome_iff_exists.mp h
  rw [hl, Option.getD_some]
  exact State.scaleBytes_of_scaleRule hl

theorem State.matrixOut_of_forall {s : State} {p : Cmd → Bool}
    (h : ∀ e ∈ s.cmds, e.2.strand = s.cur → e.2.op.isMatrix = true → p e.2 = false) : s.matrixOut p = false := by
  rw [State.matrixOut, List.any_eq_false]
  intro e he hout
  simp only [Bool.and_eq_true, decide_eq_true_eq] at hout
  obtain ⟨⟨hstrand, hmatrix⟩, hp⟩ := hout
  exact Bool.false_ne_true ((h e he hstrand hmatrix).symm.trans hp)

theorem CmdOp.isMatrix_iff (op : CmdOp) : op.isMatrix = true ↔ op = .mma ∨ op = .mmas := by simp [CmdOp.isMatrix]

/-- R238 to R240: the checks of a matrix operation whose tiles are ready pass, and its command is the rule's. -/
theorem State.mmaCmd_of_ready {s : State} {td ta tb : BitVec 5} {ta2 : Option (BitVec 5)} {fmt : BitVec 5} {sw : Word}
    (h : MatReady s td tb ta2 (fmt.extractLsb' 0 4)) (hta : TileIs s.me ta [1] [aFormat (fmt.extractLsb' 0 4)])
    (hready : Readable s.me ta) (hscale : (scaleRule s (fmt.extractLsb' 0 4) sw).isSome) (imm : BitVec 12) (x half : Bool)
    (lit : BitVec 60) :
    s.mmaCmd td ta tb ta2 fmt sw imm x half lit none =
      .ok (matCmd s td ta tb ta2 fmt imm x half lit ((scaleRule s (fmt.extractLsb' 0 4) sw).getD [])) := by
  obtain ⟨htd, htb, htbReady, hta2, hstream, htl⟩ := h
  have hout : s.matrixOut (fun c => c.op = .mmas) = false :=
    State.matrixOut_of_forall fun e he hstrand _ => decide_eq_false (hstream e he hstrand)
  unfold State.mmaCmd
  dsimp only
  rw [needTile_of_tileIs htd, needTile_of_tileIs hta, needTile_of_tileIs htb, needKind_of_tileIs htd (by decide),
    needKind_of_tileIs hta (by decide), needKind_of_tileIs htb (by decide), ← aFormat, needTileTag_of_tileIs hta,
    needTileTag_of_tileIs htb, accTag_eq, needTileTag_of_tileIs htd, needReady88_of_readable hready,
    needReady88_of_readable htbReady, State.scaleBytes_of_isSome hscale, hout, needTl_of_lt htl]
  cases ta2 with
  | none => rfl
  | some a =>
    obtain ⟨ha, haReady⟩ := hta2 a rfl
    dsimp only
    rw [needTile_of_tileIs ha, needKind_of_tileIs ha (by decide), needTileTag_of_tileIs ha, needReady88_of_readable haReady]
    rfl

theorem places_mma {s : State} {o : FmtET}
    (h : MatReady s o.td o.tb (if etF o = 7 then some (o.imm.extractLsb' 3 5) else none) (etF o))
    (hta : TileIs s.me o.ta [1] [aFormat (etF o)]) (hready : Readable s.me o.ta) (hscale : (scaleRule s (etF o) (s.reg o.sa)).isSome) :
    Places (.mma o) s (matCmd s o.td o.ta o.tb (if etF o = 7 then some (o.imm.extractLsb' 3 5) else none) o.fmt (o.imm.setWidth 12)
      false false 0 ((scaleRule s (etF o) (s.reg o.sa)).getD [])) := by
  refine places_of_place ?_
  rw [exec_mma, execMma]
  dsimp only
  rw [State.mmaCmd_of_ready h hta hready hscale]
  rfl

theorem places_mmaX {s : State} {o : FmtETL} (h : MatReady s o.o.td o.o.tb none (etF o.o))
    (hta : TileIs s.me o.o.ta [1] [aFormat (etF o.o)]) (hready : Readable s.me o.o.ta)
    (hscale : (scaleRule s (etF o.o) (s.reg o.o.sa)).isSome) :
    Places (.mmaX o) s (matCmd s o.o.td o.o.ta o.o.tb none o.o.fmt 0 true (o.o.imm.getLsbD 2) o.lit
      ((scaleRule s (etF o.o) (s.reg o.o.sa)).getD [])) := by
  refine places_of_place ?_
  rw [exec_mmaX, execMmaX, State.mmaCmd_of_ready h hta hready hscale]
  rfl

/-! Streaming operations (R84, R244). -/

theorem State.ownS_of_ownBytes {s : State} {x : Word} {n align : Nat} (h : OwnBytes s x n align) :
    s.ownS x n align = .ok (x.toNat % 2 ^ 17) := by
  obtain ⟨hown, hin, halign⟩ := h
  have hlt : x.toNat < 2 ^ 24 := by omega
  rw [State.ownS, decide_eq_true hlt, decide_eq_true hown, decide_eq_true hin, decide_eq_true halign]
  rfl

/-- R244: the command of a streaming operation of a format, with the descriptor it reads at issue. -/
theorem mmasIssue_of_rule {s : State} {o : FmtET} (x : Bool) (lit : BitVec 60) (h : (streamRule s o x lit).2) :
    mmasIssue o x lit s = .ok (s.place (streamRule s o x lit).1) := by
  obtain ⟨htd, hown, hdesc, hmatrix, htl⟩ := h
  obtain ⟨h49, h30, h38, hnr, hrp, hlda, hldb, htable⟩ := hdesc
  have hout : s.matrixOut (fun _ => true) = false := State.matrixOut_of_forall fun e he hstrand hop => by
    obtain ⟨hmma, hmmas⟩ := hmatrix e he hstrand
    exact absurd ((CmdOp.isMatrix_iff _).mp hop) (not_or.mpr ⟨hmma, hmmas⟩)
  unfold mmasIssue
  dsimp only
  rw [needTile_of_tileIs htd, needKind_of_tileIs htd (by decide), accTag_eq, needTileTag_of_tileIs htd, State.ownS_of_ownBytes hown,
    hout, needTl_of_lt htl]
  dsimp only [bind, Except.bind]
  rw [decide_eq_true h49, decide_eq_true h30, decide_eq_true h38, descNR, decide_eq_true hnr, descRP, decide_eq_true hrp,
    decide_eq_true hlda, decide_eq_true hldb, ne_or_of_imp htable]
  rfl

theorem places_mmas {s : State} {o : FmtET} (h : (streamRule s o false 0).2) : Places (.mmas o) s (streamRule s o false 0).1 := by
  refine places_of_place ?_
  rw [exec_mmas, execMmas, mmasIssue_of_rule _ _ h]
  rfl

theorem places_mmasX {s : State} {o : FmtETL} (h : (streamRule s o.o true o.lit).2) :
    Places (.mmasX o) s (streamRule s o.o true o.lit).1 := by
  refine places_of_place ?_
  rw [exec_mmasX, execMmasX, mmasIssue_of_rule _ _ h]
  rfl

/-! Allocation (R237). -/

/-- R237: a tile entry with the kind, buffer and format that TALLOC names. -/
def allocTile (o : FmtET) (e : Tile) : Tile := { e with tk := o.imm.extractLsb' 0 2, bi := o.imm.extractLsb' 2 5, ft := etF o }

/-- R237: the conditions of TALLOC. -/
structure AllocReady (s : State) (o : FmtET) : Prop where
  inside : o.td.toNat < s.me.win.th
  empty : (s.me.tile o.td).ts = 0
  room : s.me.tlq.length < 63
  buffer : (o.imm.extractLsb' 2 5).toNat <
    (if o.imm.extractLsb' 0 2 = 0 then s.me.win.wt else if o.imm.extractLsb' 0 2 = 1 then s.me.win.at_ else s.me.win.ct)
  unused : ∀ e ∈ s.me.tiles, e.1 ≠ o.td.toNat → e.2.ts ≠ 0 → ¬(e.2.tk = o.imm.extractLsb' 0 2 ∧ e.2.bi = o.imm.extractLsb' 2 5)

/-- R232, R237: TALLOC writes its entry and has its command counted. -/
theorem exec_talloc_of_ready {s : State} {o : FmtET} (h : AllocReady s o) : exec (.talloc o) s =
    .next ((s.onMe (fun t => t.onTile o.td (allocTile o))).counted { issuedBy s .talloc with td := some o.td }) := by
  have hshared : s.me.tiles.any (fun e => e.1 ≠ o.td.toNat && e.2.ts ≠ 0 && e.2.tk = o.imm.extractLsb' 0 2 &&
      e.2.bi = o.imm.extractLsb' 2 5) = false := by
    rw [List.any_eq_false]
    intro e he hshared
    simp only [Bool.and_eq_true, decide_eq_true_eq] at hshared
    obtain ⟨⟨⟨hne, hts⟩, htk⟩, hbi⟩ := hshared
    exact h.unused e he hne hts ⟨htk, hbi⟩
  rw [exec_talloc, execTalloc]
  dsimp only
  rw [needTile_of_lt h.inside, decide_eq_true h.buffer, decide_eq_true h.empty, hshared, needTl_of_lt h.room]
  rfl

/-- R232, R237: what TALLOC leaves of the issuing strand. -/
theorem State.alloc_me (s : State) (o : FmtET) :
    ((s.onMe (fun t => t.onTile o.td (allocTile o))).counted { issuedBy s .talloc with td := some o.td }).me =
      { s.me.onTile o.td (allocTile o) with tlq := s.me.tlq ++ [{ cmd := s.nextId }], cpq := s.me.cpq ++ [] } := by
  rw [State.counted_me, State.onMe_me]
  rfl

theorem places_talloc {s : State} {o : FmtET} (h : AllocReady s o) :
    Places (.talloc o) s { issuedBy s .talloc with td := some o.td } := by
  let c : Cmd := { issuedBy s .talloc with td := some o.td }
  let s₁ := s.onMe (fun t => t.onTile o.td (allocTile o))
  have hme := s.alloc_me o
  refine ⟨s₁.counted c, c, exec_talloc_of_ready h, rfl, by simp [s₁, State.counted], rfl, memSame_of_eq rfl rfl,
    ⟨?_, rfl, fun k hk => ?_⟩, nofun, fun th hth => ?_, fun _ _ hop => absurd rfl hop, fun n hn => ?_⟩
  · rw [hme]
    rfl
  · exact (s₁.counted_other c hk).trans (s.onMe_other _ hk)
  · have hne : th ≠ o.td := fun e => hth (e ▸ rfl)
    rw [hme]
    show (s.me.onTile o.td (allocTile o)).tile th = _
    rw [Strand.tile_onTile, if_neg hne]
    rfl
  · show (tfind (tset s.cmds s.nextId c) n).map bare = _
    rw [tfind_tset, if_neg hn]

/-- R237: at once the entry has its kind, buffer and format. -/
theorem talloc_tile {s : State} {o : FmtET} (h : AllocReady s o) :
    ∃ t, exec (.talloc o) s = .next t ∧ t.me.tile o.td = allocTile o (s.me.tile o.td) := by
  refine ⟨_, exec_talloc_of_ready h, ?_⟩
  rw [State.alloc_me]
  show (s.me.onTile o.td (allocTile o)).tile o.td = _
  rw [Strand.tile_onTile, if_pos rfl]

/-- R87, R88, R232, R237 to R246: each tile and matrix instruction but TALLOC. -/
theorem places_of_tileRule {s : State} {i : Instr} {c : Cmd} {p : Prop} (h : tileRule s i = some (c, p)) (hp : p) : Places i s c := by
  unfold tileRule at h
  split at h
  next o =>
    cases h
    obtain ⟨htd, htl⟩ := hp
    exact places_tfree htd htl
  next o =>
    cases h
    obtain ⟨htd, htl⟩ := hp
    exact places_tzero htd htl
  next o =>
    cases h
    obtain ⟨htb, hready, htl⟩ := hp
    exact places_mlatch htb hready htl
  next o =>
    cases h
    obtain ⟨htd, hta, hready, htl⟩ := hp
    exact places_tcvt htd hta hready htl
  next o =>
    cases h
    obtain ⟨htd, hta, hkind, hready, htl⟩ := hp
    exact places_tmov htd hta hkind hready htl
  next o =>
    cases h
    obtain ⟨htd, hta, hready, htl⟩ := hp
    exact places_txpose htd hta hready htl
  next o =>
    cases h
    obtain ⟨hmat, hta, hready, hscale⟩ := hp
    exact places_mma hmat hta hready hscale
  next o =>
    cases h
    obtain ⟨hmat, hta, hready, hscale⟩ := hp
    exact places_mmaX hmat hta hready hscale
  next o =>
    cases h
    exact places_mmas hp
  next o =>
    cases h
    exact places_mmasX hp
  next => exact absurd h nofun

/-- Settles O25: the checks of each instruction pass under its conditions, and the placement of its command records and counts it,
reads its sources, and moves its tile or has it waiting. -/
theorem tileIssues : Obligations.TileIssues := by
  unfold Obligations.TileIssues
  refine ⟨fun s i c p h hp => places_of_tileRule h hp, fun s o hin hempty hroom hbuffer hunused => ?_⟩
  have hready : AllocReady s o := ⟨hin, hempty, hroom, hbuffer, hunused⟩
  exact ⟨places_talloc hready, talloc_tile hready⟩

end Sys2Proof.Machine
end

section
/-! O19: the items of held lines, the flags of lanes, and the conversions (R116, R117, R152, R216 to R218). -/

namespace Sys2Proof.Machine

open Sys2Proof.Claims

/-! Flags of several results (R116). -/

/-- A flag of several results is one of the results' own. -/
theorem getLsbD_foldl_or {α : Type} (g : α → BitVec 5) (n : Nat) : ∀ (l : List α) (ff : BitVec 5),
    (l.foldl (fun ff r => ff ||| g r) ff).getLsbD n = true ↔ ff.getLsbD n = true ∨ ∃ r ∈ l, (g r).getLsbD n = true
  | [], ff => by simp
  | r :: l, ff => by
    rw [List.foldl_cons, getLsbD_foldl_or g n l, BitVec.getLsbD_or, Bool.or_eq_true, or_assoc]
    simp only [List.mem_cons, exists_eq_or_imp]

/-- A flag of the results of all lanes. -/
theorem getLsbD_foldl_or_range {α : Type} (g : α → BitVec 5) (f : Nat → α) (N n : Nat) :
    (((List.range N).map f).foldl (fun ff r => ff ||| g r) 0).getLsbD n = true ↔ ∃ k, k < N ∧ (g (f k)).getLsbD n = true := by
  have hzero : ((0 : BitVec 5).getLsbD n = true) = False := by simp
  rw [getLsbD_foldl_or, hzero, false_or]
  simp only [List.mem_map, List.mem_range, exists_exists_and_eq_and]

/-! Held lines (R152, R153). -/

theorem bitAt_two (pm : BitVec 3) : bitAt pm 2 = decide (4 ≤ pm.toNat) := by
  revert pm
  decide

theorem itemAt_lt (w j : Nat) (e : Elem) : itemAt w j e < 2 ^ w := Nat.mod_lt _ (Nat.two_pow_pos w)

/-- The item that a modifier supplies to a lane. -/
theorem pmRead_getD {w k : Nat} (hw : w ≠ 32) (pm : BitVec 3) (l : List Elem) (hk : k < 32) :
    (pmRead w pm l).getD k 0 = if w = 8 ∧ 4 ≤ pm.toNat then itemAt 8 (k % 4) (l.getD (4 * (k / 4) + pm.toNat % 4) 0)
      else itemAt w pm.toNat (l.getD k 0) := by
  simp [pmRead, List.getD, hk, hw, bitAt_two]

theorem pmRead_length (w : Nat) (pm : BitVec 3) (l : List Elem) : (pmRead w pm l).length = 32 := by simp [pmRead]

theorem pmRead_getD_lt {w k : Nat} (hw : w ≠ 32) (pm : BitVec 3) (l : List Elem) (hk : k < 32) : (pmRead w pm l).getD k 0 < 2 ^ w := by
  rw [pmRead_getD hw pm l hk]
  split
  case isTrue h =>
    rw [h.1]
    exact itemAt_lt _ _ _
  case isFalse => exact itemAt_lt _ _ _

/-- A lane of a held line holds the items that its latch's modifier gives it. -/
theorem item_heldLine {tag : BitVec 4} {pm : BitVec 3} (hpm : pmSrcOk (tagWidth tag) pm = true) (l : List Elem) {k j : Nat} (hk : k < 32)
    (hj : j < 32 / tagWidth tag) : item (tagWidth tag) j ((heldLine (tagWidth tag) pm l).getD k 0) = heldItem (tagWidth tag) pm l k j := by
  unfold heldLine heldItem
  by_cases h0 : pm = 0
  · rw [if_pos h0, if_pos h0]
  · have hw : tagWidth tag ≠ 32 := fun h => h0 (pmSrcOk_whole (h ▸ hpm))
    have hlane : ((pmRead (tagWidth tag) pm l).map (repeatItem (tagWidth tag))).getD k 0 =
        repeatItem (tagWidth tag) ((pmRead (tagWidth tag) pm l).getD k 0) := by
      simp [List.getD, pmRead_length, hk]
    rw [if_neg h0, if_neg h0, hlane, item_repeatItem tag (pmRead_getD_lt hw pm l hk) hj, pmRead_getD hw pm l hk]
    rfl

/-! Conversions (R216 to R218). -/

/-- The place and the result that a conversion gives lane `k`. -/
def cvtLane (src : BitVec 4) (o : FmtVU) (mode pm : BitVec 3) (l aux : List Elem) (k : Nat) : Nat × FRes :=
  let (sk, sj, dj) := cvtPos (tagWidth src) (tagWidth o.df) pm o.pm k
  let x := valueOf src (itemAt (tagWidth src) sj (elemAt l sk))
  let x := if scaledTag src then scaleV ((elemAt aux k).toNat % 256) x else x
  let seed := if scaledTag src then 0 else elemAt aux k
  (dj, convertTo o.df mode (hash32 seed (32 / tagWidth o.df * k + dj)) x)

/-- The line that a conversion delivers. -/
def cvtDest (o : FmtVU) (rs : List (Nat × FRes)) : Dest :=
  .line (lineOf o.pd o.xd) (BitVec.ofNat 3 (rs.headD (0, {})).1)
    (rs.map (fun r => pmPlace (tagWidth o.df) (BitVec.ofNat 3 r.1) r.2.bits))
    (rs.map (fun r => pmMask (tagWidth o.df) (BitVec.ofNat 3 r.1))) o.df

/-- The line that a conversion reads: where it narrows, a held source goes under its latch's modifier (R153). -/
def cvtSource (src df : BitVec 4) (held : BitVec 3) (l : List Elem) : List Elem :=
  if tagWidth df < tagWidth src then heldLine (tagWidth src) held l else l

theorem vcvt_done {s : State} {src : BitVec 4} {o : FmtVU} {a : LineRef} (h : VUReady s o [src] a)
    (hlegal : pmSrcOk (tagWidth src) (if tagWidth o.df < tagWidth src then heldPm s 0 o.pa o.xa else sourcePm s 0 o.pa o.xa o.pm) = true) :
    let rs := (List.range 32).map (cvtLane src o (fieldMode s o) (sourcePm s 0 o.pa o.xa o.pm)
      (cvtSource src o.df (heldPm s 0 o.pa o.xa) (s.me.line a)) (s.me.line (auxOf a o)))
    vcvt src o s = .next ((s.loadLatch 0 o.pa o.xa o.pm).land 4 (cvtDest o rs) (rs.foldl (fun ff r => ff ||| r.2.ff) 0)) := by
  intro rs
  refine Eq.trans (congrArg (finish s) (vuChecked_ok h _)) ?_
  dsimp only
  rw [hlegal]
  rfl

theorem scaledTag_iff (src : BitVec 4) : scaledTag src = true ↔ src = 4 ∨ src = 5 ∨ src = 6 := by simp [scaledTag, or_assoc]

/-- The item that a conversion reads lies in the source. -/
theorem cvtPos_lt (src df : BitVec 4) (pm pmDst : BitVec 3) {k : Nat} (hk : k < 32) (hnarrow : tagWidth df < tagWidth src) :
    (cvtPos (tagWidth src) (tagWidth df) pm pmDst k).1 < 32 ∧
      (cvtPos (tagWidth src) (tagWidth df) pm pmDst k).2.1 < 32 / tagWidth src := by
  have hmul := tagWidth_mul src
  simp only [cvtPos, if_pos hnarrow]
  refine ⟨hk, Nat.mod_lt _ (Nat.pos_of_ne_zero fun h0 => ?_)⟩
  rw [h0] at hmul
  omega

/-- The item that a conversion reads, held or named. -/
theorem item_cvtSource {src : BitVec 4} (o : FmtVU) {pm held : BitVec 3} (l : List Elem) {k : Nat} (hk : k < 32)
    (hlegal : pmSrcOk (tagWidth src) (if tagWidth o.df < tagWidth src then held else pm) = true) :
    let p := cvtPos (tagWidth src) (tagWidth o.df) pm o.pm k
    itemAt (tagWidth src) p.2.1 (elemAt (cvtSource src o.df held l) p.1) =
      if tagWidth o.df < tagWidth src then heldItem (tagWidth src) held l p.1 p.2.1 else item (tagWidth src) p.2.1 (l.getD p.1 0) := by
  intro p
  unfold cvtSource
  by_cases hnarrow : tagWidth o.df < tagWidth src
  · obtain ⟨hlane, hitem⟩ := cvtPos_lt src o.df pm o.pm hk hnarrow
    rw [if_pos hnarrow] at hlegal ⊢
    rw [if_pos hnarrow]
    exact item_heldLine hlegal l hlane hitem
  · rw [if_neg hnarrow, if_neg hnarrow]
    rfl

/-- The result of a lane: under a scale for a block-scaled source, with the auxiliary line's seed for another. -/
theorem cvtLane_eq {src : BitVec 4} {o : FmtVU} {pm : BitVec 3} {l : List Elem} {k x : Nat} (mode : BitVec 3) (aux : List Elem)
    (hx : itemAt (tagWidth src) (cvtPos (tagWidth src) (tagWidth o.df) pm o.pm k).2.1
      (elemAt l (cvtPos (tagWidth src) (tagWidth o.df) pm o.pm k).1) = x) :
    let j := (cvtPos (tagWidth src) (tagWidth o.df) pm o.pm k).2.2
    cvtLane src o mode pm l aux k = (j, if src = 4 ∨ src = 5 ∨ src = 6
      then convertTo o.df mode (hash32 0 (32 / tagWidth o.df * k + j)) (scaleV ((aux.getD k 0).toNat % 256) (valueOf src x))
      else convertTo o.df mode (hash32 (aux.getD k 0) (32 / tagWidth o.df * k + j)) (valueOf src x)) := by
  intro j
  unfold cvtLane
  simp only [hx, scaledTag_iff]
  split <;> rfl

/-- Settles O19: the lanes of the line delivered are those of `cvtLane`, whose item is the held or the named one. -/
theorem vectorConversions : Obligations.VectorConversions := by
  unfold Obligations.VectorConversions
  intro s i o src a hrule hready
  dsimp only
  intro hlegal
  have hdone := vcvt_done hready hlegal
  dsimp only at hdone
  rw [exec_of_cvtRule hrule s, hdone]
  have hlane (k : Nat) (hk : k < 32) := cvtLane_eq (fieldMode s o) (s.me.line (auxOf a o)) (item_cvtSource o (s.me.line a) hk hlegal)
  refine ⟨_, _, _, _, rfl, by simp, by simp, fun k hk => ?_, fun n _ => ?_⟩
  · simp only [List.getD_eq_getElem?_getD, List.getElem?_map, List.getElem?_range hk, Option.map_some, Option.getD_some]
    rw [hlane k hk]
    exact ⟨rfl, rfl⟩
  · rw [getLsbD_foldl_or_range]
    refine exists_congr fun k => and_congr_right fun hk => ?_
    rw [hlane k hk]

end Sys2Proof.Machine
end

section
/-! O21: the items of lines and of packed lines (R109, R153, R222). -/

namespace Sys2Proof.Machine

open Sys2Proof.Claims

/-! Items in position order (R109). -/

/-- Rows of equal length, one after another. -/
theorem flatMap_range_rows {α : Type} (g : Nat → Nat → α) {p : Nat} (hp : 0 < p) : ∀ N : Nat,
    (List.range N).flatMap (fun k => (List.range p).map (g k)) = (List.range (N * p)).map (fun n => g (n / p) (n % p))
  | 0 => by simp
  | N + 1 => by
    rw [List.range_succ, List.flatMap_append, flatMap_range_rows g hp N, Nat.succ_mul, List.range_add, List.map_append, List.map_map]
    congr 1
    rw [List.flatMap_singleton]
    refine List.map_congr_left fun j hj => ?_
    have hj : j < p := List.mem_range.mp hj
    rw [Function.comp_apply, Nat.mul_comm N p, Nat.mul_add_div hp, Nat.mul_add_mod, Nat.div_eq_of_lt hj, Nat.mod_eq_of_lt hj,
      Nat.add_zero]

theorem eq_map_range_getD {α : Type} (d : α) {l : List α} {n : Nat} (h : l.length = n) :
    l = (List.range n).map (fun k => l.getD k d) := by
  subst h
  refine List.ext_getElem (by simp) fun k hk _ => ?_
  simp [List.getD, hk]

theorem tagWidth_pos (tag : BitVec 4) : 0 < tagWidth tag := by
  revert tag
  decide

theorem items_pos (tag : BitVec 4) : 0 < 32 / tagWidth tag := by
  revert tag
  decide

theorem itemsOf_eq (tag : BitVec 4) {l : List Elem} (h : l.length = 32) :
    itemsOf (tagWidth tag) l = (List.range (32 * (32 / tagWidth tag))).map
      (fun n => item (tagWidth tag) (n % (32 / tagWidth tag)) (l.getD (n / (32 / tagWidth tag)) 0)) := by
  rw [← flatMap_range_rows (fun k j => item (tagWidth tag) j (l.getD k 0)) (items_pos tag) 32]
  conv_lhs => rw [eq_map_range_getD 0 h]
  rw [itemsOf, List.flatMap_map]

/-! Held lines (R153). -/

/-- The items that a line supplies to a position whose latch holds `pm`, in position order. -/
def heldItems (w : Nat) (pm : BitVec 3) (l : List Elem) : List Nat :=
  (List.range 32).flatMap (fun k => (List.range (32 / w)).map (heldItem w pm l k))

theorem heldLine_length (w : Nat) (pm : BitVec 3) {l : List Elem} (h : l.length = 32) : (heldLine w pm l).length = 32 := by
  unfold heldLine
  split
  · exact h
  · rw [List.length_map, pmRead_length]

theorem lineItems_heldLine {tag : BitVec 4} {pm : BitVec 3} (hpm : pmSrcOk (tagWidth tag) pm = true) {l : List Elem} (h : l.length = 32) :
    lineItems (tagWidth tag) (heldLine (tagWidth tag) pm l) = heldItems (tagWidth tag) pm l := by
  have hlength := heldLine_length (tagWidth tag) pm h
  rw [show lineItems (tagWidth tag) (heldLine (tagWidth tag) pm l) = itemsOf (tagWidth tag) (heldLine (tagWidth tag) pm l) from rfl,
    itemsOf_eq tag hlength, heldItems, flatMap_range_rows _ (items_pos tag)]
  refine List.map_congr_left fun n hn => ?_
  have hn : n < 32 * (32 / tagWidth tag) := List.mem_range.mp hn
  exact item_heldLine hpm l (Nat.div_lt_of_lt_mul (by rwa [Nat.mul_comm])) (Nat.mod_lt _ (items_pos tag))

theorem heldItems_length (tag : BitVec 4) (pm : BitVec 3) (l : List Elem) :
    (heldItems (tagWidth tag) pm l).length = 32 * (32 / tagWidth tag) := by
  rw [heldItems, flatMap_range_rows _ (items_pos tag), List.length_map, List.length_range]

/-! Packed lines (R109, R222). -/

theorem packed_concat (w x : Nat) : ∀ l : List Nat, packed w (l ++ [x]) = packed w l + x % 2 ^ w * 2 ^ (w * l.length)
  | [] => by simp [packed]
  | y :: l => by
    show y % 2 ^ w + 2 ^ w * packed w (l ++ [x]) = y % 2 ^ w + 2 ^ w * packed w l + x % 2 ^ w * 2 ^ (w * (l.length + 1))
    rw [packed_concat w x l, Nat.mul_succ, Nat.pow_add]
    ring

theorem foldl_packed (w : Nat) (x : Nat → Nat) : ∀ n : Nat,
    (List.range n).foldl (fun acc j => acc + x j % 2 ^ w * 2 ^ (w * j)) 0 = packed w ((List.range n).map x)
  | 0 => rfl
  | n + 1 => by
    rw [List.range_succ, List.foldl_append, foldl_packed w x n, List.map_append, List.map_singleton, packed_concat, List.length_map,
      List.length_range]
    rfl

theorem packItems_length (w : Nat) (l : List Nat) : (packItems w l).length = 32 := by simp [packItems]

theorem item_packItems (tag : BitVec 4) (l : List Nat) {k j : Nat} (hk : k < 32) (hj : j < 32 / tagWidth tag) :
    item (tagWidth tag) j ((packItems (tagWidth tag) l).getD k 0) = l.getD (32 / tagWidth tag * k + j) 0 % 2 ^ tagWidth tag := by
  let row : List Nat := (List.range (32 / tagWidth tag)).map (fun j => l.getD (32 / tagWidth tag * k + j) 0)
  have hlt : packed (tagWidth tag) row < 2 ^ 32 := by
    have h := packed_lt (tagWidth tag) row
    rwa [List.length_map, List.length_range, tagWidth_mul] at h
  have hlane : ((packItems (tagWidth tag) l).getD k 0).toNat = packed (tagWidth tag) row := by
    unfold packItems
    dsimp only
    rw [List.getD_eq_getElem?_getD, List.getElem?_map, List.getElem?_range hk, Option.map_some, Option.getD_some,
      foldl_packed (tagWidth tag) (fun j => l.getD (32 / tagWidth tag * k + j) 0), BitVec.toNat_ofNat, Nat.mod_eq_of_lt hlt]
  rw [item, hlane, packed_item, List.getD_eq_getElem?_getD, List.getElem?_map, List.getElem?_range hj]
  rfl

/-- A packed line gives back its items. -/
theorem itemsOf_packItems (tag : BitVec 4) (l : List Nat) {n : Nat} (hn : n < 32 * (32 / tagWidth tag)) :
    (itemsOf (tagWidth tag) (packItems (tagWidth tag) l)).getD n 0 = l.getD n 0 % 2 ^ tagWidth tag := by
  have hlane : n / (32 / tagWidth tag) < 32 := Nat.div_lt_of_lt_mul (by rwa [Nat.mul_comm])
  rw [itemsOf_eq tag (packItems_length _ l), List.getD_eq_getElem?_getD, List.getElem?_map, List.getElem?_range hn, Option.map_some,
    Option.getD_some, item_packItems tag l hlane (Nat.mod_lt _ (items_pos tag)), Nat.div_add_mod]

/-! Reductions and scans that complete (R221). -/

/-- A reduction or scan that is ready gives the line, the tag and the flags of its function. -/
theorem vecR_done {s : State} {o : FmtVU} {a : LineRef} (h : VUReady s o [o.df] a)
    (hlegal : pmSrcOk (tagWidth o.df) (heldPm s 0 o.pa o.xa) = true) (f : List Nat → List Elem → List Elem × BitVec 4 × BitVec 5) :
    let r := f (heldItems (tagWidth o.df) (heldPm s 0 o.pa o.xa) (s.me.line a)) (s.me.line (auxOf a o))
    vecR o s f = .next ((s.loadLatch 0 o.pa o.xa o.pm).land 8 (wholeLine (lineOf o.pd o.xd) r.2.1 r.1) r.2.2) := by
  intro r
  refine Eq.trans (congrArg (finish s) (vuChecked_ok h _)) ?_
  dsimp only
  rw [hlegal, lineItems_heldLine hlegal (Strand.line_length s.me a)]
  rfl

end Sys2Proof.Machine
end

section
/-! O21: a result fits its format (R106, R114, R117). -/

namespace Sys2Proof.Machine

open Sys2Proof.Claims

theorem lt_two_pow_bitLen (m : Nat) : m < 2 ^ bitLen m := by
  unfold bitLen
  split
  case isTrue h => simp [h]
  case isFalse => exact Nat.lt_log2_self

/-- A magnitude rounded at a place not below that of its digit `p + 1` is at most 2^(p + 1). -/
theorem roundAt_le {mode : BitVec 3} {neg sticky : Bool} {m p : Nat} {e q : Int} {h : BitVec 32} (hq : e + bitLen m - 1 - p ≤ q) :
    (roundAt mode neg m e q sticky h).1 ≤ 2 ^ (p + 1) := by
  have hm := lt_two_pow_bitLen m
  unfold roundAt
  split
  case isTrue hqe =>
    calc m * pow2 (e - q) ≤ 2 ^ bitLen m * 2 ^ (e - q).toNat := Nat.mul_le_mul_right _ hm.le
      _ = 2 ^ (bitLen m + (e - q).toNat) := (Nat.pow_add _ _ _).symm
      _ ≤ 2 ^ (p + 1) := Nat.pow_le_pow_right (by decide) (by omega)
  case isFalse hqe =>
    have hquot : m / 2 ^ (q - e).toNat < 2 ^ (p + 1) := by
      refine Nat.div_lt_of_lt_mul (hm.trans_le ?_)
      rw [← Nat.pow_add]
      exact Nat.pow_le_pow_right (by decide) (by omega)
    dsimp only
    split <;> omega

/-- The floating-point formats of the vector arithmetic (R208, R221). -/
def vecFmts : List Fmt := [fF32, fBF16, fFP16]

theorem overflowed_bits_lt {f : Fmt} (hf : f ∈ vecFmts) (mode : BitVec 3) (neg : Bool) : (overflowed f mode neg).bits < 2 ^ f.w := by
  revert f mode neg
  decide

theorem signBit_lt {f : Fmt} (hf : f ∈ vecFmts) (neg : Bool) : signBit f neg < 2 ^ f.w := by
  revert f neg
  decide

theorem infOf_lt {f : Fmt} (hf : f ∈ vecFmts) (neg : Bool) : infOf f neg < 2 ^ f.w := by
  revert f neg
  decide

theorem nanOf_lt {f : Fmt} (hf : f ∈ vecFmts) : nanOf f < 2 ^ f.w := by
  revert f
  decide

/-- What these formats share: their width, and an exponent of all ones for infinity and NaN. -/
theorem vecFmts_form {f : Fmt} (hf : f ∈ vecFmts) : f.ieee = true ∧ f.w = f.eb + f.mb + 1 ∧ 1 ≤ f.eb := by
  revert f
  decide

/-- The pattern of a finite magnitude `x` at the place of 2^q, the exponent not of all ones, fits the format. -/
theorem finite_bits_lt {f : Fmt} (hf : f ∈ vecFmts) (neg : Bool) {x : Nat} {q : Int} (hx : x < 2 ^ (f.mb + 1))
    (hq : 2 ^ f.mb ≤ x → q + f.mb ≤ 2 ^ f.eb - 2 - f.bias) :
    signBit f neg + (if x < 2 ^ f.mb then x else (q + f.mb + f.bias).toNat * 2 ^ f.mb + (x - 2 ^ f.mb)) < 2 ^ f.w := by
  obtain ⟨-, hw, heb⟩ := vecFmts_form hf
  have hsign : signBit f neg ≤ 2 ^ (f.eb + f.mb) := by
    unfold signBit
    rw [hw, Nat.add_sub_cancel]
    split
    · exact Nat.le_refl _
    · exact Nat.zero_le _
  have hmag : (if x < 2 ^ f.mb then x else (q + f.mb + f.bias).toNat * 2 ^ f.mb + (x - 2 ^ f.mb)) < 2 ^ (f.eb + f.mb) := by
    split
    case isTrue h => exact h.trans_le (Nat.pow_le_pow_right (by decide) (Nat.le_add_left _ _))
    case isFalse h =>
      have hexp : (q + f.mb + f.bias).toNat + 1 ≤ 2 ^ f.eb := by
        have htop := hq (Nat.le_of_not_lt h)
        have htwo : 2 ^ 1 ≤ 2 ^ f.eb := Nat.pow_le_pow_right (by decide) heb
        have hcast : ((2 ^ f.eb : Nat) : Int) = 2 ^ f.eb := by push_cast; rfl
        omega
      have hle := Nat.mul_le_mul_right (2 ^ f.mb) hexp
      rw [Nat.succ_mul, ← Nat.pow_add] at hle
      rw [Nat.pow_succ] at hx
      omega
  rw [hw, Nat.pow_succ]
  omega

theorem roundFin_bits_lt {f : Fmt} (hf : f ∈ vecFmts) (mode : BitVec 3) (neg : Bool) (m : Nat) (e : Int) (sticky : Bool) (h : BitVec 32) :
    (roundFin f mode neg m e sticky h).bits < 2 ^ f.w := by
  obtain ⟨hieee, -, -⟩ := vecFmts_form hf
  have hover := overflowed_bits_lt hf mode neg
  unfold roundFin
  split
  case isTrue => exact signBit_lt hf neg
  case isFalse =>
    have hx := roundAt_le (mode := mode) (neg := neg) (sticky := sticky) (h := h) (m := m) (e := e) (p := f.mb)
      (q := max (e + bitLen m - 1) (1 - f.bias) - f.mb) (by omega)
    dsimp only
    generalize roundAt mode neg m e (max (e + bitLen m - 1) (1 - f.bias) - f.mb) sticky h = r at hx ⊢
    generalize hcarry : (if r.1 = 2 ^ (f.mb + 1) then (2 ^ f.mb, max (e + bitLen m - 1) (1 - f.bias) - f.mb + 1)
      else (r.1, max (e + bitLen m - 1) (1 - f.bias) - f.mb) : Nat × Int) = c
    have hlt : c.1 < 2 ^ (f.mb + 1) := by
      rw [← hcarry]
      split
      · exact Nat.pow_lt_pow_right (by decide) (by omega)
      · exact lt_of_le_of_ne hx ‹_›
    split
    case isTrue => exact hover
    case isFalse hfits =>
      refine finite_bits_lt hf neg hlt fun hnormal => ?_
      simp only [hnormal, decide_true, Bool.true_and, Bool.or_eq_true, decide_eq_true_eq, not_or, Int.not_lt] at hfits
      exact hfits.1

/-- A delivered value fits its format. -/
theorem roundF_bits_lt {f : Fmt} (hf : f ∈ vecFmts) (mode : BitVec 3) (h : BitVec 32) (v : FVal) :
    (roundF f mode h v).bits < 2 ^ f.w := by
  obtain ⟨hieee, -, -⟩ := vecFmts_form hf
  cases v with
  | nan sg => exact nanOf_lt hf
  | inf neg =>
    have hbits : (roundF f mode h (.inf neg)).bits = infOf f neg := by simp [roundF, hieee]
    rw [hbits]
    exact infOf_lt hf neg
  | fin neg m e => exact roundFin_bits_lt hf mode neg m e false h

theorem fadd_bits_lt {f : Fmt} (hf : f ∈ vecFmts) (mode : BitVec 3) (h : BitVec 32) (a b : FVal) : (fadd f mode h a b).bits < 2 ^ f.w :=
  roundF_bits_lt hf mode h (addV mode a b).1

/-- The formats of the floating-point reductions and scans (R221). -/
theorem fmtOf_vec {df : BitVec 4} (h : df = 1 ∨ df = 2 ∨ df = 3) : fmtOf df ∈ vecFmts ∧ (fmtOf df).w = tagWidth df := by
  revert df
  decide

end Sys2Proof.Machine
end

section
/-! O21: the order of values and the extreme of several (R119, R209, R221). -/

namespace Sys2Proof.Machine

open Sys2Proof.Claims

/-! The order of values (R119, R209). -/

/-- The number that a dyadic is. -/
noncomputable def Dyadic.value (d : Dyadic) : ℝ := d.m * (2 : ℝ) ^ d.e

theorem dyadicOf_value (n : Bool) (m : Nat) (e : Int) : (dyadicOf n m e).value = valR (.fin n m e) := by
  cases n <;> simp [dyadicOf, Dyadic.value, valR]

theorem valR_not (n : Bool) (m : Nat) (e : Int) : valR (.fin (!n) m e) = -valR (.fin n m e) := by
  cases n <;> simp [valR]

/-- A power of two above another, as a multiple of it. -/
theorem pow2_mul {e g : Int} (h : g ≤ e) : ((pow2 (e - g) : Int) : ℝ) * (2 : ℝ) ^ g = (2 : ℝ) ^ e := by
  have hcast : ((pow2 (e - g) : Int) : ℝ) = (2 : ℝ) ^ (e - g) := by
    rw [pow2, ← Int.toNat_of_nonneg (a := e - g) (by omega), zpow_natCast, Int.toNat_natCast]
    push_cast
    rfl
  rw [hcast, ← zpow_add₀ two_ne_zero, Int.sub_add_cancel]

theorem Dyadic.add_value (a b : Dyadic) : (a.add b).value = a.value + b.value := by
  unfold Dyadic.add
  split
  case isTrue h => simp [Dyadic.value, h]
  case isFalse =>
    split
    case isTrue h => simp [Dyadic.value, h]
    case isFalse =>
      have ha := pow2_mul (min_le_left a.e b.e)
      have hb := pow2_mul (min_le_right a.e b.e)
      simp only [Dyadic.value, Int.cast_add, Int.cast_mul]
      rw [add_mul, mul_assoc, mul_assoc, ha, hb]

theorem Dyadic.m_eq_zero (d : Dyadic) : d.m = 0 ↔ d.value = 0 := by
  have h : (2 : ℝ) ^ d.e ≠ 0 := zpow_ne_zero _ two_ne_zero
  rw [Dyadic.value, mul_eq_zero, or_iff_left h, Int.cast_eq_zero]

theorem Dyadic.m_neg (d : Dyadic) : d.m < 0 ↔ d.value < 0 := by
  have h : (0 : ℝ) < (2 : ℝ) ^ d.e := zpow_pos two_pos _
  simp [Dyadic.value, mul_neg_iff, h, h.not_gt]

theorem valR_fin_eq_zero (n : Bool) (m : Nat) (e : Int) : valR (.fin n m e) = 0 ↔ m = 0 := by
  have h : (2 : ℝ) ^ e ≠ 0 := zpow_ne_zero _ two_ne_zero
  cases n <;> simp [valR, h]

theorem valR_neg_le (m : Nat) (e : Int) : valR (.fin true m e) ≤ 0 ∧ 0 ≤ valR (.fin false m e) := by
  have h : (0 : ℝ) ≤ m * (2 : ℝ) ^ e := by positivity
  simp only [valR, if_true, Bool.false_eq_true, if_false]
  constructor <;> linarith

/-- Where a value stands among those that are not NaN: by its number, and −0 before +0. -/
noncomputable def FVal.rank : FVal → EReal ×ₗ Bool
  | .nan _ => toLex (0, true)
  | .inf n => toLex (if n then ⊥ else ⊤, true)
  | .fin n m e => toLex ((valR (.fin n m e) : EReal), !n)

/-- The order of two finite values. -/
theorem FVal.below_fin (n k : Bool) (m p : Nat) (e g : Int) :
    (FVal.fin n m e).below (.fin k p g) = true ↔ (FVal.fin n m e).rank < (FVal.fin k p g).rank := by
  have hvalue : ((dyadicOf n m e).add (dyadicOf (!k) p g)).value = valR (.fin n m e) - valR (.fin k p g) := by
    rw [Dyadic.add_value, dyadicOf_value, dyadicOf_value, valR_not, sub_eq_add_neg]
  have hbelow : (FVal.fin n m e).below (.fin k p g) = true ↔
      (valR (.fin n m e) = valR (.fin k p g) ∧ n = true ∧ k = false ∧ m = 0) ∨ valR (.fin n m e) < valR (.fin k p g) := by
    simp only [FVal.below, Dyadic.m_eq_zero, Dyadic.m_neg, hvalue, sub_eq_zero, sub_neg]
    split
    case isTrue h => simp [h, and_assoc]
    case isFalse h => simp [h]
  rw [hbelow, FVal.rank, FVal.rank, Prod.Lex.toLex_lt_toLex, EReal.coe_lt_coe_iff, EReal.coe_eq_coe_iff, or_comm]
  refine or_congr_right (and_congr_right fun heq => ?_)
  cases n with
  | false => simp
  | true => cases k with
    | true => simp
    | false =>
      have hzero : m = 0 := by
        rw [← valR_fin_eq_zero true m e]
        exact le_antisymm (valR_neg_le m e).1 (heq ▸ (valR_neg_le p g).2)
      simp [hzero]

/-- The order of values that are not NaN is that of their ranks. -/
theorem FVal.below_iff {a b : FVal} (ha : a.isNan = false) (hb : b.isNan = false) : a.below b = true ↔ a.rank < b.rank := by
  cases a with
  | nan => cases ha
  | inf n => cases b with
    | nan => cases hb
    | inf k => cases n <;> cases k <;> simp [FVal.below, FVal.rank, Prod.Lex.toLex_lt_toLex]
    | fin k p g => cases n <;> simp [FVal.below, FVal.rank, Prod.Lex.toLex_lt_toLex, EReal.bot_lt_coe]
  | fin n m e => cases b with
    | nan => cases hb
    | inf k => cases k <;> simp [FVal.below, FVal.rank, Prod.Lex.toLex_lt_toLex, EReal.coe_lt_top]
    | fin k p g => exact FVal.below_fin n k m p e g

theorem valR_ofIntF (v : Int) : valR (ofIntF v) = v := by
  rw [ofIntF]
  by_cases h : v < 0
  · simp [valR, h, abs_of_neg h]
  · simp [valR, h, abs_of_nonneg (Int.not_lt.mp h)]

/-- The order of integers. -/
theorem ofIntF_below (v w : Int) : (ofIntF v).below (ofIntF w) = true ↔ v < w := by
  have hrank (u : Int) : (ofIntF u).rank = toLex (((u : ℝ) : EReal), !decide (u < 0)) := by
    rw [← valR_ofIntF u]
    rfl
  rw [FVal.below_iff rfl rfl, hrank, hrank, Prod.Lex.toLex_lt_toLex, EReal.coe_lt_coe_iff, EReal.coe_eq_coe_iff, Int.cast_lt, Int.cast_inj]
  refine or_iff_left fun ⟨heq, hlt⟩ => ?_
  subst heq
  exact lt_irrefl _ hlt

/-! The extreme of several values (R119, R221). -/

/-- Does `v` pass `best`: is it above it for the largest, below it for the smallest? -/
def passes (mx : Bool) (best v : FVal) : Bool := if mx then best.below v else v.below best

theorem extreme_cons (mx : Bool) (v : FVal) (r : List FVal) (acc : FVal) :
    extreme mx (v :: r) acc = extreme mx r (if passes mx acc v then v else acc) := by
  cases mx <;> rfl

theorem passes_eq_false_iff (mx : Bool) {a b : FVal} (ha : a.isNan = false) (hb : b.isNan = false) :
    passes mx a b = false ↔ if mx then b.rank ≤ a.rank else a.rank ≤ b.rank := by
  have hab := FVal.below_iff ha hb
  have hba := FVal.below_iff hb ha
  cases mx <;> simp [passes, Bool.eq_false_iff, hab, hba]

theorem not_passes_trans {mx : Bool} {a b c : FVal} (ha : a.isNan = false) (hb : b.isNan = false) (hc : c.isNan = false)
    (hab : passes mx a b = false) (hbc : passes mx b c = false) : passes mx a c = false := by
  rw [passes_eq_false_iff mx ha hb] at hab
  rw [passes_eq_false_iff mx hb hc] at hbc
  rw [passes_eq_false_iff mx ha hc]
  cases mx with
  | false => exact le_trans hab hbc
  | true => exact le_trans hbc hab

theorem not_passes_of_passes {mx : Bool} {a b : FVal} (ha : a.isNan = false) (hb : b.isNan = false) (h : passes mx a b = true) :
    passes mx b a = false := by
  have hnot := mt (passes_eq_false_iff mx ha hb).mpr (by simp [h])
  rw [passes_eq_false_iff mx hb ha]
  cases mx with
  | false => exact le_of_lt (not_le.mp hnot)
  | true => exact le_of_lt (not_le.mp hnot)

/-- The extreme is one of the values, and none passes it. -/
theorem extreme_spec (mx : Bool) : ∀ (l : List FVal) (acc : FVal), (∀ v ∈ acc :: l, v.isNan = false) →
    extreme mx l acc ∈ acc :: l ∧ ∀ v ∈ acc :: l, passes mx (extreme mx l acc) v = false
  | [], acc, h => by
    have hacc := h acc List.mem_cons_self
    refine ⟨List.mem_cons_self, fun v hv => ?_⟩
    obtain rfl := List.mem_singleton.mp hv
    show passes mx v v = false
    rw [passes_eq_false_iff mx hacc hacc]
    split <;> exact le_refl _
  | v :: l, acc, h => by
    rw [extreme_cons]
    have hacc := h acc List.mem_cons_self
    have hv := h v (by simp)
    have hsub : ∀ u ∈ (if passes mx acc v then v else acc) :: l, u ∈ acc :: v :: l := by
      intro u hu
      split at hu <;> simp only [List.mem_cons] at hu ⊢ <;> tauto
    have hnext := fun u hu => h u (hsub u hu)
    obtain ⟨hmem, hbest⟩ := extreme_spec mx l _ hnext
    have hbestNan := hnext _ hmem
    generalize hb : extreme mx l (if passes mx acc v then v else acc) = best at hmem hbest hbestNan ⊢
    have hkept := hbest _ List.mem_cons_self
    have hothers : passes mx best acc = false ∧ passes mx best v = false := by
      by_cases hpass : passes mx acc v = true
      · rw [if_pos hpass] at hkept
        exact ⟨not_passes_trans hbestNan hv hacc hkept (not_passes_of_passes hacc hv hpass), hkept⟩
      · rw [if_neg hpass] at hkept
        exact ⟨hkept, not_passes_trans hbestNan hacc hv hkept (by simpa using hpass)⟩
    refine ⟨hsub _ hmem, fun u hu => ?_⟩
    obtain rfl | rfl | hu := by simpa only [List.mem_cons] using hu
    · exact hothers.1
    · exact hothers.2
    · exact hbest u (List.mem_cons_of_mem _ hu)

/-- The extreme of a line. -/
theorem extreme_headD (mx : Bool) {l : List FVal} (hne : l ≠ []) (h : ∀ v ∈ l, v.isNan = false) (d : FVal) :
    extreme mx l (l.headD d) ∈ l ∧ noneBeyond mx (extreme mx l (l.headD d)) l := by
  obtain ⟨v, r, rfl⟩ := List.exists_cons_of_ne_nil hne
  have hsub : ∀ u ∈ v :: v :: r, u ∈ v :: r := fun u hu => (List.mem_cons.mp hu).elim (fun h => h ▸ List.mem_cons_self) id
  obtain ⟨hmem, hbest⟩ := extreme_spec mx (v :: r) v fun u hu => h u (hsub u hu)
  exact ⟨hsub _ hmem, fun u hu => hbest u (List.mem_cons_of_mem _ hu)⟩

end Sys2Proof.Machine
end

section
/-! O21: the tree of a sum, and the running sums (R119, R120, R221, R222). -/

namespace Sys2Proof.Machine

open Sys2Proof.Claims

/-! The tree (R119). -/

/-- One addition of the tree. -/
def treeAdd (m : BitVec 3) (a b : Nat) : FRes := fadd fF32 m 0 (decodeF fF32 a) (decodeF fF32 b)

theorem range_two_mul_succ (N : Nat) : List.range (2 * (N + 1)) = 0 :: 1 :: (List.range (2 * N)).map (· + 2) := by
  rw [Nat.mul_succ, List.range_succ_eq_map, List.range_succ_eq_map, List.map_cons, List.map_map]
  rfl

/-- The sums of neighbours. -/
theorem pairSums_fst (m : BitVec 3) : ∀ (N : Nat) (y : Nat → Nat) (ff : BitVec 5),
    (pairSums m ((List.range (2 * N)).map y) ff).1 = (List.range N).map (fun j => (treeAdd m (y (2 * j)) (y (2 * j + 1))).bits)
  | 0, _, _ => rfl
  | N + 1, y, ff => by
    rw [range_two_mul_succ, List.map_cons, List.map_cons, List.map_map, List.range_succ_eq_map, List.map_cons, List.map_map]
    exact congrArg _ (pairSums_fst m N (y ∘ (· + 2)) _)

/-- Their flags. -/
theorem pairSums_snd (m : BitVec 3) (b : Nat) : ∀ (N : Nat) (y : Nat → Nat) (ff : BitVec 5),
    (pairSums m ((List.range (2 * N)).map y) ff).2.getLsbD b = true ↔
      ff.getLsbD b = true ∨ ∃ j, j < N ∧ (treeAdd m (y (2 * j)) (y (2 * j + 1))).ff.getLsbD b = true
  | 0, _, ff => by simp [pairSums]
  | N + 1, y, ff => by
    rw [range_two_mul_succ, List.map_cons, List.map_cons, List.map_map]
    refine (pairSums_snd m b N (y ∘ (· + 2)) _).trans ?_
    rw [BitVec.getLsbD_or, Bool.or_eq_true, or_assoc, Nat.exists_lt_succ_left]
    rfl

theorem treeSum_succ (m : BitVec 3) (n : Nat) (l : List Nat) (ff : BitVec 5) :
    treeSum m (n + 1) l ff = treeSum m n (pairSums m l ff).1 (pairSums m l ff).2 := rfl

/-- The tree from its nodes of level `k` on. -/
theorem treeSum_nodes_fst (m : BitVec 3) (x : Nat → Nat) : ∀ (n k : Nat) (ff : BitVec 5),
    (treeSum m n ((List.range (2 ^ n)).map (sumNode m x k)) ff).1 = sumNode m x (k + n) 0
  | 0, _, _ => rfl
  | n + 1, k, ff => by
    rw [Nat.pow_succ, Nat.mul_comm, treeSum_succ, pairSums_fst, ← Nat.add_assoc, Nat.add_right_comm]
    exact treeSum_nodes_fst m x n (k + 1) _

/-- The flags of the tree, those below its nodes of level `k` being noted. -/
theorem treeSum_nodes_snd (m : BitVec 3) (x : Nat → Nat) (b : Nat) (P : Prop) : ∀ (n k : Nat) (ff : BitVec 5),
    (ff.getLsbD b = true ↔ P ∨ ∃ j, j < 2 ^ n ∧ (sumFlags m x k j).getLsbD b = true) →
    ((treeSum m n ((List.range (2 ^ n)).map (sumNode m x k)) ff).2.getLsbD b = true ↔ P ∨ (sumFlags m x (k + n) 0).getLsbD b = true)
  | 0, k, ff, h => by
    rw [show (treeSum m 0 ((List.range (2 ^ 0)).map (sumNode m x k)) ff).2 = ff from rfl, h]
    simp
  | n + 1, k, ff, h => by
    rw [Nat.pow_succ, Nat.mul_comm] at h ⊢
    rw [treeSum_succ, pairSums_fst, ← Nat.add_assoc, Nat.add_right_comm]
    refine treeSum_nodes_snd m x b P n (k + 1) _ ?_
    rw [pairSums_snd, h, or_assoc]
    refine or_congr_right ?_
    have hflags (j : Nat) : (sumFlags m x (k + 1) j).getLsbD b = true ↔ (sumFlags m x k (2 * j)).getLsbD b = true ∨
        (sumFlags m x k (2 * j + 1)).getLsbD b = true ∨
        (treeAdd m (sumNode m x k (2 * j)) (sumNode m x k (2 * j + 1))).ff.getLsbD b = true := by
      rw [sumFlags, BitVec.getLsbD_or, BitVec.getLsbD_or, Bool.or_eq_true, Bool.or_eq_true, or_assoc]
      rfl
    simp only [hflags]
    constructor
    · rintro (⟨i, hi, hflag⟩ | ⟨j, hj, hflag⟩)
      · obtain ⟨j, rfl | rfl⟩ := i.even_or_odd'
        · exact ⟨j, by omega, .inl hflag⟩
        · exact ⟨j, by omega, .inr (.inl hflag)⟩
      · exact ⟨j, hj, .inr (.inr hflag)⟩
    · rintro ⟨j, hj, hflag | hflag | hflag⟩
      · exact .inl ⟨2 * j, by omega, hflag⟩
      · exact .inl ⟨2 * j + 1, by omega, hflag⟩
      · exact .inr ⟨j, hj, hflag⟩

/-! Running sums (R120, R221). -/

/-- The running result at position `n` (R120). -/
def runningAdd (f : Fmt) (mode : BitVec 3) (seed : Nat → BitVec 32) (n p x : Nat) : FRes :=
  fadd f mode (hash32 (seed n) n) (decodeF f p) (decodeF f x)

/-- Every running result adds an item to the one before it. -/
theorem scanFrom_getD (f : Fmt) (mode : BitVec 3) (seed : Nat → BitVec 32) : ∀ (l : List Nat) (n p i : Nat), i < l.length →
    (scanFrom f mode seed n p l).1.getD i 0 =
      (runningAdd f mode seed (n + i) ((p :: (scanFrom f mode seed n p l).1).getD i 0) (l.getD i 0)).bits
  | [], _, _, _, hi => absurd hi (Nat.not_lt_zero _)
  | _ :: _, _, _, 0, _ => rfl
  | _ :: l, n, p, i + 1, hi => by
    rw [← Nat.add_assoc, Nat.add_right_comm]
    exact scanFrom_getD f mode seed l (n + 1) _ i (Nat.lt_of_succ_lt_succ hi)

theorem scanFrom_flags (f : Fmt) (mode : BitVec 3) (seed : Nat → BitVec 32) (b : Nat) : ∀ (l : List Nat) (n p : Nat),
    (scanFrom f mode seed n p l).2.getLsbD b = true ↔ ∃ i, i < l.length ∧
      (runningAdd f mode seed (n + i) ((p :: (scanFrom f mode seed n p l).1).getD i 0) (l.getD i 0)).ff.getLsbD b = true
  | [], _, _ => by simp [scanFrom]
  | x :: l, n, p => by
    rw [scanFrom, BitVec.getLsbD_or, Bool.or_eq_true, scanFrom_flags f mode seed b l, List.length_cons, Nat.exists_lt_succ_left]
    simp only [Nat.add_assoc, Nat.add_comm 1]
    rfl

/-- The running results of a line and their flags (R120). -/
def scanAll (f : Fmt) (mode : BitVec 3) (seed : Nat → BitVec 32) : List Nat → List Nat × BitVec 5
  | [] => ([], 0)
  | x :: r =>
    let y := roundF f mode 0 (decodeF f x)
    let z := scanFrom f mode seed 1 y.bits r
    (y.bits :: z.1, y.ff ||| z.2)

/-- The result at position `n` of the items `xs` behind the results `r` (R120). -/
def runningResult (f : Fmt) (mode : BitVec 3) (seed : Nat → BitVec 32) (r xs : List Nat) (n : Nat) : FRes :=
  if n = 0 then roundF f mode 0 (decodeF f (xs.getD 0 0)) else runningAdd f mode seed n (r.getD (n - 1) 0) (xs.getD n 0)

theorem scanAll_getD (f : Fmt) (mode : BitVec 3) (seed : Nat → BitVec 32) {xs : List Nat} {n : Nat} (hn : n < xs.length) :
    (scanAll f mode seed xs).1.getD n 0 = (runningResult f mode seed (scanAll f mode seed xs).1 xs n).bits := by
  cases xs with
  | nil => exact absurd hn (Nat.not_lt_zero _)
  | cons x r => cases n with
    | zero => rfl
    | succ n =>
      have h := scanFrom_getD f mode seed r 1 (roundF f mode 0 (decodeF f x)).bits n (Nat.lt_of_succ_lt_succ hn)
      rw [Nat.add_comm 1 n] at h
      exact h

theorem scanAll_flags (f : Fmt) (mode : BitVec 3) (seed : Nat → BitVec 32) (xs : List Nat) (b : Nat) :
    (scanAll f mode seed xs).2.getLsbD b = true ↔
      ∃ n, n < xs.length ∧ (runningResult f mode seed (scanAll f mode seed xs).1 xs n).ff.getLsbD b = true := by
  cases xs with
  | nil => simp [scanAll]
  | cons x r =>
    have h := scanFrom_flags f mode seed b r 1 (roundF f mode 0 (decodeF f x)).bits
    simp only [Nat.add_comm 1] at h
    rw [List.length_cons, Nat.exists_lt_succ_left, scanAll, BitVec.getLsbD_or, Bool.or_eq_true, h]
    rfl

/-- Every running result fits its format. -/
theorem scanAll_getD_lt {f : Fmt} (hf : f ∈ vecFmts) (mode : BitVec 3) (seed : Nat → BitVec 32) {xs : List Nat} {n : Nat}
    (hn : n < xs.length) : (scanAll f mode seed xs).1.getD n 0 < 2 ^ f.w := by
  rw [scanAll_getD f mode seed hn, runningResult]
  split
  · exact roundF_bits_lt hf mode 0 _
  · exact fadd_bits_lt hf mode _ _ _

/-- Every integer running result is the sum of the items to its place. -/
theorem iscanFrom_getD (w : Nat) : ∀ (l : List Nat) (p i : Nat), i < l.length →
    (iscanFrom w p l).getD i 0 = (p + (l.take (i + 1)).sum) % 2 ^ w
  | [], _, _, hi => absurd hi (Nat.not_lt_zero _)
  | x :: l, p, 0, _ => by simp [iscanFrom]
  | x :: l, p, i + 1, hi => by
    refine (iscanFrom_getD w l _ i (Nat.lt_of_succ_lt_succ hi)).trans ?_
    rw [List.take_succ_cons, List.sum_cons, Nat.mod_add_mod, Nat.add_assoc]

end Sys2Proof.Machine
end

section
/-! O21: integer results (R117, R119, R221) and the nonzero scan (R223). -/

namespace Sys2Proof.Machine

open Sys2Proof.Claims

/-! Integers of 32 bits (R117). -/

theorem tagWidth_le (tag : BitVec 4) : tagWidth tag ≤ 32 := by
  revert tag
  decide

/-- An item of at most 32 bits is an integer of 32 bits. -/
theorem intVal_bounds (sg : Bool) {w : Nat} (hpos : 0 < w) (hle : w ≤ 32) (x : Nat) :
    intMin sg 32 ≤ intVal sg w x ∧ intVal sg w x ≤ intMax sg 32 := by
  obtain ⟨u, rfl⟩ := Nat.exists_eq_succ_of_ne_zero hpos.ne'
  have hhalf : 2 ^ (u + 1) = 2 ^ u * 2 := pow_succ 2 u
  have htop : 2 ^ u ≤ 2 ^ 31 := Nat.pow_le_pow_right (by decide) (by omega)
  have hlt : x % 2 ^ (u + 1) < 2 ^ (u + 1) := Nat.mod_lt _ (Nat.two_pow_pos _)
  unfold intMin intMax intVal
  rw [Nat.succ_eq_add_one, Nat.add_sub_cancel]
  generalize x % 2 ^ (u + 1) = y at hlt ⊢
  generalize 2 ^ (u + 1) = whole at hhalf hlt ⊢
  generalize 2 ^ u = half at hhalf htop ⊢
  cases sg with
  | true =>
    simp only [Bool.true_and, decide_eq_true_eq, if_true]
    split <;> omega
  | false =>
    simp only [Bool.false_and, Bool.false_eq_true, if_false]
    omega

/-- Saturation. -/
theorem satInt_fst {sg : Bool} {w : Nat} (h : intMin sg w ≤ intMax sg w) (v : Int) :
    (satInt sg w v).1 = max (intMin sg w) (min v (intMax sg w)) := by
  unfold satInt
  split
  · omega
  · split <;> omega

theorem intMin_le_intMax (sg : Bool) : intMin sg 32 ≤ intMax sg 32 := by
  cases sg <;> decide

theorem intBits_word (v : Int) : intBits 32 v = (v % 2 ^ 32).toNat := rfl

/-- An integer of 32 bits is delivered as it is. -/
theorem roundI_ofIntF {sg : Bool} {v : Int} (hmin : intMin sg 32 ≤ v) (hmax : v ≤ intMax sg 32) :
    (roundI sg 32 0 0 (ofIntF v)).bits = (v % 2 ^ 32).toNat := by
  have hmag : (if decide (v < 0) = true then -((v.natAbs * 1 : Nat) : Int) else ((v.natAbs * 1 : Nat) : Int)) = v := by
    rw [Nat.mul_one]
    by_cases hneg : v < 0
    · rw [if_pos (decide_eq_true hneg)]
      omega
    · rw [if_neg (by simpa using hneg)]
      omega
  show intBits 32 (satInt sg 32 (if decide (v < 0) = true then -((v.natAbs * 1 : Nat) : Int) else ((v.natAbs * 1 : Nat) : Int))).1 = _
  rw [hmag, satInt_fst (intMin_le_intMax sg), min_eq_left hmax, max_eq_right hmin, intBits_word]

/-! The nonzero scan (R223). -/

/-- A pattern is a zero where its bits below the sign are. -/
theorem decodeF_zero_iff {f : Fmt} (heb : 0 < f.eb) (x : Nat) :
    (∃ n e, decodeF f x = .fin n 0 e) ↔ x % 2 ^ (f.eb + f.mb) = 0 := by
  have hexp : 1 < 2 ^ f.eb := Nat.one_lt_two_pow heb.ne'
  have hmant : 0 < 2 ^ f.mb := Nat.two_pow_pos f.mb
  have hmag : x % 2 ^ (f.eb + f.mb) = 0 ↔ x % 2 ^ f.mb = 0 ∧ x / 2 ^ f.mb % 2 ^ f.eb = 0 := by
    rw [Nat.add_comm, Nat.pow_add, Nat.mod_mul]
    simp
  rw [hmag]
  unfold decodeF
  dsimp only
  split
  case isTrue h =>
    have htop : x / 2 ^ f.mb % 2 ^ f.eb = 2 ^ f.eb - 1 := by simpa using (Bool.and_eq_true_iff.mp h).2
    split <;> simp <;> omega
  case isFalse =>
    split
    case isTrue h =>
      simp only [Bool.and_eq_true, decide_eq_true_eq] at h
      simp [h.1.2]
    case isFalse =>
      split
      case isTrue h => simp [h]
      case isFalse h =>
        simp [h]

/-- An item is live where it is not zero (R223). -/
theorem liveItem_eq (df : BitVec 4) (x : Nat) : liveItem df x = !itemZero df x := by
  unfold liveItem itemZero
  by_cases h0 : df = 0
  · subst h0
    simp
  · have hpos : 1 ≤ df.toNat := Nat.pos_of_ne_zero fun h => h0 (BitVec.eq_of_toNat_eq h)
    rw [if_neg h0]
    by_cases hfloat : df.toNat < 7
    · have hform : 0 < (fmtOf df).eb ∧ tagWidth df - 1 = (fmtOf df).eb + (fmtOf df).mb := by
        clear h0
        revert df
        decide
      have hzero := decodeF_zero_iff hform.1 x
      simp only [hpos, hfloat, decide_true, Bool.and_self, if_true, hform.2]
      cases hv : decodeF (fmtOf df) x with
      | nan | inf => simpa [hv] using hzero
      | fin n m e => cases m <;> simpa [hv] using hzero
    · simp [hfloat]

theorem livePositions_eq (df : BitVec 4) (j : Nat) (l : List Elem) : liveOf df j l = livePositions df j l := by
  simp only [liveOf, livePositions, liveItem_eq]
  rfl

/-- A nonzero scan that is ready gives the line of its function. -/
theorem nonzero_done {s : State} {o : FmtVU} {a : LineRef} (h : VUReady s o (if o.df = 0 then [] else [o.df]) a)
    (hlegal : pmDstOk (tagWidth o.df) (sourcePm s 0 o.pa o.xa o.pm) = true) (f : List Nat → List Elem) :
    nonzero o s f = .next ((s.loadLatch 0 o.pa o.xa o.pm).land 8 (wholeLine (lineOf o.pd o.xd) 12
      (f (livePositions o.df (sourcePm s 0 o.pa o.xa o.pm).toNat (s.me.line a))))) := by
  unfold nonzero
  simp only [needAccepted_any]
  rw [vuChecked_ok h, hlegal, livePositions_eq]
  rfl

theorem nonzeroScan : NonzeroScan := by
  intro s o a hready _ _
  dsimp only
  intro hlegal
  rw [exec_vnzs, execVnzs, nonzero_done hready hlegal, exec_vnzc, execVnzc, nonzero_done hready hlegal]
  refine ⟨?_, rfl⟩
  refine congrArg (fun f : Nat → Elem => Host.Outcome.next (State.land _ 8 (wholeLine _ 12 ((List.range 32).map f)))) (funext fun m => ?_)
  rw [List.getD_eq_getElem?_getD]
  cases (livePositions o.df (sourcePm s 0 o.pa o.xa o.pm).toNat (s.me.line a))[m]? with
  | none => rfl
  | some n => rfl

end Sys2Proof.Machine
end

section
/-! O21: the reductions and the scans (R116, R119 to R121, R221, R222). -/

namespace Sys2Proof.Machine

open Sys2Proof.Claims

/-! The extreme of a line (R119, R221). -/

/-- The line, the tag and the flags that VRMIN and VRMAX give. -/
def extremeLine (mx : Bool) (df : BitVec 4) (xs : List Nat) : List Elem × BitVec 4 × BitVec 5 :=
  let vs := xs.map (valueOf df)
  let ff := ffIf (vs.any FVal.snan) ffV
  if vs.any FVal.isNan then (everywhere (nanOf fF32), 1, ff)
  else
    let v := extreme mx vs (vs.headD (.inf false))
    if df.toNat < 8 then (everywhere (roundF fF32 0 0 v).bits, 1, ff)
    else if df.toNat < 12 then (everywhere (roundI true 32 0 0 v).bits, 8, 0)
    else (everywhere (roundI false 32 0 0 v).bits, 12, 0)

theorem exec_extreme (mx : Bool) (o : FmtVU) (s : State) :
    exec (if mx then .vrmax o else .vrmin o) s = vecR o s (fun xs _ => extremeLine mx o.df xs) := by
  cases mx with
  | false => rw [if_neg Bool.false_ne_true, exec_vrmin, execVrmin, vecExtreme]; rfl
  | true => rw [if_pos rfl, exec_vrmax, execVrmax, vecExtreme]; rfl

/-- The value of an item of an integer format is its integer. -/
theorem valueOf_int {df : BitVec 4} (h : 8 ≤ df.toNat) (x : Nat) :
    valueOf df x = ofIntF (intVal (decide (df.toNat < 12)) (tagWidth df) x) := if_pos h

/-- The extreme of floating-point items: the canonical NaN, or the FP32 of an item that none passes. -/
theorem extremeLine_float (mx : Bool) {df : BitVec 4} (hdf : df.toNat < 8) {xs : List Nat} (hne : xs ≠ []) :
    ∃ v : Nat, extremeLine mx df xs = (inEvery v, 1, if xs.any (fun x => (valueOf df x).snan) then 16 else 0) ∧
      if xs.any (fun x => (valueOf df x).isNan) then v = 0x7FC00000
      else ∃ x ∈ xs, v = (convertTo 1 0 0 (valueOf df x)).bits ∧ noneBeyond mx (valueOf df x) (xs.map (valueOf df)) := by
  unfold extremeLine
  simp only [List.any_map, Function.comp_def, ffIf, if_pos hdf]
  by_cases hnan : xs.any (fun x => (valueOf df x).isNan) = true
  · rw [if_pos hnan]
    refine ⟨_, rfl, ?_⟩
    rw [if_pos hnan]
    rfl
  · have hnum : ∀ v ∈ xs.map (valueOf df), v.isNan = false := by simpa using hnan
    obtain ⟨hmem, hbest⟩ := extreme_headD mx (by simpa using hne) hnum (.inf false)
    obtain ⟨x, hx, heq⟩ := List.mem_map.mp hmem
    rw [if_neg hnan]
    refine ⟨_, rfl, ?_⟩
    rw [if_neg hnan, ← heq]
    rw [← heq] at hbest
    exact ⟨x, hx, rfl, hbest⟩

/-- The extreme of integer items. -/
theorem extremeLine_int (mx : Bool) {df : BitVec 4} (hdf : 8 ≤ df.toNat) {xs : List Nat} (hne : xs ≠ []) :
    let sg := decide (df.toNat < 12)
    ∃ v : Int, extremeLine mx df xs = (inEvery (v % 2 ^ 32).toNat, if sg then 8 else 12, 0) ∧
      (∃ x ∈ xs, v = intVal sg (tagWidth df) x) ∧
      ∀ x ∈ xs, if mx then intVal sg (tagWidth df) x ≤ v else v ≤ intVal sg (tagWidth df) x := by
  intro sg
  have hval (x : Nat) : valueOf df x = ofIntF (intVal sg (tagWidth df) x) := valueOf_int hdf x
  have hnum : ∀ v ∈ xs.map (valueOf df), v.isNan = false := by
    intro v hv
    obtain ⟨x, -, rfl⟩ := List.mem_map.mp hv
    rw [hval]
    rfl
  have hany : (xs.map (valueOf df)).any FVal.isNan = false := by
    rw [List.any_eq_false]
    exact fun v hv => by simp [hnum v hv]
  obtain ⟨hmem, hbest⟩ := extreme_headD mx (by simpa using hne) hnum (.inf false)
  obtain ⟨x, hx, heq⟩ := List.mem_map.mp hmem
  rw [← heq, hval] at hbest
  obtain ⟨hmin, hmax⟩ := intVal_bounds sg (tagWidth_pos df) (tagWidth_le df) x
  refine ⟨intVal sg (tagWidth df) x, ?_, ⟨x, hx, rfl⟩, fun y hy => ?_⟩
  · unfold extremeLine
    dsimp only
    rw [hany, if_neg Bool.false_ne_true, if_neg (Nat.not_lt.mpr hdf), ← heq, hval, ← roundI_ofIntF hmin hmax]
    by_cases hsigned : df.toNat < 12
    · rw [if_pos hsigned, show sg = true from decide_eq_true hsigned]
      rfl
    · rw [if_neg hsigned, show sg = false from decide_eq_false hsigned]
      rfl
  · have hy := hbest _ (List.mem_map_of_mem hy)
    rw [hval] at hy
    cases mx with
    | false => exact Int.not_lt.mp (mt (ofIntF_below _ _).mpr (Bool.eq_false_iff.mp hy))
    | true => exact Int.not_lt.mp (mt (ofIntF_below _ _).mpr (Bool.eq_false_iff.mp hy))

/-! The reductions and scans (R221, R222). -/

theorem heldItems_ne_nil (tag : BitVec 4) (pm : BitVec 3) (l : List Elem) : heldItems (tagWidth tag) pm l ≠ [] := by
  have hlength := heldItems_length tag pm l
  have hpos := items_pos tag
  intro h
  rw [h, List.length_nil] at hlength
  omega

/-- The levels of the tree over the items of a line (R119). -/
theorem two_pow_levels {df : BitVec 4} (h : df = 1 ∨ df = 2 ∨ df = 3) :
    2 ^ (if tagWidth df = 32 then 5 else 6) = 32 * (32 / tagWidth df) := by
  revert df
  decide

/-- The tree over the items of a line. -/
theorem vrsum_tree {df : BitVec 4} (hdf : df = 1 ∨ df = 2 ∨ df = 3) (m : BitVec 3) {xs : List Nat}
    (hlength : xs.length = 32 * (32 / tagWidth df)) :
    let x (n : Nat) : FRes := convertTo 1 0 0 (valueOf df (xs.getD n 0))
    let levels := if tagWidth df = 32 then 5 else 6
    let ws := xs.map (widen df)
    let sum := treeSum m levels (ws.map (·.bits)) (ws.foldl (fun f r => f ||| r.ff) 0)
    sum.1 = sumNode m (fun n => (x n).bits) levels 0 ∧
      ∀ b, sum.2.getLsbD b = true ↔ (∃ k, k < 32 * (32 / tagWidth df) ∧ (x k).ff.getLsbD b = true) ∨
        (sumFlags m (fun n => (x n).bits) levels 0).getLsbD b = true := by
  intro x levels ws sum
  have hcount : 2 ^ levels = 32 * (32 / tagWidth df) := two_pow_levels hdf
  have hws : ws = (List.range (32 * (32 / tagWidth df))).map x := by
    show xs.map (widen df) = _
    conv_lhs => rw [eq_map_range_getD 0 hlength, List.map_map]
    rfl
  have hleaves : ws.map (·.bits) = (List.range (2 ^ levels)).map (sumNode m (fun n => (x n).bits) 0) := by
    rw [hws, hcount, List.map_map]
    rfl
  have hsum : sum = treeSum m levels ((List.range (2 ^ levels)).map (sumNode m (fun n => (x n).bits) 0))
      (ws.foldl (fun f r => f ||| r.ff) 0) := by rw [← hleaves]
  rw [hsum, treeSum_nodes_fst, Nat.zero_add]
  refine ⟨rfl, fun b => ?_⟩
  have hflags := treeSum_nodes_snd m (fun n => (x n).bits) b (∃ k, k < 32 * (32 / tagWidth df) ∧ (x k).ff.getLsbD b = true) levels 0
    (ws.foldl (fun f r => f ||| r.ff) 0)
  rw [Nat.zero_add] at hflags
  refine hflags ?_
  rw [hws, getLsbD_foldl_or_range]
  simp [sumFlags]

theorem foldl_itemInt (df : BitVec 4) (xs : List Nat) :
    xs.foldl (fun a x => a + itemInt df x) (0 : Int) = (xs.map (intVal (decide (df.toNat < 12)) (tagWidth df))).sum := by
  rw [List.sum_eq_foldl, List.foldl_map]
  rfl

/-- The packed running results of a line read back are the results. -/
theorem itemsOf_scan {df : BitVec 4} (hdf : df = 1 ∨ df = 2 ∨ df = 3) (m : BitVec 3) (seed : Nat → BitVec 32) {xs : List Nat}
    (hlength : xs.length = 32 * (32 / tagWidth df)) {n : Nat} (hn : n < 32 * (32 / tagWidth df)) :
    (itemsOf (tagWidth df) (packItems (tagWidth df) (scanAll (fmtOf df) m seed xs).1)).getD n 0 =
      (scanAll (fmtOf df) m seed xs).1.getD n 0 := by
  obtain ⟨hf, hw⟩ := fmtOf_vec hdf
  rw [itemsOf_packItems df _ hn, Nat.mod_eq_of_lt]
  rw [← hw]
  exact scanAll_getD_lt hf m seed (hlength ▸ hn)

/-- A running result reads no more of the results before it than its neighbour. -/
theorem runningResult_congr (f : Fmt) (mode : BitVec 3) (seed : Nat → BitVec 32) {r r' : List Nat} (xs : List Nat) {n N : Nat}
    (hn : n < N) (h : ∀ i, i < N → r.getD i 0 = r'.getD i 0) : runningResult f mode seed r xs n = runningResult f mode seed r' xs n := by
  rw [runningResult, runningResult, h (n - 1) (by omega)]

theorem exec_vscan_eq (o : FmtVU) (s : State) : exec (.vscan o) s = vecR o s (fun xs aux =>
    let z := scanAll (fmtOf o.df) (fieldMode s o) (fun n => elemAt aux (n / (32 / (fmtOf o.df).w))) xs
    (if xs = [] then [] else packItems (fmtOf o.df).w z.1, o.df, z.2)) := by
  rw [exec_vscan, execVscan]
  refine congrArg (vecR o s) (funext fun xs => funext fun aux => ?_)
  cases xs with
  | nil => rfl
  | cons x r => rfl

end Sys2Proof.Machine
end

section
/-! O21: what each reduction and scan answers (R116, R119 to R121, R221 to R223). -/

namespace Sys2Proof.Machine

open Sys2Proof.Claims

section
variable {s : State} {o : FmtVU} {a : LineRef} (hready : VUReady s o [o.df] a)
  (hlegal : pmSrcOk (tagWidth o.df) (heldPm s 0 o.pa o.xa) = true)
include hready hlegal

theorem exec_vrsum_done (hdf : o.df = 1 ∨ o.df = 2 ∨ o.df = 3) :
    let xs := heldItems (tagWidth o.df) (heldPm s 0 o.pa o.xa) (s.me.line a)
    let m := if fieldMode s o = 4 then 0 else fieldMode s o
    let x (n : Nat) : FRes := convertTo 1 0 0 (valueOf o.df (xs.getD n 0))
    let levels := if tagWidth o.df = 32 then 5 else 6
    ∃ ff, exec (.vrsum o) s = .next ((s.loadLatch 0 o.pa o.xa o.pm).land 8
        (wholeLine (lineOf o.pd o.xd) 1 (inEvery (sumNode m (fun n => (x n).bits) levels 0))) ff) ∧
      ∀ n, n < 5 → (ff.getLsbD n = true ↔ (∃ k, k < 32 * (32 / tagWidth o.df) ∧ (x k).ff.getLsbD n = true) ∨
        (sumFlags m (fun n => (x n).bits) levels 0).getLsbD n = true) := by
  intro xs m x levels
  obtain ⟨hsum, hflags⟩ := vrsum_tree hdf m (heldItems_length o.df (heldPm s 0 o.pa o.xa) (s.me.line a))
  refine ⟨_, ?_, fun n _ => hflags n⟩
  rw [exec_vrsum, execVrsum, vecR_done hready hlegal, ← hsum]
  rfl

theorem exec_extreme_float (hdf : o.df.toNat < 8) (mx : Bool) :
    let xs := heldItems (tagWidth o.df) (heldPm s 0 o.pa o.xa) (s.me.line a)
    ∃ v : Nat, exec (if mx then .vrmax o else .vrmin o) s = .next ((s.loadLatch 0 o.pa o.xa o.pm).land 8
        (wholeLine (lineOf o.pd o.xd) 1 (inEvery v)) (if xs.any (fun x => (valueOf o.df x).snan) then 16 else 0)) ∧
      if xs.any (fun x => (valueOf o.df x).isNan) then v = 0x7FC00000
      else ∃ x ∈ xs, v = (convertTo 1 0 0 (valueOf o.df x)).bits ∧ noneBeyond mx (valueOf o.df x) (xs.map (valueOf o.df)) := by
  intro xs
  obtain ⟨v, hline, hv⟩ := extremeLine_float mx hdf (heldItems_ne_nil o.df (heldPm s 0 o.pa o.xa) (s.me.line a))
  refine ⟨v, ?_, hv⟩
  rw [exec_extreme, vecR_done hready hlegal, hline]

theorem exec_extreme_int (hdf : 8 ≤ o.df.toNat) (mx : Bool) :
    let xs := heldItems (tagWidth o.df) (heldPm s 0 o.pa o.xa) (s.me.line a)
    let sg := decide (o.df.toNat < 12)
    ∃ v : Int, exec (if mx then .vrmax o else .vrmin o) s = .next ((s.loadLatch 0 o.pa o.xa o.pm).land 8
        (wholeLine (lineOf o.pd o.xd) (if sg then 8 else 12) (inEvery (v % 2 ^ 32).toNat)) 0) ∧
      (∃ x ∈ xs, v = intVal sg (tagWidth o.df) x) ∧
      ∀ x ∈ xs, if mx then intVal sg (tagWidth o.df) x ≤ v else v ≤ intVal sg (tagWidth o.df) x := by
  intro xs sg
  obtain ⟨v, hline, hv⟩ := extremeLine_int mx hdf (heldItems_ne_nil o.df (heldPm s 0 o.pa o.xa) (s.me.line a))
  refine ⟨v, ?_, hv⟩
  rw [exec_extreme, vecR_done hready hlegal, hline]

theorem exec_vrisum_done :
    let sg := decide (o.df.toNat < 12)
    let v := ((heldItems (tagWidth o.df) (heldPm s 0 o.pa o.xa) (s.me.line a)).map (intVal sg (tagWidth o.df))).sum
    exec (.vrisum o) s = .next ((s.loadLatch 0 o.pa o.xa o.pm).land 8 (wholeLine (lineOf o.pd o.xd) (if sg then 8 else 12)
      (inEvery ((max (intMin sg 32) (min v (intMax sg 32))) % 2 ^ 32).toNat)) 0) := by
  intro sg v
  rw [exec_vrisum, execVrisum, vecR_done hready hlegal, foldl_itemInt]
  dsimp only
  rw [satInt_fst (intMin_le_intMax _), intBits_word]
  simp only [sg, decide_eq_true_eq]
  rfl

theorem exec_vscan_done (hdf : o.df = 1 ∨ o.df = 2 ∨ o.df = 3) :
    let xs := heldItems (tagWidth o.df) (heldPm s 0 o.pa o.xa) (s.me.line a)
    let seed := fun n => (s.me.line (auxOf a o)).getD (n / (32 / tagWidth o.df)) 0
    ∃ (vals : List Elem) (ff : BitVec 5),
      exec (.vscan o) s = .next ((s.loadLatch 0 o.pa o.xa o.pm).land 8 (wholeLine (lineOf o.pd o.xd) o.df vals) ff) ∧ vals.length = 32 ∧
      let sum := runningResult (fmtOf o.df) (fieldMode s o) seed (itemsOf (tagWidth o.df) vals) xs
      (∀ n, n < 32 * (32 / tagWidth o.df) → (itemsOf (tagWidth o.df) vals).getD n 0 = (sum n).bits) ∧
      ∀ b, b < 5 → (ff.getLsbD b = true ↔ ∃ n, n < 32 * (32 / tagWidth o.df) ∧ (sum n).ff.getLsbD b = true) := by
  intro xs seed
  obtain ⟨-, hw⟩ := fmtOf_vec hdf
  have hlength : xs.length = 32 * (32 / tagWidth o.df) := heldItems_length o.df (heldPm s 0 o.pa o.xa) (s.me.line a)
  let z := scanAll (fmtOf o.df) (fieldMode s o) seed xs
  have hitems (n : Nat) (hn : n < 32 * (32 / tagWidth o.df)) : (itemsOf (tagWidth o.df) (packItems (tagWidth o.df) z.1)).getD n 0 =
      z.1.getD n 0 := itemsOf_scan hdf (fieldMode s o) seed hlength hn
  have hrunning (n : Nat) (hn : n < 32 * (32 / tagWidth o.df)) := runningResult_congr (fmtOf o.df) (fieldMode s o) seed xs hn hitems
  refine ⟨packItems (tagWidth o.df) z.1, z.2, ?_, packItems_length _ _, fun n hn => ?_, fun b _ => ?_⟩
  · rw [exec_vscan_eq, vecR_done hready hlegal]
    simp only [if_neg (heldItems_ne_nil _ _ _), hw]
    rfl
  · rw [hitems n hn, hrunning n hn]
    exact scanAll_getD _ _ _ (hlength ▸ hn)
  · rw [scanAll_flags, hlength]
    exact exists_congr fun n => and_congr_right fun hn => by rw [hrunning n hn]

theorem exec_viscan_done :
    ∃ vals : List Elem, exec (.viscan o) s = .next ((s.loadLatch 0 o.pa o.xa o.pm).land 8 (wholeLine (lineOf o.pd o.xd) o.df vals)) ∧
      vals.length = 32 ∧ ∀ n, n < 32 * (32 / tagWidth o.df) → (itemsOf (tagWidth o.df) vals).getD n 0 =
        ((heldItems (tagWidth o.df) (heldPm s 0 o.pa o.xa) (s.me.line a)).take (n + 1)).sum % 2 ^ tagWidth o.df := by
  have hlength := heldItems_length o.df (heldPm s 0 o.pa o.xa) (s.me.line a)
  refine ⟨packItems (tagWidth o.df) (iscanFrom (tagWidth o.df) 0 (heldItems (tagWidth o.df) (heldPm s 0 o.pa o.xa) (s.me.line a))), ?_,
    packItems_length _ _, fun n hn => ?_⟩
  · rw [exec_viscan, execViscan, vecR_done hready hlegal]
  · rw [itemsOf_packItems o.df _ hn, iscanFrom_getD _ _ _ _ (hlength.symm ▸ hn), Nat.mod_mod, Nat.zero_add]

end

theorem reductions : Reductions := by
  intro s o a hready
  dsimp only
  intro hlegal
  have hfloat (hdf : o.df = 1 ∨ o.df = 2 ∨ o.df = 3) : o.df.toNat < 8 := by
    obtain h | h | h := hdf <;> rw [h] <;> decide
  exact ⟨exec_vrsum_done hready hlegal, fun hdf => exec_extreme_float hready hlegal (hfloat hdf),
    fun hdf => exec_extreme_int hready hlegal hdf.1, fun _ => exec_vrisum_done hready hlegal, exec_vscan_done hready hlegal,
    fun _ => exec_viscan_done hready hlegal⟩

/-- Settles O21: a line read under its latch's modifier is its held items in position order, over which the tree, the extreme and the
running sums are followed by induction. -/
theorem vectorReductions : Obligations.VectorReductions := by
  unfold Obligations.VectorReductions
  exact ⟨reductions, nonzeroScan⟩

end Sys2Proof.Machine
end

section
/-! O34: the lines of a binding's region, written back and kept or dropped (R93, R137, R138). -/

namespace Sys2Proof.Machine

open Sys2Proof.Claims

/-! One line and several (R93). -/

/-- What a flush does with one line: it writes it back, and drops it or keeps it. -/
def State.flushLine (s : State) (c : Nat) (drop : Bool) (ln : Nat) : State :=
  if drop then (s.writeBack c ln).dropLine c ln else s.writeBack c ln

theorem State.flushLine_withHome (s : State) (c : Nat) (drop : Bool) (ln : Nat) : ∃ m k, s.flushLine c drop ln = s.withHome m k := by
  obtain ⟨m, k, h⟩ := s.writeBack_eq c ln
  cases drop with
  | false => exact ⟨m, k, h⟩
  | true => exact ⟨m, _, congrArg (fun x : State => x.dropLine c ln) h⟩

theorem State.flushLine_mem (s : State) (c : Nat) (drop : Bool) (ln k : Nat) : cget (s.flushLine c drop ln).mem k =
    if k / 64 = ln then homeByte s c k else cget s.mem k := by
  cases drop <;> exact s.writeBack_mem c ln k

theorem State.flushLine_homeByte (s : State) (c : Nat) (drop : Bool) (ln pa : Nat) :
    homeByte (s.flushLine c drop ln) c pa = homeByte s c pa := by
  cases drop with
  | false => exact s.writeBack_homeByte c ln pa
  | true => exact s.dropLine_homeByte c ln pa

theorem State.flushLine_line_none (s : State) (c : Nat) (drop : Bool) (ln j : Nat) :
    tfind (tget (s.flushLine c drop ln).clusters c).lines j = none ↔
      tfind (tget s.clusters c).lines j = none ∨ (drop = true ∧ j = ln) := by
  have hkept : tfind (tget (s.writeBack c ln).clusters c).lines j = none ↔ tfind (tget s.clusters c).lines j = none := by
    rw [s.writeBack_line, Option.map_eq_none_iff]
  cases drop with
  | false => exact hkept.trans (by simp)
  | true =>
    refine (iff_of_eq (congrArg (· = none) (State.dropLine_line (s.writeBack c ln) c ln j))).trans ?_
    by_cases hj : j = ln
    · simp [hj]
    · simpa [hj] using hkept

/-- Of cluster `c` the lines that `p` names are at home, and with `drop` they are gone; nothing else of the machine changes, of memory
and of which lines the cluster holds neither. -/
structure FlushDone (c : Nat) (drop : Bool) (p : Nat → Prop) [DecidablePred p] (s t : State) : Prop where
  home : ∃ m k, t = s.withHome m k
  mem : ∀ k, cget t.mem k = if p (k / 64) then homeByte s c k else cget s.mem k
  lines : ∀ j, tfind (tget t.clusters c).lines j = none ↔ tfind (tget s.clusters c).lines j = none ∨ (drop = true ∧ p j)

theorem foldl_flushLine (c : Nat) (drop : Bool) (L : List Nat) : ∀ s : State,
    FlushDone c drop (· ∈ L) s (L.foldl (fun s ln => s.flushLine c drop ln) s) := by
  induction L with
  | nil => exact fun s => ⟨⟨s.mem, s.clusters, rfl⟩, fun k => by simp, fun j => by simp⟩
  | cons ln r ih =>
    intro s
    obtain ⟨⟨m, k, ht⟩, hmem, hlines⟩ := ih (s.flushLine c drop ln)
    obtain ⟨m', k', hs⟩ := s.flushLine_withHome c drop ln
    refine ⟨⟨m, k, by rw [List.foldl_cons, ht, hs]; rfl⟩, fun j => ?_, fun j => ?_⟩
    · rw [List.foldl_cons, hmem, s.flushLine_homeByte, s.flushLine_mem]
      by_cases h1 : j / 64 = ln <;> by_cases h2 : j / 64 ∈ r <;> simp [h1, h2]
    · rw [List.foldl_cons, hlines, s.flushLine_line_none, List.mem_cons, or_assoc, ← and_or_left]

/-- R93: a line that the cluster does not hold has nothing to write back. -/
theorem State.flush_done (s : State) (c : Nat) (p : Nat → Bool) (drop : Bool) : FlushDone c drop (fun j => p j = true) s (s.flush c p drop) := by
  have habsent {j : Nat} (h : ¬ (j ∈ ((tget s.clusters c).lines.map (·.1)).filter p ↔ p j = true)) :
      tfind (tget s.clusters c).lines j = none := by
    refine Option.eq_none_iff_forall_not_mem.mpr fun l hl => h ?_
    rw [List.mem_filter, and_iff_right (mem_keys_of_tfind hl)]
  obtain ⟨hhome, hmem, hlines⟩ := foldl_flushLine c drop (((tget s.clusters c).lines.map (·.1)).filter p) s
  refine ⟨hhome, fun k => (hmem k).trans ?_, fun j => (hlines j).trans ?_⟩
  · by_cases h : k / 64 ∈ ((tget s.clusters c).lines.map (·.1)).filter p ↔ p (k / 64) = true
    · simp only [h]
    · rw [homeByte, habsent h, ite_self, ite_self]
  · by_cases h : j ∈ ((tget s.clusters c).lines.map (·.1)).filter p ↔ p j = true
    · simp only [h]
    · simp only [habsent h, true_or]

/-! The region of a binding (R134, R137, R138). -/

/-- R137, R138: at die scope or wider the lines of a binding's region are written back, and dropped or kept. -/
def State.flushRegion (s : State) (b : Binding) (drop : Bool) : State :=
  if 2 ≤ b.hsc.toNat then s.flush s.cl (s.regionHas s.me.part b) drop else s

theorem State.flushRegion_done (s : State) (b : Binding) (drop : Bool) :
    FlushDone s.cl drop (fun j => 2 ≤ b.hsc.toNat ∧ s.regionHas s.me.part b j = true) s (s.flushRegion b drop) := by
  unfold State.flushRegion
  by_cases h : 2 ≤ b.hsc.toNat
  · simp only [h, true_and]
    exact s.flush_done s.cl _ drop
  · simp only [h, false_and]
    exact ⟨⟨s.mem, s.clusters, rfl⟩, fun k => rfl, fun j => by simp⟩

/-- What SyncRequests says of memory and of the cluster's lines. -/
def RegionFlushed (b : Binding) (drop : Bool) (s t : State) : Prop :=
  (∀ k, 2 ^ 39 ≤ k → cget t.mem k = cget s.mem k) ∧
  ∀ pa, pa < 2 ^ 39 →
    cget t.mem pa = (if 2 ≤ b.hsc.toNat ∧ s.regionHas s.me.part b (pa / 64) = true then homeByte s s.cl pa else cget s.mem pa) ∧
    (tfind (tget t.clusters s.cl).lines (pa / 64) = none ↔ tfind (tget s.clusters s.cl).lines (pa / 64) = none ∨
      (drop = true ∧ 2 ≤ b.hsc.toNat ∧ s.regionHas s.me.part b (pa / 64) = true))

theorem State.flushRegion_flushed {s : State} (hlines : ∀ x ∈ (tget s.clusters s.cl).lines, x.1 < 2 ^ 33) (b : Binding) (drop : Bool) :
    RegionFlushed b drop s (s.flushRegion b drop) := by
  obtain ⟨-, hmem, hline⟩ := s.flushRegion_done b drop
  refine ⟨fun k hk => (hmem k).trans ?_, fun pa _ => ⟨hmem pa, hline (pa / 64)⟩⟩
  rw [homeByte_of_le hlines hk, ite_self]

end Sys2Proof.Machine
end

section
/-! O34: bindings and their requests (R134, R136, R139). -/

namespace Sys2Proof.Machine

open Sys2Proof.Claims

/-! The binding named (R139, R261). -/

theorem State.bindingOf_ok {s : State} {o : FmtEA} {b : Binding} (hx : (s.reg o.sa).toNat + o.imm.toNat % 512 < 4096)
    (hb : tget (tget s.parts s.me.part).bindings ((s.reg o.sa).toNat + o.imm.toNat % 512) = b) (hv : b.bv = true) :
    s.bindingOf o = .ok ((s.reg o.sa).toNat + o.imm.toNat % 512, b) := by
  subst hb
  simp only [State.bindingOf, hx, hv, decide_true, Bool.and_self, need_true, Res.bind_ok]
  rfl

theorem State.bindingOf_unbound {s : State} {o : FmtEA} (h : 4096 ≤ (s.reg o.sa).toNat + o.imm.toNat % 512 ∨
      (tget (tget s.parts s.me.part).bindings ((s.reg o.sa).toNat + o.imm.toNat % 512)).bv = false) :
    s.bindingOf o = trapE cSyncBind (BitVec.ofNat 64 ((s.reg o.sa).toNat + o.imm.toNat % 512)) := by
  have hbad : (decide ((s.reg o.sa).toNat + o.imm.toNat % 512 < 4096) &&
      (tget (tget s.parts s.me.part).bindings ((s.reg o.sa).toNat + o.imm.toNat % 512)).bv) = false := by
    rw [Bool.and_eq_false_iff, decide_eq_false_iff_not, Nat.not_lt]
    exact h
  simp only [State.bindingOf, hbad, need_false, Res.bind_error]
  rfl

/-! One binding of a partition changes. -/

/-- Binding `x` of a partition becomes `b`; beside the partitions nothing changes, nor do the partition's mappings. -/
structure Rebound (part x : Nat) (b : Binding) (s t : State) : Prop where
  only : ∃ q, t = { s with parts := q }
  known : (tfind t.parts part).isSome
  binding : tget (tget t.parts part).bindings x = b
  live : (tget t.parts part).live = (tget s.parts part).live
  regions : (tget t.parts part).regions = (tget s.parts part).regions

section
variable {part x : Nat} {b c : Binding} {s t : State}

theorem rebound_self (h : (tfind s.parts part).isSome) (hb : tget (tget s.parts part).bindings x = b) : Rebound part x b s s :=
  ⟨⟨s.parts, rfl⟩, h, hb, rfl, rfl⟩

/-- The entry is written. -/
def State.setBinding (s : State) (part x : Nat) (b : Binding) : State :=
  s.onPart part (fun p => { p with bindings := tset p.bindings x b })

theorem Rebound.put (h : Rebound part x b s t) (c : Binding) : Rebound part x c s (t.setBinding part x c) := by
  obtain ⟨⟨q, rfl⟩, hknown, -, hlive, hregions⟩ := h
  have hpart := tget_tmod q (fun p => { p with bindings := tset p.bindings x c }) hknown
  refine ⟨⟨_, rfl⟩, ?_, ?_, (congrArg Partition.live hpart).trans hlive, (congrArg Partition.regions hpart).trans hregions⟩
  · rw [State.setBinding, State.onPart, tfind_tmod, if_pos rfl, Option.isSome_map]
    exact hknown
  · exact (congrArg (fun p => tget p.bindings x) hpart).trans (tget_tset_self _ _ _)

/-- The entry once the head of its queue has been granted, the exclusive holder named (R136). -/
def State.grantedAt (s : State) (b : Binding) : Binding :=
  { (grantHead b.waiters b).2 with
    waiters := (grantHead b.waiters b).1,
    own := match (grantHead b.waiters b).1.find? (fun r => r.granted && r.excl) with
      | some r => (tget s.strands r.strand).fol
      | none => (grantHead b.waiters b).2.own }

theorem Rebound.grant (h : Rebound part x b s t) : Rebound part x (s.grantedAt b) s (t.grant part x) := by
  have hgrant : t.grant part x = t.setBinding part x (t.grantedAt b) := by
    rw [← h.binding]
    rfl
  have hstrands : t.grantedAt b = s.grantedAt b := by
    obtain ⟨q, rfl⟩ := h.only
    rfl
  rw [hgrant, hstrands]
  exact h.put _

/-- The region of a binding stays where it was (R134). -/
theorem Rebound.regionHas (h : Rebound part x b s t) (hrb : c.rb = b.rb) (hnp : c.np = b.np) (ln : Nat) :
    t.regionHas part b ln = s.regionHas part c ln := by
  have hwalk (va : BitVec 56) : t.walk part va = s.walk part va := by
    have hleaf : t.reservedLeaf part va.toNat = s.reservedLeaf part va.toNat := by rw [State.reservedLeaf, h.live, State.reservedLeaf]
    have hmem : t.mem = s.mem := by
      obtain ⟨q, rfl⟩ := h.only
      rfl
    rw [State.walk, State.walkBy, hleaf, hmem, h.regions]
    rfl
  simp only [State.regionHas, hwalk, hrb, hnp]

/-- The flush of a region by the entry as it stands is that of the region. -/
theorem Rebound.flushed (h : Rebound part x b s t) (hpart : part = s.me.part) (hlines : ∀ x ∈ (tget s.clusters s.cl).lines, x.1 < 2 ^ 33)
    (hhsc : b.hsc = c.hsc) (hrb : c.rb = b.rb) (hnp : c.np = b.np) (drop : Bool) : RegionFlushed c drop s (t.flushRegion b drop) := by
  subst hpart
  have hregion := h.regionHas hrb hnp
  obtain ⟨q, rfl⟩ := h.only
  have hdone := State.flushRegion_flushed (s := { s with parts := q }) hlines b drop
  unfold RegionFlushed at hdone
  simp only [hhsc] at hdone
  have hregion' (ln : Nat) : ({ s with parts := q } : State).regionHas ({ s with parts := q } : State).me.part b ln = s.regionHas s.me.part c ln :=
    hregion ln
  simp only [hregion'] at hdone
  exact hdone

end

/-! What is granted (R136). -/

section
variable {r : SyncReq} {b : Binding}

theorem grantHead_exclusive (rest : List SyncReq) (hr : r.granted = false) (hexcl : r.excl = true) (hmd : b.md = 0) :
    grantHead (r :: rest) b = ({ r with granted := true, value := b.value } :: rest, { b with md := 1 }) := by
  simp only [grantHead, hr, hexcl, hmd]
  rfl

theorem grantHead_shared (rest : List SyncReq) (hr : r.granted = false) (hexcl : r.excl = false) (hmd : b.md = 0 ∨ b.md = 2) :
    grantHead (r :: rest) b = ({ r with granted := true, value := b.value } :: (grantHead rest { b with md := 2, sh := b.sh + 1 }).1,
      (grantHead rest { b with md := 2, sh := b.sh + 1 }).2) := by
  obtain hmd | hmd := hmd <;> simp only [grantHead, hr, hexcl, hmd] <;> rfl

theorem grantHead_blocked (rest : List SyncReq) (hr : r.granted = false) (hmd : (r.excl = true ∧ b.md = 2) ∨ b.md = 1) :
    grantHead (r :: rest) b = (r :: rest, b) := by
  obtain ⟨hexcl, hmd⟩ | hmd := hmd
  · simp [grantHead, hr, hexcl, hmd]
  · simp [grantHead, hr, hmd]

end

/-- Behind a sharer that has been granted only sharers are granted. -/
theorem grantHead_behind_sharer (l : List SyncReq) : ∀ b : Binding, b.md = 2 → (∀ q ∈ l, q.granted = false) →
    (∃ n, (grantHead l b).2 = { b with sh := b.sh + n }) ∧ ∀ q ∈ (grantHead l b).1, ¬(q.granted && q.excl) = true := by
  induction l with
  | nil => exact fun b _ _ => ⟨⟨0, rfl⟩, fun q hq => absurd hq List.not_mem_nil⟩
  | cons r rest ih =>
    intro b hmd hwait
    have hr : r.granted = false := hwait r List.mem_cons_self
    cases hexcl : r.excl with
    | true =>
      rw [grantHead_blocked rest hr (.inl ⟨hexcl, hmd⟩)]
      exact ⟨⟨0, rfl⟩, fun q hq => by simp [hwait q hq]⟩
    | false =>
      obtain ⟨⟨n, hn⟩, hrest⟩ := ih { b with md := 2, sh := b.sh + 1 } rfl fun q hq => hwait q (List.mem_cons_of_mem _ hq)
      rw [grantHead_shared rest hr hexcl (.inr hmd)]
      refine ⟨⟨1 + n, by simp only [hn, hmd, Nat.add_assoc]⟩, fun q hq => ?_⟩
      obtain rfl | hq := List.mem_cons.mp hq
      · simp [hexcl]
      · exact hrest q hq

/-! The entry after a grant (R136, R138). -/

/-- Nobody is granted an exclusive hold: the owner stays. -/
theorem State.grantedAt_of_head {s : State} {b c : Binding} {l : List SyncReq} (hhead : grantHead b.waiters b = (l, c))
    (hnone : ∀ q ∈ l, ¬(q.granted && q.excl) = true) : s.grantedAt b = { c with waiters := l } := by
  have hfind : l.find? (fun q => q.granted && q.excl) = none := List.find?_eq_none.mpr hnone
  simp only [State.grantedAt, hhead, hfind]

theorem State.grantedAt_of_nil (s : State) {b : Binding} (h : b.waiters = []) : s.grantedAt b = b := by
  have hhead : grantHead b.waiters b = ([], b) := by
    rw [h]
    rfl
  rw [State.grantedAt_of_head hhead fun q hq => absurd hq List.not_mem_nil, ← h]

/-- R136: the oldest request cannot be granted, nor is another. -/
theorem State.grantedAt_blocked (s : State) {b : Binding} {r : SyncReq} (hq : b.waiters = [r]) (hr : r.granted = false)
    (hmd : (r.excl = true ∧ b.md = 2) ∨ b.md = 1) : s.grantedAt b = b := by
  have hhead : grantHead b.waiters b = ([r], b) := by rw [hq, grantHead_blocked [] hr hmd]
  rw [State.grantedAt_of_head hhead fun q hq => by simp [List.mem_singleton.mp hq, hr], ← hq]

section
variable {b : Binding} {r : SyncReq} {rest : List SyncReq}

/-- The oldest request for a free object is exclusive: it alone is granted. -/
theorem State.grantedAt_exclusive (s : State) (hmd : b.md = 0) (hq : b.waiters = r :: rest) (hr : r.granted = false)
    (hexcl : r.excl = true) : s.grantedAt b = { b with
      md := 1, own := (tget s.strands r.strand).fol, waiters := { r with granted := true, value := b.value } :: rest } := by
  have hhead := (congrArg (grantHead · b) hq).trans (grantHead_exclusive rest hr hexcl hmd)
  simp only [State.grantedAt, hhead, List.find?_cons, hexcl, Bool.and_self]

/-- The oldest request for an object without an exclusive holder is shared: it and the sharers behind it are granted. -/
theorem State.grantedAt_shared (s : State) (hmd : b.md = 0 ∨ b.md = 2) (hq : b.waiters = r :: rest)
    (hwait : ∀ q ∈ b.waiters, q.granted = false) (hexcl : r.excl = false) :
    ∃ n, s.grantedAt b = { b with
      md := 2, sh := b.sh + 1 + n,
      waiters := { r with granted := true, value := b.value } :: (grantHead rest { b with md := 2, sh := b.sh + 1 }).1 } := by
  rw [hq] at hwait
  obtain ⟨⟨n, hn⟩, hrest⟩ :=
    grantHead_behind_sharer rest { b with md := 2, sh := b.sh + 1 } rfl fun q hq => hwait q (List.mem_cons_of_mem _ hq)
  have hhead := (congrArg (grantHead · b) hq).trans (grantHead_shared rest (hwait r List.mem_cons_self) hexcl hmd)
  refine ⟨n, ?_⟩
  rw [State.grantedAt_of_head hhead, hn]
  intro q hq
  obtain rfl | hq := List.mem_cons.mp hq
  · simp [hexcl]
  · exact hrest q hq

/-- It is the only request. -/
theorem State.grantedAt_shared_alone (s : State) (hmd : b.md = 0 ∨ b.md = 2) (hq : b.waiters = [r]) (hr : r.granted = false)
    (hexcl : r.excl = false) :
    s.grantedAt b = { b with md := 2, sh := b.sh + 1, waiters := [{ r with granted := true, value := b.value }] } := by
  have hhead := (congrArg (grantHead · b) hq).trans (grantHead_shared [] hr hexcl hmd)
  exact State.grantedAt_of_head hhead fun q hq => by simp [List.mem_singleton.mp hq, hexcl]

end

end Sys2Proof.Machine
end

section
/-! O34: ACQ (R136, R137, R139, R261). -/

namespace Sys2Proof.Machine

open Sys2Proof.Claims

/-- The entry with one more request at the end of its queue. -/
def Binding.asked (b : Binding) (k : Nat) (excl : Bool) : Binding :=
  { b with waiters := b.waiters ++ [{ strand := k, excl := excl }] }

/-- The entry without the requests of strand `k`. -/
def Binding.taken (b : Binding) (k : Nat) : Binding :=
  { b with waiters := b.waiters.filter (fun r => !decide (r.strand = k)) }

/-- What ACQ does once its request is in the queue of binding `x`: it takes what it has been granted, or waits. -/
def State.takeGrant (s : State) (o : FmtEA) (x : Nat) : Res State :=
  let b := tget (tget s.parts s.me.part).bindings x
  match b.waiters.find? (fun r => r.strand = s.cur) with
  | some { granted := true, value := v, .. } =>
    .ok (((s.setBinding s.me.part x (b.taken s.cur)).flushRegion (b.taken s.cur) true).landS latEB o.sd v)
  | _ => .ok { s with issue := { s.issue with status := .wait } }

section
variable {s t : State} {o : FmtEA} {x : Nat} {b : Binding} {r : SyncReq}

/-- R136: a request is made once. -/
theorem exec_acq_again (hx : s.bindingOf o = .ok (x, b)) (hmine : b.waiters.any (fun r => r.strand = s.cur) = true) :
    exec (.acq o) s = finish s (s.takeGrant o x) := by
  simp only [exec_acq, execAcq, hx, Res.bind_ok, hmine, Bool.true_or, need_true, if_true]
  rfl

theorem exec_acq_first (hx : s.bindingOf o = .ok (x, b)) (hmine : b.waiters.any (fun r => r.strand = s.cur) = false)
    (hown : ¬(b.md = 1 ∧ b.own = s.me.fol)) : exec (.acq o) s =
      finish s (((s.setBinding s.me.part x (b.asked s.cur (decide (o.imm.toNat / 512 = 0)))).grant s.me.part x).takeGrant o x) := by
  have hneed : (!(decide (b.md = 1) && decide (b.own = s.me.fol))) = true := by
    simpa [imp_iff_not_or] using hown
  simp only [exec_acq, execAcq, hx, Res.bind_ok, hmine, hneed, Bool.false_or, need_true]
  rfl

/-- R139: the exclusive holder asks again. -/
theorem acq_traps_held (hx : s.bindingOf o = .ok (x, b)) (hmine : b.waiters.any (fun r => r.strand = s.cur) = false) (hmd : b.md = 1)
    (hown : b.own = s.me.fol) : Traps (.acq o) s 0x000E (BitVec.ofNat 64 x) := by
  refine traps_of_finish ?_
  simp only [exec_acq, execAcq, hx, Res.bind_ok, hmine, hmd, hown, decide_true, Bool.and_self, Bool.not_true, Bool.or_self,
    need_false, Res.bind_error]
  rfl

theorem onlyMe_landS_of_same (hstrands : t.strands = s.strands) (hcur : t.cur = s.cur) (hissue : t.issue = s.issue)
    (n : Nat) (d : BitVec 6) (v : Word) : OnlyMe s (t.landS n d v) (flying s n (.scalar d v)) := by
  have hme : t.me = s.me := by rw [State.me, hstrands, hcur, State.me]
  refine ⟨?_, hcur, fun k hk => ?_⟩
  · rw [State.landS_me, hme, hissue]
    rfl
  · rw [← hstrands]
    exact State.land_other t _ _ _ (hcur.symm ▸ hk)

theorem Rebound.issuer {part : Nat} (h : Rebound part x b s t) : t.me.part = s.me.part ∧ t.cur = s.cur := by
  obtain ⟨q, rfl⟩ := h.only
  exact ⟨rfl, rfl⟩

/-- A request that has been granted is taken: its value lands, and the region's lines are dropped (R136, R137). -/
theorem Rebound.takeGrant_granted (h : Rebound s.me.part x b s t) (hfind : b.waiters.find? (fun q => q.strand = s.cur) = some r)
    (hr : r.granted = true) : ∃ u, t.takeGrant o x = .ok u ∧ OnlyMe s u (flying s 1 (.scalar o.sd r.value)) ∧
    tget (tget u.parts s.me.part).bindings x = b.taken s.cur ∧
    ∀ c : Binding, (∀ x ∈ (tget s.clusters s.cl).lines, x.1 < 2 ^ 33) → b.hsc = c.hsc → c.rb = b.rb → c.np = b.np →
      RegionFlushed c true s u := by
  obtain ⟨k, e, g, v⟩ := r
  cases hr
  obtain ⟨hpart, hcur⟩ := h.issuer
  have hput := h.put (b.taken s.cur)
  have htake : t.takeGrant o x =
      .ok (((t.setBinding s.me.part x (b.taken s.cur)).flushRegion (b.taken s.cur) true).landS latEB o.sd v) := by
    simp only [State.takeGrant, hpart, hcur, h.binding, hfind]
  refine ⟨_, htake, ?_⟩
  generalize t.setBinding s.me.part x (b.taken s.cur) = u at hput
  have hflushed := fun c hlines hhsc hrb hnp => hput.flushed (c := c) rfl hlines hhsc hrb hnp true
  obtain ⟨m, k, hflush⟩ := (u.flushRegion_done (b.taken s.cur) true).home
  rw [hflush] at hflushed ⊢
  refine ⟨?_, hput.binding, hflushed⟩
  obtain ⟨q, rfl⟩ := hput.only
  exact onlyMe_landS_of_same rfl rfl rfl 1 o.sd v

/-- A request that has not been granted waits. -/
theorem Rebound.takeGrant_waits (h : Rebound s.me.part x b s t) (hfind : b.waiters.find? (fun q => q.strand = s.cur) = some r)
    (hr : r.granted = false) : t.takeGrant o x = .ok { t with issue := { t.issue with status := .wait } } := by
  obtain ⟨k, e, g, v⟩ := r
  cases hr
  obtain ⟨hpart, hcur⟩ := h.issuer
  simp only [State.takeGrant, hpart, hcur, h.binding, hfind]

theorem find_only (k : Nat) {q : SyncReq} (h : q.strand = k) : [q].find? (fun r => r.strand = k) = some q := by
  simp [h]

/-- The only request is granted: it is gone from the queue and its value lands. -/
theorem acq_grants {c : Binding} (hx : s.bindingOf o = .ok (x, b)) (hb : tget (tget s.parts s.me.part).bindings x = b)
    (hpart : (tfind s.parts s.me.part).isSome) (hlines : ∀ x ∈ (tget s.clusters s.cl).lines, x.1 < 2 ^ 33)
    (hnone : b.waiters = []) (hown : ¬(b.md = 1 ∧ b.own = s.me.fol))
    (hgrant : s.grantedAt (b.asked s.cur (decide (o.imm.toNat / 512 = 0))) = c)
    (hq : c.waiters = [r]) (hstrand : r.strand = s.cur) (hr : r.granted = true)
    (hhsc : c.hsc = b.hsc) (hrb : b.rb = c.rb) (hnp : b.np = c.np) :
    ∃ t, exec (.acq o) s = .next t ∧ OnlyMe s t (flying s 1 (.scalar o.sd r.value)) ∧ RegionFlushed b true s t ∧
      tget (tget t.parts s.me.part).bindings x = { c with waiters := b.waiters } := by
  have hgranted := ((rebound_self hpart hb).put (b.asked s.cur (decide (o.imm.toNat / 512 = 0)))).grant
  rw [hgrant] at hgranted
  have hfind : c.waiters.find? (fun q => q.strand = s.cur) = some r := by rw [hq, find_only _ hstrand]
  obtain ⟨u, htake, hme, hbinding, hflushed⟩ := hgranted.takeGrant_granted (o := o) hfind hr
  have hmine : b.waiters.any (fun r => r.strand = s.cur) = false := by rw [hnone]; rfl
  refine ⟨u, by rw [exec_acq_first hx hmine hown, htake, finish_ok], hme, hflushed b hlines hhsc hrb hnp, hbinding.trans ?_⟩
  rw [Binding.taken, hq, hnone]
  simp [hstrand]

/-- The only request is not granted: it stays in the queue, and the bundle waits. -/
theorem acq_waits (hx : s.bindingOf o = .ok (x, b)) (hb : tget (tget s.parts s.me.part).bindings x = b)
    (hpart : (tfind s.parts s.me.part).isSome) (hnone : b.waiters = [])
    (hmd : (o.imm.toNat / 512 = 0 ∧ b.md = 2) ∨ (b.md = 1 ∧ b.own ≠ s.me.fol)) :
    ∃ t, exec (.acq o) s = .next t ∧ t.issue.status = .wait ∧ t.strands = s.strands ∧ MemSame s t ∧
      tget (tget t.parts s.me.part).bindings x =
        { b with waiters := [{ strand := s.cur, excl := decide (o.imm.toNat / 512 = 0) }] } := by
  have hasked : b.asked s.cur (decide (o.imm.toNat / 512 = 0)) =
      { b with waiters := [{ strand := s.cur, excl := decide (o.imm.toNat / 512 = 0) }] } := by
    rw [Binding.asked, hnone]
    rfl
  have hblocked := s.grantedAt_blocked (congrArg Binding.waiters hasked) rfl (hmd.imp (fun h => ⟨decide_eq_true h.1, h.2⟩) And.left)
  have hgranted := ((rebound_self hpart hb).put (b.asked s.cur (decide (o.imm.toNat / 512 = 0)))).grant
  rw [hblocked, hasked] at hgranted
  have hown : ¬(b.md = 1 ∧ b.own = s.me.fol) := fun h => hmd.elim (fun h' => absurd (h.1.symm.trans h'.2) (by decide)) fun h' => h'.2 h.2
  have hmine : b.waiters.any (fun r => r.strand = s.cur) = false := by rw [hnone]; rfl
  have hexec := exec_acq_first hx hmine hown
  rw [hasked, hgranted.takeGrant_waits (find_only s.cur rfl) rfl, finish_ok] at hexec
  refine ⟨_, hexec, rfl, ?_⟩
  have hbinding := hgranted.binding
  obtain ⟨q, hq⟩ := hgranted.only
  rw [hq] at hbinding ⊢
  exact ⟨rfl, memSame_of_eq rfl rfl, hbinding⟩

end

end Sys2Proof.Machine
end

section
/-! O34: REL, the hand-over, and the traps (R136, R138, R139, R261). -/

namespace Sys2Proof.Machine

open Sys2Proof.Claims

theorem held_eq_nil {t : Strand} (h : anyHeld t = false) : t.held = [] := by
  simpa [anyHeld, Strand.held, List.filterMap_eq_nil_iff] using h

/-- The entry after a release, before anybody is granted (R138). -/
def Binding.released (b : Binding) : Binding :=
  if b.md = 1 then { b with seq := b.seq + 1, bk := false, own := 0, md := 0 }
  else { b with sh := b.sh - 1, md := if b.sh ≤ 1 then 0 else 2 }

section
variable {s : State} {o : FmtEA} {x : Nat} {b : Binding}

theorem exec_rel_done (hx : s.bindingOf o = .ok (x, b)) (hmd : b.md ≠ 0) (hown : b.md = 1 → b.own = s.me.fol)
    (hheld : anyHeld s.me = false) : exec (.rel o) s = .next (((s.flushRegion b false).setBinding
      (s.flushRegion b false).me.part x b.released).grant (s.flushRegion b false).me.part x) := by
  have hneed : (decide (b.md ≠ 0) && !(decide (b.md = 1) && decide (b.own ≠ s.me.fol))) = true := by
    simpa [imp_iff_not_or] using And.intro hmd hown
  simp only [exec_rel, execRel, hx, Res.bind_ok, hneed, need_true, held_eq_nil hheld, List.any_nil, Bool.not_false, needReady_true]
  rfl

/-- R139: REL without a hold. -/
theorem rel_traps (hx : s.bindingOf o = .ok (x, b)) (h : b.md = 0 ∨ (b.md = 1 ∧ b.own ≠ s.me.fol)) :
    Traps (.rel o) s 0x000E (BitVec.ofNat 64 x) := by
  have hneed : (decide (b.md ≠ 0) && !(decide (b.md = 1) && decide (b.own ≠ s.me.fol))) = false := by
    obtain h | h := h <;> simp [h]
  refine traps_of_finish ?_
  simp only [exec_rel, execRel, hx, Res.bind_ok, hneed, need_false, Res.bind_error]
  rfl

/-- What a release leaves: the strands, the flushed region, and the entry with what it grants. -/
theorem rel_releases (hx : s.bindingOf o = .ok (x, b)) (hb : tget (tget s.parts s.me.part).bindings x = b)
    (hpart : (tfind s.parts s.me.part).isSome) (hmd : b.md ≠ 0) (hown : b.md = 1 → b.own = s.me.fol) (hheld : anyHeld s.me = false) :
    ∃ t, exec (.rel o) s = .next t ∧ t.strands = s.strands ∧
      ((∀ x ∈ (tget s.clusters s.cl).lines, x.1 < 2 ^ 33) → RegionFlushed b false s t) ∧
      tget (tget t.parts s.me.part).bindings x = s.grantedAt b.released := by
  have hexec := exec_rel_done hx hmd hown hheld
  have hflushed := fun hlines => State.flushRegion_flushed (s := s) hlines b false
  obtain ⟨m, c, hflush⟩ := (s.flushRegion_done b false).home
  rw [hflush] at hexec hflushed
  have hgrant := ((rebound_self (s := s.withHome m c) hpart hb).put b.released).grant
  have hbinding := hgrant.binding
  obtain ⟨q, hq⟩ := hgrant.only
  have hexec' := hexec.trans (congrArg _ hq)
  rw [hq] at hbinding
  exact ⟨_, hexec', rfl, hflushed, hbinding⟩

/-- R139: an index that names no object. -/
theorem unbound_traps (h : 4096 ≤ (s.reg o.sa).toNat + o.imm.toNat % 512 ∨
      (tget (tget s.parts s.me.part).bindings ((s.reg o.sa).toNat + o.imm.toNat % 512)).bv = false) :
    Traps (.acq o) s 0x000D (BitVec.ofNat 64 ((s.reg o.sa).toNat + o.imm.toNat % 512)) ∧
      Traps (.rel o) s 0x000D (BitVec.ofNat 64 ((s.reg o.sa).toNat + o.imm.toNat % 512)) := by
  have hbind := State.bindingOf_unbound h
  refine ⟨traps_of_finish ?_, traps_of_finish ?_⟩
  · rw [exec_acq, execAcq, hbind]
    rfl
  · rw [exec_rel, execRel, hbind]
    rfl

/-- R138: the exclusive holder's release makes the object free, with the next sequence number. -/
theorem Binding.released_exclusive (h : b.md = 1) : b.released = { b with seq := b.seq + 1, bk := false, own := 0, md := 0 } := if_pos h

/-- R138: a sharer's release lowers the count of sharers. -/
theorem Binding.released_shared (h : b.md = 2) : b.released = { b with sh := b.sh - 1, md := if b.sh ≤ 1 then 0 else 2 } :=
  if_neg (by rw [h]; decide)

theorem Binding.released_waiters (b : Binding) : b.released.waiters = b.waiters := by
  unfold Binding.released
  split <;> rfl

theorem zeroes_append (w : BitVec 32) : ((0 : BitVec 1) ++ (0 : BitVec 31) ++ w : BitVec 64) = w.setWidth 64 := by
  have hzero : (0 : BitVec 1) ++ (0 : BitVec 31) = 0#(64 - 32) := by decide
  exact (congrArg (fun z : BitVec 32 => (z ++ w : BitVec 64)) hzero).trans (BitVec.setWidth_eq_append (by decide)).symm

theorem Binding.released_value (h : b.md = 1) : b.released.value = BitVec.setWidth 64 (b.seq + 1) := by
  rw [Binding.released_exclusive h]
  exact zeroes_append (b.seq + 1)

end

theorem syncRequests : SyncRequests := by
  intro s o b hlines
  refine ⟨fun hx hb hv hpart hnone => ?_, unbound_traps⟩
  have hbind := State.bindingOf_ok hx hb hv
  have hmine : b.waiters.any (fun r => r.strand = s.cur) = false := by rw [hnone]; rfl
  have hqueue (e : Bool) : (b.asked s.cur e).waiters = [{ strand := s.cur, excl := e }] := by rw [Binding.asked, hnone]; rfl
  have hreleased := s.grantedAt_of_nil (b.released_waiters.trans hnone)
  refine ⟨fun hfree => ?_, fun hbusy => ?_, acq_traps_held hbind hmine, fun hmd hown hheld => ?_, fun hmd hheld => ?_, rel_traps hbind⟩
  · have hown : ¬(b.md = 1 ∧ b.own = s.me.fol) := fun h => by
      obtain ⟨-, hmd⟩ | ⟨-, hmd | hmd⟩ := hfree <;> exact absurd (h.1.symm.trans hmd) (by decide)
    obtain ⟨hexcl, hmd⟩ | ⟨hexcl, hmd⟩ := hfree
    · obtain ⟨t, hexec, hme, hflushed, hnow⟩ := acq_grants hbind hb hpart hlines hnone hown
        (s.grantedAt_exclusive hmd (hqueue _) rfl hexcl) rfl rfl rfl rfl rfl rfl
      exact ⟨t, hexec, hme, hflushed, hnow.trans (if_pos hexcl).symm⟩
    · obtain ⟨t, hexec, hme, hflushed, hnow⟩ := acq_grants hbind hb hpart hlines hnone hown
        (s.grantedAt_shared_alone hmd (hqueue _) rfl hexcl) rfl rfl rfl rfl rfl rfl
      exact ⟨t, hexec, hme, hflushed, hnow.trans (if_neg (Bool.eq_false_iff.mp hexcl)).symm⟩
  · exact acq_waits hbind hb hpart hnone (hbusy.imp_left fun h => ⟨of_decide_eq_true h.1, h.2⟩)
  · obtain ⟨t, hexec, hstrands, hflushed, hnow⟩ := rel_releases hbind hb hpart (by rw [hmd]; decide) (fun _ => hown) hheld
    exact ⟨t, hexec, hstrands, hflushed hlines, hnow.trans (hreleased.trans (Binding.released_exclusive hmd))⟩
  · obtain ⟨t, hexec, hstrands, hflushed, hnow⟩ :=
      rel_releases hbind hb hpart (by rw [hmd]; decide) (fun h => absurd (hmd.symm.trans h) (by decide)) hheld
    exact ⟨t, hexec, hstrands, hflushed hlines, hnow.trans (hreleased.trans (Binding.released_shared hmd))⟩

theorem syncHandOver : SyncHandOver := by
  refine ⟨fun s o b r rest => ?_, fun s o b r => ?_⟩
  · intro x now v hx hb hv hmd hown hheld hpart hq hwait
    obtain ⟨t, hexec, hstrands, -, hnow⟩ :=
      rel_releases (State.bindingOf_ok hx hb hv) hb hpart (by rw [hmd]; decide) (fun _ => hown) hheld
    have hnow : now t = s.grantedAt b.released := hnow
    have hqueue := b.released_waiters.trans hq
    have hvalue := Binding.released_value hmd
    have hfree := Binding.released_exclusive hmd
    have hmd' : b.released.md = 0 := congrArg Binding.md hfree
    refine ⟨t, hexec, hstrands, ?_⟩
    cases hexcl : r.excl with
    | true =>
      rw [hnow, s.grantedAt_exclusive hmd' hqueue (hwait r (hq ▸ List.mem_cons_self)) hexcl, hvalue]
      exact ⟨congrArg Binding.seq hfree, congrArg Binding.bk hfree, by rw [hexcl]; rfl, fun _ => ⟨rfl, rfl, rfl⟩,
        fun h => absurd h (by decide)⟩
    | false =>
      obtain ⟨n, hgrant⟩ := s.grantedAt_shared (.inl hmd') hqueue (b.released_waiters ▸ hwait) hexcl
      have hsh : b.released.sh = b.sh := by rw [hfree]
      rw [hnow, hgrant, hvalue]
      exact ⟨congrArg Binding.seq hfree, congrArg Binding.bk hfree, by rw [hexcl]; rfl, fun h => absurd h (by decide),
        fun _ => ⟨rfl, congrArg Binding.own hfree, by simp only [hsh]; omega⟩⟩
  · intro x now hx hb hv hpart hfind hr
    have hmine : b.waiters.any (fun q => q.strand = s.cur) = true :=
      List.any_eq_true.mpr ⟨r, List.mem_of_find?_eq_some hfind, by simpa using List.find?_some hfind⟩
    obtain ⟨t, htake, hme, hnow, -⟩ := (rebound_self hpart hb).takeGrant_granted (o := o) hfind hr
    refine ⟨t, by rw [exec_acq_again (State.bindingOf_ok hx hb hv) hmine, htake, finish_ok], hme, hnow.trans ?_⟩
    simp [Binding.taken]

/-- Settles O34: a request that is alone in its queue is granted or blocked; a release grants the oldest requests, and a request that has
been granted is taken when ACQ is issued again. -/
theorem syncObjects : Obligations.SyncObjects := by
  unfold Obligations.SyncObjects
  exact ⟨syncRequests, syncHandOver⟩

end Sys2Proof.Machine
end

section
/-! O53: units that are lost (R419, R420), and records of the module (R380, R381). -/

namespace Sys2Proof.Machine

open Sys2Proof.Claims

/-- A step that is taken for one element of a list brings about what later steps keep. -/
theorem foldl_reaches {α β : Type} {i p : α → Prop} {f : α → β → α} (hi : ∀ a b, i a → i (f a b)) (x : β) (hx : ∀ a, i a → p (f a x))
    (hp : ∀ a b, i a → p a → p (f a b)) (l : List β) : ∀ a, x ∈ l → i a → p (l.foldl f a) := by
  induction l with
  | nil => exact fun a hmem => absurd hmem List.not_mem_nil
  | cons y r ih =>
    intro a hmem ha
    obtain rfl | hmem := List.mem_cons.mp hmem
    · exact (foldl_inv (fun c => i c ∧ p c) f (fun c b h => ⟨hi c b h.1, hp c b h.1 h.2⟩) r _ ⟨hi a x ha, hx a ha⟩).2
    · exact ih _ hmem (hi a y ha)

/-- A record of the module changes its lane and the control complex's memory alone, and is posted while there is room. -/
theorem State.postFatal_mod_eq (s : State) {r : Record} (hr : r.mod = true) : ∃ dram fatal seq ovf,
    s.postFatal r = { s with dev := { s.dev with dram := dram, fatal := fatal, modSeq := seq, modOvf := ovf } } ∧
    ((s.dev.fatal.filter (fun r => r.mod)).length < 64 →
      ∃ q ∈ fatal, q.mod = true ∧ q.cause = r.cause ∧ q.val = r.val ∧ q.aux = r.aux) := by
  unfold State.postFatal
  rw [if_pos hr]
  split
  next hfull => exact ⟨_, _, _, _, rfl, fun h => absurd h (Nat.not_lt.mpr hfull)⟩
  · exact ⟨_, _, _, _, rfl, fun _ => ⟨_, List.mem_append_right _ (List.mem_singleton.mpr rfl), hr, rfl, rfl, rfl⟩⟩

/-- R148, R419: no command waits for its word. -/
theorem State.closeWaiting_of_none {s : State} (h : ∀ e ∈ s.cmds, e.2.wordLeft = false) : s.closeWaiting = s := by
  have hnone : s.cmds.filter (fun e => e.2.wordLeft && e.2.state = .started && e.2.op ≠ .sqkill) = [] :=
    List.filter_eq_nil_iff.mpr fun e he => by simp [h e he]
  rw [State.closeWaiting, hnone]
  rfl

/-! One unit (R420). -/

/-- The command of a lost unit. -/
def Cmd.lose (c : Cmd) (unit : Nat) : Cmd := { c with state := .lost, lostUnit := some unit }

/-- The record of a lost unit. -/
def State.lossRecord (s : State) (o : RemoteOut) : Record :=
  { s.recordOf (tget s.cmds o.cmd).strand { cause := 0x0066, val := BitVec.ofNat 64 o.addr, slot := 7 } with cmd := some o.cmd }

section
variable {s : State} {unit : Nat} {o : RemoteOut}

theorem State.loseUnit_lost (ho : tfind s.dev.outs unit = some o) (hacked : o.acked = false) (hold : o.window + 64 ≤ s.windowNow)
    (hlost : (tget s.cmds o.cmd).state ≠ .lost) (hstalled : (tget s.cmds o.cmd).state ≠ .stalled) :
    s.loseUnit unit = (s.postReplay (s.lossRecord o)).onCmd o.cmd (fun c => c.lose unit) := by
  have hlate : ¬ s.windowNow < o.window + 64 := Nat.not_lt.mpr hold
  simp only [State.loseUnit, ho, hacked, hlate, hlost, hstalled, decide_false, Bool.or_self, Bool.false_eq_true, if_false]
  rfl

theorem State.loseUnit_kept (ho : tfind s.dev.outs unit = some o) (h : o.acked = true ∨ s.windowNow < o.window + 64 ∨
    (tget s.cmds o.cmd).state = .lost ∨ (tget s.cmds o.cmd).state = .stalled) : s.loseUnit unit = s := by
  have hguard : (o.acked || decide (s.windowNow < o.window + 64) || decide ((tget s.cmds o.cmd).state = .lost) ||
      decide ((tget s.cmds o.cmd).state = .stalled)) = true := by
    simpa only [Bool.or_eq_true, decide_eq_true_eq, or_assoc] using h
  simp only [State.loseUnit, ho]
  exact if_pos hguard

theorem State.loseUnit_of_none (ho : tfind s.dev.outs unit = none) : s.loseUnit unit = s := by
  rw [State.loseUnit, ho]

/-- Nothing, or a record and one command that is lost. -/
theorem State.loseUnit_cases (s : State) (unit : Nat) :
    s.loseUnit unit = s ∨ ∃ r n, s.loseUnit unit = (s.postReplay r).onCmd n (fun c => c.lose unit) := by
  cases ho : tfind s.dev.outs unit with
  | none => exact .inl (State.loseUnit_of_none ho)
  | some o =>
    by_cases h : o.acked = true ∨ s.windowNow < o.window + 64 ∨
      (tget s.cmds o.cmd).state = .lost ∨ (tget s.cmds o.cmd).state = .stalled
    · exact .inl (State.loseUnit_kept ho h)
    · obtain ⟨hacked, hold, hlost, hstalled⟩ : ¬ o.acked = true ∧ ¬ s.windowNow < o.window + 64 ∧
        (tget s.cmds o.cmd).state ≠ .lost ∧ (tget s.cmds o.cmd).state ≠ .stalled := by simpa only [not_or] using h
      exact .inr ⟨_, _, State.loseUnit_lost ho (Bool.eq_false_iff.mpr hacked) (Nat.not_lt.mp hold) hlost hstalled⟩

/-- FABRIC_UNIT_LOST (R420). -/
theorem exec_fabricUnitLost_claim {c : Cmd} (ho : tfind s.dev.outs unit = some o) (hc : tfind s.cmds o.cmd = some c) :
    (s.windowNow < o.window + 64 ∨ o.acked = true → exec (.fabricUnitLost unit) s = .next s) ∧
    (o.window + 64 ≤ s.windowNow → o.acked = false → c.state ≠ .lost → c.state ≠ .stalled → ∃ t, exec (.fabricUnitLost unit) s = .next t ∧
      t.strands = s.strands ∧ t.mem = s.mem ∧ tfind t.cmds o.cmd = some { c with state := .lost, lostUnit := some unit } ∧
      ∃ r ∈ t.dev.waiting, r.cause = 0x0066 ∧ r.val = BitVec.ofNat 64 o.addr ∧ r.strand = c.strand ∧ r.cmd = some o.cmd) := by
  have hget := tget_of_tfind hc
  refine ⟨fun h => ?_, fun hold hacked hlost hstalled => ?_⟩
  · rw [exec_fabricUnitLost, execFabricUnitLost, State.loseUnit_kept ho (h.elim (fun h => .inr (.inl h)) .inl)]
  · rw [exec_fabricUnitLost, execFabricUnitLost,
      State.loseUnit_lost ho hacked hold (by rwa [hget]) (by rwa [hget])]
    refine ⟨_, rfl, rfl, rfl, ?_, _, List.mem_append_right _ (List.mem_singleton.mpr rfl), rfl, rfl, congrArg Cmd.strand hget, rfl⟩
    exact (State.tfind_onCmd ..).trans (by rw [if_pos rfl]; exact congrArg (Option.map _) hc)

end

/-! Several units. -/

/-- What losing units leaves: all but records that wait, their numbers and the commands that are lost. -/
structure UnitsLost (s t : State) : Prop where
  strands : t.strands = s.strands
  mem : t.mem = s.mem
  now : t.now = s.now
  dev : ∃ q, t.dev = { s.dev with waiting := q }
  res : ∀ n, (tget t.parts n).res = (tget s.parts n).res
  cap : ∀ n, (tget t.parts n).cap = (tget s.parts n).cap
  capSeq : ∀ n, (tget t.parts n).capSeq = (tget s.parts n).capSeq
  found : ∀ n, (tfind t.cmds n).isSome = (tfind s.cmds n).isSome
  state : ∀ n, (tget t.cmds n).state = (tget s.cmds n).state ∨ (tget t.cmds n).state = .lost
  words : (∀ e ∈ s.cmds, e.2.wordLeft = false) → ∀ e ∈ t.cmds, e.2.wordLeft = false

theorem UnitsLost.refl (s : State) : UnitsLost s s :=
  ⟨rfl, rfl, rfl, ⟨_, rfl⟩, fun _ => rfl, fun _ => rfl, fun _ => rfl, fun _ => rfl, fun _ => .inl rfl, id⟩

theorem UnitsLost.trans {s t u : State} (h : UnitsLost s t) (k : UnitsLost t u) : UnitsLost s u where
  strands := k.strands.trans h.strands
  mem := k.mem.trans h.mem
  now := k.now.trans h.now
  dev := by
    obtain ⟨q, hq⟩ := h.dev
    obtain ⟨q', hq'⟩ := k.dev
    exact ⟨q', by rw [hq', hq]⟩
  res n := (k.res n).trans (h.res n)
  cap n := (k.cap n).trans (h.cap n)
  capSeq n := (k.capSeq n).trans (h.capSeq n)
  found n := (k.found n).trans (h.found n)
  state n := (k.state n).elim (fun e => (h.state n).imp e.trans e.trans) .inr
  words hs := k.words (h.words hs)

theorem UnitsLost.windowNow {s t : State} (h : UnitsLost s t) : t.windowNow = s.windowNow := by
  obtain ⟨q, hq⟩ := h.dev
  rw [State.windowNow, h.now, hq, State.windowNow]

theorem UnitsLost.windows {s t : State} (h : UnitsLost s t) : t.dev.windowUs = s.dev.windowUs ∧
    t.dev.windowNext = s.dev.windowNext ∧ t.dev.routes = s.dev.routes := by
  obtain ⟨q, hq⟩ := h.dev
  rw [hq]
  exact ⟨rfl, rfl, rfl⟩

theorem UnitsLost.outs {s t : State} (h : UnitsLost s t) : t.dev.outs = s.dev.outs := by
  obtain ⟨q, hq⟩ := h.dev
  rw [hq]

/-- The partition's next record has the next number (R381). -/
def numbered (p : Partition) : Partition := { p with replaySeq := nextSeq p.replaySeq }

theorem unitsLost_lose (s : State) (r : Record) (n unit : Nat) : UnitsLost s ((s.postReplay r).onCmd n (fun c => c.lose unit)) where
  strands := rfl
  mem := rfl
  now := rfl
  dev := ⟨_, rfl⟩
  res m := tget_tmod_of_eq s.parts r.part m numbered Partition.res fun _ => rfl
  cap m := tget_tmod_of_eq s.parts r.part m numbered Partition.cap fun _ => rfl
  capSeq m := tget_tmod_of_eq s.parts r.part m numbered Partition.capSeq fun _ => rfl
  found m := isSome_tfind_tmod s.cmds n m (fun c => c.lose unit)
  state m := by
    by_cases hm : m = n
    · subst hm
      cases hc : tfind s.cmds m with
      | none => exact .inl (by simp [tget, State.onCmd, State.postReplay, hc])
      | some c => exact .inr (by simp [tget, State.onCmd, State.postReplay, hc, Cmd.lose])
    · exact .inl (congrArg Cmd.state (tget_tmod_of_ne s.cmds (fun c => c.lose unit) hm))
  words h e he := by
    obtain ⟨x, hx, rfl⟩ := List.mem_map.mp he
    have := h x hx
    split <;> exact this

theorem unitsLost_loseUnit (s : State) (unit : Nat) : UnitsLost s (s.loseUnit unit) := by
  obtain h | ⟨r, n, h⟩ := s.loseUnit_cases unit
  · rw [h]
    exact .refl s
  · rw [h]
    exact unitsLost_lose s r n unit

/-- The units that are overdue at the start of a window (R420). -/
def State.loseUnits (s : State) : State := (s.dev.outs.map (·.1)).foldl State.loseUnit s

theorem unitsLost_loseUnits (s : State) : UnitsLost s s.loseUnits :=
  foldl_keeps UnitsLost .refl (fun _ _ _ => .trans) State.loseUnit unitsLost_loseUnit _ s

/-- The command of an overdue unit is lost, unless it has stalled. -/
theorem State.loseUnits_lost {s : State} {unit : Nat} {o : RemoteOut} (ho : tfind s.dev.outs unit = some o)
    (hc : (tfind s.cmds o.cmd).isSome) (hold : o.window + 64 ≤ s.windowNow) (hacked : o.acked = false)
    (hstalled : (tget s.cmds o.cmd).state ≠ .stalled) : (tget s.loseUnits.cmds o.cmd).state = .lost := by
  refine foldl_reaches (i := UnitsLost s) (p := fun t => (tget t.cmds o.cmd).state = .lost)
    (fun t u h => h.trans (unitsLost_loseUnit t u)) unit (fun t h => ?_)
    (fun t u _ hlost => ((unitsLost_loseUnit t u).state o.cmd).elim (fun e => e.trans hlost) id) _ s (mem_keys_of_tfind ho) (.refl s)
  by_cases hlost : (tget t.cmds o.cmd).state = .lost
  · exact ((unitsLost_loseUnit t unit).state o.cmd).elim (fun e => e.trans hlost) id
  · have hkept : (tget t.cmds o.cmd).state ≠ .stalled := by
      rw [(h.state o.cmd).resolve_right hlost]
      exact hstalled
    rw [State.loseUnit_lost (h.outs ▸ ho) hacked (h.windowNow ▸ hold) hlost hkept]
    exact congrArg Cmd.state (tget_tmod t.cmds (fun c => c.lose unit) ((h.found o.cmd).trans hc))

/-- No unit is overdue. -/
theorem State.loseUnits_of_fresh {s : State} (h : ∀ e ∈ s.dev.outs, s.windowNow < e.2.window + 64) : s.loseUnits = s := by
  refine List.foldl_fixed' (fun unit => ?_) _
  cases ho : tfind s.dev.outs unit with
  | none => exact State.loseUnit_of_none ho
  | some o => exact State.loseUnit_kept ho (.inr (.inl (h _ (mem_of_tfind ho))))

end Sys2Proof.Machine
end

section
/-! O53: the capability tables under a new window length (R146, R361, R362). -/

namespace Sys2Proof.Machine

open Sys2Proof.Claims

/-- The document of a partition speaks of what it owns, of the routes and of the window length (R361). -/
theorem State.capDoc_congr {s t : State} {part : Nat} (hres : (tget t.parts part).res = (tget s.parts part).res)
    (hroutes : t.dev.routes = s.dev.routes) (hwindow : t.dev.windowUs = s.dev.windowUs) : t.capDoc part = s.capDoc part := by
  rw [State.capDoc, hres, hroutes, hwindow, State.capDoc]

/-- Memory and partitions apart nothing changes, nor what a partition owns. -/
structure TablesOnly (s t : State) : Prop where
  only : ∃ m q, t = { s with mem := m, parts := q }
  found : ∀ n, (tfind t.parts n).isSome = (tfind s.parts n).isSome
  res : ∀ n, (tget t.parts n).res = (tget s.parts n).res

theorem TablesOnly.refl (s : State) : TablesOnly s s := ⟨⟨_, _, rfl⟩, fun _ => rfl, fun _ => rfl⟩

theorem TablesOnly.trans {s t u : State} (h : TablesOnly s t) (k : TablesOnly t u) : TablesOnly s u where
  only := by
    obtain ⟨m, q, rfl⟩ := h.only
    obtain ⟨m', q', rfl⟩ := k.only
    exact ⟨m', q', rfl⟩
  found n := (k.found n).trans (h.found n)
  res n := (k.res n).trans (h.res n)

theorem TablesOnly.capDoc {s t : State} (h : TablesOnly s t) (part : Nat) : t.capDoc part = s.capDoc part := by
  obtain ⟨m, q, rfl⟩ := h.only
  exact State.capDoc_congr (h.res part) rfl rfl

/-- A partition with another sequence number. -/
def Partition.numberedCap (n : Nat) (p : Partition) : Partition := { p with capSeq := n }

/-- A partition with another document. -/
def Partition.documented (doc : List Byte) (p : Partition) : Partition := { p with cap := doc }

theorem State.bumpCap_parts (s : State) (part : Nat) :
    (s.bumpCap part).parts = tmod s.parts part (Partition.numberedCap ((tget s.parts part).capSeq + 1)) := rfl

theorem State.putCap_parts (s : State) (part : Nat) (doc : List Byte) :
    (s.putCap part doc).parts = tmod s.parts part (Partition.documented doc) := rfl

/-- A move of a rewrite. -/
theorem tablesOnly_of_tmod {s t : State} {part : Nat} {f : Partition → Partition} (honly : ∃ m q, t = { s with mem := m, parts := q })
    (hparts : t.parts = tmod s.parts part f) (hres : ∀ p, (f p).res = p.res) : TablesOnly s t where
  only := honly
  found n := hparts ▸ isSome_tfind_tmod s.parts part n f
  res n := hparts ▸ tget_tmod_of_eq s.parts part n f Partition.res hres

theorem tablesOnly_bumpCap (s : State) (part : Nat) : TablesOnly s (s.bumpCap part) :=
  tablesOnly_of_tmod ⟨_, _, rfl⟩ (s.bumpCap_parts part) fun _ => rfl

theorem tablesOnly_putCap (s : State) (part : Nat) (doc : List Byte) : TablesOnly s (s.putCap part doc) :=
  tablesOnly_of_tmod ⟨_, _, rfl⟩ (s.putCap_parts part doc) fun _ => rfl

theorem State.bumpCap_other (s : State) {part n : Nat} (h : n ≠ part) : tget (s.bumpCap part).parts n = tget s.parts n := by
  rw [s.bumpCap_parts, tget_tmod_of_ne _ _ h]

/-- The number is odd while the table is being rewritten (R362). -/
def State.openCap (s : State) (part : Nat) : State := if (tget s.parts part).capSeq % 2 = 0 then s.bumpCap part else s

theorem State.openCap_eq (s : State) (part : Nat) : s.openCap part = s.bumpCap part ∨ s.openCap part = s := by
  unfold State.openCap
  split
  · exact .inl rfl
  · exact .inr rfl

theorem tablesOnly_openCap (s : State) (part : Nat) : TablesOnly s (s.openCap part) := by
  obtain h | h := s.openCap_eq part <;> rw [h]
  · exact tablesOnly_bumpCap s part
  · exact .refl s

theorem State.openCap_odd {s : State} {part : Nat} (h : (tfind s.parts part).isSome) :
    (tget (s.openCap part).parts part).capSeq % 2 = 1 := by
  unfold State.openCap
  split
  next heven =>
    rw [s.bumpCap_parts, tget_tmod _ _ h]
    show ((tget s.parts part).capSeq + 1) % 2 = 1
    omega
  next hodd => omega

/-- A partition's table is that of the document, and no rewrite of it is in progress (R362). -/
def CapWhole (part : Nat) (t : State) : Prop := (tget t.parts part).cap = t.capDoc part ∧ (tget t.parts part).capSeq % 2 = 0

theorem tablesOnly_rewriteCap (s : State) (part : Nat) : TablesOnly s (s.rewriteCap part) :=
  ((tablesOnly_openCap s part).trans (tablesOnly_putCap _ part _)).trans (tablesOnly_bumpCap _ part)

theorem State.rewriteCap_whole {s : State} {part : Nat} (h : (tfind s.parts part).isSome) : CapWhole part (s.rewriteCap part) := by
  have hodd := State.openCap_odd h
  have hknown : (tfind (s.openCap part).parts part).isSome := ((tablesOnly_openCap s part).found part).trans h
  have hrewrite : s.rewriteCap part = ((s.openCap part).putCap part ((s.openCap part).capDoc part)).bumpCap part := rfl
  generalize s.openCap part = u at hodd hknown hrewrite
  have hput := tablesOnly_putCap u part (u.capDoc part)
  have hdoc := (hput.trans (tablesOnly_bumpCap _ part)).capDoc part
  have hself : tget (s.rewriteCap part).parts part = (tget u.parts part |>.documented (u.capDoc part)).numberedCap
      ((tget u.parts part).capSeq + 1) := by
    rw [hrewrite, State.bumpCap_parts, tget_tmod _ _ ((hput.found part).trans hknown), u.putCap_parts, tget_tmod _ _ hknown]
    rfl
  rw [CapWhole, hself, hrewrite, hdoc]
  refine ⟨rfl, ?_⟩
  show ((tget u.parts part).capSeq + 1) % 2 = 0
  omega

theorem State.rewriteCap_other (s : State) {part n : Nat} (h : n ≠ part) : tget (s.rewriteCap part).parts n = tget s.parts n := by
  refine (State.bumpCap_other _ h).trans ?_
  rw [State.putCap_parts, tget_tmod_of_ne _ _ h]
  show tget (s.openCap part).parts n = _
  obtain e | e := s.openCap_eq part <;> rw [e]
  exact s.bumpCap_other h

theorem tablesOnly_rewriteCaps (s : State) : TablesOnly s s.rewriteCaps :=
  foldl_keeps TablesOnly .refl (fun _ _ _ => .trans) State.rewriteCap tablesOnly_rewriteCap _ s

/-- R362: the rewrite reaches the table of every partition. -/
theorem State.rewriteCaps_whole {s : State} {part : Nat} (hlive : (tget s.parts part).live = true) : CapWhole part s.rewriteCaps := by
  obtain ⟨p, hp⟩ : ∃ p, tfind s.parts part = some p := by
    cases hp : tfind s.parts part with
    | none => exact absurd hlive (by simp [tget, hp]; decide)
    | some p => exact ⟨p, rfl⟩
  have hmem : part ∈ (s.parts.filter (fun p => p.2.live)).map (·.1) :=
    List.mem_map.mpr ⟨(part, p), List.mem_filter.mpr ⟨mem_of_tfind hp, tget_of_tfind hp ▸ hlive⟩, rfl⟩
  have hfound {t : State} (h : TablesOnly s t) : (tfind t.parts part).isSome := by rw [h.found, hp]; rfl
  refine foldl_reaches (i := TablesOnly s) (p := CapWhole part) (fun t n h => h.trans (tablesOnly_rewriteCap t n)) part
    (fun t h => State.rewriteCap_whole (hfound h)) (fun t n h hwhole => ?_) _ s hmem (.refl s)
  by_cases hn : part = n
  · exact hn ▸ State.rewriteCap_whole (hfound h)
  · rw [CapWhole, t.rewriteCap_other hn, (tablesOnly_rewriteCap t n).capDoc]
    exact hwhole

/-! A new length (R146, R362). -/

/-- The state that the tables are rewritten in. -/
def State.underWindow (s : State) (w : Nat) : State :=
  let f := renumber s.dev.windowUs w
  { s with
    cmds := tmap s.cmds (fun _ c => { c with window := c.window.map f }),
    dev := { s.dev with
      windowUs := w, windowNext := none, misses := [],
      outs := tmap s.dev.outs (fun _ o => { o with window := f o.window }), lastSent := s.dev.lastSent.map (fun e => (e.1, f e.2)) } }

theorem State.setWindow_spec (s : State) (w : Nat) :
    (s.setWindow w).strands = s.strands ∧ (s.setWindow w).now = s.now ∧ (s.setWindow w).dev = (s.underWindow w).dev ∧
    ((∀ e ∈ s.cmds, e.2.wordLeft = false) → ∀ e ∈ (s.setWindow w).cmds, e.2.wordLeft = false) ∧
    ∀ part, (tget s.parts part).live = true → CapWhole part (s.setWindow w) := by
  have hset : s.setWindow w = (s.underWindow w).rewriteCaps := rfl
  obtain ⟨m, q, hq⟩ := (tablesOnly_rewriteCaps (s.underWindow w)).only
  have hcaps (part : Nat) (hlive : (tget s.parts part).live = true) : CapWhole part (s.setWindow w) :=
    State.rewriteCaps_whole (s := s.underWindow w) hlive
  rw [hset, hq] at hcaps ⊢
  refine ⟨rfl, rfl, rfl, fun h e he => ?_, hcaps⟩
  obtain ⟨x, hx, rfl⟩ := List.mem_map.mp he
  exact h x hx

end Sys2Proof.Machine
end

section
/-! O53: the start of a window (R146, R148, R419, R420). -/

namespace Sys2Proof.Machine

open Sys2Proof.Claims

/-- A new W that is due takes effect (R146). -/
def State.takeWindow (s : State) : State := match s.dev.windowNext with
  | some (w, b) => if b ≤ s.windowNow then s.setWindow w else s
  | none => s

theorem State.takeWindow_of_none {s : State} (h : s.dev.windowNext = none) : s.takeWindow = s := by
  rw [State.takeWindow, h]

section
variable {s : State} {w b : Nat} (h : s.dev.windowNext = some (w, b))
include h

theorem State.takeWindow_early (hb : s.windowNow < b) : s.takeWindow = s := by
  rw [State.takeWindow, h]
  exact if_neg (Nat.not_le.mpr hb)

theorem State.takeWindow_due (hb : b ≤ s.windowNow) : s.takeWindow = s.setWindow w := by
  rw [State.takeWindow, h]
  exact if_pos hb

end

theorem State.takeWindow_cases (s : State) : s.takeWindow = s ∨ ∃ w, s.takeWindow = s.setWindow w := by
  cases h : s.dev.windowNext with
  | none => exact .inl (State.takeWindow_of_none h)
  | some n =>
    obtain hb | hb := Nat.lt_or_ge s.windowNow n.2
    · exact .inl (State.takeWindow_early h hb)
    · exact .inr ⟨n.1, State.takeWindow_due h hb⟩

theorem State.takeWindow_same (s : State) : s.takeWindow.strands = s.strands ∧ s.takeWindow.now = s.now ∧
    ((∀ e ∈ s.cmds, e.2.wordLeft = false) → ∀ e ∈ s.takeWindow.cmds, e.2.wordLeft = false) := by
  obtain h | ⟨w, h⟩ := s.takeWindow_cases <;> rw [h]
  · exact ⟨rfl, rfl, id⟩
  · obtain ⟨hstrands, hnow, -, hwords, -⟩ := s.setWindow_spec w
    exact ⟨hstrands, hnow, hwords⟩

/-- The window has been acted on: what was missed before it is forgotten. -/
def State.windowNoted (s : State) : State :=
  s.onDev (fun d => { d with windowSeen := s.windowNow, misses := d.misses.filter (fun m => m.2 = s.windowNow) })

/-- While no command waits for its word, a window starts with the new W and the loss of the units that are overdue. -/
theorem State.windowTurn_eq {s : State} (h : ∀ e ∈ s.cmds, e.2.wordLeft = false) :
    s.windowTurn = s.takeWindow.loseUnits.windowNoted :=
  State.closeWaiting_of_none (s := s.takeWindow.loseUnits.windowNoted) ((unitsLost_loseUnits _).words (s.takeWindow_same.2.2 h))

/-- The loss of units leaves the windows as they are. -/
theorem State.loseUnits_windows (s : State) : s.loseUnits.windowNoted.dev.windowUs = s.dev.windowUs ∧
    s.loseUnits.windowNoted.dev.windowNext = s.dev.windowNext ∧ s.loseUnits.windowNoted.windowNow = s.windowNow := by
  obtain ⟨hus, hnext, -⟩ := (unitsLost_loseUnits s).windows
  exact ⟨hus, hnext, (unitsLost_loseUnits s).windowNow⟩

/-- The loss of units leaves the capability tables as they are. -/
theorem CapWhole.loseUnits {s : State} {part : Nat} (h : CapWhole part s) : CapWhole part s.loseUnits.windowNoted := by
  have hlost := unitsLost_loseUnits s
  obtain ⟨hus, -, hroutes⟩ := hlost.windows
  have hdoc : s.loseUnits.windowNoted.capDoc part = s.capDoc part := State.capDoc_congr (hlost.res part) hroutes hus
  rw [CapWhole, hdoc]
  exact ⟨(hlost.cap part).trans h.1, (congrArg (· % 2) (hlost.capSeq part)).trans h.2⟩

/-- The boundary is the start of the next window. -/
theorem State.windowNow_clockTo {s : State} (h : 0 < s.dev.windowUs) :
    (s.clockTo ((s.windowNow + 1) * (1000 * s.dev.windowUs))).windowNow = s.windowNow + 1 := by
  have hlen : 0 < 1000 * s.dev.windowUs := by omega
  have hnow : s.now < (s.windowNow + 1) * (1000 * s.dev.windowUs) := Nat.mul_comm .. ▸ Nat.lt_mul_div_succ s.now hlen
  show max s.now ((s.windowNow + 1) * (1000 * s.dev.windowUs)) / (1000 * s.dev.windowUs) = s.windowNow + 1
  rw [Nat.max_eq_right hnow.le, Nat.mul_div_cancel _ hlen]

/-- The start of a window without a new length (R420). -/
theorem State.turned_of_none {s : State} (h : s.dev.windowNext = none) :
    let t := s.takeWindow.loseUnits.windowNoted
    t.dev.windowUs = s.dev.windowUs ∧ t.windowNow = s.windowNow ∧ t.mem = s.mem ∧
    (∀ unit o c, tfind s.dev.outs unit = some o → tfind s.cmds o.cmd = some c → o.window + 64 ≤ t.windowNow → o.acked = false →
      c.state ≠ .stalled → (tget t.cmds o.cmd).state = .lost) ∧
    ((∀ e ∈ s.dev.outs, t.windowNow < e.2.window + 64) → t.cmds = s.cmds) := by
  rw [State.takeWindow_of_none h]
  obtain ⟨hus, -, hwindow⟩ := s.loseUnits_windows
  refine ⟨hus, hwindow, (unitsLost_loseUnits s).mem, fun unit o c ho hc hold hacked hstalled => ?_, fun hfresh => ?_⟩
  · exact State.loseUnits_lost ho (by rw [hc]; rfl) (hwindow ▸ hold) hacked (by rwa [tget_of_tfind hc])
  · have hsame : s.loseUnits.cmds = s.cmds := by rw [State.loseUnits_of_fresh (hwindow ▸ hfresh)]
    exact hsame

/-- What FabricEvents says of the start of a window. -/
theorem exec_fabricWindowBoundary_claim {s : State} (hw : 0 < s.dev.windowUs) (hwords : ∀ e ∈ s.cmds, e.2.wordLeft = false) :
    ∃ t, exec .fabricWindowBoundary s = .next t ∧ t.strands = s.strands ∧
    t.now = max s.now ((s.windowNow + 1) * (1000 * s.dev.windowUs)) ∧ t.dev.windowSeen = t.windowNow ∧
    (s.dev.windowNext = none → t.dev.windowUs = s.dev.windowUs ∧ t.windowNow = s.windowNow + 1 ∧ t.mem = s.mem ∧
      (∀ unit o c, tfind s.dev.outs unit = some o → tfind s.cmds o.cmd = some c → o.window + 64 ≤ t.windowNow → o.acked = false →
        c.state ≠ .stalled → (tget t.cmds o.cmd).state = .lost) ∧
      ((∀ e ∈ s.dev.outs, t.windowNow < e.2.window + 64) → t.cmds = s.cmds)) ∧
    ∀ w b, s.dev.windowNext = some (w, b) → (s.windowNow + 1 < b → t.dev.windowUs = s.dev.windowUs ∧ t.dev.windowNext = some (w, b)) ∧
      (b ≤ s.windowNow + 1 → t.dev.windowUs = w ∧ t.dev.windowNext = none ∧
        ∀ part, (tget s.parts part).live = true → (tget t.parts part).cap = t.capDoc part ∧ (tget t.parts part).capSeq % 2 = 0) := by
  have hclock := State.windowNow_clockTo hw
  let u := s.clockTo ((s.windowNow + 1) * (1000 * s.dev.windowUs))
  obtain ⟨hstrands, hnow, -⟩ := u.takeWindow_same
  have hlost := unitsLost_loseUnits u.takeWindow
  obtain ⟨hus, hnext, -⟩ := u.takeWindow.loseUnits_windows
  refine ⟨_, congrArg Host.Outcome.next (State.windowTurn_eq (s := u) hwords), hlost.strands.trans hstrands, hlost.now.trans hnow, rfl,
    fun hnone => ?_, fun w b hsome => ⟨fun hb => ?_, fun hb => ?_⟩⟩
  · obtain ⟨hus, hwindow, hmem, hold, hfresh⟩ := State.turned_of_none (s := u) hnone
    exact ⟨hus, hwindow.trans hclock, hmem, hold, hfresh⟩
  · have hstill := State.takeWindow_early (s := u) hsome (hclock.symm ▸ hb)
    exact ⟨hus.trans (by rw [hstill]; rfl), hnext.trans (by rw [hstill]; exact hsome)⟩
  · have htaken := State.takeWindow_due (s := u) hsome (hclock.symm ▸ hb)
    obtain ⟨-, -, hset, -, hcaps⟩ := u.setWindow_spec w
    refine ⟨hus.trans (by rw [htaken, hset]; rfl), hnext.trans (by rw [htaken, hset]; rfl), fun part hlive => ?_⟩
    rw [htaken]
    exact (hcaps part hlive).loseUnits

end Sys2Proof.Machine
end

section
/-! O53: acknowledgements (R419, R420). -/

namespace Sys2Proof.Machine

open Sys2Proof.Claims

theorem exists_tfind_of_mem {α : Type} {t : Table α} {e : Nat × α} (h : e ∈ t) : ∃ x, tfind t e.1 = some x := by
  induction t with
  | nil => exact absurd h List.not_mem_nil
  | cons y r ih =>
    rw [tfind]
    split
    · exact ⟨_, rfl⟩
    next hne => exact ih ((List.mem_cons.mp h).resolve_left fun e => hne (e ▸ rfl))

/-! Units that are acknowledged. -/

/-- A unit is done with when it has been acknowledged and every unit of its command before it (R420). -/
theorem over_iff (l : Table RemoteOut) (u : Nat) : RemoteOut.over l u = true ↔ (tget l u).acked = true ∧
    ∀ v x, tfind l v = some x → v < u → x.cmd = (tget l u).cmd → x.acked = true := by
  simp only [RemoteOut.over, Bool.and_eq_true, List.all_eq_true, Bool.or_eq_true, decide_eq_true_eq, or_assoc]
  refine and_congr_right fun _ => ⟨fun h v x hx hlt hcmd => ?_, fun h e he => ?_⟩
  · have hv := tget_of_tfind hx
    obtain h | h | h := h _ (mem_of_tfind hx)
    · exact absurd hlt (Nat.not_lt.mpr h)
    · exact absurd (hv ▸ hcmd) h
    · exact hv ▸ h
  · obtain ⟨x, hx⟩ := exists_tfind_of_mem he
    rw [tget_of_tfind hx]
    by_cases hlt : e.1 < u
    · by_cases hcmd : x.cmd = (tget l u).cmd
      · exact .inr (.inr (h _ x hx hlt hcmd))
      · exact .inr (.inl hcmd)
    · exact .inl (Nat.not_lt.mp hlt)

/-- The units with one marked as acknowledged. -/
def marked (outs : Table RemoteOut) (unit : Nat) : Table RemoteOut := tset outs unit { tget outs unit with acked := true }

/-- Of the marked units those of the same command that are done with are forgotten. -/
theorem tfind_acknowledge (outs : Table RemoteOut) (unit u : Nat) : tfind (acknowledge outs unit) u =
    if (tget (marked outs unit) u).cmd = (tget outs unit).cmd ∧ RemoteOut.over (marked outs unit) u = true then none
    else tfind (marked outs unit) u := by
  have hself : tget (marked outs unit) unit = { tget outs unit with acked := true } := tget_tset_self _ _ _
  have hfilter : acknowledge outs unit = (marked outs unit).filter (fun e => !(decide
      ((tget (marked outs unit) e.1).cmd = (tget (marked outs unit) unit).cmd) && RemoteOut.over (marked outs unit) e.1)) := rfl
  rw [hfilter, hself, tfind_filter (marked outs unit) (fun k => !(decide ((tget (marked outs unit) k).cmd = (tget outs unit).cmd) &&
    RemoteOut.over (marked outs unit) k)) u]
  by_cases h : (tget (marked outs unit) u).cmd = (tget outs unit).cmd ∧ RemoteOut.over (marked outs unit) u = true
  · simp [h]
  · rw [if_neg h, if_pos]
    simpa [not_and_or, imp_iff_not_or] using h

/-- A unit of the command of `o`, other than `unit`, comes before `u` and has not been acknowledged. -/
def Earlier (outs : Table RemoteOut) (o : RemoteOut) (unit u : Nat) : Prop :=
  ∃ v x, v < u ∧ v ≠ unit ∧ tfind outs v = some x ∧ x.cmd = o.cmd ∧ x.acked = false

theorem tfind_marked_other (outs : Table RemoteOut) {unit u : Nat} (hu : u ≠ unit) : tfind (marked outs unit) u = tfind outs u := by
  rw [marked, tfind_tset, if_neg hu]

theorem tfind_marked_self (outs : Table RemoteOut) (unit : Nat) :
    tfind (marked outs unit) unit = some { tget outs unit with acked := true } := by
  rw [marked, tfind_tset, if_pos rfl]

section
variable {outs : Table RemoteOut} {unit : Nat} {o : RemoteOut}

/-- Which units of the command are done with once `unit` is acknowledged. -/
theorem over_marked_iff {u : Nat} (hcmd : (tget (marked outs unit) u).cmd = o.cmd) :
    RemoteOut.over (marked outs unit) u = true ↔ (tget (marked outs unit) u).acked = true ∧ ¬Earlier outs o unit u := by
  rw [over_iff, hcmd]
  refine and_congr_right fun _ => ⟨?_, ?_⟩
  · rintro h ⟨v, x, hlt, hne, hx, hxcmd, hacked⟩
    exact absurd (h v x ((tfind_marked_other outs hne).trans hx) hlt hxcmd) (Bool.eq_false_iff.mp hacked)
  · intro h v x hx hlt hxcmd
    by_cases hv : v = unit
    · rw [hv, tfind_marked_self] at hx
      cases hx
      rfl
    · rw [tfind_marked_other outs hv] at hx
      by_contra hacked
      exact h ⟨v, x, hlt, hv, hx, hxcmd, Bool.eq_false_iff.mpr hacked⟩

theorem acknowledge_self (ho : tfind outs unit = some o) : (¬Earlier outs o unit unit → tfind (acknowledge outs unit) unit = none) ∧
    (Earlier outs o unit unit → tfind (acknowledge outs unit) unit = some { o with acked := true }) := by
  have hself := tfind_marked_self outs unit
  rw [tget_of_tfind ho] at hself
  have hover := over_marked_iff (u := unit) (congrArg RemoteOut.cmd (tget_of_tfind hself))
  rw [tget_of_tfind hself] at hover
  rw [tfind_acknowledge, tget_of_tfind ho, tget_of_tfind hself, hself]
  exact ⟨fun h => if_pos ⟨rfl, hover.mpr ⟨rfl, h⟩⟩, fun h => if_neg fun h' => (hover.mp h'.2).2 h⟩

theorem acknowledge_other (ho : tfind outs unit = some o) {u : Nat} (hu : u ≠ unit) :
    tfind (acknowledge outs unit) u = tfind outs u ∨
    (¬Earlier outs o unit u ∧ tfind (acknowledge outs unit) u = none ∧
      ∃ x, tfind outs u = some x ∧ x.cmd = o.cmd ∧ x.acked = true) := by
  have hkeep := tfind_marked_other outs hu
  rw [tfind_acknowledge, tget_of_tfind ho]
  split
  next h =>
    obtain ⟨hcmd, hover⟩ := h
    obtain ⟨hacked, hearlier⟩ := (over_marked_iff hcmd).mp hover
    cases hx : tfind outs u with
    | none => exact .inl rfl
    | some x =>
      rw [tget_of_tfind (hkeep.trans hx)] at hcmd hacked
      exact .inr ⟨hearlier, rfl, x, rfl, hcmd, hacked⟩
  · exact .inl hkeep

end

/-! FABRIC_ACKNOWLEDGEMENT (R419, R420). -/

/-- The units once one has been acknowledged. -/
def State.acked (s : State) (unit : Nat) : State := s.onDev (fun d => { d with outs := acknowledge d.outs unit })

/-- A miss is reported, and remembered so that it is reported once. -/
def State.missed (s : State) (port : Nat) : State :=
  (s.missRecord port).onDev (fun d => { d with misses := (port, s.windowNow) :: d.misses })

/-- The record of a miss. -/
def State.missOf (s : State) (port : Nat) : Record := {
  mod := true, cause := 0x0065, val := BitVec.ofNat 64 port, slt := 7, time := BitVec.ofNat 64 s.now,
  aux := ofBool 1 s.dev.timeLost ++ BitVec.ofNat 63 (tget s.dev.lastSent port) }

/-- What the report of a miss, or of the loss of the time base, leaves (R380, R419). -/
theorem State.missRecord_spec (s : State) (port : Nat) : ∃ dram fatal seq ovf,
    s.missRecord port = { s with dev := { s.dev with dram := dram, fatal := fatal, modSeq := seq, modOvf := ovf } } ∧
    ((s.dev.fatal.filter (fun r => r.mod)).length < 64 →
      ∃ r ∈ fatal, r.mod = true ∧ r.cause = 0x0065 ∧ r.val = BitVec.ofNat 64 port ∧ r.aux.getLsbD 63 = s.dev.timeLost ∧
        r.aux.extractLsb' 0 63 = BitVec.ofNat 63 (tget s.dev.lastSent port)) := by
  obtain ⟨dram, fatal, seq, ovf, heq, hposted⟩ := s.postFatal_mod_eq (r := s.missOf port) rfl
  refine ⟨dram, fatal, seq, ovf, heq, fun h => ?_⟩
  obtain ⟨r, hr, hmod, hcause, hval, haux⟩ := hposted h
  refine ⟨r, hr, hmod, hcause, hval, ?_, ?_⟩
  · rw [haux, State.missOf, BitVec.getLsbD_append]
    cases s.dev.timeLost <;> rfl
  · rw [haux]
    exact BitVec.extractLsb'_append_eq_right

section
variable {s : State} {port unit w : Nat} {o : RemoteOut} (ho : tfind s.dev.outs unit = some o)
include ho

theorem exec_ack_ignored (h : o.port ≠ port ∨ o.acked = true ∨ (tget s.cmds o.cmd).lostUnit = some unit) :
    exec (.fabricAcknowledgement port unit w) s = .next s := by
  have hguard : (decide (o.port ≠ port) || o.acked || decide ((tget s.cmds o.cmd).lostUnit = some unit)) = true := by
    simpa only [Bool.or_eq_true, decide_eq_true_eq, or_assoc] using h
  rw [exec_fabricAcknowledgement, execFabricAcknowledgement]
  simp only [ho]
  exact if_pos hguard

section
variable (hport : o.port = port) (hacked : o.acked = false) (hlost : (tget s.cmds o.cmd).lostUnit ≠ some unit)
  (hwords : ∀ e ∈ s.cmds, e.2.wordLeft = false)
include hport hacked hlost hwords

/-- An acknowledgement is a miss when it is later than the next window and its port has none in this window yet. -/
theorem exec_ack : exec (.fabricAcknowledgement port unit w) s = .next
    (if o.window + 1 < w ∧ (port, s.windowNow) ∉ s.dev.misses then (s.acked unit).missed port else s.acked unit) := by
  have hguard : (decide (o.port ≠ port) || o.acked || decide ((tget s.cmds o.cmd).lostUnit = some unit)) = false := by
    simp [hport, hacked, hlost]
  have hmiss : (decide (o.window + 1 < w) && !(s.acked unit).dev.misses.contains (port, (s.acked unit).windowNow)) = true ↔
      o.window + 1 < w ∧ (port, s.windowNow) ∉ s.dev.misses := by
    rw [Bool.and_eq_true, decide_eq_true_eq, Bool.not_eq_true', List.contains_eq_mem, decide_eq_false_iff_not]
    rfl
  have hcmds : ((s.acked unit).missed port).cmds = s.cmds := (State.postFatal_same _ _).cmds
  rw [exec_fabricAcknowledgement, execFabricAcknowledgement]
  simp only [ho, hguard]
  refine congrArg Host.Outcome.next ?_
  by_cases h : o.window + 1 < w ∧ (port, s.windowNow) ∉ s.dev.misses
  · rw [if_pos h, ← State.closeWaiting_of_none (s := (s.acked unit).missed port) (hcmds ▸ hwords)]
    exact congrArg State.closeWaiting (if_pos (hmiss.mpr h))
  · rw [if_neg h, ← State.closeWaiting_of_none (s := s.acked unit) hwords]
    exact congrArg State.closeWaiting (if_neg (mt hmiss.mp h))

/-- What FabricEvents says of an acknowledgement. -/
theorem exec_ack_claim : ∃ t, exec (.fabricAcknowledgement port unit w) s = .next t ∧ t.strands = s.strands ∧ t.mem = s.mem ∧
    t.dev.outs = acknowledge s.dev.outs unit ∧ (w ≤ o.window + 1 → t.dev.fatal = s.dev.fatal) ∧
    (o.window + 1 < w → (port, s.windowNow) ∉ s.dev.misses → (s.dev.fatal.filter (fun r => r.mod)).length < 64 →
      (port, s.windowNow) ∈ t.dev.misses ∧ ∃ r ∈ t.dev.fatal, r.mod = true ∧ r.cause = 0x0065 ∧ r.val = BitVec.ofNat 64 port ∧
        r.aux.getLsbD 63 = s.dev.timeLost ∧ r.aux.extractLsb' 0 63 = BitVec.ofNat 63 (tget s.dev.lastSent port)) ∧
    (o.window + 1 < w → (port, s.windowNow) ∈ s.dev.misses → t.dev.fatal = s.dev.fatal) := by
  refine ⟨_, exec_ack ho hport hacked hlost hwords, ?_⟩
  by_cases h : o.window + 1 < w ∧ (port, s.windowNow) ∉ s.dev.misses
  · rw [if_pos h]
    obtain ⟨dram, fatal, seq, ovf, heq, hposted⟩ := (s.acked unit).missRecord_spec port
    rw [State.missed, heq]
    exact ⟨rfl, rfl, rfl, fun hle => absurd h.1 (Nat.not_lt.mpr hle), fun _ _ hroom => ⟨List.mem_cons_self, hposted hroom⟩,
      fun _ hin => absurd hin h.2⟩
  · rw [if_neg h]
    exact ⟨rfl, rfl, rfl, fun _ => rfl, fun hlt hnot => absurd ⟨hlt, hnot⟩ h, fun _ _ => rfl⟩

end

end

end Sys2Proof.Machine
end

section
/-! O53: the time base, units from other devices, landings, and the claims together (R146 to R148, R418 to R420). -/

namespace Sys2Proof.Machine

open Sys2Proof.Claims

/-- WINDOW_LENGTH_SET (R146). -/
theorem exec_windowLengthSet_claim (s : State) (us n : Nat) :
    (us = 0 ∨ 16 < us ∨ n ≤ s.windowNow → exec (.windowLengthSet us n) s = .next s) ∧
    (1 ≤ us → us ≤ 16 → s.windowNow < n →
      exec (.windowLengthSet us n) s = .next (s.onDev (fun d => { d with windowNext := some (us, n) }))) := by
  rw [exec_windowLengthSet, execWindowLengthSet]
  refine ⟨fun h => if_pos ?_, fun h1 h2 h3 => if_neg ?_⟩
  · simpa only [Bool.or_eq_true, decide_eq_true_eq, or_assoc] using h
  · simp only [Bool.or_eq_true, decide_eq_true_eq]
    omega

/-- TIME_BASE_LOSS (R419). -/
theorem exec_timeBaseLoss_claim (s : State) :
    (s.dev.timeLost = true → exec .timeBaseLoss s = .next s) ∧
    (s.dev.timeLost = false → (s.dev.fatal.filter (fun r => r.mod)).length < 64 → ∃ t, exec .timeBaseLoss s = .next t ∧
      t.strands = s.strands ∧ t.mem = s.mem ∧ t.dev.timeLost = true ∧
      ∃ r ∈ t.dev.fatal, r.mod = true ∧ r.cause = 0x0065 ∧ r.aux.getLsbD 63 = true) := by
  rw [exec_timeBaseLoss, execTimeBaseLoss]
  refine ⟨fun h => if_pos h, fun h hroom => ⟨_, if_neg (Bool.eq_false_iff.mp h), ?_⟩⟩
  obtain ⟨dram, fatal, seq, ovf, heq, hposted⟩ := State.missRecord_spec (({ s with free := s.free + 1 } : State).onDev
    (fun d => { d with timeLost := true })) (Config.lossPort s.free % 24)
  obtain ⟨r, hr, hmod, hcause, -, hlost, -⟩ := hposted hroom
  rw [heq]
  exact ⟨rfl, rfl, rfl, r, hr, hmod, hcause, hlost⟩

/-- REMOTE_WRITE_ARRIVAL (R148, R420). -/
theorem exec_remoteWriteArrival_claim (s : State) (u : RemoteUnit) (hstopped : s.dev.stopped = false) (hpowered : s.dev.powered = true) :
    ((u.dev, u.unit) ∈ s.dev.performed → exec (.remoteWriteArrival u) s = .next s) ∧
    ((u.dev, u.unit) ∉ s.dev.performed → paExists u.kind u.addr u.data.length = true → u.add = 0 →
      ∃ t, exec (.remoteWriteArrival u) s = .next t ∧ t.strands = s.strands ∧ t.clusters = s.clusters ∧
        (u.dev, u.unit) ∈ t.dev.performed ∧ (∀ i, i < u.data.length → cget t.mem (memKey u.kind u.addr + i) = u.data.getD i 0) ∧
        ∀ k, ¬(memKey u.kind u.addr ≤ k ∧ k < memKey u.kind u.addr + u.data.length) → cget t.mem k = cget s.mem k) := by
  have hguard : (s.dev.performed.contains (u.dev, u.unit) || s.dev.stopped || !s.dev.powered) =
      decide ((u.dev, u.unit) ∈ s.dev.performed) := by
    rw [hstopped, hpowered, Bool.not_true, Bool.or_false, Bool.or_false, List.contains_eq_mem]
  rw [exec_remoteWriteArrival, execRemoteWriteArrival, hguard]
  refine ⟨fun h => if_pos (decide_eq_true h), fun h hexists hadd => ?_⟩
  refine ⟨(s.writeMem u.kind u.addr u.data).onDev (fun d => { d with performed := (u.dev, u.unit) :: d.performed }), ?_, rfl, rfl,
    List.mem_cons_self, fun i hi => ?_, fun k hk => ?_⟩
  · simp only [h, hexists, hadd, decide_false, Bool.not_true, Bool.false_eq_true, if_false, if_true]
  · exact (s.writeMem_byte u.kind u.addr u.data _).trans (by rw [if_pos (by omega), Nat.add_sub_cancel_left])
  · exact (s.writeMem_byte u.kind u.addr u.data k).trans (if_neg hk)

/-! Landings (R418). -/

/-- A plan that names a landing which has failed. -/
def brokenBy (n : Nat) (x : Plan) : Plan := if x.segs.any (fun g => g.ld = n) then { x with broken := n :: x.broken } else x

/-- The landing is failed, and so are the plans that name it. -/
def State.landingLost (s : State) (n : Nat) : State :=
  { s.onDev (fun d => { d with failed := n :: d.failed }) with
    parts := tmap s.parts (fun _ p => { p with plans := tmap p.plans (fun _ x => brokenBy n x) }) }

/-- The record of a landing that has failed. -/
def State.landingRecord (s : State) (n : Nat) : Record :=
  { mod := true, cause := 0x0064, val := BitVec.ofNat 64 n, slt := 7, time := BitVec.ofNat 64 s.now }

theorem State.landingLost_broken {s : State} {n part k : Nat} {p : Partition} {x : Plan} (hp : tfind s.parts part = some p)
    (hx : tfind p.plans k = some x) (hseg : ∃ g ∈ x.segs, g.ld = n) : n ∈ (tget (tget (s.landingLost n).parts part).plans k).broken := by
  have hpart : tget (s.landingLost n).parts part = { p with plans := tmap p.plans (fun _ x => brokenBy n x) } := by
    refine tget_of_tfind ?_
    rw [State.landingLost, tfind_tmap, hp]
    rfl
  have hplan : tget (tmap p.plans (fun _ x => brokenBy n x)) k = brokenBy n x := by
    refine tget_of_tfind ?_
    rw [tfind_tmap, hx]
    rfl
  have hany : x.segs.any (fun g => decide (g.ld = n)) = true := by simpa using hseg
  rw [hpart, hplan, brokenBy, if_pos hany]
  exact List.mem_cons_self

theorem exec_landingFailed_claim (s : State) (n : Nat) (hn : n < 16) :
    (n ∈ s.dev.failed → exec (.landingFailed n) s = .next s) ∧
    (n ∉ s.dev.failed → (s.dev.fatal.filter (fun r => r.mod)).length < 64 → ∃ t, exec (.landingFailed n) s = .next t ∧ t.strands = s.strands ∧
      t.mem = s.mem ∧ (∀ m, m ∈ t.dev.failed ↔ m = n ∨ m ∈ s.dev.failed) ∧
      (∀ part p k x, tfind s.parts part = some p → tfind p.plans k = some x → (∃ g ∈ x.segs, g.ld = n) →
        n ∈ (tget (tget t.parts part).plans k).broken) ∧
      ∃ r ∈ t.dev.fatal, r.mod = true ∧ r.cause = 0x0064 ∧ r.val = BitVec.ofNat 64 n) := by
  have hguard : (decide (16 ≤ n) || s.dev.failed.contains n) = decide (n ∈ s.dev.failed) := by
    rw [decide_eq_false (Nat.not_le.mpr hn), Bool.false_or, List.contains_eq_mem]
  rw [exec_landingFailed, execLandingFailed, hguard]
  refine ⟨fun h => if_pos (decide_eq_true h), fun h hroom => ?_⟩
  obtain ⟨dram, fatal, seq, ovf, heq, hposted⟩ := (s.landingLost n).postFatal_mod_eq (r := s.landingRecord n) rfl
  refine ⟨(s.landingLost n).postFatal (s.landingRecord n), if_neg (by rw [decide_eq_true_iff]; exact h), ?_⟩
  rw [heq]
  obtain ⟨r, hr, hmod, hcause, hval, -⟩ := hposted hroom
  exact ⟨rfl, rfl, fun m => List.mem_cons, fun part p k x hp hx hseg => State.landingLost_broken hp hx hseg, r, hr, hmod, hcause, hval⟩

theorem exec_landingRetrain_claim (s : State) (n : Nat) : ∃ t, exec (.landingRetrain n) s = .next t ∧ t.strands = s.strands ∧
    t.parts = s.parts ∧ ∀ m, m ∈ t.dev.failed ↔ m ∈ s.dev.failed ∧ m ≠ n :=
  ⟨_, rfl, rfl, rfl, fun _ => List.mem_filter.trans (and_congr_right' decide_eq_true_iff)⟩

/-- Settles O53: a window starts with the new W and the loss of overdue units, followed over all units on their way; an acknowledgement
forgets the units that are done with; each other event is one equation. -/
theorem fabricEvents : Obligations.FabricEvents := by
  unfold Obligations.FabricEvents
  refine ⟨exec_windowLengthSet_claim, fun s hw => ⟨rfl, exec_fabricWindowBoundary_claim hw⟩, fun s port unit w o ho =>
    ⟨exec_ack_ignored ho, fun hport hacked hlost hwords => ?_⟩, fun s unit o c => exec_fabricUnitLost_claim, fun s => ?_,
    exec_remoteWriteArrival_claim, fun s n hn => ?_⟩
  · obtain ⟨t, hexec, hstrands, hmem, houts, hfatal⟩ := exec_ack_claim (w := w) ho hport hacked hlost hwords
    refine ⟨t, hexec, hstrands, hmem, ?_, hfatal⟩
    rw [houts]
    exact ⟨(acknowledge_self ho).1, (acknowledge_self ho).2, fun u hu => acknowledge_other ho hu⟩
  · obtain ⟨hlost, hloses⟩ := exec_timeBaseLoss_claim s
    exact ⟨hlost, hloses, rfl⟩
  · obtain ⟨hfailed, hfails⟩ := exec_landingFailed_claim s n hn
    exact ⟨hfailed, hfails, exec_landingRetrain_claim s n⟩

end Sys2Proof.Machine
end
